-- ==== Sys2Proof/Word.lean ====
section
/-! DEFINITION. Word types of the AQ-716 model and nothing else: every helper that reads or builds a word
stands in Machine/Operands.lean. -/

namespace Sys2Proof

abbrev Byte := BitVec 8
abbrev W16 := BitVec 16
abbrev W32 := BitVec 32
abbrev W64 := BitVec 64

end Sys2Proof
end

