-- ==== Sys2Proof/Syntax.lean ====
section
/-! DEFINITION. The commands of the AQ-716: one constructor of `Instr` per row of spec/opcode_table.json, with the
types of their operands. -/

namespace Sys2Proof

/-- Who reaches a bus register: master B outside a session, master B in a Keeper session frame (R295), a queue with Keeper authority
(R348, R350), the management firmware M (R331), or the host through BAR0, whose registers are those of Table 4-2 by offset (R89). -/
inductive Actor where
  | bus | keeper | queue | mgmt | host
deriving DecidableEq, Repr

/-- Who reaches a Stall's control block: BAR2 as Q0 (R91), the Stall's own code (R223), a Porter of another
Stall (R193), or M. -/
inductive CbMaster where
  | bar2 | own | porter (k : Fin 64) | mgmt
deriving DecidableEq, Repr

/-- An SGL descriptor: address, length, and its last byte, type and subtype (R94). -/
structure Sgl where
  addr : W64
  len  : W32
  id   : Byte
deriving DecidableEq, Repr

/-- A submission queue entry (R350: its 64 bytes are 16 dwords) with the contents of the host buffers it points
at, and the SGL descriptors of the segments it points at; host memory itself lies outside the card. -/
structure Submission where
  dw   : Vector W32 16
  buf  : List Byte
  md   : List Byte
  sgl  : List Sgl
deriving DecidableEq, Repr

/-- A request frame of the management bus (Table 10-2; with `sync` = true Table 16-4, whose REG and CRC are the
low 8 bits). -/
structure Frame where
  sync : Bool
  dest : Byte
  cmd  : Byte
  reg  : W16
  data : W32
  mac  : W32
  crc  : W16
deriving DecidableEq, Repr

/-- A block of NAND: die c.t as c × 4 + t, plane, block (R116). -/
structure Place where
  die   : Fin 64
  plane : Fin 4
  block : Fin 2800
deriving DecidableEq, Repr

/-- A firmware image the ROM finds in a bank: RELEASE and ROLLBACK of Table 12-12, and its SHA-256 (R356). -/
structure FwHeader where
  release  : W16
  rollback : W64
  hash     : List Byte
deriving DecidableEq, Repr

/-- One filtered change of the quadrature inputs (R36): a step in the encoder's forward phase order, a step in
its reverse order, or both lines at once. -/
inductive QuadStep where
  | forward | reverse | both
deriving DecidableEq, Repr

/-- The differential input pairs of the Beacon (Table 2-1). -/
inductive BcnPair where
  | a | b | z | ck
deriving DecidableEq, Repr

/-- The sensors of Table 14-9. -/
inductive Sensor where
  | ctrl | nand (k : Fin 8) | dram | holdup
deriving DecidableEq, Repr

/-- The clocks of Table 13-9. -/
inductive Clock where
  | main | aux | refclk
deriving DecidableEq, Repr

/-- The lockstep pairs of cores: the four of the flash translation cores, and that of the management cores (Table 13-4). -/
inductive CorePair where
  | translation (pair : Fin 4)
  | management
deriving DecidableEq, Repr

/-- What an uncorrectable word or a CRC mismatch hit (Table 13-9): nothing that is in use, the data of a command not yet
completed, Held data already completed, a Lot byte that a Stall reads from staging SRAM (R243), or the map cache or the firmware
area. -/
inductive Hit where
  | unused
  | command (h : Nat)
  | held (nsid lba : Nat)
  | lot (n : Fin 64)
  | core
deriving DecidableEq, Repr

/-- What detects a fault of Table 13-9 that no other command stands for: the comparators of LOCKSTEP, SEQ_CHECK, CHECK_MISMATCH,
AUX_CHECK and HW_ERROR; SECDED in the memories of a frame; the CRC checks of E2E_CRC, where `again` says that the read which the card
retries fails again; and DRAM training. -/
inductive Comparator where
  | cores (p : CorePair)
  | romSequencer | checker | beaconAux | samplerAux
  | unit (frame : Fin 64)
  | eccCorr (frame : Fin 64)
  | eccUncorr (frame : Fin 64) (hit : Hit)
  | e2eCrc (frame : Fin 64) (hit : Hit) (again : Bool)
  | training
deriving DecidableEq, Repr

/-- How an operation of the ROM sequencer ends (R319 to R321): well; with a program of `done` whole bytes whose next line fails its
read-back; or with an erase that fails its verify. -/
inductive RomEnd where
  | ok
  | programFails (done : Nat)
  | eraseFails
deriving DecidableEq, Repr

/-- A sensor's value in 1/16 °C, and whether the sensor is stuck (R386). -/
structure Reading where
  value : Int
  stuck : Bool
deriving DecidableEq, Repr

/-- What the erases of start-up step 5 find: the zero bits of pages 0 and 511 of each block in the order of the intent records
(R178), and the sectors of harbour flash whose erase fails its verify (R179, R321). -/
structure HalfErases where
  zeros : List (Nat × Nat)
  fails : List Nat
deriving DecidableEq, Repr

/-- The operand fields of the six instruction formats of Table 8-3. -/
structure RFmt where
  g : BitVec 4
  d : BitVec 4
  a : BitVec 4
  b : BitVec 4
  fn : BitVec 10
deriving DecidableEq, Repr

structure IFmt where
  g : BitVec 4
  d : BitVec 4
  a : BitVec 4
  imm : BitVec 14
deriving DecidableEq, Repr

structure WFmt where
  g : BitVec 4
  d : BitVec 4
  lane : BitVec 2
  imm : BitVec 16
deriving DecidableEq, Repr

structure XFmt where
  g : BitVec 4
  d : BitVec 4
  off : BitVec 7
  wid : BitVec 2
  s : BitVec 1
  be : BitVec 1
  z : BitVec 7
deriving DecidableEq, Repr

structure BFmt where
  g : BitVec 4
  z : BitVec 8
  off : BitVec 14
deriving DecidableEq, Repr

structure LFmt where
  stop : BitVec 14
  cnt : BitVec 12
deriving DecidableEq, Repr

/-- The six FLIP registers of Table 7-4. -/
inductive FlipReg where
  | lmLo | lmHi | lmEcc | pmLo | pmHi | pmEcc
deriving DecidableEq, Repr

/-- The commands: those with operands in the order of spec/opcode_table.json, then those without, in the same order (Lean's
runtime numbers at most 244 constructors that have fields). -/
inductive Instr where
  | auxPowerUp (compatLow : Bool)
  | activeBankVerified (readsA readsB : Bool)
  | halfEraseRecovery (found : HalfErases)
  | rebuild (ckptOk heldMapOk : Bool) (torn : List (Nat × Nat))
  | controllerEnable (ams : BitVec 3) (aqa : W32) (asq acq : W64)
  | shutdownNotification (shn : BitVec 2)
  | bankCutoff (programmed : Nat)
  | capFail (n : Fin 6)
  | chargeMeasurement (startMv iMa dtUs stepMv : Nat)
  | holdupMeasure (a : Actor) (v : W32)
  | measurementComplete (tUs dvMv esrUohm vchgMv : Nat)
  | doorbellWrite (head : Bool) (y : Byte) (value : W32) (entries : List Submission)
  | rangeLockGrant (h : Nat)
  | createIoSq (h : Nat)
  | deleteIoSq (h : Nat)
  | createIoCq (h : Nat)
  | deleteIoCq (h : Nat)
  | getLogPage (h : Nat)
  | identify (h : Nat)
  | abort (h : Nat)
  | setFeaturesArbitration (h : Nat)
  | setFeaturesPowerManagement (h : Nat)
  | setFeaturesTemperatureThreshold (h : Nat)
  | setFeaturesErrorRecovery (h : Nat)
  | setFeaturesVolatileWriteCache (h : Nat)
  | setFeaturesNumberOfQueues (h : Nat)
  | setFeaturesInterruptCoalescing (h : Nat)
  | setFeaturesInterruptVectorConfig (h : Nat)
  | setFeaturesWriteAtomicity (h : Nat)
  | setFeaturesAsyncEventConfig (h : Nat)
  | getFeatures (h : Nat)
  | asynchronousEventRequest (h : Nat)
  | namespaceCreate (h : Nat)
  | namespaceDelete (h : Nat)
  | namespaceAttachment (h : Nat)
  | firmwareImageDownload (h : Nat)
  | firmwareCommitReplace (h : Nat)
  | firmwareCommitReplaceActivate (h : Nat)
  | firmwareCommitActivate (h : Nat)
  | formatNvm (h : Nat)
  | sanitizeBlockErase (h : Nat)
  | sanitizeCryptoErase (h : Nat)
  | deviceSelfTest (h : Nat)
  | stallLoad (h : Nat)
  | stallStop (h : Nat)
  | stallRun (h : Nat)
  | stallRestart (h : Nat) (bad : List (Fin 64))
  | stallClearSlow (h : Nat)
  | stallPowerOff (h : Nat)
  | stallPowerOn (h : Nat) (bad : List (Fin 64))
  | pipelineSet (h : Nat)
  | pipelineStart (h : Nat)
  | pipelineStop (h : Nat)
  | pipelineDelete (h : Nat)
  | pipelineIndex (h : Nat)
  | tallyRead (h : Nat)
  | keeperHello (h : Nat)
  | keeperProve (h : Nat)
  | keeperClose (h : Nat)
  | keeperArm (h : Nat)
  | keeperRegister (h : Nat)
  | keeperCommitRules (h : Nat)
  | attest (h : Nat)
  | harbourMailbox (h : Nat)
  | read (h : Nat)
  | write (h : Nat)
  | compare (h : Nat)
  | verify (h : Nat)
  | writeZeroes (h : Nat)
  | datasetManagement (h : Nat)
  | flush (h : Nat)
  | recordAppend (h : Nat)
  | arcQuery (h : Nat)
  | fetchResult (h : Nat)
  | releaseResult (h : Nat)
  | cycleCommit (h : Nat)
  | indexLookup (h : Nat)
  | flushCompletion (h : Nat)
  | heldProgramTrigger
  | oneBitProgramComplete (id : Nat) (die : Fin 64) (row : Nat) (timeUs : Nat) (fails : List (Fin 4))
  | verifyReadComplete (sb : Nat) (fails : List Place)
  | nandEraseComplete (place : Place) (tlc ok : Bool)
  | dieStatusTimeout (die : Fin 64)
  | mediaReadComplete (place : Place) (slot : Nat × Nat) (dec : Nat) (ok : Bool) (around : Option (Nat × Nat))
  | readDisturbRefresh (place : Place)
  | foldStart (grp : Fin 2)
  | gcStart (grp : Fin 2)
  | copyComplete (nsid lba : Nat) (src : Place) (die : Fin 64) (timeUs : Nat) (ok : Bool)
  | patrolRead (place : Place) (page : Nat) (dec : Nat) (weak : Bool) (shiftMv days : Nat)
  | mapPageFill (nsid page : Nat)
  | mapJournalProgram
  | scanCheckpoint
  | countChange (at_ : Nat) (step : QuadStep)
  | indexEvent (at_ : Nat)
  | ssiFrameStart (at_ : Nat)
  | ssiWord (at_ : Nat) (word : W32) (check : BitVec 6)
  | internalCount (at_ : Nat)
  | extrapolationStop (at_ : Nat)
  | line (pair : BcnPair)
  | recordHeaderLands (at_ : Nat) (h : Nat)
  | commitMarkDurable (late : Bool)
  | bcnFeed (at_ : Nat) (a : Actor) (v : W32)
  | resume (a : Actor)
  | zeroNow (a : Actor)
  | zeroArm (a : Actor)
  | bcnConfigWrite (a : Actor) (cpc : Bool) (v : W32)
  | bcnIntRateWrite (a : Actor) (v : W32)
  | arcRegisterWrite (a : Actor) (reg : W16) (v : W32)
  | bcnCommitCtlWrite (a : Actor) (v : W32)
  | bcnStampLoRead (at_ : Nat) (a : Actor)
  | lotCloseIdle (nsid : Nat)
  | lotIssue (lot : Nat)
  | recordStageStart (n : Fin 64)
  | lotEnd (n : Fin 64)
  | lotRetire (lot : Nat)
  | slow (n : Fin 64)
  | budget (n : Fin 64)
  | handlerClaim (n : Fin 64)
  | unitCallComplete (n : Fin 64) (hwError : Bool)
  | porterMoveComplete (n : Fin 64) (id : Nat)
  | queryStart (pipe : Fin 32)
  | mailboxInWrite (n : Fin 64) (m : CbMaster) (v : W32)
  | maskSet (n : Fin 64) (m : CbMaster) (v : W32)
  | maskClr (n : Fin 64) (m : CbMaster) (v : W32)
  | pendSet (n : Fin 64) (m : CbMaster) (v : W32)
  | pendClr (n : Fin 64) (m : CbMaster) (v : W32)
  | disableWrite (n : Fin 64) (m : CbMaster) (v : W32)
  | faultForce (n : Fin 64) (m : CbMaster) (v : W32)
  | flipMaskWrite (n : Fin 64) (m : CbMaster) (r : FlipReg) (v : W32)
  | bar2Write (off : Nat) (bytes : List Byte)
  | bar2Read (off len : Nat)
  | alu (n : Fin 64) (f : RFmt)
  | addi (n : Fin 64) (f : IFmt)
  | andi (n : Fin 64) (f : IFmt)
  | ori (n : Fin 64) (f : IFmt)
  | xori (n : Fin 64) (f : IFmt)
  | shi (n : Fin 64) (f : IFmt)
  | movz (n : Fin 64) (f : WFmt)
  | movk (n : Fin 64) (f : WFmt)
  | ext (n : Fin 64) (f : IFmt)
  | ins (n : Fin 64) (f : IFmt)
  | sel (n : Fin 64) (f : RFmt)
  | cmp (n : Fin 64) (f : RFmt)
  | cmpi (n : Fin 64) (f : IFmt)
  | pset (n : Fin 64) (f : RFmt)
  | tstb (n : Fin 64) (f : IFmt)
  | xf (n : Fin 64) (f : XFmt)
  | xfr (n : Fin 64) (f : IFmt)
  | wadv (n : Fin 64) (f : IFmt)
  | wseek (n : Fin 64) (f : RFmt)
  | wpos (n : Fin 64) (f : RFmt)
  | rhdr (n : Fin 64) (f : RFmt)
  | wst (n : Fin 64) (f : IFmt)
  | loopc (n : Fin 64) (f : LFmt)
  | ld (n : Fin 64) (f : IFmt)
  | lds (n : Fin 64) (f : IFmt)
  | st (n : Fin 64) (f : IFmt)
  | b (n : Fin 64) (f : BFmt)
  | loop (n : Fin 64) (f : LFmt)
  | loopr (n : Fin 64) (f : LFmt)
  | call (n : Fin 64) (f : BFmt)
  | ret (n : Fin 64) (f : BFmt)
  | keep (n : Fin 64) (f : BFmt)
  | drop (n : Fin 64) (f : BFmt)
  | done (n : Fin 64) (f : BFmt)
  | iret (n : Fin 64) (f : BFmt)
  | irqsrc (n : Fin 64) (f : RFmt)
  | crcw (n : Fin 64) (f : RFmt)
  | crcm (n : Fin 64) (f : IFmt)
  | ucall (n : Fin 64) (f : RFmt)
  | tally (n : Fin 64) (f : RFmt)
  | bcn (n : Fin 64) (f : RFmt)
  | arct (n : Fin 64) (f : IFmt)
  | emitr (n : Fin 64) (f : RFmt)
  | emitm (n : Fin 64) (f : RFmt)
  | pmov (n : Fin 64) (f : RFmt)
  | yield (n : Fin 64) (f : BFmt)
  | barrier (n : Fin 64) (f : BFmt)
  | fault (n : Fin 64) (f : BFmt)
  | mbox (n : Fin 64) (f : RFmt)
  | busRead (f : Frame) (lost : Option Nat)
  | busWrite (f : Frame) (lost : Option Nat)
  | poll (f : Frame) (lost : Option Nat)
  | moor (f : Frame) (others : List W64)
  | moorResume (f : Frame)
  | moorCheck (f : Frame) (others : List W64)
  | unmoor (f : Frame) (lost : Option Nat)
  | alertWho (f : Frame) (others : List Byte)
  | beaconZero (f : Frame)
  | token (f : Frame)
  | wake (f : Frame) (lost : Option Nat)
  | sessionTimeout (nvme : Bool)
  | helloRefusalExpiry (nvme : Bool)
  | kxHello (a : Actor)
  | kxSignature (a : Actor)
  | kxProve (a : Actor)
  | kxClose (a : Actor)
  | persistentWrite (a : Actor) (n : Fin 256) (v : W32)
  | harbourOpComplete (result : RomEnd)
  | hbRead (a : Actor) (v : W32)
  | hbProgram (a : Actor) (v : W32)
  | hbErase (a : Actor) (v : W32)
  | hbBlankCheck (a : Actor) (v : W32)
  | hbOtpRead (a : Actor) (v : W32)
  | hbOtpProgram (a : Actor) (v : W32)
  | hbReboot (a : Actor) (v : W32)
  | ruleEpochWrite (a : Actor) (v : W32)
  | ruleSave (a : Actor) (v : W32)
  | evtStatusRead (a : Actor) (k : Fin 16)
  | pulseAck (a : Actor) (k : Fin 16)
  | evtRouteWrite (a : Actor) (v : W32)
  | msixMaskWrite (vector : Option Byte) (masked : Bool)
  | violKindClear (a : Actor)
  | pwrCmdWrite (a : Actor) (v : W32)
  | stallVsetWrite (a : Actor) (v : W32)
  | stallFsetWrite (a : Actor) (v : W32)
  | faultForceMirror (a : Actor) (f : Fin 64) (v : W32)
  | registerWrite (a : Actor) (reg : W16) (v : W32)
  | watchdogExpiry (p : CorePair)
  | lockstepMismatch (c : Comparator)
  | watchSample (ctrl : Reading) (nand : Vector Reading 8) (dram holdup : Reading) (bankMv : Nat)
  | sensorUpdate (sensor : Sensor) (value : Int) (stuck : Bool)
  | writeHoldTimeout (h : Nat)
  | shutdownSample (ctrl : Reading) (nand : Vector Reading 8) (dram holdup : Reading)
  | siliconDelayMeasure (delta : Nat)
  | clockLoss (c : Clock)
  | busIdleDetect (truncated : Bool)
  | coalescingTimeExpiry (y : Byte)
  | deliveryErr (vector : Byte)
  | mainRailUp
  | auxRailFail
  | staggerDelayExpiry
  | rebuildDone
  | perstAssert
  | linkDown
  | perstRelease
  | controllerReset
  | functionLevelReset
  | powerLossDetect
  | flushCompleteRecord
  | railReturnDuringFlush
  | detectRearm
  | lossDetArm
  | lossDet
  | earlyFlushEnd
  | dischargeMeasurementDue
  | budgetFlushDone
  | bankReachesVb
  | commandFetch
  | heldAdmit
  | writeIdleTimeout
  | stillEntry
  | sequenceReservation
  | opTransitionEnd
  | tokenLapse
  | journalInterval
  | fatalFlushDone
  | watchEntry
  | watchExit
  | watchTimerExpiry
  | throttleGraceExpiry
  | enforcementSecond
  | lifeRecompute
  | auxDomainReset
  | mainRailRemovalInWatch
  | bankCharged
  | indexRebuildDone
deriving DecidableEq, Repr

end Sys2Proof
end

