-- ==== Sys2Proof/Decode.lean ====
section
/-! DEFINITION. The command that a word spells by the bits of spec/opcode_table.json. No row of this hardware's table gives
bits (the spec's rows are commands of a block, with operands and without encodings), so no word spells a command. -/

namespace Sys2Proof

/-- The command of a word of `nbits` bits, for the rows of the table that give bits: none does. -/
def decodeTableWord (_nbits _w : Nat) : Option Instr := none

end Sys2Proof
end

