-- ==== Sys2Proof/Config.lean ====
section
/-! DEFINITION. What the spec leaves open: each constant here is opaque, so nothing in Lean can see a value of
it (notes/assumptions/3.md, 13.md). The Nat argument is the counter `fresh` of State, so that each use is a new
value. -/

namespace Sys2Proof.Config

/-- Bytes of the card's random source (nonces, secrets, keys), R346, R87: use `k`, byte index `i`. -/
opaque random : Nat → Nat → Byte

/-- Byte `i` of the OTP root key (Table 12-11), burnt in at manufacture. -/
opaque rootKey : Nat → Byte

/-- A byte whose value the spec calls undefined (R237, R240, R319): use `k`, byte index `i`. -/
opaque freeByte : Nat → Nat → Byte

/-- What SECDED does with a codeword in which three or more of its 72 bits are flipped (R200 sets the flips;
SECDED is defined for one and two): true = reported uncorrectable, false = taken as corrected. -/
opaque secdedMany : BitVec 72 → Bool

/-- The data SECDED returns for a codeword with three or more flipped bits that it takes as corrected. -/
opaque secdedData : BitVec 72 → W64 → W64

/-- The device key's private exponent, 384 bytes, as the system records of harbour flash hold it: wrapped under the OTP root key
(Table 12-11). -/
opaque deviceKey : List Byte

/-- The 384-byte device key modulus (R356). -/
opaque deviceModulus : List Byte

/-- The DER certificate of the device key (R356). -/
opaque deviceCertificate : List Byte

/-- What a Zstandard unit chooses to write for an input at a level (R240 fixes the format, not the bytes); Machine/Codec.lean
takes it only where it is a frame of the input. -/
opaque zstdCompress : Nat → List Byte → List Byte

/-- What a deflate unit chooses to write for an input at a level (R240); Machine/Codec.lean takes it only where it is a stream
of the input. -/
opaque deflateCompress : Nat → List Byte → List Byte

/-- SHA-256 of the Olutum modulus burnt into ROM (R353). -/
opaque romKeyHash : List Byte

/-- Identify data that the spec does not give (serial padding, IEEE id and the like, R94): byte at an offset. -/
opaque identifyByte : Nat → Nat → Byte

/-- Fields of NVMe log pages that NVMe defines and the spec does not (R114): page, offset. -/
opaque logByte : Nat → Nat → Byte

/-- The part of the position a stamp interpolates in Internal mode before the first generated count, and other
fractions the spec does not fix (R34): use `k`. -/
opaque freeFraction : Nat → Byte

/-- ID_HWREV of the card (Table 11-2): the spec gives no value. -/
opaque hwRev : BitVec 16

/-- Entries of the journal that a power loss finds not yet programmed, of those younger than 100 ms (R365): use `k`. -/
opaque lostEntries : Nat → Nat

/-- Bytes of the firmware images that a card carries at shipment: byte at an offset of harbour flash
(notes/assumptions/9.md). -/
opaque factoryFlash : Nat → Byte

/-- SHA-256 of the image that both banks carry at shipment (R356; notes/assumptions/9.md). -/
opaque factoryHash : List Byte

/-- Cycles that a Stall waits for a credit, a unit or its Porters (R190): the spec bounds none of them: use `k`. -/
opaque waitCycles : Nat → Nat

/-- A voltage that the spec bounds and does not give (R161, R163, R164): use `k`. -/
opaque freeVoltage : Nat → Nat

/-- DETAIL of a FATAL journal record for a frame and a bit, whose packing the spec does not give (Table 13-6). -/
opaque fatalDetail : Nat → Nat → Nat

end Sys2Proof.Config
end

