-- ==== Sys2Proof/Machine/Operands.lean ====
section
/-! DEFINITION. Operand helpers: bit fields of words, byte orders of R70, R204, R297 and R346, the keyed lists that hold
sparse state, and the check codes that several chapters share. -/

namespace Sys2Proof.Machine

/-- Bits [hi:lo] of a word as a number. -/
def fld {n : Nat} (w : BitVec n) (hi lo : Nat) : Nat := (w.toNat >>> lo) % 2 ^ (hi + 1 - lo)

/-- Bit i of a word. -/
def bit {n : Nat} (w : BitVec n) (i : Nat) : Bool := w.getLsbD i

/-- A word with one bit set or cleared. -/
def putBit {n : Nat} (w : BitVec n) (i : Nat) (v : Bool) : BitVec n :=
  if v then w ||| BitVec.ofNat n (2 ^ i) else w &&& ~~~ BitVec.ofNat n (2 ^ i)

/-- A word with bits [hi:lo] replaced. -/
def putFld {n : Nat} (w : BitVec n) (hi lo v : Nat) : BitVec n :=
  (w &&& ~~~ BitVec.ofNat n ((2 ^ (hi + 1 - lo) - 1) <<< lo)) ||| BitVec.ofNat n ((v % 2 ^ (hi + 1 - lo)) <<< lo)

def w32 (v : Nat) : W32 := BitVec.ofNat 32 v
def w64 (v : Nat) : W64 := BitVec.ofNat 64 v
def b8 (v : Nat) : Byte := BitVec.ofNat 8 v

/-- A Boolean as a bit. -/
def b2n (b : Bool) : Nat := if b then 1 else 0

/-- The bits of a Boolean list, element 0 as bit 0. -/
def ofBits : List Bool → Nat
  | [] => 0
  | b :: bs => b2n b + 2 * ofBits bs

/-- The numbers of the bits set below n. -/
def setBits (n v : Nat) : List Nat := (List.range n).filter fun i => Nat.testBit v i

/-- How many of the low n bits are set. -/
def popcount (n v : Nat) : Nat := (setBits n v).length

/-- A saturating 32-bit counter, R44 and R302. -/
def satInc (v : W32) : W32 := if v = 0xFFFFFFFF#32 then v else v + 1

/-- k bytes of a number, least significant first (little-endian fields: R70, R204). -/
def leBytes : Nat → Nat → List Byte
  | 0, _ => []
  | k + 1, v => b8 v :: leBytes k (v >>> 8)

/-- k bytes of a number, most significant first (R297, R346). -/
def beBytes (k v : Nat) : List Byte := (leBytes k v).reverse

/-- The number that bytes spell, least significant first. -/
def ofLe : List Byte → Nat
  | [] => 0
  | b :: bs => b.toNat + 256 * ofLe bs

/-- The number that bytes spell, most significant first. -/
def ofBe (bs : List Byte) : Nat := ofLe bs.reverse

/-- k bytes at an offset; bytes past the end read zero. -/
def slice (bs : List Byte) (off k : Nat) : List Byte :=
  let part := (bs.drop off).take k
  part ++ List.replicate (k - part.length) 0

/-- Little-endian fields at an offset. -/
def u8At (bs : List Byte) (off : Nat) : Nat := ofLe (slice bs off 1)
def u16At (bs : List Byte) (off : Nat) : Nat := ofLe (slice bs off 2)
def u32At (bs : List Byte) (off : Nat) : Nat := ofLe (slice bs off 4)
def u64At (bs : List Byte) (off : Nat) : Nat := ofLe (slice bs off 8)

/-- The least of some numbers. -/
def minOf : List Nat → Option Nat
  | [] => none
  | x :: xs => some (xs.foldl min x)

/-- Bytes with those from an offset replaced; the length is kept. -/
def patch (bs : List Byte) (off : Nat) (new : List Byte) : List Byte :=
  (bs.take off ++ new ++ bs.drop (off + new.length)).take bs.length

/-- Cut bytes into chunks of k, at most n of them. -/
def chunks (k : Nat) : Nat → List Byte → List (List Byte)
  | 0, _ => []
  | _ + 1, [] => []
  | n + 1, bs => bs.take k :: chunks k n (bs.drop k)

/-- A sparse map as a list of keys and values in rising key order. -/
abbrev AMap (α : Type) := List (Nat × α)

/-- The value under a key. -/
def look {α : Type} : AMap α → Nat → Option α
  | [], _ => none
  | (k, v) :: m, i => if k = i then some v else look m i

/-- Store a value under a key, keeping the keys in rising order. -/
def put {α : Type} : AMap α → Nat → α → AMap α
  | [], i, x => [(i, x)]
  | (k, v) :: m, i, x =>
    if i < k then (i, x) :: (k, v) :: m
    else if i = k then (i, x) :: m
    else (k, v) :: put m i x

/-- Remove a key. -/
def del {α : Type} (m : AMap α) (i : Nat) : AMap α := m.filter fun p => !(p.1 == i)

/-- Change the value under a key, if there is one. -/
def adjust {α : Type} (m : AMap α) (i : Nat) (f : α → α) : AMap α :=
  m.map fun p => if p.1 = i then (p.1, f p.2) else p

/-- One element of a vector replaced, when the index is in range. -/
def vput {α : Type} {n : Nat} (v : Vector α n) (i : Nat) (x : α) : Vector α n := v.setIfInBounds i x

/-- One element of a vector changed, when the index is in range. -/
def vmod {α : Type} {n : Nat} (v : Vector α n) (i : Nat) (f : α → α) : Vector α n :=
  if h : i < n then v.set i (f v[i]) else v

/-- Every element of a vector mapped with its index. -/
def vmapi {α β : Type} {n : Nat} (v : Vector α n) (f : Nat → α → β) : Vector β n :=
  Vector.ofFn fun i => f i.val v[i]

/-- One bit per element of a vector, element i as bit i. -/
def vbits {α : Type} {n : Nat} (v : Vector α n) (p : α → Bool) : Nat := ofBits (v.toList.map p)

/-- Floor of the square root, by bisection over the low `k` bits. -/
def isqrt : Nat → Nat → Nat → Nat
  | 0, acc, _ => acc
  | k + 1, acc, x =>
    let t := acc + 2 ^ k
    if t * t ≤ x then isqrt k t x else isqrt k acc x

/-- Ceiling of a quotient. -/
def ceilDiv (a b : Nat) : Nat := (a + (b - 1)) / b

/-- One bit of a CRC with polynomial `poly` over `w` bits, most significant bit first. -/
def crcBit (w poly : Nat) (c : Nat) (b : Bool) : Nat :=
  let top := Nat.testBit c (w - 1) != b
  let c' := (c <<< 1) % 2 ^ w
  if top then c' ^^^ poly else c'

/-- The bits of a byte, most significant first. -/
def byteBits (b : Byte) : List Bool := [7, 6, 5, 4, 3, 2, 1, 0].map fun i => b.getLsbD i

/-- CRC over bits, most significant bit first. -/
def crcBits (w poly init : Nat) (bs : List Bool) : Nat := bs.foldl (crcBit w poly) init

/-- CRC over bytes, most significant bit first, not reflected. -/
def crcBytes (w poly init : Nat) (bs : List Byte) : Nat := crcBits w poly init (bs.flatMap byteBits)

/-- CRC-6 of SSI words (R39): x^6 + x + 1, initial value 0, over the word bits most significant first. -/
def crc6 (n : Nat) (v : Nat) : Nat :=
  crcBits 6 0x03 0 (((List.range n).reverse).map fun i => Nat.testBit v i)

/-- One byte of CRC-32C, reflected polynomial 0x82F6_3B78 (R70). -/
def crc32cByte (c : Nat) (b : Byte) : Nat :=
  (List.range 8).foldl (fun c _ => if c % 2 = 1 then (c >>> 1) ^^^ 0x82F63B78 else c >>> 1) (c ^^^ b.toNat)

/-- CRC-32C with initial value and final inversion of all ones (R70). -/
def crc32c (bs : List Byte) : Nat := (bs.foldl crc32cByte 0xFFFFFFFF) ^^^ 0xFFFFFFFF

/-- A Gray-coded word as binary (R39). -/
def grayToBin (n v : Nat) : Nat :=
  (List.range n).foldl (fun acc k => acc ^^^ (v >>> k)) 0

/-- Sign extension of the low k bits. -/
def sext (k v : Nat) : Int := if Nat.testBit v (k - 1) then (v % 2 ^ k : Nat) - (2 ^ k : Nat) else ((v % 2 ^ k : Nat) : Int)

/-- The low k bits of an integer. -/
def lowBits (k : Nat) (v : Int) : Nat := (v % ((2 ^ k : Nat) : Int)).toNat

/-- Floor division of integers by a positive number. -/
def fdivNat (a : Int) (b : Nat) : Int := a / (b : Int)

/-- Remainder of integers by a positive number, in 0 .. b − 1. -/
def fmodNat (a : Int) (b : Nat) : Nat := (a % (b : Int)).toNat

/-- The integers from lo up to and including hi. -/
def intsUp (lo hi : Int) : List Int := (List.range (hi + 1 - lo).toNat).map fun k => lo + (k : Int)

end Sys2Proof.Machine
end

