-- ==== Sys2Proof/Machine/State.lean ====
section
/-! DEFINITION. The state of the AQ-716 (INVENTORY.md lists each piece with its rule and reset value), the faults and
refusals, and the state after reset. All of it is plain data. -/

namespace Sys2Proof.Machine

/-- One Arc (R44, R46): the three registers as written, the settings in effect (R49: a write takes effect at the next
count change), and the cycle of the instance the Arc is inside. -/
structure Arc where
  start  : W32
  stop   : W32
  ctl    : W32
  eStart : W32
  eStop  : W32
  eCtl   : W32
  inside : Option Int
deriving DecidableEq, Repr

/-- Table 2-10: QUAL_MOD resets to 1. -/
def Arc.reset : Arc := ⟨0, 0, 0x00010000, 0, 0, 0x00010000, none⟩

/-- The Beacon registers that hold what was written (Table 2-4). -/
structure BcnRegs where
  cfg       : W32
  cpc       : W32
  ssi       : W32
  jump      : W32
  timing    : W32
  intRate   : W32
  commitPos : W32
  commitCtl : W32
  zeroCyc   : W32
  wakeLo    : W32
  wakeHi    : W32
deriving DecidableEq, Repr

/-- The Reset columns of Tables 2-4 to 2-6. -/
def BcnRegs.reset : BcnRegs :=
  { cfg := 0x00004000, cpc := 0x0000FFFF, ssi := 0x00601403, jump := 0, timing := 0x03E803E8
    intRate := 65536, commitPos := 0, commitCtl := 0x80000001, zeroCyc := 0, wakeLo := 0, wakeHi := 0 }

/-- What the decoder and the sampler of positions hold (R34 to R41, R60). Times are in ns. -/
structure BcnIn where
  phase       : Fin 4                -- filtered A and B levels as a phase of the encoder period, R36
  lastCounted : Option Nat           -- previously counted change, R36
  lastEdge    : Option Nat           -- last count edge, R34
  interval    : Option Nat           -- T, between the last two count edges, R34
  edgeRev     : Bool                 -- the last count edge was in reverse, R34
  rate        : W32                  -- BCN_INT_RATE in effect: a write acts at the next count, R42
  frame       : Bool                 -- a frame clocked by this card is in progress, R38
  errRun      : Nat                  -- consecutive failed words, R39
  sample      : Option (Int × Nat)   -- P and time of the last sample, R34
  slope       : Option (Int × Nat)   -- step of P and time between the last two samples, R34
  extrap      : Bool                 -- extrapolation has not stopped, R34
  resume      : Bool                 -- after wake, the next good word is judged against BCN_JUMP, R60
  reref       : Bool                 -- UNREFERENCED until re-reference (R60), not until the first good word
deriving DecidableEq, Repr

def BcnIn.reset : BcnIn := ⟨0, none, none, none, false, 65536, false, 0, none, none, false, false, false⟩

/-- Counting of commit crossings (R51, R53, R58). -/
structure Commits where
  running   : Bool             -- start-up step 6 has ended
  counted   : List Int         -- cycles whose qualifying crossing has been counted
  lastCycle : Option Int       -- cycle of the last commit made from a crossing
  count     : Nat              -- qualifying crossings counted towards EVERY
  restart   : Bool             -- the next qualifying crossing commits
  lastNs    : Option Nat       -- crossing of the previous commit made from a crossing
  zeroCross : Bool             -- the next commit from a crossing carries AFTER_ZERO
  zeroForce : Bool             -- no commit has been made since the last Beacon Zero
  num       : W64              -- BCN_COMMIT_NUM
  late      : W32              -- commits with LATE, R62
deriving DecidableEq, Repr

def Commits.reset : Commits := ⟨false, [], none, 0, false, none, false, false, 0, 0⟩

/-- The Beacon unit (02_beacon.md). -/
structure Bcn where
  regs     : BcnRegs
  loaded   : Bool            -- configuration loaded at the first start-up step 3, R59
  net      : Int             -- net cycle, R28
  count    : Nat             -- 0 to CPC − 1
  validNet : Int             -- net cycle of the last valid count, R29, R33
  valid    : Nat             -- the last valid count, R29
  rev      : Bool            -- BCN_STATUS.DIR
  still    : Bool            -- R43
  code     : Nat             -- FAULT_CODE, 0 when not in fault
  sticky   : Byte            -- BCN_STATUS [7:0], bit 0 reserved
  entered  : Vector W32 8    -- entries into the fault state per code 1 to 7, R62
  armed    : Bool            -- ZERO_ARMED
  armVal   : Nat             -- cycle of the armed Beacon Zero
  latch    : W64             -- BCN_STAMP latch
  inp      : BcnIn
  com      : Commits
  arcs     : Vector Arc 64
  seq      : Nat             -- next sequence number, R31
  seqLimit : Nat             -- durable sequence reservation, R32
  era      : Int             -- era of the last stamping, R33
  eraBound : Nat             -- sequence boundary of the last era record, R33
deriving DecidableEq, Repr

/-- R59: UNREFERENCED from aux power-up; R32: a new card holds reservation 0. -/
def Bcn.reset : Bcn :=
  { regs := .reset, loaded := false, net := 0, count := 0, validNet := 0, valid := 0, rev := false
    still := false, code := 6, sticky := 0x04, entered := Vector.replicate 8 0, armed := false, armVal := 0
    latch := 0, inp := .reset, com := .reset, arcs := Vector.replicate 64 .reset, seq := 0, seqLimit := 0
    era := 0, eraBound := 0 }

/-- What one update of the Beacon raises, in order: events of an Arc, and a commit crossing with the cycle and
the flags of the commit it makes, if it makes one (R46 to R51). -/
inductive BcnEvent where
  | enter (n : Nat)
  | leave (n : Nat)
  | crossing (cycle : Int) (commit : Option Nat)
deriving DecidableEq, Repr

/-! Worlds, access rules and the Keeper (12_worlds_and_access.md). -/

/-- The six words of one access rule (Tables 12-1 to 12-3). -/
structure Rule where
  w : Vector W32 6
deriving DecidableEq, Repr

/-- A set of world bitmaps (Table 11-5, bit = 1: Secure) and rules; a rule that is not listed holds zero words. -/
structure RuleSet where
  ns    : W64                  -- bit n − 1 for namespace n
  q     : BitVec 256
  stall : W64
  arc   : W64
  misc  : W32                  -- [15:8] bus groups, [7:0] Porter groups
  slot  : BitVec 256
  rules : List (Nat × Rule)    -- 0 to 191 as RULE_SEL
deriving DecidableEq, Repr

/-- R332: at shipment every object is Normal and no rule is enabled. -/
def RuleSet.reset : RuleSet := ⟨0, 0, 0, 0, 0, 0, []⟩

/-- The access checker (R332, R342, R344). -/
structure Acc where
  staged   : RuleSet
  active   : RuleSet
  saved    : RuleSet     -- in the system records of harbour flash
  epoch    : W32         -- RULE_EPOCH
  past     : List (W32 × RuleSet)  -- active sets of the epochs before, whose checked accesses may be in flight (R345)
  sel      : Nat         -- RULE_SEL
  violAddr : W64
  violKind : W32
  violMast : W32
  violRule : W32
  mismatch : Bool        -- the checker's copies disagreed: the next checked access is denied (Table 13-9)
deriving DecidableEq, Repr

def Acc.reset : Acc := ⟨.reset, .reset, .reset, 0, [], 0, 0, 0, 0, 0, false⟩

/-- A handshake between HELLO and PROVE: the session key and the proof expected (R346). -/
structure Handshake where
  ks    : List Byte
  proof : List Byte
  sigma : List Byte
deriving DecidableEq, Repr

/-- A session channel (R346, R347): the open session's key and last accepted counter, the handshake, the
consecutive failures, and whether HELLO is refused. `serial` counts the sessions opened. -/
structure Channel where
  session  : Option (List Byte × Nat)
  hs       : Option Handshake
  fails    : Nat
  refusing : Bool
  serial   : Nat
deriving DecidableEq, Repr

def Channel.reset : Channel := ⟨none, none, 0, false, 0⟩

/-- An armed submission entry (R350). -/
structure Armed where
  qid : Nat
  dw  : Vector W32 16
deriving DecidableEq, Repr

/-- Keeper sessions (R346 to R351). -/
structure Keeper where
  nvme   : Channel
  bus    : Channel
  armed  : List Armed          -- oldest first, at most 8
  kx     : Vector W32 127      -- KX_0 to KX_126
  kxStat : Byte                -- STAT of the last window operation
deriving DecidableEq, Repr

def Keeper.reset : Keeper := ⟨.reset, .reset, [], Vector.replicate 127 0, 0⟩

/-! The management bus (10_management_bus.md). -/

inductive Moor where
  | unmoored | provisional | moored
deriving DecidableEq, Repr

/-- A final response: STAT and DATA, and the session a Keeper session frame belonged to (R281). -/
structure Response where
  stat    : Byte
  data    : W32
  session : Option Nat
deriving DecidableEq, Repr

/-- What the card drove in the last frame (R274, R277, R287, R289, R293): nothing, a whole response, a response up to the slot that
it lost (the bits of STAT, DATA, MAC and CRC up to that slot), or slots of arbitration. -/
inductive BusOut where
  | silent
  | response (ack : Bool) (stat : Byte) (data : W32) (mac : Option W32) (crc : W16)
  | cut (ack : Bool) (bits : List Bool)
  | slots (bits : List Bool)
deriving DecidableEq, Repr

/-- A core-served operation that the cores have not finished (R284): the register, the value written (none: a read),
the session it came in, whether the cores have begun it (it then waits for the ROM), and whether the card has become unmoored since, so
that its outcome is discarded (R291). -/
structure HeldOp where
  reg     : W16
  val     : Option W32
  session : Option Nat
  begun   : Bool
  dropped : Bool
deriving DecidableEq, Repr

/-- The bus interface. -/
structure Bus where
  moor     : Moor
  addr     : Nat               -- BUS_ADDR, 0 when unmoored
  sticky   : Byte              -- BUS_STATUS [7:3]
  crcErr   : W32
  macErr   : W32
  token    : Bool
  lease    : W32               -- TOKEN_LEASE
  idleSeen : Bool              -- the bus has been seen idle since aux power-up, R276
  ignoring : Bool              -- the line is ignored until idle, R275, R421
  held     : Option HeldOp     -- R284
  stored   : Option Response   -- R281
  out      : BusOut
deriving DecidableEq, Repr

/-- R302: reset only at aux power-up. -/
def Bus.reset : Bus :=
  { moor := .unmoored, addr := 0, sticky := 0, crcErr := 0, macErr := 0, token := false, lease := 1000
    idleSeen := false, ignoring := false, held := none, stored := none, out := .silent }

/-! Events, interrupts and faults (13_interrupts_and_faults.md). -/

/-- A journal entry (Table 13-5). -/
structure JournalEntry where
  num    : Nat
  ns     : Nat
  start  : W32
  kind   : Nat
  origin : Nat
  code   : Nat
  detail : Nat
deriving DecidableEq, Repr

/-- The event router, the block fault registers and the journal. -/
structure Events where
  pulse    : BitVec 512        -- pulse bits set (R358)
  level    : BitVec 512        -- level sources at the last update
  due      : BitVec 512        -- level sources with a message not yet sent (R360)
  recorded : BitVec 512        -- pulse bits at the last read of each EVT_STATUS word (R362)
  en       : BitVec 512        -- EVT_ROUTE.EN
  alert    : BitVec 512        -- EVT_ROUTE.ALERT
  vector   : List (Nat × Nat)  -- EVT_ROUTE [7:0]; 0 when not listed
  auxEn    : BitVec 512        -- aux copy of the routes of sources 0–127 and 192–194 (R359)
  auxAlert : BitVec 512
  sel      : Nat               -- EVT_SEL
  status   : Vector W32 64     -- FAULT_STATUS of each frame, but for the bits kept elsewhere (R364)
  enable   : Vector W32 64     -- FAULT_ENABLE of each frame
  mask     : BitVec 256        -- MSI-X Mask bit of each vector
  fmask    : Bool              -- MSI-X Function Mask
  sent     : List Nat          -- vectors of the messages sent, newest first
  inject   : Bool              -- TEST_CTL.INJECT
  journal  : List JournalEntry -- newest first
  jnext    : Nat
  jcount   : Nat               -- entries of this interval
  jdrops   : Nat               -- entries dropped in this interval
  jprev    : Nat               -- entries dropped in the interval before, not yet reported
  dropped  : W32               -- JOURNAL_DROPPED
deriving DecidableEq, Repr

/-- The defined bits of a frame's FAULT_STATUS that its own register holds or mirrors (Tables 13-2 and 13-4). -/
def frameBits (f : Nat) : W32 :=
  if f = 0x00 then 0x1FE else if f = 0x01 then 0xF8 else if f = 0x02 then 0xFF else if f = 0x03 then 0x1F
  else if f = 0x04 then 0x7 else if f = 0x05 then 0x30000 else if f = 0x08 then 0x3F else if f = 0x09 then 0x3
  else if 0x10 ≤ f ∧ f ≤ 0x1F then 0x3FF else if f = 0x20 ∨ f = 0x21 then 0xF else if f = 0x22 then 0x7
  else if f = 0x23 then 0x3 else if f = 0x24 then 0x7 else if f = 0x25 then 0xF
  else if 0x28 ≤ f ∧ f ≤ 0x36 then 0x7 else if f = 0x38 then 0xF else 0

/-- Sources 128–255, which route to ALERT# after main-domain power-up (R359). -/
def routeReset : BitVec 512 := BitVec.ofNat 512 ((2 ^ 128 - 1) <<< 128)

/-- R359, R363; the MSI-X masks as PCI gives them (PRESUMED, notes/assumptions/6.md). -/
def Events.reset : Events :=
  { pulse := 0, level := 0, due := 0, recorded := 0, en := routeReset, alert := routeReset, vector := []
    auxEn := routeReset &&& BitVec.ofNat 512 (7 <<< 192), auxAlert := routeReset &&& BitVec.ofNat 512 (7 <<< 192)
    sel := 0, status := Vector.replicate 64 0, enable := Vector.ofFn fun f => frameBits f.val
    mask := BitVec.allOnes 256, fmask := false, sent := [], inject := false, journal := [], jnext := 0, jcount := 0
    jdrops := 0, jprev := 0, dropped := 0 }

/-! Power, modes, Watch, thermal, hold-up and ageing (00, 06, 14, 15). -/

/-- A measurement register's value with VALID and SEQ (R160, R305). -/
structure Meas where
  valid : Bool
  seq   : Byte
  value : Int
deriving DecidableEq, Repr

def Meas.reset : Meas := ⟨false, 0, 0⟩

inductive Mode where
  | none | native | compat
deriving DecidableEq, Repr

inductive Flush where
  | idle
  | running                      -- the flush of Table 6-4 runs
  | railBack                     -- the 12 V rail has returned during it (R163)
  | done                         -- the flush-complete record is programmed; the main domain is off
deriving DecidableEq, Repr

inductive Watch where
  | awake
  | requested                    -- entry commanded, its conditions not yet met (R377)
  | asleep
deriving DecidableEq, Repr

/-- The operating-point registers (Table 7-15) and the guardband of R405. -/
structure OpPoint where
  direct    : Bool
  limit     : Nat                -- STALL_OP_CTL.LIMIT
  point     : Nat                -- point in use
  target    : Nat                -- point of the change in progress
  moving    : Bool               -- IN_TRANSITION
  orderErr  : Bool
  tokenErr  : Bool
  railMv    : Nat
  railTo    : Nat                -- voltage of the change in progress
  vset      : Nat                -- STALL_VSET in mV
  fset      : Nat                -- STALL_FSET
  guard     : Meas               -- STALL_GUARDBAND, G in mV
  reqs      : List (Bool × Nat)  -- direct writes that wait for the end of a transition (R212): true = STALL_FSET
deriving DecidableEq, Repr

def OpPoint.reset : OpPoint :=
  { direct := false, limit := 3, point := 2, target := 2, moving := false, orderErr := false
    tokenErr := false, railMv := 750, railTo := 750, vset := 750, fset := 2, guard := .reset, reqs := [] }

/-- Rails, start-up, link and power states. -/
structure Power where
  rail12     : Bool
  railAux    : Bool
  auxOn      : Bool
  mainOn     : Bool
  compatLow  : Bool              -- the sampled COMPAT pin
  mode       : Mode
  copied     : Bool              -- the first step 3 of this aux power-up is done (R313)
  step       : Nat               -- start-up step of Table 6-10 that ended last
  charging   : Bool              -- step 4: the stagger delay is over and the bank charges
  recovery   : Bool              -- R185
  starts     : W32               -- START_COUNT
  perst      : Bool
  link       : Bool
  detect     : Bool              -- power-loss detection armed
  flush      : Flush
  fatal      : Option Nat        -- fatal path running, and the frame × 32 + bit that started it (R372)
  pairsOut   : BitVec 4          -- flash translation pairs excluded by a fault (R372)
  wasFlush   : Bool              -- the previous power-down ran the flush
  rearm      : Bool              -- after a power loss, detection has not been armed again (R153)
  short      : Option Nat        -- MiB not programmed when the bank reached the cut-off (R164)
  lossArmed  : Bool
  lossHigh   : Bool
  early      : Bool              -- EARLY_FLUSH
  watch      : Watch
  wakeSrc    : BitVec 5
  wakeDue    : Bool              -- a wake is recorded and exit has not run
  cmd        : Nat               -- commanded state: the latest of PWR_CMD and Set Features 02h (R112)
  busCmd     : Nat               -- the register PWR_CMD (Table 11-3)
  before     : Nat               -- operational state in force before Watch (R380)
  hostPs4    : Bool              -- a Set Features to PS4 waits for its conditions (R113)
  watchTimer : W32
  hours      : Nat               -- powered hours
  unsafeOff  : Nat               -- unclean shutdowns
  op         : OpPoint
deriving DecidableEq, Repr

/-- Before the first rail: nothing runs (DESIGN CHOICE where no reset is given, notes/assumptions/4.md). -/
def Power.reset : Power :=
  { rail12 := false, railAux := false, auxOn := false, mainOn := false, compatLow := false, mode := .none
    copied := false, step := 0, charging := false, recovery := false, starts := 0, perst := true, link := false
    detect := false, flush := .idle, fatal := none, pairsOut := 0, wasFlush := false, rearm := false, short := none, lossArmed := false
    lossHigh := true, early := false, watch := .awake, wakeSrc := 0, wakeDue := false, cmd := 0, busCmd := 0, before := 0
    hostPs4 := false, watchTimer := 0, hours := 0, unsafeOff := 0, op := .reset }

/-- The Watch sampler (R383, R384). -/
structure Sampler where
  en   : Byte
  hit  : Byte
  lim  : Vector W16 8
  pos  : Int                     -- P at the previous sample
deriving DecidableEq, Repr

def Sampler.reset : Sampler :=
  { en := 0x07, hit := 0, lim := #v[0x0640, 0x0500, 0xFE70, 0x05F0, 0x05F0, 0, 0, 0], pos := 0 }

/-- Temperatures and thermal protection. Sensors: 0 controller, 1 to 8 NAND package 0 to 7, 9 DRAM, 10 hold-up. -/
structure Thermal where
  temp     : Vector Meas 11
  bad      : Vector Bool 11      -- stuck or out of range (R386)
  state    : Vector Nat 11       -- 0 normal, 1 warning, 2 throttle, 3 shutdown
  sticky   : BitVec 9            -- THERM_STATUS [8:0]
  held     : Bool                -- SHUTDOWN_HELD
  shutting : Bool                -- the steps of Table 14-14 run
  shutSrc  : Option (Nat × Int)  -- sensor and temperature of a shutdown not yet in SHUTDOWN_RECORD
  winHot   : Bool
  winCold  : Bool
  request  : Bool                -- throttle request in force (R389)
  graced   : Bool                -- the grace has run
  cap      : Nat                 -- THROTTLE_CAP
  coolSince : Option Nat         -- since when every sensor has been below throttle − hysteresis, or its last step up (R390)
  grace    : W32                 -- THROTTLE_GRACE
  holdTime : W32                 -- WRITE_HOLD_TIME
  warnSet  : Vector (Option Int) 3   -- lowered warning thresholds of Feature 04h: NAND, controller, hold-up, in K
  evtOver  : Vector (Option Int) 4   -- event temperatures by TMPSEL
  evtUnder : Vector (Option Int) 4
  samp     : Sampler
deriving DecidableEq, Repr

def Thermal.reset : Thermal :=
  { temp := Vector.replicate 11 .reset, bad := Vector.replicate 11 false, state := Vector.replicate 11 0, sticky := 0
    held := false, shutting := false, shutSrc := none, winHot := false, winCold := false, request := false
    graced := false, cap := 0, coolSince := some 0, grace := 2000, holdTime := 2000
    warnSet := Vector.replicate 3 none, evtOver := Vector.replicate 4 none, evtUnder := Vector.replicate 4 none
    samp := .reset }

/-- The hold-up controller and what is measured of the bank (06, 15). Energies in µJ, C in nF, ESR in µΩ. -/
structure Holdup where
  state    : Nat                 -- HOLDUP_STATUS.STATE
  capOk    : BitVec 6
  stagger  : Nat                 -- STAGGER_MS
  bankMv   : Nat
  reached  : Bool                -- the bank has reached V_B since power-up (R157)
  energy   : Int                 -- E
  energy0  : Int                 -- E_0 at manufacture
  cNf      : Nat
  esr      : Nat
  vchg     : Nat                 -- V_CHG in mV
  budget   : Nat                 -- budget in force, MiB
  lowered  : Option Nat          -- a lowered budget for a measurement with short headroom (R401)
  flushing : Bool                -- an Urgent flush down to the budget runs (R159)
  measuring : Bool               -- a discharge measurement runs
  due      : Bool                -- a discharge measurement is due
  midCharge : Bool               -- a charge from below 20 V is in progress, its measurement not yet taken
  measHours : Nat                -- powered hours at the last measurement
  mVolt    : Meas
  mEnergy  : Meas
  mBudget  : Meas
  mDirty   : Meas
  mVb      : Meas
deriving DecidableEq, Repr

/-- Table 6-6; the values of a card's own bank are DESIGN CHOICE (notes/assumptions/7.md). -/
def Holdup.reset : Holdup :=
  { state := 0, capOk := 0x3F, stagger := 0, bankMv := 0, reached := false, energy := 870000, energy0 := 870000
    cNf := 1700000, esr := 20000, vchg := 33000, budget := 512, lowered := none, flushing := false
    measuring := false, due := false, midCharge := false, measHours := 0, mVolt := .reset, mEnergy := .reset
    mBudget := .reset, mDirty := .reset, mVb := .reset }

/-- Life, warnings and ageing measurements (15_ageing_and_health.md). -/
structure Health where
  life      : Meas
  media     : Meas
  spares    : Meas
  holdup    : Meas
  warn      : W32                -- HEALTH_WARN
  hostTb    : Meas               -- HOST_WRITTEN
  hostBytes : Nat
  readBytes : Nat
  nandBytes : Nat
  drift     : Meas               -- NAND_DRIFT
  delay     : Meas               -- SILICON_DELAY
  refresh   : Meas               -- REFRESH_DAYS
  delta     : Nat                -- Δ
  guardMax  : Nat                -- highest G, in the system records
  interval  : Nat                -- patrol interval in days, in force from the next round
  rates     : Vector Nat 64      -- R_d of the last round, 0.1 mV per powered day
  roundMax  : Vector Nat 64      -- largest rate of the running round
  rounds    : BitVec 64          -- dies whose first round has completed
  unrecEver : Nat                -- LBAs marked unrecovered since shipment
  page      : List Byte          -- log page 0xC0 as the last recomputation sampled it (R413); empty before the first
deriving DecidableEq, Repr

def Health.reset : Health :=
  { life := .reset, media := .reset, spares := .reset, holdup := .reset, warn := 0, hostTb := .reset, hostBytes := 0
    readBytes := 0, nandBytes := 0, drift := .reset, delay := .reset, refresh := ⟨false, 0, 7⟩, delta := 0
    guardMax := 0, interval := 7, rates := Vector.replicate 64 0, roundMax := Vector.replicate 64 0, rounds := 0
    unrecEver := 0, page := [] }

/-! Harbour flash, persistent registers, OTP and firmware (11_bus_register_map.md, 12). -/

/-- What a firmware bank holds: a valid-format image with its header (R353), nothing that verifies, or bytes placed
through the mailbox whose verification the ROM does at step 3. -/
inductive Bank where
  | image (h : FwHeader)
  | bad
  | raw
deriving DecidableEq, Repr

/-- A pair of sectors of the persistent store (R315, R316). -/
structure Pair where
  used   : Nat                   -- entries programmed in the active sector
  gen    : Nat                   -- generation of the active sector
  second : Bool                  -- the second sector of the pair is active
  worn   : Bool                  -- a worn sector and no spare left (R317)
  first  : Nat                   -- number of the pair's first sector; a spare takes a worn one's place (R317)
  other  : Nat                   -- number of its second sector
deriving DecidableEq, Repr

/-- A harbour operation that the ROM runs, and for whom (R319, R326, R349, R354). -/
inductive RomJob where
  | persist (n : Nat) (v : W32)
  | mailbox (cmd : W32)
  | saveRules
  | reboot
  | fwCommit (h k : Nat)          -- k sectors of the bank are erased; with 128 the image is programmed (R354)
  | hostMailbox (h : Nat)
  | commitRules (h : Nat)
deriving DecidableEq, Repr

/-- Harbour flash and what lies in it or beside it. -/
structure Harbour where
  flash    : List Host.Cell      -- unlisted bytes read 0xFF, or as shipped in a factory bank or the persistent store
  erases   : List (Nat × Nat)    -- erase counts of sectors
  worn     : BitVec 512
  marked   : BitVec 512          -- sectors with their erase-complete marker or in use since
  otp      : List (Nat × W32)    -- words programmed since shipment, by word number
  used     : BitVec 1024         -- used bits
  addr     : W32                 -- HB_ADDR
  buf      : Vector Byte 256     -- HB_BUF
  stat     : Byte                -- HB_RESULT [7:0]
  values   : List (Nat × W32)    -- persistent registers written since shipment
  wear     : List (Nat × Nat)    -- PERSIST_WEAR_n
  pairs    : Vector Pair 16
  recs     : Vector Bool 2       -- system records 0 wrapped keys, 1 rule set: the second sector of its two holds it
  spares   : Nat                 -- spare sectors of the store
  wearIdx  : Nat                 -- PERSIST_WEAR_IDX
  sectIdx  : Nat                 -- HARBOUR_WEAR_IDX
  auxMode  : W32                 -- aux copies of R313
  auxPref  : W32
  auxCfg   : W32
  auxCpc   : W32
  auxWatch : W32
  bankA    : Bank
  bankB    : Bank
  firstB   : Bool                -- bank B is tried first (R354)
  running  : Option Bool         -- bank of the running firmware: true = B
  busy     : Option (RomJob × Actor)   -- operation in progress
  download : List (Nat × List Byte)    -- firmware image parts in DRAM, by offset
deriving DecidableEq, Repr

/-- Firmware release 112 in both banks at shipment, as the spec's example card (DESIGN CHOICE,
notes/assumptions/9.md). -/
def factoryImage : FwHeader := ⟨112, 0, Config.factoryHash⟩

def Harbour.reset : Harbour :=
  { flash := [], erases := [], worn := 0, marked := BitVec.allOnes 512, otp := [], used := 0, addr := 0
    buf := Vector.replicate 256 0, stat := 0, values := [], wear := [], pairs := Vector.ofFn fun p => ⟨16, 0, false, false, 448 + 2 * p.val, 449 + 2 * p.val⟩
    recs := Vector.replicate 2 false, spares := 4, wearIdx := 0, sectIdx := 0, auxMode := 0, auxPref := 0, auxCfg := 0x00004000, auxCpc := 0x0000FFFF
    auxWatch := 10, bankA := .image factoryImage, bankB := .image factoryImage, firstB := false, running := none
    busy := none, download := [] }

/-! Stalls, Lots, pipelines, queries (07, 08, 09). -/

/-- A stored 8-byte SECDED word: the data written, and the flips of its 72-bit codeword (R198, R200). A word that is not
listed is poison. -/
structure MemWord where
  data  : W64
  flips : BitVec 72
deriving DecidableEq, Repr

inductive StallSt where
  | off | empty | stopped | running | faulted
deriving DecidableEq, Repr

/-- An active loop (R231, R232). -/
structure LoopFrame where
  first : Nat                    -- first instruction of the body
  last  : Nat                    -- last instruction of the body
  left  : Nat                    -- iterations still to begin
  chunk : Bool                   -- a LOOPC: WP rises by 64 at each back edge
  depth : Nat                    -- call depth at which it was started
deriving DecidableEq, Repr

/-- The registers of Table 8-1. -/
structure CoreRegs where
  g      : Vector W64 16
  shadow : Vector W64 8          -- g8–g15 of a Fast handler
  p      : BitVec 4
  wp     : Nat
  pc     : Nat
  loops  : List LoopFrame        -- innermost first
  calls  : List Nat              -- latest first
deriving DecidableEq, Repr

def CoreRegs.reset : CoreRegs := ⟨Vector.replicate 16 0, Vector.replicate 8 0, 0, 0, 0, [], []⟩

inductive HandlerKind where
  | normal | fast | prio (level : Nat)
deriving DecidableEq, Repr

/-- A running or interrupted handler and what its entry saved (R218, R242). -/
structure HandlerFrame where
  src   : Nat
  kind  : HandlerKind
  pc    : Nat
  p     : BitVec 4
  saved : List W64               -- g8–g15 in priority mode
deriving DecidableEq, Repr

/-- The interrupt controller (Tables 7-4, 7-7, 7-8). -/
structure IntCtl where
  prio    : Bool                 -- IC_CTL.MODE
  disable : Bool
  mask    : W32
  pending : W32
  active  : W32
  fast    : W32
  thresh  : Nat
  levels  : Vector W32 4
  arcSel  : Vector W32 8
deriving DecidableEq, Repr

/-- At tile power-on (Table 7-7). -/
def IntCtl.reset : IntCtl :=
  { prio := true, disable := true, mask := 0xFFFFFFFF, pending := 0, active := 0, fast := 0, thresh := 15
    levels := Vector.replicate 4 0, arcSel := Vector.replicate 8 0 }

/-- A loaded image: its entries, units and the loader's figures (R204, R245, R247). `entry` none is 0xFFFF_FFFF. -/
structure Image where
  words   : Nat
  pred    : Nat
  xform   : Option Nat
  vNormal : Option Nat
  vFast   : Option Nat
  vPrio   : Option Nat
  units   : Nat
  version : Nat
  secure  : Bool                 -- SECURE_ONLY
  signed  : Bool
  keyOk   : Bool                 -- the modulus hash equals the Keeper key hash
  prio    : Bool                 -- PRIO_MODE
  segs    : List (Nat × List Byte)
  cRec    : Nat
  c64     : Nat
  cInt    : Nat
  ints    : List Nat             -- worst case of each handler: Normal, Fast, levels 1 to 15
  eRec    : Nat
  eMul    : Nat
  hash    : List Byte            -- SHA-256 of code and segments
deriving DecidableEq, Repr

/-- A unit call that waits for its unit (R240): unit, source select, g1 to g5, its place in the order of calls (R195), and the
era current when it was made (R33). -/
structure UnitCall where
  unit  : Nat
  src   : Nat
  args  : Vector W64 5
  order : Nat
  era   : Int
deriving DecidableEq, Repr

/-- A Porter move or emit in flight (R193, R235 to R237). `snap` is its source at issue, byte by byte, with none for a byte of a
word that fails its check; `epoch` is the rule epoch it was checked under. -/
inductive MoveKind where
  | emitRecord (lot rec_ out : Nat)
  | emitMemory (lot rec_ out addr : Nat) (snap : List (Option Byte))
  | toCard (loc card : Nat) (snap : List (Option Byte))
  | fromCard (loc card len : Nat)
deriving DecidableEq, Repr

structure Move where
  id    : Nat
  kind  : MoveKind
  epoch : W32
deriving DecidableEq, Repr

/-- Where the record of the running Lot is: between records, in the Predicate stage, kept and not yet in the Transform
stage, or in it. -/
inductive Stage where
  | idle | pred | kept | xform
deriving DecidableEq, Repr

/-- Counters of log page 0xC3 (Table 7-19). -/
structure StallStats where
  retired : Nat
  faulted : Nat
  slows   : Nat
  inBytes : Nat
  outBytes : Nat
  busy    : Nat
  worst   : Nat                  -- largest elapsed ÷ budget in 1/256
deriving DecidableEq, Repr

def StallStats.reset : StallStats := ⟨0, 0, 0, 0, 0, 0, 0⟩

/-- One Stall (R186). -/
structure Stall where
  state    : StallSt
  slow     : Bool
  pipe     : Option Nat
  cause    : Nat                 -- FAULT_CAUSE
  faultPc  : Nat
  budget   : Nat                 -- LOT_BUDGET
  elapsed  : Nat                 -- LOT_ELAPSED
  corr     : W32                 -- ECC_CORR_COUNT
  fstat    : Byte                -- FAULT_STATUS
  fen      : Byte                -- FAULT_ENABLE
  flipLm   : BitVec 72
  flipPm   : BitVec 72
  ic       : IntCtl
  mbIn     : W32
  mbOut    : W32
  core     : CoreRegs
  lm       : List (Nat × MemWord)
  pm       : List (Nat × MemWord)
  image    : Option Image
  handlers : List HandlerFrame   -- innermost first
  lots     : List Nat            -- Lots held, the running one first
  stage    : Stage
  rec_     : Nat                 -- record of the running Lot
  dbgW     : List Byte           -- w0–w3 as left by the last record or fault (R202)
  cycles   : Nat                 -- cycles of Stall Code spent on the record
  nsOuts   : List Nat            -- outputs bound to namespaces already emitted to in this record
  call     : Option UnitCall
  moves    : List Move
  nextMove : Nat
  undef    : List (Nat × Nat)    -- local ranges that hold undefined values until the next BARRIER (R237)
  porterFault : Option Nat       -- fault a Porter reported, raised at the next instruction boundary
  stops    : List Nat            -- STOP commands that wait for the running Lot
  idleAt   : Nat                 -- when the Stall last became idle (R23)
  stats    : StallStats
deriving DecidableEq, Repr

/-- OFF, with the control block at its tile-power-on values (Tables 7-4 to 7-7). -/
def Stall.reset : Stall :=
  { state := .off, slow := false, pipe := none, cause := 0, faultPc := 0, budget := 0, elapsed := 0, corr := 0
    fstat := 0, fen := 0xFF, flipLm := 0, flipPm := 0, ic := .reset, mbIn := 0, mbOut := 0, core := .reset, lm := []
    pm := [], image := none, handlers := [], lots := [], stage := .idle, rec_ := 0, dbgW := [], cycles := 0
    nsOuts := [], call := none, moves := [], nextMove := 0, undef := [], porterFault := none, stops := [], idleAt := 0
    stats := .reset }

/-- A record in a Lot. `off` is its place in the namespace for a record read from media. -/
structure LotRec where
  nsid  : Nat
  cmd   : Nat                    -- fetch number of its Record Append
  seq   : Nat
  era   : Int
  bytes : List Byte
  pass  : Bool                   -- it passed the gate and the decimator (R256)
  off   : Nat
deriving DecidableEq, Repr

/-- An emit staged in a Lot's output area (R194). -/
structure LotEmit where
  out   : Nat
  src   : Nat                    -- record in the Lot
  bytes : List Byte
deriving DecidableEq, Repr

/-- Where a Lot is: with the dispatcher, on a Stall, ended on it, or a scan Lot that no Stall will run, which ends its query
in its turn (R267). -/
inductive LotState where
  | waiting
  | issued (n : Nat)
  | done (n : Nat)
  | dead
deriving DecidableEq, Repr

/-- A Lot (R16, R17, R191). -/
structure Lot where
  id     : Nat
  nsid   : Nat
  pipe   : Option Nat            -- none: the namespace has no pipeline, or the query names none
  query  : Option Nat            -- the query of a scan Lot
  recs   : List LotRec
  state  : LotState
  issues : Nat
  tried  : List Nat              -- Stalls that faulted on it (R17)
  emits  : List LotEmit
  tally  : List (Nat × (Nat × W64))   -- held updates: counter, op and combined value (R17, R238)
deriving DecidableEq, Repr

/-- A pipeline (R248 to R254). -/
structure Pipe where
  scan      : Bool
  dropFault : Bool
  source    : Nat
  stalls    : W64                     -- Stalls in the set now
  bare      : Bool                    -- configured with no Stall: gate-only (R248)
  gateMask  : W32
  gateMode  : Nat
  decN      : Nat
  decSrc    : Nat
  decMask   : Nat
  tallyBase : Nat
  tallyCount : Nat
  outs      : Vector (Nat × Nat) 4    -- KIND and NSID
  maxRec    : Nat
  running   : Bool
  dec       : Nat                     -- decimation counter
  tally     : List (Nat × W64)        -- touched counters
  retired   : Nat                     -- Lots retired
  stops     : List Nat                -- STOP commands that wait for the last issued Lot
  full      : Bool                    -- 16 MiB of Lots have waited, and none has retired since (R257)
deriving DecidableEq, Repr

inductive QueryState where
  | waiting | running | ended
deriving DecidableEq, Repr

/-- An Arc Query (R263 to R267). -/
structure Query where
  id       : Nat                 -- fetch number of the command
  direct   : Bool
  slot     : Option Nat
  pipe     : Option Nat
  nsid     : Nat
  floor    : Nat
  lo       : Nat
  hi       : Nat
  rel      : Option (Int × Int)  -- net cycles of a SCOPE_REL range
  era      : Option Int          -- the era selected, none with ERA_BACK = 63
  arc      : Option Nat
  window   : Option (Nat × Nat)
  param    : List Byte
  start    : Nat                 -- start boundary
  size     : Nat
  state    : QueryState
  cursor   : Nat                 -- offset of the next stored record to read
  formed   : Bool                -- every Lot has been formed
  ending   : Option Nat          -- END value requested at the next Lot retirement
  resume   : Nat
  endv     : Nat
  unrec    : Nat
  entered  : Nat
  emitted  : Nat
  media    : Nat
  dec      : Nat
  out      : List Byte           -- emitted records
  epoch    : W32                 -- rule epoch it was checked under (R345)
  releases : List Nat            -- Release Result commands that wait for the end
deriving DecidableEq, Repr

inductive SlotState where
  | free | running | ready
deriving DecidableEq, Repr

/-- A result slot (R268, R269). -/
structure Slot where
  gen    : Nat
  state  : SlotState
  start  : Nat                   -- low 8 bits of START_COUNT at allocation
  size   : Nat                   -- pool bytes reserved
  nsid   : Nat
  query  : Nat
  answer : List Byte
deriving DecidableEq, Repr

/-! The host interface (04_host_queues.md). -/

/-- A completion posted: CQ entry, and the data the command moved to host memory. -/
structure Completion where
  sqid : Nat
  cid  : Nat
  sct  : Nat
  sc   : Nat
  dnr  : Bool
  dw0  : W32
  dw1  : W32
  data : List Byte
deriving DecidableEq, Repr

/-- A submission queue: its size, completion queue, QPRIO, and the entries not yet fetched. -/
structure SubQueue where
  size    : Nat
  cq      : Nat
  prio    : Nat
  tail    : Nat
  waiting : List Submission
  after   : Option (Nat × Nat)   -- NSID and LBA after the last Read, R126
deriving DecidableEq, Repr

/-- A completion queue: its size, vector, and the entries the host has not consumed. -/
structure CompQueue where
  size   : Nat
  vector : Nat
  irqs   : Bool                  -- interrupts enabled at creation
  head   : Nat
  posted : List Completion       -- oldest first
  unsent : Nat                   -- entries posted since the last message (coalescing)
  irq    : Bool                  -- a message is due and not yet sent
deriving DecidableEq, Repr

/-- A range lock (R101): namespace, first and last LBA, exclusive. -/
structure Lock where
  nsid : Nat
  lo   : Nat
  hi   : Nat
  excl : Bool
deriving DecidableEq, Repr

/-- How far a fetched command has come. -/
inductive Phase where
  | ready                        -- not begun
  | room                         -- a Held write that waits for budget room (R68)
  | programs (ids : List Nat)    -- waits for these one-bit programs
  | landing                      -- a Record Append whose records are landing
  | lots                         -- a Record Append whose Lots have not all retired
  | flushing (below : Nat)       -- a Flush of Held data accepted below this write sequence
  | query                        -- a direct query or a Release Result that waits for one
  | mark                         -- a Cycle Commit that waits for its mark
  | rom                          -- waits for the ROM
  | stalls                       -- waits for Stalls or Lots to end
  | event                        -- an outstanding Asynchronous Event Request
  | watch                        -- Set Features to PS4 (R113)
  | deleting                     -- a Delete I/O SQ that waits for the queue's commands
deriving DecidableEq, Repr

/-- A fetched command (R100 to R103). -/
structure Cmd where
  h       : Nat                  -- place in the fetch order
  qid     : Nat
  sub     : Submission
  locks   : List Lock
  keeper  : Bool                 -- inside a Keeper session (R350)
  epoch   : W32
  secure  : Bool                 -- the world of its queue at fetch
  begun   : Bool
  phase   : Phase
  bound   : Nat                  -- next sequence number at fetch
  net     : Int                  -- current net cycle at fetch
  era     : Int                  -- current era at fetch
  first   : Nat                  -- first sequence number of a Record Append
  off     : Nat                  -- bytes of its buffer already landed
  count   : Nat                  -- records landed
  resv    : List (Nat × Nat)     -- space reserved: NSID and bytes (R74)
  wt      : Bool                 -- some of its Held data was written through (R69)
  stored  : List (Nat × Nat)     -- records stored for it: NSID and sequence (R75)
  granted : Bool                 -- none of its locks waits for a command fetched before it (R102)
  below   : Nat                  -- next write sequence at fetch (R105)
  slots   : List Nat := []       -- write sequences of its stored slots that are not in NAND yet (R76)
  took    : List (Nat × Nat × Nat) := [] -- per namespace: the next free byte before its first record, and the bytes it took (R84)
deriving DecidableEq, Repr

/-- The place of the arbiter in its round (R98). -/
structure Arbiter where
  cls   : Nat                    -- weighted class visited: 0 high, 1 medium, 2 low
  left  : Option Nat             -- commands left of its weight; none while its visit has not begun
  turn  : Option (Nat × Nat)     -- queue whose turn runs, and commands left of its turn: weighted classes
  uturn : Option (Nat × Nat)     -- the same of the urgent queues, or of all of them in round robin
  last  : Vector Nat 4           -- queue that ended the last turn: high, medium, low, urgent or round robin
  stuck : Option Nat             -- queue whose next command waits for range-lock entries (R103)
deriving DecidableEq, Repr

def Arbiter.reset : Arbiter := ⟨0, none, none, none, Vector.replicate 4 0, none⟩

/-- Feature values (R94, Table 4-6). -/
structure Features where
  arb     : W32
  errRec  : W32
  coal    : W32                  -- 08h: [15:8] time, [7:0] threshold
  vecOff  : BitVec 256           -- 09h: coalescing disabled on a vector
  atomic  : W32
  async   : W32
deriving DecidableEq, Repr

def Features.reset : Features := ⟨0x0F070303, 0, 0, 0, 0, 0⟩

/-- An entry of the Error Information log. -/
structure ErrEntry where
  count : Nat
  sqid  : Nat
  cid   : Nat
  sct   : Nat
  sc    : Nat
  lba   : Nat
  nsid  : Nat
deriving DecidableEq, Repr

/-- A write of the host to a controller register, or a Function Level Reset, that arrives in Watch or before start-up step 6
and acts once the card runs commands (R108, R110, R113, R183). -/
inductive HostWrite where
  | enable (ams : Nat) (aqa : W32) (asq acq : W64)
  | reset
  | flr
  | shutdown (shn : Nat)
deriving DecidableEq, Repr

/-- The NVMe controller. -/
structure Nvme where
  en       : Bool
  rdy      : Bool
  cfs      : Bool
  shst     : Nat
  ams      : Nat
  shn      : Nat                  -- CC.SHN as written
  cc       : W32                  -- CC but for EN, AMS and SHN
  aqa      : W32
  asq      : W64
  acq      : W64
  msix     : List (Nat × W32)     -- dwords of the MSI-X table but for Vector Control; 0 when not listed (Table 4-2)
  late     : List HostWrite       -- oldest first
  sqs      : List (Nat × SubQueue)
  cqs      : List (Nat × CompQueue)
  arb      : Arbiter
  feat     : Features
  inflight : List Cmd             -- in fetch order
  next     : Nat                  -- next place in the fetch order
  crit     : Byte                 -- SMART Critical Warning as last reported (R412)
  events   : List (Nat × Nat × Nat)   -- asynchronous events not yet reported: type, information, log page
  unread   : List Nat             -- event types whose log page has not been read since they were reported
  wtHold   : Bool                 -- Held write-through after shutdown processing (R110)
  errs     : List ErrEntry        -- newest first
  errCount : Nat
  tests    : List (Nat × Nat)     -- self-test results, newest first: code and powered hours
  sanitize : Nat                  -- sanitize status: 0 never, 1 done, 2 in progress
  wctemp   : Int                  -- NAND warning and shutdown thresholds in K at the last controller reset (R386)
  cctemp   : Int
deriving DecidableEq, Repr

/-- CC.EN = 0 (PRESUMED NVMe reset values, notes/assumptions/6.md). -/
def Nvme.reset : Nvme :=
  { en := false, rdy := false, cfs := false, shst := 0, ams := 0, shn := 0, cc := 0, aqa := 0, asq := 0, acq := 0
    msix := [], late := [], sqs := [], cqs := []
    arb := .reset, feat := .reset, inflight := [], next := 0, crit := 0, events := [], unread := [], wtHold := false, errs := []
    errCount := 0, tests := [], sanitize := 0, wctemp := 353, cctemp := 368 }

/-! Namespaces and records (03_namespaces_and_records.md). -/

/-- A stored record as the position index lists it (R71, R260). -/
structure Stored where
  seq  : Nat
  era  : Int
  off  : Nat                     -- byte offset in the namespace
  len  : Nat
  stamp : W64
  src  : Nat
  ty   : Nat
  arcs : Nat
deriving DecidableEq, Repr

/-- The records of a stream namespace. -/
structure Stream where
  next    : Nat                  -- next free byte
  used    : Nat                  -- bytes from the oldest record to the next free byte, around the end
  recs    : List Stored          -- in storage order
  opened  : List LotRec          -- the open ingest Lot
  marks   : List (Nat × Bool)    -- records no mark has covered yet: sequence, and stored or dropped (R259)
  bits    : Nat                  -- BUCKET_BITS
  unindexed : List Nat           -- extents that the index does not cover since an unclean start-up (R262)
deriving DecidableEq, Repr

def Stream.reset : Stream := ⟨0, 0, [], [], [], 8, []⟩

/-- A namespace (Table 3-1). -/
structure Ns where
  nsze     : Nat
  ncap     : Nat
  fmt      : Nat                 -- LBA format 0 or 1
  ext      : Bool                -- metadata extends the logical block
  prot     : Nat                 -- protection type 0, 1 or 3
  stream   : Bool
  scan     : Bool                -- class Scan
  ring     : Bool
  encrypt  : Bool
  maxRec   : Nat
  attached : Bool
  key      : List Byte           -- its XTS key, wrapped under the OTP root key (R87, R352)
  st       : Stream
deriving DecidableEq, Repr

/-! The media (05_media_management.md). Slots are keyed by NSID × 2^40 + LBA. -/

/-- The newest content of an LBA in NAND. -/
structure Slot4k where
  data  : List Byte
  pi    : List Byte
  err   : W32                    -- its stored CRC32C XOR that of its bytes (R129, R371)
  wseq  : Nat
  place : Option Place
  pos   : Nat                    -- slot of the block: four to a page (Table 5-1)
deriving DecidableEq, Repr

/-- Held data in DRAM not yet in NAND (R119). -/
structure HeldSlot where
  data : List Byte
  pi   : List Byte
  err  : W32                     -- its CRC32C XOR that of its bytes (R86, R371)
  wseq : Nat
  since : Nat                    -- write sequence since which the LBA has been dirty (R105)
  ns   : Nat                     -- time of acceptance
deriving DecidableEq, Repr

/-- Slots that go into one plane page (R120): `grp` is the Held write that becomes visible with the last of its slots (R67),
`avoid` the superblock in which a program of them failed (R143). -/
structure Chunk where
  slots : List (Nat × Slot4k)
  grp   : Option Nat
  avoid : Option Nat
deriving DecidableEq, Repr

/-- A one-bit program on a die of a superblock: its page row, and the chunks of each plane's page (Table 5-1). -/
structure Prog where
  id    : Nat
  sb    : Nat
  die   : Fin 64
  row   : Nat
  pages : List (List Chunk)
deriving DecidableEq, Repr

/-- A block of NAND; one that is not listed is erased, sound and never erased since shipment. -/
structure Blk where
  erases  : Nat
  wear    : Nat                  -- 1/100 wear unit
  reads   : Nat
  suspect : Bool
  retired : Bool
  closed  : Bool
  tlc     : Bool
  header  : Bool                 -- the open header is written
  used    : Bool                 -- in a superblock, or waiting for its erase
  offset  : Option Int           -- threshold offset in mV stored for the block (R130)
  refresh : Nat                  -- 0 not queued, 1 Refresh class, 2 Fold class
  born    : Nat                  -- write sequence when its superblock opened: its place in the order of programming (R137)
  age     : Nat                  -- powered hours since its superblock opened (R402)
  passes  : Nat                  -- patrol round up to which it is read
  patrol  : Nat                  -- pages that this round has read of it
  slots   : List (Nat × Nat × Nat) -- slot headers written since its erase: position, slot key, write sequence (R165, R167)
deriving DecidableEq, Repr

def Blk.fresh : Blk :=
  { erases := 0, wear := 0, reads := 0, suspect := false, retired := false, closed := false, tlc := false, header := true
    used := false, offset := none, refresh := 0, born := 0, age := 0, passes := 0, patrol := 0, slots := [] }

/-- A die: the last 64 program times in each mode, newest first (R146, R147), and its read-threshold table. -/
structure Die where
  tTlc     : List Nat
  tOne     : List Nat
  detoured : Bool
  failed   : Bool
  timeouts : Nat
  centre   : Int                 -- centre of the read-threshold table in mV (R403)
  shifts   : List Int            -- valley shifts of the running patrol round
deriving DecidableEq, Repr

def Die.reset : Die := ⟨[], [], false, false, 0, 0, []⟩

/-- A parity group (R122, R131). -/
structure Group where
  folding  : Bool
  gc       : Bool
deriving DecidableEq, Repr

/-- A superblock (R116, R117, R124): one block per plane of its data dies, and parity blocks on the parity die. -/
structure Super where
  grp     : Nat
  kind    : Nat                  -- 0 one-bit buffer, 1 TLC of folds and refresh, 2 TLC of GC, 3 TLC of levelling, 4 flush reserve
  parDie  : Fin 64
  members : List Place
  parity  : List Place           -- its parity blocks while the parity is kept
  fill    : List (Nat × Nat)     -- slots taken per die, over its four planes
  out     : List (Fin 64)        -- dies that take no more programs here (R143)
  rows    : Nat                  -- stripes whose parity is on the parity die; that of later ones is in staging SRAM (R121)
  closed  : Bool
  verify  : Bool                 -- the verify read of closing runs
  failing : List Place           -- members that failed it and hold data still (R124)
deriving DecidableEq, Repr

/-- A copy of a slot whose source is kept (R145, R170, R177): the slot, where it was and where it is, and whether its map change is
durable. -/
structure Copy where
  key     : Nat
  src     : Place
  pos     : Nat
  dst     : Place
  durable : Bool
deriving DecidableEq, Repr

/-- A record of the map journal (R168): the slots of one write. -/
structure JRec where
  keys : List Nat
  wseq : Nat                     -- next write sequence when it was accepted
  ns   : Nat                     -- time of the write
deriving DecidableEq, Repr

/-- A commit mark (Table 2-13), with the era of its crossing stamp (R81). -/
structure Mark where
  num     : Nat
  stamp   : W64
  era     : Int
  bound   : Nat
  flags   : Nat
  entries : List (Nat × Nat × Nat)   -- NSID, stored, dropped
deriving DecidableEq, Repr

/-- A mark not yet durable; `cmd` is the Cycle Commit that forced it. -/
structure PendingMark where
  stamp : W64
  era   : Int
  bound : Nat
  flags : Nat
  cmd   : Option Nat
deriving DecidableEq, Repr

/-- Everything on or about the NAND. -/
structure Media where
  content  : List (Nat × Slot4k)
  held     : List (Nat × HeldSlot)
  unrec    : List Nat                  -- keys of LBAs marked unrecovered
  wseq     : Nat                       -- next write sequence (R166)
  queue    : List Chunk                -- one-bit data that waits for a die (R120)
  progs    : List Prog                 -- one-bit programs on the dies
  nextProg : Nat
  partials : List (Nat × List (Nat × Slot4k)) -- programmed slots of Held writes that are not programmed whole (R67)
  blocks   : List (Nat × Blk)          -- by (die × 4 + plane) × 4096 + block
  dies     : Vector Die 64
  spares   : Vector Nat 256            -- spare blocks left per plane
  groups   : Vector Group 2
  supers   : List (Nat × Super)
  nextSuper : Nat
  nextPar  : Vector Nat 2              -- superblocks opened per group, which gives the next parity die (R117)
  cache    : List (Nat × Bool)         -- map pages cached, most recently used first, and whether each is dirty (R125)
  wants    : List Nat                  -- map pages wanted from NAND
  idx      : List (Nat × Bool)         -- index pages in the position-index cache, as the map cache (R261)
  stale    : List Nat                  -- map pages outside the cache with a change to come (R126)
  jrnl     : List JRec                 -- map-journal records in DRAM (R168)
  shadow   : List (Nat × Option Slot4k) -- what durable map entries name where an unprogrammed journal record changes it (R170)
  ckptSeq  : Nat                       -- write sequence of the last Scan checkpoint
  ckptNs   : Nat                       -- time of it
  ckptOpen : List Nat                  -- its list of open blocks (R169)
  ckptPages : List Nat                 -- the Scan map pages it holds
  scanBytes : Nat                      -- Scan-class bytes programmed since it
  clean    : Bool                      -- the clean-shutdown record is valid
  flushRec : Bool                      -- the flush-complete record of the last power-down
  path     : Option Nat                -- rebuild path of this start-up: 0 clean, 1 unclean, 2 full
  toErase  : List Place                -- blocks that wait for their erase
  intents  : List Nat                  -- erase-intent records whose erase has not ended
  marks    : List Mark                 -- newest first
  pendMarks : List PendingMark         -- in the order of their numbers
  eras     : List (Int × Nat)          -- era records, newest first: era and sequence boundary (R33)
  eol      : Bool                      -- read-only end of life
  idle     : Bool                      -- 1 s without a host or ingest write
  levelling : Bool
  round    : Nat                       -- the running patrol round (R137)
  parRows  : Nat                       -- parity page rows programmed
  copied   : List Copy                 -- copies whose map change is not durable, or whose destination is still open (R170, R177)
deriving DecidableEq, Repr

/-- At shipment: 84 spare blocks per plane, and a valid clean-shutdown record (R118, R173). -/
def Media.reset : Media :=
  { content := [], held := [], unrec := [], wseq := 0, queue := [], progs := [], nextProg := 0, partials := [], blocks := []
    dies := Vector.replicate 64 .reset, spares := Vector.replicate 256 84, groups := Vector.replicate 2 ⟨false, false⟩
    supers := [], nextSuper := 0, nextPar := Vector.replicate 2 0, cache := [], wants := [], idx := [], stale := [], jrnl := []
    shadow := [], ckptSeq := 0, ckptNs := 0, ckptOpen := [], ckptPages := [], scanBytes := 0, clean := true
    flushRec := true, path := none, toErase := [], intents := [], marks := [], pendMarks := [], eras := [(0, 0)]
    eol := false, idle := true, levelling := false, round := 0, parRows := 0, copied := [] }

/-! The whole card. -/

/-- Held data that waits for budget room (R68): a Write by its place in the fetch order, or an ingest Lot. -/
inductive Waiting where
  | write (h : Nat)
  | lot (id : Nat)
deriving DecidableEq, Repr

/-- What a Porter moves data for (R21, R22): a program of the flash translation cores, a host command by its place in the fetch
order, or a move of a Stall. -/
inductive Holder where
  | cores (prog : Nat)
  | host (h : Nat)
  | stall (n id : Nat)
deriving DecidableEq, Repr

/-- The whole machine: the waiting commands, the housekeeping counter in ns (R12), the counter of free values taken
(the model's own field), and the blocks. -/
structure State where
  pending : List Instr
  now     : Nat
  fresh   : Nat
  pwr     : Power
  therm   : Thermal
  hu      : Holdup
  health  : Health
  bcn     : Bcn
  bus     : Bus
  keeper  : Keeper
  acc     : Acc
  ev      : Events
  hb      : Harbour
  nv      : Nvme
  ns      : List (Nat × Ns)
  med     : Media
  stalls  : Vector Stall 64
  lots    : List Lot             -- closed and not retired, in closing order
  nextLot : Nat
  pipes   : List (Nat × Pipe)
  queries : List Query           -- in fetch order
  slots   : List (Nat × Slot)
  waitq   : List Waiting         -- in arrival order (R68)
  opens   : List Nat             -- namespaces whose open Lot holds a record, oldest first
  porters : List (Nat × Holder)  -- Porters that move data, 0 to 127, 16 to a group: what each serves (R10, R22)
  units   : List (Nat × Nat)     -- frames of the unit instances in service, and the call each serves (R195)
  nextCall : Nat
  offReports : Nat               -- TILE_OFF reports to accesses of powered-off frames (R26)
  ram     : List Host.Cell       -- staging SRAM and DRAM; an unlisted byte reads 0
  dataOut : List Byte            -- data of the last BAR2 read, or register read that is a row of its own
deriving DecidableEq, Repr

/-- The machine stops with no fault: every command of the block has an effect or changes nothing (notes/assumptions/2.md).
The constructor is never raised; it is here so that the type is inhabited, and it is safe. -/
inductive Fault where
  /-- Raised by no command. Safe. -/
  | none
deriving DecidableEq, Repr

/-- Why a command is refused. -/
inductive Refusal where
  /-- Raised by Dispatch.lean for a command that has no meaning yet. Safe: nothing can be proved of it. -/
  | notModelled (mnemonic : String)
deriving DecidableEq, Repr

/-- The card right after reset: shipped, without power, nothing waiting. -/
def State.reset : State :=
  { pending := [], now := 0, fresh := 0, pwr := .reset, therm := .reset, hu := .reset, health := .reset, bcn := .reset
    bus := .reset, keeper := .reset, acc := .reset, ev := .reset, hb := .reset, nv := .reset, ns := [], med := .reset
    stalls := Vector.replicate 64 .reset, lots := [], nextLot := 0, pipes := [], queries := [], slots := []
    waitq := [], opens := [], porters := [], units := [], nextCall := 0, offReports := 0, ram := [], dataOut := [] }

end Sys2Proof.Machine
end

