-- ==== Sys2Proof/Machine/Beacon.lean ====
section
/-! DEFINITION. The Beacon unit (02_beacon.md): stamps, counting, Arcs, commit crossings, faults and Beacon Zero, each
as a function of the unit's own state. The whole-card effects of what it raises stand in Ops.lean. -/

namespace Sys2Proof.Machine

/-! Register fields (Tables 2-4 to 2-10). -/

/-- CPC (R28). -/
def Bcn.cpc (b : Bcn) : Nat := b.regs.cpc.toNat + 1
def Bcn.mode (b : Bcn) : Nat := fld b.regs.cfg 31 30
def Bcn.indexMode (b : Bcn) : Nat := fld b.regs.cfg 29 28
def Bcn.invert (b : Bcn) : Bool := bit b.regs.cfg 27
def Bcn.indexTol (b : Bcn) : Nat := fld b.regs.cfg 23 16
def Bcn.extrapOn (b : Bcn) : Bool := bit b.regs.cfg 15
def Bcn.interpOn (b : Bcn) : Bool := bit b.regs.cfg 14
def Bcn.master (b : Bcn) : Bool := bit b.regs.ssi 31
def Bcn.ssiCheck (b : Bcn) : Nat := fld b.regs.ssi 30 29
def Bcn.gray (b : Bcn) : Bool := bit b.regs.ssi 28
def Bcn.wordBits (b : Bcn) : Nat := fld b.regs.ssi 23 19 + 1
def Bcn.ssiPeriodNs (b : Bcn) : Nat := fld b.regs.ssi 15 8 * 1000
def Bcn.errLimit (b : Bcn) : Nat := fld b.regs.ssi 7 0
def Bcn.stillTime (b : Bcn) : Nat := fld b.regs.timing 31 16
def Bcn.interpMaxNs (b : Bcn) : Nat := fld b.regs.timing 15 0 * 1000
def Bcn.commitEn (b : Bcn) : Bool := bit b.regs.commitCtl 31
/-- EVERY, where 0 counts as 1 (R51). -/
def Bcn.every (b : Bcn) : Nat := max 1 (fld b.regs.commitCtl 15 0)

/-- Cycle field modulus of the stamp (R29). -/
def cycleMod : Nat := 16777215

/-- The net position P (R28). -/
def Bcn.pos (b : Bcn) : Int := b.net * (b.cpc : Int) + (b.count : Int)

/-- A position as net cycle and count. -/
def Bcn.split (b : Bcn) (p : Int) : Int × Nat := (fdivNat p b.cpc, fmodNat p b.cpc)

def Bcn.inFault (b : Bcn) : Bool := b.code != 0

/-- The era of a net cycle (R33). -/
def eraOf (net : Int) : Int := fdivNat net cycleMod

/-- The cycle field of a net cycle (R29). -/
def cycleField (net : Int) : Nat := fmodNat net cycleMod

/-- The current era: of the net cycle, or of the last valid count while in fault (R33). -/
def Bcn.curEra (b : Bcn) : Int := if b.inFault then eraOf b.validNet else eraOf b.net

/-! Stamps. -/

/-- A stamp from its three fields (R29). -/
def mkStamp (cycle count frac : Nat) : W64 := w64 (cycle * 2 ^ 40 + (count % 2 ^ 32) * 2 ^ 8 + frac % 256)

/-- The fault stamp: the last valid count and the fault code (R29). -/
def Bcn.faultStamp (b : Bcn) : W64 := mkStamp 0xFFFFFF b.valid b.code

/-- Position in units of 1/256 count by extrapolation from the last two samples, at time t; two sample periods after the last
sample it stops, and the position then holds (R34). -/
def Bcn.extrapPos (b : Bcn) (t : Nat) : Option Int :=
  match b.inp.sample, b.inp.slope with
  | some (p, at_), some (d, gap) =>
    let period := if b.mode = 2 then b.ssiPeriodNs else gap
    let τ := if b.inp.extrap then min (t - at_) (2 * period) else 2 * period
    some (p * 256 + fdivNat (d * 256 * (τ : Int)) gap)
  | _, _ => none

/-- Two samples place the position between samples and after them (R34). -/
def Bcn.sloped (b : Bcn) : Bool := (b.mode == 2 || b.mode == 3) && b.extrapOn && (b.inp.slope.any fun x => x.2 != 0)

/-- Does extrapolation move the position now (R34). -/
def Bcn.extrapolates (b : Bcn) : Bool := b.sloped && b.inp.extrap && !b.still

/-- The fraction from the time since the last edge, turned over when the last count was in reverse (R34). -/
def edgeFrac (rev : Bool) (f : Nat) : Nat := if rev then 0xFF - min f 0xFF else min f 0xFF

/-- The interpolated fraction at time t (R34); `free` stands where the spec states none, before two edges exist. In SSI and bus-fed modes
with EXTRAP = 0 or before two samples it is 0x00 (DESIGN CHOICE, notes/assumptions/39.md: R34 gives it for EXTRAP = 1 only). -/
def Bcn.frac (b : Bcn) (t : Nat) (free : Byte) : Nat :=
  if b.still then 0 else
  match b.mode with
  | 1 =>
    if !b.interpOn then 0 else
    match b.inp.lastEdge, b.inp.interval with
    | some e, some iv => if iv > b.interpMaxNs then 0 else edgeFrac b.inp.edgeRev (256 * (t - e) / iv)
    | _, _ => free.toNat
  | 0 =>
    match b.inp.lastEdge with
    | some e => edgeFrac b.inp.edgeRev (256 * (t - e) * b.inp.rate.toNat / 1000000000)
    | none => free.toNat
  | _ =>
    if b.sloped then ((b.extrapPos t).elim 0 fun p => fmodNat p 256) else 0

/-- The current stamp (R29, R30, R34). -/
def Bcn.stamp (b : Bcn) (t : Nat) (free : Byte) : W64 :=
  if b.inFault then b.faultStamp else mkStamp (cycleField b.net) b.count (b.frac t free)

/-! Arcs (R46 to R49). -/

def Arc.on (a : Arc) : Bool := bit a.eCtl 31
def Arc.dir (a : Arc) : Nat := fld a.eCtl 30 29
/-- The settings in effect let the Arc be entered at all (R46). -/
def Arc.live (a : Arc) (cpc : Nat) : Bool := a.on && a.eStart.toNat < cpc && a.eStop.toNat < cpc
/-- HYST, ignored when START = END (Table 2-10). -/
def Arc.hyst (a : Arc) : Nat := if a.eStart = a.eStop then 0 else fld a.eCtl 3 0
/-- Start of the instance of cycle c. -/
def Arc.startOf (a : Arc) (cpc : Nat) (c : Int) : Int := c * (cpc : Int) + (a.eStart.toNat : Int)
/-- End of the instance of cycle c: in the same cycle, or in the next when it spans the wrap or is a whole cycle. -/
def Arc.endOf (a : Arc) (cpc : Nat) (c : Int) : Int :=
  (if a.eStart.toNat < a.eStop.toNat then c else c + 1) * (cpc : Int) + (a.eStop.toNat : Int)
/-- The cycle qualifier (R46). -/
def Arc.qualifies (a : Arc) (c : Int) : Bool :=
  !bit a.eCtl 28 || (cycleField c % (fld a.eCtl 27 16) == fld a.eCtl 15 4)
/-- The instance of cycle c, widened by HYST, contains P (R47). -/
def Arc.holds (a : Arc) (cpc : Nat) (c p : Int) : Bool :=
  decide (a.startOf cpc c - (a.hyst : Int) ≤ p) && decide (p < a.endOf cpc c + (a.hyst : Int))

/-- The written registers take effect (R49). -/
def Arc.adopt (a : Arc) : Arc := { a with eStart := a.start, eStop := a.stop, eCtl := a.ctl }

/-- An event at a point of the path; enters come after leaves of the same point (R48). -/
structure ArcMark where
  key   : Int
  enter : Bool
  arc   : Nat
deriving DecidableEq, Repr

/-- Order of events (R48): along the path, LEAVE before ENTER at one point, then by Arc number. -/
def ArcMark.before (x y : ArcMark) : Bool :=
  if x.key ≠ y.key then x.key < y.key else if x.enter ≠ y.enter then !x.enter else x.arc ≤ y.arc

/-- Insertion into an ordered list of marks. -/
def insertMark (x : ArcMark) : List ArcMark → List ArcMark
  | [] => [x]
  | y :: ys => if x.before y then x :: y :: ys else y :: insertMark x ys

def sortMarks (xs : List ArcMark) : List ArcMark := xs.foldr insertMark []

/-- One candidate instance on a forward path: leave the old one when its far end comes first, then enter (R46, R47).
DESIGN CHOICE (notes/assumptions/39.md): R46 has an Arc inside one instance at a time, so a start that P crosses while the Arc
is still inside the HYST margin of the instance before gives no ENTER, then or at the LEAVE. -/
def Arc.forwardAt (n cpc : Nat) (a : Arc) (acc : Option Int × List ArcMark) (c : Int) : Option Int × List ArcMark :=
  let s := a.startOf cpc c
  let acc : Option Int × List ArcMark := match acc.1 with
    | some w =>
      let e := a.endOf cpc w + (a.hyst : Int)
      if e ≤ s then (none, acc.2 ++ [⟨e, false, n⟩]) else acc
    | none => acc
  match acc.1 with
  | some _ => acc
  | none => if Nat.testBit a.dir 0 && a.qualifies c then (some c, acc.2 ++ [⟨s, true, n⟩]) else acc

/-- One candidate instance on a reverse path; keys are negated so that they rise along the path. An end crossed within the
margin of another instance gives no ENTER (DESIGN CHOICE, notes/assumptions/39.md). -/
def Arc.reverseAt (n cpc : Nat) (a : Arc) (acc : Option Int × List ArcMark) (c : Int) : Option Int × List ArcMark :=
  let e := a.endOf cpc c
  let acc : Option Int × List ArcMark := match acc.1 with
    | some w =>
      let s := a.startOf cpc w - (a.hyst : Int)
      if e ≤ s then (none, acc.2 ++ [⟨-s, false, n⟩]) else acc
    | none => acc
  match acc.1 with
  | some _ => acc
  | none => if Nat.testBit a.dir 1 && a.qualifies c then (some c, acc.2 ++ [⟨-e, true, n⟩]) else acc

/-- All events of Arc n on the straight path from p to q, and the instance it is inside after it (R48). -/
def Arc.path (n cpc : Nat) (a : Arc) (p q : Int) : Option Int × List ArcMark :=
  if p < q then
    let cs := if a.live cpc then
        intsUp (fdivNat (p - (a.eStart.toNat : Int)) cpc + 1) (fdivNat (q - (a.eStart.toNat : Int)) cpc) else []
    let r := cs.foldl (a.forwardAt n cpc) (a.inside, [])
    match r.1 with
    | some w =>
      let e := a.endOf cpc w + (a.hyst : Int)
      if e ≤ q then (none, r.2 ++ [⟨e, false, n⟩]) else r
    | none => r
  else if q < p then
    let off := a.endOf cpc 0
    let cs := if a.live cpc then (intsUp (fdivNat (q - off) cpc + 1) (fdivNat (p - off) cpc)).reverse else []
    let r := cs.foldl (a.reverseAt n cpc) (a.inside, [])
    match r.1 with
    | some w =>
      let s := a.startOf cpc w - (a.hyst : Int)
      if q < s then (none, r.2 ++ [⟨-s, false, n⟩]) else r
    | none => r
  else (a.inside, [])

def ArcMark.event (m : ArcMark) : BcnEvent := if m.enter then .enter m.arc else .leave m.arc

/-- The written settings of every Arc take effect (R49). -/
def Bcn.adopted (b : Bcn) : Bcn := { b with arcs := b.arcs.map Arc.adopt }

/-- Each Arc that is inside but is switched off, or whose instance widened by HYST does not contain P, raises LEAVE (R49, R56,
R58). -/
def Bcn.leaveGone (b : Bcn) : Bcn × List BcnEvent :=
  let gone : Arc → Bool := fun a => a.inside.any fun c => !(a.on && a.holds b.cpc c b.pos)
  ({ b with arcs := b.arcs.map fun a => { a with inside := if gone a then none else a.inside } },
    ((List.range 64).filter fun n => (b.arcs[n]?).any gone).map BcnEvent.leave)

/-- A count change: the written settings take effect, and Arcs that no longer contain P leave (R49). -/
def Bcn.recheck (b : Bcn) : Bcn × List BcnEvent := b.adopted.leaveGone

/-- ARC_STATE (Table 2-4). -/
def Bcn.arcState (b : Bcn) : Nat := vbits b.arcs fun a => a.inside.isSome

/-! Commit crossings (R51). -/

/-- What one commit crossing of cycle c at time t does. `ok` says that commits can be made now: the card is awake with
its main rail (R60). -/
def Commits.cross (m : Commits) (en : Bool) (every : Nat) (t : Nat) (ok : Bool) (c : Int) : Commits × Option Nat :=
  let qual := (m.lastCycle.all fun l => decide (l < c)) && !(m.counted.contains c)
  if !(en && qual) then (m, none) else
  let m := { m with counted := c :: m.counted, count := m.count + 1 }
  if !((m.restart || decide (every ≤ m.count)) && m.running && ok) then (m, none) else
  if m.lastNs.any fun l => decide (t < l + 250000) then ({ m with restart := true }, none) else
  ({ m with lastCycle := some c, counted := m.counted.filter fun x => decide (c < x), count := 0, restart := false,
            lastNs := some t, zeroCross := false, zeroForce := false },
   some (if m.zeroCross then 4 else 0))

/-- All commit crossings on a forward path from p to q. -/
def Bcn.crossings (b : Bcn) (t : Nat) (ok : Bool) (p q : Int) : Commits × List BcnEvent :=
  let cp : Int := b.regs.commitPos.toNat
  let cs := if b.regs.commitPos.toNat < b.cpc ∧ p < q then
      intsUp (fdivNat (p - cp) b.cpc + 1) (fdivNat (q - cp) b.cpc) else []
  cs.foldl (fun acc c =>
    let r := acc.1.cross b.commitEn b.every t ok c
    (r.1, acc.2 ++ [.crossing c r.2])) (b.com, [])

/-! Moving the position. -/

/-- The position becomes (net, count) along the straight path (R46 to R51); in fault nothing is evaluated (R56), and
the Arc settings only take effect (R49). The last valid count follows while not in fault. DESIGN CHOICE (notes/assumptions/39.md): Arc settings that take effect at this
count change (R49) are tested against the P before the change, and the path is then walked with them. -/
def Bcn.move (b : Bcn) (t : Nat) (ok : Bool) (net : Int) (count : Nat) : Bcn × List BcnEvent :=
  let p := b.pos
  let q := net * (b.cpc : Int) + (count : Int)
  let base := { b with net := net, count := count
                       rev := if q = p then b.rev else decide (q < p)
                       still := b.still && decide (q = p) }
  if b.inFault then (if q = p then base else base.adopted, []) else
  if q = p then ({ base with validNet := net, valid := count }, []) else
  let (b1, ev1) := b.recheck
  let res := vmapi b1.arcs fun n a => a.path n b.cpc p q
  let arcs := vmapi b1.arcs fun n a => { a with inside := ((res[n]?).elim none fun r => r.1) }
  let ev2 := (sortMarks (res.toList.flatMap fun r => r.2)).map ArcMark.event
  let (com, ev3) := b.crossings t ok p q
  ({ base with arcs := arcs, com := com, validNet := net, valid := count }, ev1 ++ ev2 ++ ev3)

/-- The position changes without a path (R56, R58): Arcs that no longer contain P leave. -/
def Bcn.jumpTo (b : Bcn) (net : Int) (count : Nat) : Bcn × List BcnEvent :=
  let b' := { b with net := net, count := count, validNet := net, valid := count
                     still := b.still && decide (count = b.count) }
  if net = b.net ∧ count = b.count then (b', [])
  else if b.inFault then (b'.adopted, []) else b'.recheck

/-! Faults (R55, R56). -/

/-- A fault of Table 2-9 sets its sticky bit. -/
def Bcn.mark (b : Bcn) (code : Nat) : Bcn := { b with sticky := putBit b.sticky (8 - code) true }

/-- A fault sets its sticky bit and puts the Beacon into the fault state; a second fault keeps the first code. -/
def Bcn.enterFault (b : Bcn) (code : Nat) : Bcn :=
  let b := b.mark code
  if b.inFault then b else
  { b with code := code, validNet := b.net, valid := b.count, entered := vmod b.entered code satInc }

/-- The fault state ends: Arcs that no longer contain P leave, and the next qualifying crossing commits (R51, R56). -/
def Bcn.endFault (b : Bcn) : Bcn × List BcnEvent :=
  if b.inFault then
    ({ b with code := 0, validNet := b.net, valid := b.count
              com := { b.com with restart := true }, inp := { b.inp with reref := false, resume := false } }).leaveGone
  else (b, [])

/-! Beacon Zero (R58). -/

/-- A Beacon Zero takes effect with the loaded cycle and the count given; the samples before it keep their distance from the
position. One that is armed stays armed (R58: ZERO_NOW acts at once, and the armed one at its index event). -/
def Bcn.zeroEffect (b : Bcn) (v count : Nat) : Bcn × List BcnEvent :=
  let net := b.curEra * (cycleMod : Int) + ((min v 0xFFFFFE : Nat) : Int)
  let (b1, ev1) := b.jumpTo net count
  let (b2, ev2) := b1.endFault
  let c := b2.com
  let moved := (net - b.net) * (b.cpc : Int) + ((count : Int) - (b.count : Int))
  ({ b2 with inp := { b2.inp with sample := b2.inp.sample.map fun x => (x.1 + moved, x.2), reref := false, resume := false }
             com := { c with counted := [], lastCycle := none, restart := true, zeroCross := true, zeroForce := true } },
   ev1 ++ ev2)

/-- A Beacon Zero arrives, from the bus or from ZERO_ARM: armed in quadrature mode, at the end of the frame in the
others (R58). -/
def Bcn.zeroArrives (b : Bcn) (v : Nat) : Bcn × List BcnEvent :=
  match b.mode with
  | 1 => ({ b with armed := true, armVal := min v 0xFFFFFE }, [])
  | 0 => b.zeroEffect v 0
  | _ => b.zeroEffect v b.count

/-- ZERO_NOW applies the same change at once in every mode (R58). -/
def Bcn.zeroNow (b : Bcn) (v : Nat) : Bcn × List BcnEvent :=
  match b.mode with
  | 1 => b.zeroEffect v 0
  | 0 => b.zeroEffect v 0
  | _ => b.zeroEffect v b.count

/-! Sources of position. -/

/-- One counted step forward or in reverse (R28). -/
def Bcn.stepped (b : Bcn) (rev : Bool) : Int × Nat := b.split (b.pos + if rev then -1 else 1)

/-- A filtered change of A or B (R36). -/
def Bcn.quadChange (b : Bcn) (t : Nat) (ok : Bool) (q : QuadStep) : Bcn × List BcnEvent :=
  let adv : Fin 4 := match q with
    | .forward => 1
    | .reverse => 3
    | .both => 2
  let b := { b with inp := { b.inp with phase := b.inp.phase + adv } }
  let tooSoon := b.inp.lastCounted.any fun l => decide (t < l + 25)
  if q = .both ∨ tooSoon then (b.enterFault 2, []) else
  let rev := (q == .reverse) != b.invert
  let iv := b.inp.lastEdge.map fun e => t - e
  let b := { b with inp := { b.inp with lastCounted := some t, lastEdge := some t, interval := iv, edgeRev := rev } }
  let (net, count) := b.stepped rev
  b.move t ok net count

/-- Distance of the count from 0 around the cycle. -/
def Bcn.offZero (b : Bcn) : Nat := min b.count (b.cpc - b.count)

/-- The index event (R37, R58). -/
def Bcn.index (b : Bcn) (t : Nat) (ok : Bool) : Bcn × List BcnEvent :=
  if b.armed then { b with armed := false }.zeroEffect b.armVal 0 else
  match b.indexMode with
  | 1 => if b.indexTol < b.offZero then (b.enterFault 3, []) else (b, [])
  | 2 =>
    let net := if b.cpc ≤ 2 * b.count then b.net + 1 else b.net
    let b := if b.indexTol < b.offZero then b.mark 3 else b
    let (b1, ev1) := b.move t ok net 0
    let (b2, ev2) := b1.endFault
    (b2, ev1 ++ ev2)
  | _ => (b, [])

/-- A sample's count in the sense that DIR_INVERT gives (R35). -/
def Bcn.sense (b : Bcn) (v : Nat) : Nat :=
  let v := v % b.cpc
  if b.invert then (b.cpc - v) % b.cpc else v

/-- The step of the shortest path from the count `old` to a new count (R39). -/
def shortest (cpc old new : Nat) : Int :=
  let d : Int := (new : Int) - (old : Int)
  if (cpc : Int) < 2 * d then d - cpc else if (cpc : Int) < -(2 * d) then d + cpc else d

/-- The anchor of samples (Table 2-9): the last good sample, or the last valid count in the JUMP fault and while no sample was
taken, of its net cycle and modulo CPC (R45). DESIGN CHOICE (notes/assumptions/39.md): a word with good check bits beyond BCN_JUMP
during a fault is not applied (R41) and does not become the last good word. -/
def Bcn.anchor (b : Bcn) : Int :=
  let valid : Int := b.validNet * (b.cpc : Int) + ((b.valid % b.cpc : Nat) : Int)
  if b.code = 5 then valid else b.inp.sample.elim (if b.inFault then valid else b.pos) fun s => s.1

/-- A sample is taken: the last two samples give the slope of extrapolation (R34). -/
def Bcn.noteSample (b : Bcn) (t : Nat) (p : Int) : Bcn :=
  let slope := b.inp.sample.map fun s => (p - s.1, t - s.2)
  { b with inp := { b.inp with sample := some (p, t), slope := slope, extrap := true, errRun := 0 } }

/-- Within the jump limit (R41). -/
def Bcn.within (b : Bcn) (d : Int) : Bool := b.regs.jump = 0 || decide (d.natAbs ≤ b.regs.jump.toNat)

/-- A good SSI word or a bus-fed value v (R39 to R41, R55, R59, R60). -/
def Bcn.sampleIn (b : Bcn) (t : Nat) (ok : Bool) (v : Nat) : Bcn × List BcnEvent :=
  let v := b.sense v
  if b.code = 6 ∧ !b.inp.reref then
    let b := if v = b.count then b else { b.adopted with count := v, still := false }
    (b.noteSample t b.pos).endFault
  else
    let a := b.anchor
    let d := shortest b.cpc (fmodNat a b.cpc) v
    let near := b.within d
    if b.inp.resume && !near then
      let b := { b with inp := { b.inp with resume := false, reref := true, errRun := 0 } }
      ((b.enterFault 6), [])
    else if !near then
      ({ (b.enterFault 5) with inp := { b.inp with errRun := 0 } }, [])
    else
      let b := { b with inp := { b.inp with resume := false } }
      let (net, count) := b.split (a + d)
      if b.code = 1 ∨ b.code = 4 ∨ b.code = 5 then
        let (b1, ev1) := b.move t ok net count
        let (b2, ev2) := ({ b1 with inp := { b1.inp with sample := none } }.noteSample t (a + d)).endFault
        (b2, ev1 ++ ev2)
      else
        let (b1, ev1) := b.move t ok net count
        (b1.noteSample t (a + d), ev1)

/-- The position follows the extrapolation up to time t (R34). -/
def Bcn.advance (b : Bcn) (t : Nat) (ok : Bool) : Bcn × List BcnEvent :=
  if b.extrapolates && !b.inFault then
    match b.extrapPos t with
    | some p => let (net, count) := b.split (fdivNat p 256); b.move t ok net count
    | none => (b, [])
  else (b, [])

/-- The check bits of an SSI word hold (R39). -/
def Bcn.wordGood (b : Bcn) (word : W32) (check : BitVec 6) : Bool :=
  let v := word.toNat % 2 ^ b.wordBits
  match b.ssiCheck with
  | 1 => popcount 32 v % 2 == check.toNat % 2
  | 2 => crc6 b.wordBits v == check.toNat
  | _ => true

/-- The position that an SSI word spells: Gray code converted (R39). -/
def Bcn.wordValue (b : Bcn) (word : W32) : Nat :=
  let v := word.toNat % 2 ^ b.wordBits
  if b.gray then grayToBin b.wordBits v else v

/-- An SSI word arrives (R38, R39). -/
def Bcn.ssiIn (b : Bcn) (t : Nat) (ok : Bool) (word : W32) (check : BitVec 6) : Bcn × List BcnEvent :=
  let (b, ev1) := { b with inp := { b.inp with frame := false } }.advance t ok
  if b.wordGood word check then
    let (b2, ev2) := b.sampleIn t ok (b.wordValue word)
    (b2, ev1 ++ ev2)
  else
    let run := b.inp.errRun + 1
    let b := { b.mark 4 with inp := { b.inp with errRun := run } }
    (if b.errLimit ≤ run then b.enterFault 4 else b, ev1)

/-- A line fault of a pair that the mode uses (R55, Tables 2-1 and 2-9). -/
def Bcn.pairUsed (b : Bcn) (p : BcnPair) : Bool :=
  match b.mode, p with
  | 1, .a => true
  | 1, .b => true
  | 1, .z => true
  | 2, .a => true
  | 2, .ck => !b.master
  | _, _ => false

/-! Register writes (R44, R45, R51). -/

/-- BCN_CFG is written: reserved bits read 0, and a change of MODE, FILT, DIR_INVERT or INDEX_MODE is RECONFIG (R45). What an input
gave before a change of MODE places no position after it, nor do samples of the other sense; a rate that waits for the next count
still waits (R42). -/
def Bcn.writeCfg (b : Bcn) (v : W32) : Bcn :=
  let v := v &&& 0xFFFFC000
  let changed := (v ^^^ b.regs.cfg) &&& 0xFF000000
  let b := { b with regs := { b.regs with cfg := v } }
  if changed = 0 then b else
  let b := b.enterFault 7
  let i := if bit changed 27 then { b.inp with sample := none, slope := none } else b.inp
  if fld changed 31 30 = 0 then { b with inp := i }
  else { b with inp := { i with sample := none, slope := none, lastEdge := none, interval := none, rate := b.regs.intRate } }

/-- BCN_CPC is written: below 15 it is stored as 15; a change takes the count modulo the new CPC (R28, R45). -/
def Bcn.writeCpc (b : Bcn) (v : W32) : Bcn :=
  let v := if v.toNat < 15 then 15#32 else v
  if v = b.regs.cpc then b else
  let b := b.enterFault 7
  let b := { b with regs := { b.regs with cpc := v } }
  { b with count := b.count % b.cpc, still := b.still && decide (b.count < b.cpc)
           inp := { b.inp with sample := none, slope := none } }

/-- BCN_SSI with its stored minimums (Table 2-6). -/
def storeSsi (v : W32) : W32 :=
  let v := if fld v 23 19 < 12 then putFld v 23 19 12 else v
  let v := if fld v 15 8 < 2 then putFld v 15 8 2 else v
  if fld v 7 0 = 0 then putFld v 7 0 1 else v

/-- BCN_COMMIT_CTL: setting EN from 0 to 1 is a restart event (R51). -/
def Bcn.writeCommitCtl (b : Bcn) (v : W32) : Bcn :=
  let v := v &&& 0x8000FFFF
  let rise := bit v 31 && !b.commitEn
  { b with regs := { b.regs with commitCtl := v }
           com := if rise then { b.com with restart := true } else b.com }

/-- BCN_INT_RATE: larger values are stored as 40,000,000 (R42). -/
def storeRate (v : W32) : W32 := if 40000000 < v.toNat then 40000000#32 else v

/-- BCN_INT_RATE is written at time t: the rate changes at the next count of Internal mode (R42). Where no count is to come,
with a rate of 0 in effect or in another mode, it changes at once (DEDUCED, notes/assumptions/39.md). -/
def Bcn.writeRate (b : Bcn) (t : Nat) (v : W32) : Bcn :=
  let b := { b with regs := { b.regs with intRate := storeRate v } }
  if b.mode = 0 ∧ b.loaded ∧ b.inp.rate ≠ 0 then b else
  { b with inp := { b.inp with rate := storeRate v
                               lastEdge := if b.mode = 0 then b.inp.lastEdge.map fun _ => t else b.inp.lastEdge } }

/-- ARC_CTL_n: QUAL_MOD of 0 is stored as 1 (Table 2-10). -/
def storeArcCtl (v : W32) : W32 := if fld v 27 16 = 0 then putFld v 27 16 1 else v

/-- BCN_STATUS (Table 2-8); STATE reads 11 in Compat mode (R61). -/
def Bcn.status (b : Bcn) (compat : Bool) : W32 :=
  let st := if compat then 3 else if b.inFault then 2 else if b.still then 1 else 0
  w32 (st * 2 ^ 30 + b2n b.rev * 2 ^ 29 + b2n b.armed * 2 ^ 28 + b.code * 256 + (b.sticky.toNat &&& 0xFE))

/-! Power events (R59, R60). -/

/-- The aux domain resets: UNREFERENCED, registers at their reset values; what the system pool holds stays. -/
def Bcn.auxReset (b : Bcn) : Bcn :=
  { Bcn.reset with entered := vmod (Vector.replicate 8 0) 6 satInc
                   seq := b.seq, seqLimit := b.seqLimit, era := b.era, eraBound := b.eraBound }

/-- The configuration loads at the first start-up step 3 (R59). -/
def Bcn.load (b : Bcn) (cfg cpc : W32) : Bcn :=
  let cpc := if cpc.toNat < 15 then 15#32 else cpc
  let b := { b with regs := { b.regs with cfg := cfg &&& 0xFFFFC000, cpc := cpc }
                    loaded := true, net := 0, count := 0, validNet := 0, valid := 0
                    inp := { b.inp with rate := b.regs.intRate } }
  if b.mode = 0 ∨ (b.mode = 1 ∧ b.indexMode ≠ 2) then (b.endFault).1 else b

end Sys2Proof.Machine
end

