-- ==== Sys2Proof/Machine/Ops.lean ====
section
/-! DEFINITION. Shared operations on the whole card: modes, worlds, the event router and the journal, Stall interrupt
sources, the Beacon's effects, open Lots, completions and asynchronous events. -/

namespace Sys2Proof.Machine

/-! Conditions of the card. -/

def State.native (s : State) : Bool := s.pwr.mode == .native
def State.compat (s : State) : Bool := s.pwr.mode == .compat

/-- The main domain is on, in Watch too, and the card is not in the recovery state. -/
def State.running (s : State) : Bool := s.pwr.mainOn && !s.pwr.recovery

/-- The main domain runs: it is on, and the card is not in Watch. -/
def State.mainAwake (s : State) : Bool := s.pwr.mainOn && s.pwr.watch != .asleep

/-- The media work in the ordinary way: no flush, no fatal path (R161, R372). -/
def State.mediaOn (s : State) : Bool := s.running && (s.pwr.flush == .idle) && s.pwr.fatal.isNone && s.pwr.watch != .asleep

/-- Firmware runs: step 3 has ended with a bank that verifies (R286). -/
def State.firmware (s : State) : Bool := s.running && decide (3 ≤ s.pwr.step) && s.pwr.fatal.isNone

/-- Start-up is complete to step 6, and nothing has stopped the card (R182, R372, R394). -/
def State.operating (s : State) : Bool :=
  s.running && decide (6 ≤ s.pwr.step) && s.pwr.fatal.isNone && (s.pwr.flush == .idle)

/-- The Beacon counts (R59, R61). -/
def State.beaconOn (s : State) : Bool := s.pwr.auxOn && s.native && s.bcn.loaded

/-- Records can be stamped and commits made: the main domain is on and the card is awake (R60, R80). -/
def State.commitOk (s : State) : Bool := s.operating && (s.pwr.watch != .asleep) && !s.med.eol

/-- Take the next free value (notes/assumptions/3.md). -/
def State.take (s : State) : Nat × State := (s.fresh, { s with fresh := s.fresh + 1 })

/-! Worlds (R331): true = Secure, in the active set. -/

def RuleSet.nsWorld (r : RuleSet) (n : Nat) : Bool := decide (1 ≤ n) && bit r.ns (n - 1)
def State.nsWorld (s : State) (n : Nat) : Bool := s.acc.active.nsWorld n
def State.qWorld (s : State) (q : Nat) : Bool := bit s.acc.active.q q
def State.stallWorld (s : State) (n : Nat) : Bool := bit s.acc.active.stall n
def State.arcWorld (s : State) (n : Nat) : Bool := bit s.acc.active.arc n
def State.slotWorld (s : State) (n : Nat) : Bool := bit s.acc.active.slot n
/-- World of bus group 0x0k00, k = 2 to 9. -/
def State.groupWorld (s : State) (k : Nat) : Bool := decide (2 ≤ k) && bit s.acc.active.misc (6 + k)
/-- A world has a Porter group (R21). -/
def RuleSet.porter (r : RuleSet) (secure : Bool) : Bool :=
  if secure then decide (fld r.misc 7 0 ≠ 0) else decide (fld r.misc 7 0 ≠ 0xFF)

/-! Held budget (R69, R156, R157). -/

/-- HELD_BUDGET_CAP in MiB: 0 no cap, above 512 acts as 512 (Table 6-3). -/
def capOf (v : W32) : Nat := if fld v 9 0 = 0 then 512 else min 512 (fld v 9 0)

/-- Budget voltage V_B in mV for a budget of b MiB (R157). -/
def vbFor (energy : Int) (vchg b : Nat) : Nat :=
  let need : Nat := 150000 + 630 * b
  let span : Nat := vchg * vchg - 64000000
  let e : Nat := energy.toNat
  if e = 0 then 65535 else
  let sq := 64000000 + ceilDiv (10 * need * span) (8 * e)
  let r := isqrt 20 0 sq
  if r * r = sq then r else r + 1

def State.vb (s : State) : Nat := vbFor s.hu.energy s.hu.vchg s.hu.budget

/-- Held writes are write-through (R69, R110, R157, R410). -/
def State.heldWt (s : State) : Bool :=
  !s.hu.reached || decide (s.hu.bankMv < s.vb) || decide (s.hu.budget < 32) || s.nv.wtHold

/-- Slots of 4 KiB that the budget in force holds. -/
def State.budgetSlots (s : State) : Nat := 256 * s.hu.budget

/-! FAULT_STATUS of the frames (R363, R364). -/

/-- The compression units are powered: the main domain runs, no power-loss flush gates them, and a RUNNING Stall's image asks
for them (R161, R197, Table 14-2). -/
def State.compressOn (s : State) : Bool :=
  s.mainAwake && (s.pwr.flush == .idle) &&
    s.stalls.any fun t => (t.state == .running) && t.image.any fun i => decide (i.units % 4 ≠ 0)

/-- A frame is powered (R10, R26): frames 0x00 to 0x02 with the aux domain, the compression units' with their own gate, the
others with the main domain. -/
def State.frameOn (s : State) (f : Nat) : Bool :=
  if f ≤ 2 then s.pwr.auxOn else if 0x28 ≤ f ∧ f ≤ 0x2F then s.compressOn else s.mainAwake

/-- An access reaches an internal frame: a powered-off one reports TILE_OFF (R26). The spec gives the report no register of its
own; the model counts the reports (DESIGN CHOICE, notes/assumptions/85.md). -/
def reachFrame (f : Nat) (s : State) : State :=
  { s with offReports := s.offReports + b2n (!s.frameOn f) }

/-- Word k of EVT_STATUS restricted to pulse sources: is any bit set (Table 13-2). -/
def Events.pulseWord (e : Events) (k : Nat) : Nat := (e.pulse.toNat >>> (32 * k)) % 2 ^ 32

/-- PULSE_15 to PULSE_0. -/
def Events.pulseBits (e : Events) : Nat := ofBits ((List.range 16).map fun k => e.pulseWord k != 0)

/-- FAULT_STATUS of frame f. -/
def State.frameStatus (s : State) (f : Nat) : W32 :=
  let own := (s.ev.status[f]?).getD 0
  if f = 0 then (own &&& 0x100) ||| w32 (s.bcn.sticky.toNat &&& 0xFE)
  else if f = 1 then w32 (s.bus.sticky.toNat &&& 0xF8)
  else if f = 5 then (own &&& 0x30000) ||| w32 s.ev.pulseBits
  else own

/-- Write bits of the storage behind FAULT_STATUS of frame f. -/
def State.setFrame (s : State) (f : Nat) (v : W32) : State :=
  let s := { s with ev := { s.ev with status := vput s.ev.status f (v &&& frameBits f) } }
  if f = 0 then { s with bcn := { s.bcn with sticky := b8 (v.toNat &&& 0xFE) } }
  else if f = 1 then { s with bus := { s.bus with sticky := b8 (v.toNat &&& 0xF8) } }
  else s

/-- The frame's card event source condition: an enabled bit is set; PULSE bits of frame 0x05 do not feed it. -/
def State.frameRaises (s : State) (f : Nat) : Bool :=
  s.frameOn f && (s.frameStatus f &&& frameBits f &&& (s.ev.enable[f]?).getD 0) != 0

/-- The Stall's card event source condition. -/
def Stall.raises (t : Stall) : Bool := (t.fstat &&& t.fen) != 0

/-! The journal (R365, R366). -/

/-- Write one entry, whatever the limit. -/
def Events.write (e : Events) (ns : Nat) (start : W32) (kind origin code detail : Nat) : Events :=
  { e with journal := ⟨e.jnext, ns, start, kind, origin, code, detail⟩ :: e.journal, jnext := e.jnext + 1 }

/-- Journal an event: a DROPPED record first when the interval before dropped entries; past 1,000 entries in the
interval the entry is dropped and JOURNAL_DROP sets (R366). The journal does not run in the recovery state (R373). -/
def journal (kind origin code detail : Nat) (s : State) : State :=
  if s.pwr.recovery then s else
  let e := s.ev
  if 1000 ≤ e.jcount then
    { s with ev := { e with jdrops := e.jdrops + 1, dropped := satInc e.dropped
                            status := vmod e.status 5 fun v => v ||| 0x10000 } }
  else
    let e := if e.jprev = 0 then e else { e.write s.now s.pwr.starts 4 0xFF 1 e.jprev with jprev := 0 }
    { s with ev := { e.write s.now s.pwr.starts kind origin code detail with jcount := e.jcount + 1 } }

/-- A fault source of a frame is detected (kind 0) or forced (kind 1): the sticky bit sets, and its rise is
journalled (R363, R365). -/
def raiseFaultKind (kind f b : Nat) (s : State) : State :=
  if !s.frameOn f || !bit (frameBits f) b then s else
  let v := s.frameStatus f
  if bit v b then s else
  let s := s.setFrame f (putBit v b true)
  if f = 5 ∧ b = 16 then s else journal kind f b 0 s

/-- A fault source is detected. -/
def raiseFault (f b : Nat) (s : State) : State := raiseFaultKind 0 f b s

/-- Channel frame of a die (Table 1-1). -/
def chanFrame (die : Nat) : Nat := 0x10 + die / 4

/-- A media event of Table 5-8 on a block or a die (R365, Table 13-5). -/
def mediaEvent (code : Nat) (detail : Nat) (s : State) : State := journal 3 0xFF code detail s

/-- DETAIL of a media event on a block. -/
def blockDetail (p : Place) : Nat := p.die.val + p.block * 65536

/-! Card event sources (R358 to R362). -/

/-- The object of a source is of another world than the event group, so that it never sets (R358). `slot` is the result
slot of source 266. -/
def State.foreign (s : State) (src slot : Nat) : Bool :=
  let w := s.groupWorld 6
  if src < 64 then s.arcWorld src != w
  else if src < 128 then s.arcWorld (src - 64) != w
  else if src < 192 then s.stallWorld (src - 128) != w
  else if src = 266 then s.slotWorld slot != w
  else false

/-- A pulse source occurs: it sets, and it is journalled when it is 256 or above (R358, R365). While the main domain is
off only the Arc sources run, in the aux domain (R359). An occurrence after the read of EVT_STATUS is not the one that was read: a
write of 1 then leaves its bit set, so that none is lost (R362; DEDUCED, notes/assumptions/88.md). -/
def raisePulse (src slot detail : Nat) (s : State) : State :=
  if s.pwr.recovery || s.foreign src slot || (!s.mainAwake && decide (128 ≤ src)) then s else
  let s := { s with ev := { s.ev with pulse := putBit s.ev.pulse src true
                                      recorded := putBit s.ev.recorded src false } }
  if 256 ≤ src then journal 2 0xFF src detail s else s

/-- Bytes of an ingest pipeline's Lots that wait for a Stall (R257); a gate-only pipeline's wait for none. -/
def State.waitingBytes (s : State) (pipe : Nat) : Nat :=
  if !((look s.pipes pipe).any fun p => !p.scan && !p.bare) then 0 else
  ((s.lots.filter fun l => l.pipe == some pipe && l.state == .waiting).map fun l =>
    (l.recs.map fun r => r.bytes.length).foldl (· + ·) 0).foldl (· + ·) 0

/-- A pipeline holds 16 MiB of waiting Lots (R257). -/
def State.backpressure (s : State) (pipe : Nat) : Bool := decide (16777216 ≤ s.waitingBytes pipe)

/-- The level sources now (Table 13-1). -/
def State.levels (s : State) : BitVec 512 :=
  let w := s.groupWorld 6
  let st := if s.native then ofBits ((List.range 64).map fun n =>
      ((s.stalls[n]?).any Stall.raises) && (s.stallWorld n == w)) else 0
  let fr := ofBits ((List.range 64).map fun f => s.frameRaises f)
  let bf := s.native && s.bcn.inFault
  let bp := s.pipes.any fun p => s.backpressure p.1
  let hi := b2n bf <<< 257 + b2n s.heldWt <<< 259 + b2n s.therm.request <<< 261 +
    b2n (s.health.warn != 0) <<< 262 + b2n s.med.eol <<< 265 + b2n bp <<< 267
  BitVec.ofNat 512 (st <<< 128 + fr <<< 192 + hi)

/-- Can a message on a vector be sent now (R361): the link is up, and neither mask holds it. -/
def State.deliverable (s : State) (v : Nat) : Bool := s.pwr.link && !s.ev.fmask && !bit s.ev.mask v

def Events.vec (e : Events) (src : Nat) : Nat := (look e.vector src).getD 0

/-- The MSI-X pending bit array: a vector with an undelivered source or completion queue (R361). -/
def State.pba (s : State) (v : Nat) : Bool :=
  let wait := (s.ev.due ||| (s.ev.pulse &&& s.ev.en &&& ~~~s.ev.alert)).toNat
  ((List.range 512).any fun src => Nat.testBit wait src && s.ev.vec src == v) ||
    s.nv.cqs.any fun q => q.2.irq && q.2.vector == v

/-- Messages of card event sources that can be sent are sent: a pulse source clears with its message, and a level source
waits for its next rise (R360). -/
def sendEvents (s : State) : State :=
  let e := s.ev
  let lv := s.levels
  let msix := e.en &&& ~~~e.alert
  let due := (e.due ||| (lv &&& ~~~e.level)) &&& lv &&& msix
  let ready := due ||| (e.pulse &&& msix)
  let go := if ready = 0 ∨ !s.pwr.link ∨ e.fmask then [] else
    (setBits 512 ready.toNat).filter fun src => !bit e.mask (e.vec src)
  let gone := BitVec.ofNat 512 ((go.map fun src => 2 ^ src).foldl (· + ·) 0)
  { s with ev := { e with level := lv, due := due &&& ~~~gone, pulse := e.pulse &&& ~~~(gone &&& msix)
                          sent := (go.map e.vec).reverse ++ e.sent } }

/-- Messages of completion queues that can be sent are sent (R93). -/
def sendCompletions (s : State) : State :=
  let ready := s.nv.cqs.filter fun q => q.2.irq && s.deliverable q.2.vector
  if ready.isEmpty then s else
  { s with nv := { s.nv with cqs := s.nv.cqs.map fun q =>
              if q.2.irq && s.deliverable q.2.vector then (q.1, { q.2 with irq := false, unsent := 0 }) else q }
           ev := { s.ev with sent := (ready.map fun q => q.2.vector).reverse ++ s.ev.sent } }

/-- A new value of a measurement register (R160). -/
def Meas.publish (m : Meas) (v : Int) : Meas := ⟨true, m.seq + 1, v⟩

/-- A new value when it differs from the last. -/
def Meas.follow (m : Meas) (v : Int) : Meas := if m.valid && m.value == v then m else m.publish v

/-- A measurement register as it reads: VALID, SEQ and the value, saturating or in two's complement (R160, R305). -/
def Meas.word (m : Meas) : W32 :=
  let v := if m.value < 0 then lowBits 23 m.value else min m.value.toNat 0x7FFFFF
  w32 (b2n m.valid * 2 ^ 31 + m.seq.toNat * 2 ^ 23 + v)

/-- HOLDUP_VOLTAGE and HELD_DIRTY follow the bank and the dirty amount (Table 6-5). -/
def publishHoldup (s : State) : State :=
  { s with hu := { s.hu with mVolt := s.hu.mVolt.follow s.hu.bankMv
                             mDirty := s.hu.mDirty.follow (4 * s.med.held.length : Nat) } }

/-- The bus interface drives ALERT# low (R292, R359, R373). -/
def State.alertLow (s : State) : Bool :=
  s.pwr.auxOn && (s.bus.moor != .moored || s.pwr.recovery ||
    (if s.mainAwake then ((s.ev.pulse ||| s.levels) &&& s.ev.en &&& s.ev.alert) != 0
     else ((s.ev.pulse ||| s.levels) &&& s.ev.auxEn &&& s.ev.auxAlert) != 0))

/-! Stall interrupt sources (R214). -/

/-- A source of a Stall pends, unless its tile is OFF (R210). -/
def Stall.pend (src : Nat) (t : Stall) : Stall :=
  if t.state = .off then t else { t with ic := { t.ic with pending := putBit t.ic.pending src true } }

def State.stall (s : State) (n : Nat) : Stall := (s.stalls[n]?).getD .reset
def State.setStall (s : State) (n : Nat) (t : Stall) : State := { s with stalls := vput s.stalls n t }
def State.modStall (s : State) (n : Nat) (f : Stall → Stall) : State := { s with stalls := vmod s.stalls n f }

/-- A source pends in every Stall. -/
def pendAll (src : Nat) (s : State) : State := { s with stalls := s.stalls.map (Stall.pend src) }

/-- A fault source of a Stall's FAULT_STATUS: its rise is journalled (R203, R363, R365). -/
def raiseStall (kind n b : Nat) (s : State) : State :=
  let t := s.stall n
  if bit t.fstat b then s else
  journal kind (0x40 + n) b 0 (s.setStall n { t with fstat := putBit t.fstat b true })

/-- The ARC sources of a Stall that an Arc's event pends (Table 7-8). -/
def Stall.arcPend (arc : Nat) (enter : Bool) (t : Stall) : Stall :=
  (List.range 8).foldl (fun t k =>
    let v := (t.ic.arcSel[k]?).getD 0
    if bit v 31 && fld v 5 0 == arc && bit v (if enter then 29 else 30) then t.pend k else t) t

/-- An Arc's event pends in the Stalls of the Arc's world that select it (R214). -/
def State.arcPendAll (s : State) (arc : Nat) (enter : Bool) : State :=
  let f : Nat → Stall → Stall := fun k t => if s.stallWorld k == s.arcWorld arc then t.arcPend arc enter else t
  { s with stalls := vmapi s.stalls f }

/-! Wakes (R380 to R382). -/

/-- A wake source occurs: in Watch, or during entry, its bit sets and a wake is recorded; in thermal shutdown wakes are
ignored (R395). -/
def wake (k : Nat) (s : State) : State :=
  if s.therm.held || s.pwr.watch = .awake then s else
  { s with pwr := { s.pwr with wakeSrc := putBit s.pwr.wakeSrc k true, wakeDue := true } }

/-! Open Lots (R16). -/

/-- The ingest pipeline of a stream namespace (R248). -/
def State.ingest (s : State) (nsid : Nat) : Option (Nat × Pipe) :=
  s.pipes.find? fun p => !p.2.scan && p.2.source == nsid

/-- Close the open ingest Lot of a namespace, if it holds a record (R16). -/
def closeLot (nsid : Nat) (s : State) : State :=
  match look s.ns nsid with
  | none => s
  | some n =>
    if n.st.opened.isEmpty then s else
    let lot : Lot := { id := s.nextLot, nsid := nsid, pipe := (s.ingest nsid).map fun p => p.1, query := none
                       recs := n.st.opened, state := .waiting, issues := 0, tried := [], emits := [], tally := [] }
    { s with ns := put s.ns nsid { n with st := { n.st with opened := [] } }
             lots := s.lots ++ [lot], nextLot := s.nextLot + 1, opens := s.opens.filter fun x => x != nsid }

/-- Close every open ingest Lot (R51). -/
def closeLots (s : State) : State := s.opens.foldl (fun s n => closeLot n s) s

/-- The decimation counters of ingest pipelines clear (R257). -/
def clearDec (s : State) : State :=
  { s with pipes := s.pipes.map fun p => if p.2.scan then p else (p.1, { p.2 with dec := 0 }) }

/-! The Beacon's effects on the card. -/

/-- The commit mark of a crossing or a forced one becomes pending (R51 to R53): numbers follow the boundaries, and with one
boundary the crossings, in their order, come before the forced ones (R77). -/
def pendMark (m : PendingMark) (s : State) : State :=
  let first : PendingMark → Bool := fun x =>
    decide (x.bound < m.bound) || (decide (x.bound = m.bound) && (m.cmd.isSome || x.flags % 2 == 0))
  { s with med := { s.med with pendMarks := s.med.pendMarks.takeWhile first ++ m :: s.med.pendMarks.dropWhile first } }

/-- One event of a Beacon update acts on the card (R46 to R51, R214, R257, R380). -/
def bcnEvent (s : State) : BcnEvent → State
  | .enter n =>
    let s := raisePulse n 0 0 s
    let s := s.arcPendAll n true
    if Nat.testBit (s.bcn.regs.wakeHi.toNat * 2 ^ 32 + s.bcn.regs.wakeLo.toNat) n then wake 2 s else s
  | .leave n =>
    let s := raisePulse (64 + n) 0 0 s
    s.arcPendAll n false
  | .crossing c m =>
    let s := pendAll 8 (clearDec (closeLots s))
    match m with
    | none => s
    | some flags => pendMark ⟨mkStamp (cycleField c) s.bcn.regs.commitPos.toNat 0, eraOf c, s.bcn.seq, flags, none⟩ s

/-- A change of the Beacon unit takes effect on the card: newly set sticky bits are journalled, Stall sources 9 and 10
follow the fault state, and its events act in order. -/
def bcnApply (r : Bcn × List BcnEvent) (s : State) : State :=
  let old := s.bcn
  let s := { s with bcn := r.1 }
  let s := ([1, 2, 3, 4, 5, 6, 7].filter fun b => bit r.1.sticky b && !bit old.sticky b).foldl
    (fun s b => journal 0 0 b 0 s) s
  let s := if r.1.inFault && !old.inFault then pendAll 9 s else if old.inFault && !r.1.inFault then pendAll 10 s else s
  r.2.foldl bcnEvent s

/-- The position follows the extrapolation up to the time of the state (R34). -/
def State.follow (s : State) : State := if s.beaconOn then bcnApply (s.bcn.advance s.now s.commitOk) s else s

/-- The state at a time, never earlier than its own; the position follows. -/
def State.at_ (s : State) (t : Nat) : State := ({ s with now := max s.now t } : State).follow

/-- One idle step: the housekeeping counter advances by 1 ns (notes/assumptions/12.md), and the position follows. -/
def tick (s : State) : State := ({ s with now := s.now + 1 } : State).follow

/-! Completions (R99, R115, R447). -/

/-- Do Not Retry of a status (Tables 4-10 and 4-11): 1 but for those listed with 0. -/
def dnrOf (sct sc : Nat) : Bool :=
  !((sct == 0 && (sc == 0 || sc == 0x06 || sc == 0x08 || sc == 0x21)) ||
    (sct == 7 && (sc == 0x80 || sc == 0x83 || sc == 0x84 || sc == 0x86 || sc == 0x87)))

/-- CSTS.RDY: after a reset it falls once the begun commands have finished (Table 4-7). -/
def State.ready (s : State) : Bool := s.nv.rdy || !s.nv.inflight.isEmpty

def State.cmd (s : State) (h : Nat) : Option Cmd := s.nv.inflight.find? fun c => c.h == h
def State.modCmd (s : State) (h : Nat) (f : Cmd → Cmd) : State :=
  { s with nv := { s.nv with inflight := s.nv.inflight.map fun c => if c.h = h then f c else c } }

def Cmd.dword (c : Cmd) (k : Nat) : W32 := (c.sub.dw[k]?).getD 0
def Cmd.opc (c : Cmd) : Nat := fld (c.dword 0) 7 0
def Cmd.cid (c : Cmd) : Nat := fld (c.dword 0) 31 16
def Cmd.nsid (c : Cmd) : Nat := (c.dword 1).toNat
/-- A 64-bit field in two dwords, low dword first. -/
def Cmd.q64 (c : Cmd) (k : Nat) : Nat := (c.dword k).toNat + (c.dword (k + 1)).toNat * 2 ^ 32

/-- Post a completion entry in the completion queue of a submission queue. An I/O queue's message is due at once where
the aggregation time is 0, or when the threshold is reached (R93, Feature 08h); the admin queue is never coalesced. Where
completion queues share a vector, entries and time are aggregated per completion queue (DESIGN CHOICE,
notes/assumptions/75.md). -/
def postEntry (e : Completion) (s : State) : State :=
  match look s.nv.sqs e.sqid with
  | none => s
  | some sq =>
    { s with nv := { s.nv with cqs := adjust s.nv.cqs sq.cq fun q =>
        let n := q.unsent + 1
        let now_ := sq.cq = 0 || bit s.nv.feat.vecOff q.vector || fld s.nv.feat.coal 15 8 = 0 || fld s.nv.feat.coal 7 0 < n
        { q with posted := q.posted ++ [e], unsent := n, irq := q.irq || (q.irqs && now_) } } }

/-- A command ends without a completion: its locks and place are freed (R102, R108). -/
def dropCmd (h : Nat) (s : State) : State :=
  { s with nv := { s.nv with inflight := s.nv.inflight.filter fun c => c.h != h } }

/-- The Delete I/O Submission Queue commands whose queue has no command left complete, and their queues go (R107). -/
def endDeletes (s : State) : State :=
  (s.nv.inflight.filter fun c => c.phase == .deleting).foldl (fun s c =>
    let q := fld (c.dword 10) 15 0
    if s.nv.inflight.any fun x => x.qid == q then s else
    let s := dropCmd c.h s
    let s := { s with nv := { s.nv with sqs := del s.nv.sqs q } }
    postEntry ⟨c.qid, c.cid, 0, 0, false, 0, 0, []⟩ s) s

/-- A fetched command completes. After a controller reset its queue is gone and nothing is posted (R108); the fatal path
stops completions (R372). -/
def complete (h sct sc : Nat) (dw0 dw1 : W32) (data : List Byte) (s : State) : State :=
  match s.cmd h with
  | none => s
  | some c =>
    let s := dropCmd h s
    if s.pwr.fatal.isSome then s else
    let e : Completion := ⟨c.qid, c.cid, sct, sc, dnrOf sct sc, dw0, dw1, data⟩
    endDeletes (postEntry e s)

/-- Completion with a status and no data. -/
def fail (h sct sc : Nat) (s : State) : State := complete h sct sc 0 0 [] s

/-- Successful Completion. -/
def succeed (h : Nat) (s : State) : State := complete h 0 0 0 0 [] s

/-- Status codes the card returns. -/
def invalidOpcode (h : Nat) (s : State) : State := fail h 0 0x01 s
def invalidField (h : Nat) (s : State) : State := fail h 0 0x02 s
def invalidNs (h : Nat) (s : State) : State := fail h 0 0x0B s
def seqError (h : Nat) (s : State) : State := fail h 0 0x0C s
def notKeeper (h : Nat) (s : State) : State := fail h 7 0x8B s
def regionDenied (h : Nat) (s : State) : State := fail h 7 0x82 s

/-- An Error Information entry (R141, Table 4-9). -/
def logError (c : Cmd) (sct sc lba : Nat) (s : State) : State :=
  { s with nv := { s.nv with errCount := s.nv.errCount + 1
                             errs := (⟨s.nv.errCount + 1, c.qid, c.cid, sct, sc, lba, c.nsid⟩ :: s.nv.errs).take 64 } }

/-- An asynchronous event: reported by an outstanding request, unless its type is masked until its log page is read; else
it waits (NVMe, Table 4-5). -/
def asyncEvent (ty info page : Nat) (s : State) : State :=
  match s.nv.inflight.find? fun c => c.phase == .event with
  | some c =>
    if s.nv.unread.contains ty then { s with nv := { s.nv with events := s.nv.events ++ [(ty, info, page)] } } else
    let s := { s with nv := { s.nv with unread := ty :: s.nv.unread } }
    complete c.h 0 0 (w32 (ty + info * 256 + page * 65536)) 0 [] s
  | none => { s with nv := { s.nv with events := s.nv.events ++ [(ty, info, page)] } }

/-- The NVMe state after a controller reset but for what R108 keeps. -/
def Nvme.afterReset (n : Nvme) : Nvme :=
  { Nvme.reset with next := n.next, aqa := n.aqa, asq := n.asq, acq := n.acq, msix := n.msix, late := n.late, errs := n.errs, errCount := n.errCount
                    tests := n.tests, sanitize := n.sanitize, inflight := n.inflight }

end Sys2Proof.Machine
end

