-- ==== Sys2Proof/Machine/Access.lean ====
section
/-! DEFINITION. The access checker (12_worlds_and_access.md): rules, defaults, parts, the violation capture, and the
epoch that makes the staged set active. -/

namespace Sys2Proof.Machine

/-- A master (R331, R336). -/
inductive Master where
  | queue (q : Nat)
  | stall (n : Nat)
  | mgmt
  | bus
deriving DecidableEq, Repr

/-- The world of a master (R331). -/
def RuleSet.masterWorld (r : RuleSet) : Master → Bool
  | .queue q => bit r.q q
  | .stall n => bit r.stall n
  | .mgmt => true
  | .bus => false

/-- CLASS and NUMBER of VIOL_MASTER (Table 12-7). -/
def Master.word : Master → W32
  | .queue q => w32 q
  | .stall n => w32 (0x100 + n)
  | .mgmt => 0x200
  | .bus => 0x300

/-- A rule's words; a rule that is not listed holds zero. -/
def RuleSet.word (r : RuleSet) (i k : Nat) : W32 := ((look r.rules i).bind fun x => x.w[k]?).getD 0

/-- The rule selects the master (Table 12-3). -/
def selects (w4 : W32) : Master → Bool
  | .queue q => bit w4 3 && decide (fld w4 31 24 ≤ q) && decide (q ≤ fld w4 23 16)
  | .stall n => bit w4 2 && decide (fld w4 15 10 ≤ n) && decide (n ≤ fld w4 9 4)
  | .mgmt => bit w4 1
  | .bus => bit w4 0

/-! Memory rules (R334, R338). Permissions: 1 read, 2 write, 4 load-program. -/

def RuleSet.memStart (r : RuleSet) (i : Nat) : Nat := (r.word i 0).toNat + fld (r.word i 1) 15 0 * 2 ^ 32
def RuleSet.memEnd (r : RuleSet) (i : Nat) : Nat := (r.word i 2).toNat + fld (r.word i 3) 15 0 * 2 ^ 32

/-- Enabled memory rules that cover an address, in rising order. -/
def RuleSet.memCover (r : RuleSet) (a : Nat) : List Nat :=
  (r.rules.filter fun x => decide (x.1 < 128) && bit (r.word x.1 5) 31 && decide (r.memStart x.1 ≤ a) &&
    decide (a < r.memEnd x.1)).map fun x => x.1

/-- What one memory rule grants a master (R340). -/
def RuleSet.memGrant (r : RuleSet) (m : Master) (i : Nat) : Nat :=
  let w5 := r.word i 5
  if !selects (r.word i 4) m then 0
  else if r.masterWorld m != bit w5 30 && !bit w5 29 then 0
  else fld w5 2 0

/-- The address lies in Table 1-7. -/
def mapped (a : Nat) : Bool :=
  decide (a < 0x02000000) || (decide (0x04000000 ≤ a) && decide (a < 0x04040000)) ||
  (decide (0x05000000 ≤ a) && decide (a < 0x05400000)) || (decide (0x10000000 ≤ a) && decide (a < 0x14000000)) ||
  (decide (0x000100000000 ≤ a) && decide (a < 0x000300000000)) ||
  (decide (0x00F000000000 ≤ a) && decide (a < 0x00F000400000))

/-- The Stall whose local memory, control block or program memory holds an address. -/
def stallOf (a : Nat) : Option Nat :=
  if a < 0x02000000 then some (a / 0x80000)
  else if 0x04000000 ≤ a ∧ a < 0x04040000 then some ((a - 0x04000000) / 0x1000)
  else if 0x05000000 ≤ a ∧ a < 0x05400000 then some ((a - 0x05000000) / 0x10000)
  else none

/-- The world of the bus group that mirrors a register of an internal frame, if one does (R336, R338): FAULT_STATUS and
FAULT_ENABLE follow group 0x0600, FAULT_FORCE follows group 0x0900. -/
def RuleSet.mirrorWorld (r : RuleSet) (a : Nat) : Option Bool :=
  let o := (a - 0x00F000000000) % 0x10000
  if a < 0x00F000000000 then none
  else if o < 4 ∨ (8 ≤ o ∧ o < 12) then some (bit r.misc 12)
  else if o < 8 then some (bit r.misc 15)
  else none

/-- The default grant of Table 12-4: everything or nothing. -/
def RuleSet.memDefault (r : RuleSet) (m : Master) (a : Nat) : Bool :=
  mapped a &&
  match m with
  | .mgmt => true
  | .bus => (r.mirrorWorld a).any fun w => !w
  | .stall n =>
    match stallOf a with
    | some k => bit r.stall n == bit r.stall k
    | none => decide (0x0002F8000000 ≤ a) && decide (a < 0x000300000000) && decide ((a - 0x0002F8000000) / 0x200000 = n)
  | .queue q =>
    match stallOf a with
    | some k => bit r.q q == bit r.stall k
    | none => false

/-- Why a part is denied: the flags and rule number of VIOL_RULE (Table 12-8). -/
def denial (flags rule : Nat) : W32 := w32 (flags * 2 ^ 28 + rule)

/-- A grant lacks a needed permission. -/
def lacks (need grant : Nat) : Bool := decide (need &&& grant ≠ need)

/-- Check one beat: `none` when it is permitted, else VIOL_RULE (R340). An address outside Table 1-7 is denied whatever rule
covers it (R25). -/
def RuleSet.memCheck (r : RuleSet) (m : Master) (need a : Nat) : Option W32 :=
  if !mapped a then some (denial 4 0) else
  match r.memCover a with
  | [] => if r.memDefault m a then none else some (denial 8 0)
  | is => ((is.find? fun i => lacks need (r.memGrant m i))).map fun i => denial 0 i

/-! Media rules (R335, R339). Permissions: 1 READ, 2 WRITE, 4 APPEND, 8 QUERY. -/

def RuleSet.ruleNs (r : RuleSet) (i : Nat) : Nat := fld (r.word i 0) 6 0
def RuleSet.lbaStart (r : RuleSet) (i : Nat) : Nat := (r.word i 1).toNat + fld (r.word i 2) 7 0 * 2 ^ 32
def RuleSet.lbaEnd (r : RuleSet) (i : Nat) : Nat := (r.word i 3).toNat + fld (r.word i 2) 15 8 * 2 ^ 32

/-- Enabled media rules of a namespace. -/
def RuleSet.nsRules (r : RuleSet) (nsid : Nat) : List Nat :=
  (r.rules.filter fun x => decide (128 ≤ x.1) && bit (r.word x.1 0) 31 && (r.ruleNs x.1 == nsid)).map fun x => x.1

/-- What one media rule grants a master (R340). -/
def RuleSet.mediaGrant (r : RuleSet) (m : Master) (nsid i : Nat) : Nat :=
  if !selects (r.word i 4) m then 0
  else if r.masterWorld m != r.nsWorld nsid && !bit (r.word i 0) 29 then 0
  else fld (r.word i 0) 10 7

/-- Check one LBA: a permission of `any` suffices when there are several. -/
def RuleSet.mediaCheck (r : RuleSet) (m : Master) (nsid : Nat) (needs : List Nat) (lba : Nat) : Option W32 :=
  match (r.nsRules nsid).filter fun i => decide (r.lbaStart i ≤ lba) && decide (lba < r.lbaEnd i) with
  | [] => if r.masterWorld m == r.nsWorld nsid then none else some (denial 8 0)
  | is =>
    let grant := is.foldl (fun g i => g &&& r.mediaGrant m nsid i) 15
    if needs.any fun n => !lacks n grant then none else
    match is.find? fun i => needs.all fun n => lacks n (r.mediaGrant m nsid i) with
    | some i => some (denial 0 i)
    | none => (is.find? fun i => needs.any fun n => lacks n (r.mediaGrant m nsid i)).map fun i => denial 0 i

/-- The LBAs of [lo, hi) where a part begins: lo and every rule boundary inside. -/
def RuleSet.cuts (r : RuleSet) (nsid lo hi : Nat) : List Nat :=
  let ends := (r.nsRules nsid).flatMap fun i => [r.lbaStart i, r.lbaEnd i]
  ((lo :: ends).filter fun x => decide (lo ≤ x) && decide (x < hi)).mergeSort (fun a b => decide (a ≤ b)) |>.dedup

/-- The first denied part of [lo, hi): its LBA, length and VIOL_RULE. -/
def RuleSet.mediaDenied (r : RuleSet) (m : Master) (nsid : Nat) (needs : List Nat) (lo hi : Nat) :
    Option (Nat × Nat × W32) :=
  let cs := r.cuts nsid lo hi
  (cs.find? fun x => (r.mediaCheck m nsid needs x).isSome).bind fun x =>
    (r.mediaCheck m nsid needs x).map fun v => (x, ((cs.find? fun y => decide (x < y)).getD hi) - x, v)

/-! The violation capture (R342, R343). -/

/-- VIOL_KIND (Table 12-6). -/
def violKind (media : Bool) (access nsid len : Nat) : W32 :=
  w32 (2 ^ 31 + b2n media * 2 ^ 29 + access * 2 ^ 26 + nsid * 2 ^ 16 + min len 0xFFFF)

/-- Record a violation: the first is captured whole, a later one sets MORE; every one sets VIOLATION (R343). -/
def capture (kind : W32) (addr : Nat) (m : Master) (rule : W32) (s : State) : State :=
  let a := s.acc
  let a := if bit a.violKind 31 then { a with violKind := a.violKind ||| 0x40000000 }
    else { a with violKind := kind, violAddr := w64 addr, violMast := m.word, violRule := rule }
  raiseFault 4 0 { s with acc := a }

/-- ACCESS of a media permission (Table 12-6). -/
def accessOf (need : Nat) : Nat := if need = 1 then 0 else if need = 2 then 1 else if need = 4 then 3 else 4

/-- The access at which the checker's copies disagreed is denied; no rule denies it, so nothing is captured (Table 13-9;
DESIGN CHOICE, notes/assumptions/89.md). -/
def State.unmatched (s : State) : State := { s with acc := { s.acc with mismatch := false } }

/-- The set that was active at an epoch, under which the accesses of commands fetched and moves issued then are checked (R345). -/
def State.setOf (s : State) (e : W32) : RuleSet := ((s.acc.past.find? fun x => x.1 == e).map fun x => x.2).getD s.acc.active

/-- The world of a result slot under the set of an epoch. -/
def State.slotWorldAt (s : State) (e : W32) (k : Nat) : Bool := bit (s.setOf e).slot k

/-- Check a media access under a set; a denied one is captured (R341). The Boolean says that it is permitted. -/
def mediaAccessIn (r : RuleSet) (m : Master) (nsid : Nat) (needs : List Nat) (lo hi : Nat) (s : State) : Bool × State :=
  if s.acc.mismatch then (false, s.unmatched) else
  match r.mediaDenied m nsid needs lo hi with
  | none => (true, s)
  | some (lba, len, v) => (false, capture (violKind true (accessOf (needs.headD 1)) nsid len) lba m v s)

/-- Check a media access under the active set. -/
def mediaAccess (m : Master) (nsid : Nat) (needs : List Nat) (lo hi : Nat) (s : State) : Bool × State :=
  mediaAccessIn s.acc.active m nsid needs lo hi s

/-- The beats of a memory access: the address of each 64-byte beat it touches. -/
def beats (a len : Nat) : List Nat :=
  if len = 0 then [] else (List.range ((a + len - 1) / 64 + 1 - a / 64)).map fun k => (a / 64 + k) * 64

/-- The permissions that a write of an address needs: W, and L too in the program memories (R334, Table 12-1). -/
def writeNeed (a : Nat) : Nat := if 0x05000000 ≤ a ∧ a < 0x05400000 then 6 else 2

/-- Check a memory access beat by beat under a set. The answer lists the denied beats; the first denied part is captured (R341). -/
def memAccessIn (r : RuleSet) (m : Master) (need : Nat) (a len : Nat) (s : State) : List Nat × State :=
  if s.acc.mismatch then (beats a len, s.unmatched) else
  let bad := (beats a len).filter fun x => (r.memCheck m need x).isSome
  match bad with
  | [] => ([], s)
  | x :: _ =>
    let n := (bad.zipIdx.takeWhile fun p => p.1 == x + 64 * p.2 && r.memCover p.1 == r.memCover x).length
    let access := if Nat.testBit need 2 then 2 else if Nat.testBit need 1 then 1 else 0
    (bad, capture (violKind false access 0 n) x m ((r.memCheck m need x).getD 0) s)

/-- Check a memory access under the active set. -/
def memAccess (m : Master) (need : Nat) (a len : Nat) (s : State) : List Nat × State := memAccessIn s.acc.active m need a len s

/-- Rules deny M the DRAM or the staging SRAM, which stops admin commands and bus service (R340). -/
def State.mStopped (s : State) : Bool :=
  let r := s.acc.active
  r.rules.any fun x => decide (x.1 < 128) && bit (r.word x.1 5) 31 && lacks 3 (r.memGrant .mgmt x.1) &&
    ((decide (r.memStart x.1 < 0x14000000) && decide (0x10000000 < r.memEnd x.1)) ||
     (decide (r.memStart x.1 < 0x000300000000) && decide (0x000100000000 < r.memEnd x.1)))

/-- The lowest address of M's own memory, staging SRAM and DRAM, that a set denies it. -/
def RuleSet.mDenied (r : RuleSet) : Option Nat :=
  let inside : Nat → Bool := fun a => decide (0x10000000 ≤ a ∧ a < 0x14000000) || decide (0x000100000000 ≤ a ∧ a < 0x000300000000)
  let from_ := (0x10000000 :: 0x000100000000 :: r.rules.map fun x => r.memStart x.1).filter fun a =>
    inside a && (r.memCheck .mgmt 3 a).isSome
  match from_ with
  | [] => none
  | a :: as => some (as.foldl min a)

/-- M's next access to its memory is checked like any other: where the set denies it the access is captured, as a read unless only the
write is denied (R337, R340; which of M's accesses comes first is the model's choice, notes/assumptions/94.md). -/
def checkM (s : State) : State :=
  let r := s.acc.active
  match r.mDenied with
  | none => s
  | some a =>
    let need := if (r.memCheck .mgmt 1 a).isSome then 1 else 2
    capture (violKind false (if need = 1 then 0 else 1) 0 1) a .mgmt ((r.memCheck .mgmt need a).getD 0) s

/-! The epoch (R333, R344, R345). -/

/-- DETAIL of an object of a world bitmap (R344). -/
def nsDetail (n : Nat) : Nat := 0x100 + (n - 1)
def queueDetail (q : Nat) : Nat := 0x140 + q
def stallDetail (n : Nat) : Nat := 0x240 + n
def slotDetail (n : Nat) : Nat := 0x500 + n

/-- The objects a pipeline names, the queue that configures it among them (R250): DETAIL, and its world in a set. -/
def Pipe.objects (p : Pipe) : List (Nat × (RuleSet → Bool)) :=
  (queueDetail 0, fun (r : RuleSet) => bit r.q 0) :: ((setBits 64 p.stalls.toNat).map fun n => (stallDetail n, fun (r : RuleSet) => bit r.stall n)) ++
  (if p.scan then [] else [(nsDetail p.source, fun (r : RuleSet) => r.nsWorld p.source)]) ++
  ((p.outs.toList.filter fun o => o.1 == 1).map fun o => (nsDetail o.2, fun (r : RuleSet) => r.nsWorld o.2))

/-- Check 1: a pipeline would name objects of two worlds. -/
def checkPipes (s : State) (r : RuleSet) : Option Nat :=
  minOf (s.pipes.flatMap fun p =>
    let os := p.2.objects
    let ws := os.map fun o => o.2 r
    if ws.any (· == true) && ws.any (· == false) then
      (os.filter fun o => o.2 r != o.2 s.acc.active).map fun o => o.1 else [])

/-- Check 2: a world with an enabled I/O queue pair or Stall but no Porter group. -/
def checkPorters (s : State) (r : RuleSet) : Option Nat :=
  minOf (((s.nv.sqs.filter fun q => decide (1 ≤ q.1) && !r.porter (bit r.q q.1)).map fun q => queueDetail q.1) ++
    (((List.range 64).filter fun n => (s.stall n).state != .off && !r.porter (bit r.stall n)).map stallDetail))

/-- The Stall's image may be held in the Secure world (R205). -/
def Stall.secureOk (t : Stall) : Bool := t.image.all fun i => i.signed && i.keyOk

/-- Check 3: a Secure Stall with an image that R205 does not allow there. -/
def checkImages (s : State) (r : RuleSet) : Option Nat :=
  minOf (((List.range 64).filter fun n => bit r.stall n && !(s.stall n).secureOk).map stallDetail)

/-- Check 4: a RUNNING result slot would change world. -/
def checkSlots (s : State) (r : RuleSet) : Option Nat :=
  minOf ((s.slots.filter fun x => x.2.state == .running && bit r.slot x.1 != s.slotWorld x.1).map fun x => slotDetail x.1)

/-- A rule is well formed: START below END, no reserved bit, memory addresses aligned (R333). -/
def RuleSet.ruleOk (r : RuleSet) (i : Nat) : Bool :=
  if i < 128 then
    decide (r.memStart i < r.memEnd i) && (fld (r.word i 1) 31 16 == 0) && (fld (r.word i 3) 31 16 == 0) &&
    (fld (r.word i 5) 28 3 == 0) && (fld (r.word i 0) 5 0 == 0) && (fld (r.word i 2) 5 0 == 0)
  else
    decide (r.lbaStart i < r.lbaEnd i) && !bit (r.word i 0) 30 && (fld (r.word i 0) 28 11 == 0) &&
    (fld (r.word i 2) 31 16 == 0) && (r.word i 5 == 0)

/-- The rule is enabled. -/
def RuleSet.ruleOn (r : RuleSet) (i : Nat) : Bool := if i < 128 then bit (r.word i 5) 31 else bit (r.word i 0) 31

/-- Check 5: a faulty enabled rule. -/
def checkRules (_ : State) (r : RuleSet) : Option Nat :=
  minOf ((r.rules.filter fun x => r.ruleOn x.1 && !r.ruleOk x.1).map fun x => x.1)

/-- The first failing object of the staged set, check by check (R333, R344). -/
def State.stagedFault (s : State) : Option Nat :=
  let r := s.acc.staged
  (checkPipes s r).orElse fun _ => (checkPorters s r).orElse fun _ => (checkImages s r).orElse fun _ =>
    (checkSlots s r).orElse fun _ => checkRules s r

/-- A write of RULE_EPOCH (R344). -/
def epochWrite (v : W32) (s : State) : State :=
  if v ≠ s.acc.epoch + 1 then s else
  match s.stagedFault with
  | some d => journal 4 0xFF 3 d (raiseFault 4 1 s)
  | none =>
    let used := (s.nv.inflight.map fun c => c.epoch) ++ (s.queries.map fun q => q.epoch) ++
      s.stalls.toList.flatMap fun t => t.moves.map fun m => m.epoch
    let past := ((s.acc.epoch, s.acc.active) :: s.acc.past).filter fun x => used.contains x.1
    let s := { s with acc := { s.acc with active := s.acc.staged, epoch := v, past := past } }
    checkM (raisePulse 263 0 0 (pendAll 25 s))

/-- RULE_DRAIN: the oldest epoch under which a checked access is in flight, else the current one (R345). -/
def State.drain (s : State) : W32 :=
  let es := ((s.nv.inflight.filter fun c => c.qid != 0).map fun c => c.epoch) ++
    ((s.queries.filter fun q => q.state != .ended).map fun q => q.epoch) ++
    (s.stalls.toList.flatMap fun t => t.moves.map fun m => m.epoch)
  es.foldl (fun o e => if (s.acc.epoch - o).toNat < (s.acc.epoch - e).toNat then e else o) s.acc.epoch

end Sys2Proof.Machine
end

