-- ==== Sys2Proof/Machine/Crypto.lean ====
section
/-! DEFINITION. SHA-256, HMAC-SHA-256, RSA-3072 with RSASSA-PKCS1-v1_5 and RSAES-OAEP, and the frame CRCs, as R204,
R278, R297, R346 and R422 name them. -/

namespace Sys2Proof.Machine

/-! SHA-256 (FIPS 180-4). -/

def shaK : List W32 :=
  [0x428a2f98, 0x71374491, 0xb5c0fbcf, 0xe9b5dba5, 0x3956c25b, 0x59f111f1, 0x923f82a4, 0xab1c5ed5] ++
  [0xd807aa98, 0x12835b01, 0x243185be, 0x550c7dc3, 0x72be5d74, 0x80deb1fe, 0x9bdc06a7, 0xc19bf174] ++
  [0xe49b69c1, 0xefbe4786, 0x0fc19dc6, 0x240ca1cc, 0x2de92c6f, 0x4a7484aa, 0x5cb0a9dc, 0x76f988da] ++
  [0x983e5152, 0xa831c66d, 0xb00327c8, 0xbf597fc7, 0xc6e00bf3, 0xd5a79147, 0x06ca6351, 0x14292967] ++
  [0x27b70a85, 0x2e1b2138, 0x4d2c6dfc, 0x53380d13, 0x650a7354, 0x766a0abb, 0x81c2c92e, 0x92722c85] ++
  [0xa2bfe8a1, 0xa81a664b, 0xc24b8b70, 0xc76c51a3, 0xd192e819, 0xd6990624, 0xf40e3585, 0x106aa070] ++
  [0x19a4c116, 0x1e376c08, 0x2748774c, 0x34b0bcb5, 0x391c0cb3, 0x4ed8aa4a, 0x5b9cca4f, 0x682e6ff3] ++
  [0x748f82ee, 0x78a5636f, 0x84c87814, 0x8cc70208, 0x90befffa, 0xa4506ceb, 0xbef9a3f7, 0xc67178f2]

def shaInit : Vector W32 8 :=
  #v[0x6a09e667, 0xbb67ae85, 0x3c6ef372, 0xa54ff53a, 0x510e527f, 0x9b05688c, 0x1f83d9ab, 0x5be0cd19]

def rotr (x : W32) (n : Nat) : W32 := x.rotateRight n

/-- The message schedule, newest word first: extend 16 words by n more. -/
def shaSchedule : Nat → List W32 → List W32
  | 0, ws => ws
  | n + 1, ws =>
    let g : Nat → W32 := fun i => (ws[i]?).getD 0
    let s0 := rotr (g 14) 7 ^^^ rotr (g 14) 18 ^^^ ((g 14) >>> 3)
    let s1 := rotr (g 1) 17 ^^^ rotr (g 1) 19 ^^^ ((g 1) >>> 10)
    shaSchedule n ((s1 + g 6 + s0 + g 15) :: ws)

/-- One round. -/
def shaRound (h : Vector W32 8) (kw : W32 × W32) : Vector W32 8 :=
  let a := h[0]; let b := h[1]; let c := h[2]; let d := h[3]
  let e := h[4]; let f := h[5]; let g := h[6]; let x := h[7]
  let t1 := x + (rotr e 6 ^^^ rotr e 11 ^^^ rotr e 25) + ((e &&& f) ^^^ (~~~e &&& g)) + kw.1 + kw.2
  let t2 := (rotr a 2 ^^^ rotr a 13 ^^^ rotr a 22) + ((a &&& b) ^^^ (a &&& c) ^^^ (b &&& c))
  #v[t1 + t2, a, b, c, d + t1, e, f, g]

/-- One 64-byte block. -/
def shaBlock (h : Vector W32 8) (blk : List Byte) : Vector W32 8 :=
  let w0 := ((chunks 4 16 blk).map fun x => w32 (ofBe x)).reverse
  let r := (shaK.zip (shaSchedule 48 w0).reverse).foldl shaRound h
  Vector.ofFn fun i => h[i] + r[i]

/-- The padded message. -/
def shaPad (m : List Byte) : List Byte :=
  let z := (119 - m.length % 64) % 64
  m ++ [0x80] ++ List.replicate z 0 ++ beBytes 8 (8 * m.length)

/-- SHA-256. -/
def sha256 (m : List Byte) : List Byte :=
  let p := shaPad m
  let h := (chunks 64 (p.length / 64) p).foldl shaBlock shaInit
  h.toList.flatMap fun w => beBytes 4 w.toNat

/-- HMAC-SHA-256 (RFC 2104). -/
def hmac (key msg : List Byte) : List Byte :=
  let k := slice (if 64 < key.length then sha256 key else key) 0 64
  sha256 ((k.map fun b => b ^^^ 0x5c) ++ sha256 ((k.map fun b => b ^^^ 0x36) ++ msg))

/-! RSA-3072 with exponent 65,537 (R346). -/

/-- Square k times modulo n. -/
def squareMod (n : Nat) : Nat → Nat → Nat
  | 0, x => x
  | k + 1, x => squareMod n k (x * x % n)

/-- x^65537 modulo n. -/
def rsaPublic (n x : Nat) : Nat := squareMod n 16 (x % n) * x % n

/-- EMSA-PKCS1-v1_5 of a SHA-256 digest in 384 bytes. -/
def emsa (digest : List Byte) : List Byte :=
  let t : List Byte := [0x30, 0x31, 0x30, 0x0d, 0x06, 0x09, 0x60, 0x86, 0x48, 0x01, 0x65, 0x03, 0x04, 0x02, 0x01, 0x05,
    0x00, 0x04, 0x20] ++ digest
  [0x00, 0x01] ++ List.replicate (381 - t.length) 0xff ++ [0x00] ++ t

/-- RSASSA-PKCS1-v1_5 verification with SHA-256. -/
def rsaVerify (modulus msg sig : List Byte) : Bool :=
  let n := ofBe modulus
  decide (ofBe sig < n) && beBytes 384 (rsaPublic n (ofBe sig)) == emsa (sha256 msg)

/-- x to the power whose bits are given from the highest, modulo n. -/
def powMod (n x : Nat) (bits : List Bool) : Nat := bits.foldl (fun r b => r * r % n * (if b then x else 1) % n) (1 % n)

/-- RSASSA-PKCS1-v1_5 signature with SHA-256 under the private exponent d. -/
def rsaSign (modulus d msg : List Byte) : List Byte :=
  let e := ofBe d
  beBytes 384 (powMod (ofBe modulus) (ofBe (emsa (sha256 msg))) ((List.range 3072).map fun i => Nat.testBit e (3071 - i)))

/-- MGF1 with SHA-256, k blocks. -/
def mgf1 (seed : List Byte) (k : Nat) : List Byte :=
  (List.range k).flatMap fun i => sha256 (seed ++ beBytes 4 i)

def xorBytes (x y : List Byte) : List Byte := List.zipWith (fun a b => a ^^^ b) x y

/-- RSAES-OAEP encryption of 32 bytes with SHA-256, MGF1-SHA-256, an empty label and a 32-byte seed. -/
def rsaOaep (modulus seed msg : List Byte) : List Byte :=
  let db := sha256 [] ++ List.replicate (351 - 33 - msg.length) 0 ++ [0x01] ++ msg
  let mdb := xorBytes db ((mgf1 seed 11).take 351)
  let ms := xorBytes seed (mgf1 mdb 1)
  beBytes 384 (rsaPublic (ofBe modulus) (ofBe (0 :: (ms ++ mdb))))

/-! Frame CRCs. -/

/-- CRC-16/CCITT (R278; R165 for slot headers). -/
def crc16 (bs : List Byte) : Nat := crcBytes 16 0x1021 0xFFFF bs

/-- CRC-8 of protocol v1 (R422). -/
def crc8 (bs : List Byte) : Nat := crcBytes 8 0x07 0xFF bs

end Sys2Proof.Machine
end

