-- ==== Sys2Proof/Machine/Aes.lean ====
section
/-! DEFINITION. AES-256 (FIPS 197), XTS over a 4,096-byte data unit (IEEE 1619, R87) and AES key wrap with padding (RFC 5649,
R352). Nothing on the media path depends on it but what lies in NAND: hosts, Stalls and the index see plaintext. -/

namespace Sys2Proof.Machine

/-! The field of 256 elements. -/

def gfDouble (b : Byte) : Byte := (b <<< 1) ^^^ (if b.msb then 0x1b else 0)

/-- Product in the field, over the bits of b from the highest. -/
def gfMul (a b : Byte) : Byte :=
  [7, 6, 5, 4, 3, 2, 1, 0].foldl (fun r i => gfDouble r ^^^ (if b.getLsbD i then a else 0)) 0

/-- a to the power 254: the inverse, and 0 for 0. -/
def gfInv (a : Byte) : Byte :=
  (([1, 2, 3, 4, 5, 6, 7] : List Nat).foldl (fun (p : Byte × Byte) _ =>
    let q := gfMul p.2 p.2
    (gfMul p.1 q, q)) (1, a)).1

/-- SubBytes on one byte. -/
def sbox (b : Byte) : Byte :=
  let x := gfInv b
  x ^^^ x.rotateLeft 1 ^^^ x.rotateLeft 2 ^^^ x.rotateLeft 3 ^^^ x.rotateLeft 4 ^^^ 0x63

/-! AES-256. A state is its 16 bytes, column after column. -/

/-- The key schedule, newest word first: n more words after i. -/
def aesSchedule : Nat → Nat → Byte → List (List Byte) → List (List Byte)
  | 0, _, _, ws => ws
  | n + 1, i, rc, ws =>
    let last := (ws[0]?).getD []
    let old := (ws[7]?).getD []
    let t := if i % 8 = 0 then
        let r := (last.drop 1 ++ last.take 1).map sbox
        xorBytes r [rc, 0, 0, 0]
      else if i % 8 = 4 then last.map sbox else last
    aesSchedule n (i + 1) (if i % 8 = 0 then gfDouble rc else rc) (xorBytes old t :: ws)

/-- The fifteen round keys of a 32-byte key. -/
def aesKeys (key : List Byte) : List (List Byte) :=
  chunks 16 15 ((aesSchedule 52 8 1 (chunks 4 8 key).reverse).reverse.flatten)

/-- ShiftRows. -/
def shiftRows (s : List Byte) : List Byte := (List.range 16).map fun i => (s[(i + 4 * (i % 4)) % 16]?).getD 0

/-- MixColumns. -/
def mixColumns (s : List Byte) : List Byte := (List.range 16).map fun i =>
  let g : Nat → Byte := fun k => (s[i / 4 * 4 + (i + k) % 4]?).getD 0
  gfDouble (g 0) ^^^ gfDouble (g 1) ^^^ g 1 ^^^ g 2 ^^^ g 3

/-- One block under the round keys. -/
def aesBlock (keys : List (List Byte)) (p : List Byte) : List Byte :=
  match keys with
  | [] => p
  | k0 :: ks =>
    ks.zipIdx.foldl (fun s k =>
      let t := shiftRows (s.map sbox)
      xorBytes (if k.2 = ks.length - 1 then t else mixColumns t) k.1) (xorBytes p k0)

/-! The inverse cipher. -/

/-- The inverse of SubBytes on one byte. -/
def invSbox (b : Byte) : Byte := gfInv (b.rotateLeft 1 ^^^ b.rotateLeft 3 ^^^ b.rotateLeft 6 ^^^ 0x05)

/-- The inverse of ShiftRows. -/
def invShiftRows (s : List Byte) : List Byte := (List.range 16).map fun i => (s[(i + 12 * (i % 4)) % 16]?).getD 0

/-- The inverse of MixColumns. -/
def invMixColumns (s : List Byte) : List Byte := (List.range 16).map fun i =>
  let g : Nat → Byte := fun k => (s[i / 4 * 4 + (i + k) % 4]?).getD 0
  gfMul (g 0) 0x0e ^^^ gfMul (g 1) 0x0b ^^^ gfMul (g 2) 0x0d ^^^ gfMul (g 3) 0x09

/-- One block back through the round keys. -/
def aesUnblock (keys : List (List Byte)) (c : List Byte) : List Byte :=
  match keys.reverse with
  | [] => c
  | k0 :: ks =>
    ks.zipIdx.foldl (fun s k =>
      let t := xorBytes ((invShiftRows s).map invSbox) k.1
      if k.2 = ks.length - 1 then t else invMixColumns t) (xorBytes c k0)

/-! XTS. -/

/-- The tweak times α; a tweak is the little-endian number of its 16 bytes. -/
def xtsDouble (t : Nat) : Nat := (2 * t % 2 ^ 128) ^^^ (if 2 ^ 127 ≤ t then 0x87 else 0)

/-- Blocks of a data unit in turn. -/
def xtsBlocks (k1 : List (List Byte)) : List (List Byte) → Nat → List Byte
  | [], _ => []
  | p :: ps, t =>
    let tb := leBytes 16 t
    xorBytes (aesBlock k1 (xorBytes p tb)) tb ++ xtsBlocks k1 ps (xtsDouble t)

/-- AES-256-XTS of a data unit under the 64 bytes of a 512-bit key, the tweak being a number as 128-bit little-endian value. -/
def xts (kb : List Byte) (tweak : Nat) (data : List Byte) : List Byte :=
  let t := aesBlock (aesKeys (kb.drop 32)) (leBytes 16 tweak)
  xtsBlocks (aesKeys (kb.take 32)) (chunks 16 (data.length / 16) data) (ofLe t)

/-! AES key wrap with padding. -/

/-- One pass over the semiblocks: A and R. -/
def wrapPass (keys : List (List Byte)) (j n : Nat) (x : List Byte × List (List Byte)) : List Byte × List (List Byte) :=
  x.2.zipIdx.foldl (fun acc r =>
    let b := aesBlock keys (acc.1 ++ r.1)
    (xorBytes (b.take 8) (beBytes 8 (n * j + r.2 + 1)), acc.2 ++ [b.drop 8])) (x.1, [])

/-- RFC 5649 of a key of at least 16 bytes, a multiple of 8, under a 32-byte key. -/
def keyWrap (kek key : List Byte) : List Byte :=
  let keys := aesKeys kek
  let n := key.length / 8
  let r := [0, 1, 2, 3, 4, 5].foldl (fun x j => wrapPass keys j n x)
    ([0xA6, 0x59, 0x59, 0xA6] ++ beBytes 4 key.length, chunks 8 n key)
  r.1 ++ r.2.flatten

/-- One pass of the unwrapping, over the semiblocks from the last. -/
def unwrapPass (keys : List (List Byte)) (j n : Nat) (x : List Byte × List (List Byte)) : List Byte × List (List Byte) :=
  x.2.zipIdx.reverse.foldl (fun acc r =>
    let b := aesUnblock keys (xorBytes acc.1 (beBytes 8 (n * j + r.2 + 1)) ++ r.1)
    (b.take 8, b.drop 8 :: acc.2)) (x.1, [])

/-- The key that RFC 5649 wrapped under a 32-byte key. -/
def keyUnwrap (kek w : List Byte) : List Byte :=
  let keys := aesKeys kek
  let n := w.length / 8 - 1
  let r := [5, 4, 3, 2, 1, 0].foldl (fun x j => unwrapPass keys j n x) (w.take 8, chunks 8 n (w.drop 8))
  r.2.flatten.take (ofBe (slice r.1 4 4))

/-- The OTP root key (Table 12-11). -/
def rootKey : List Byte := (List.range 32).map Config.rootKey

/-- Signature with the device key, which is unwrapped only for it (R352). -/
def deviceSign (t : List Byte) : List Byte := rsaSign Config.deviceModulus (keyUnwrap rootKey Config.deviceKey) t

end Sys2Proof.Machine
end

