-- ==== Sys2Proof/Machine/Memory.lean ====
section
/-! DEFINITION. Byte memories as lists of address and byte pairs in one canonical form: addresses strictly rising, and
no entry equal to what an unlisted address reads as. `d` gives what an unlisted address reads as. -/

namespace Sys2Proof.Machine

/-- The byte at an address. -/
def Memory.read (d : Nat → Byte) : List Host.Cell → Nat → Byte
  | [], a => d a
  | (k, v) :: m, a => if k = a then v else Memory.read d m a

/-- Write one byte; a byte equal to the unlisted one removes the entry. -/
def Memory.write (d : Nat → Byte) : List Host.Cell → Nat → Byte → List Host.Cell
  | [], a, v => if v = d a then [] else [(a, v)]
  | (k, w) :: m, a, v =>
    if a < k then (if v = d a then (k, w) :: m else (a, v) :: (k, w) :: m)
    else if a = k then (if v = d a then m else (a, v) :: m)
    else (k, w) :: Memory.write d m a v

/-- Write bytes at rising addresses. -/
def Memory.writeBytes (d : Nat → Byte) : List Host.Cell → Nat → List Byte → List Host.Cell
  | m, _, [] => m
  | m, a, b :: bs => Memory.writeBytes d (Memory.write d m a b) (a + 1) bs

/-- k bytes from an address. -/
def Memory.readBytes (d : Nat → Byte) (m : List Host.Cell) (a : Nat) : Nat → List Byte
  | 0 => []
  | k + 1 => Memory.read d m a :: Memory.readBytes d m (a + 1) k

/-- The canonical form: every address at least `lo`, rising, and no entry equal to the unlisted byte. -/
def Memory.wfFrom (d : Nat → Byte) : Nat → List Host.Cell → Prop
  | _, [] => True
  | lo, (k, v) :: m => lo ≤ k ∧ v ≠ d k ∧ Memory.wfFrom d (k + 1) m

abbrev Memory.wf (d : Nat → Byte) (m : List Host.Cell) : Prop := Memory.wfFrom d 0 m

/-- What RAM that nothing has written reads as (DESIGN CHOICE, notes/assumptions/10.md). -/
def ramByte (_ : Nat) : Byte := 0

end Sys2Proof.Machine
end

