-- ==== Sys2Proof/Machine/Nand.lean ====
section
/-! DEFINITION. The flash media as data (05_media_management.md, 06_power_loss_and_rebuild.md): slots, blocks and their
pools, superblocks and stripes, where one-bit programs go, the map journal and what it makes durable, erases. -/

namespace Sys2Proof.Machine

/-! Slots (R125, R165, R166). -/

def slotKey (nsid lba : Nat) : Nat := nsid * 2 ^ 40 + lba
def keyNs (k : Nat) : Nat := k / 2 ^ 40
def keyLba (k : Nat) : Nat := k % 2 ^ 40

/-- The map page of a slot. -/
def pageKey (k : Nat) : Nat := slotKey (keyNs k) (keyLba k / 512)

/-- Slots of one namespace in a range. -/
def inRange (nsid lo n : Nat) (k : Nat) : Bool :=
  (keyNs k == nsid) && decide (lo ≤ keyLba k) && decide (keyLba k < lo + n)

/-- The newest content of a slot: data and protection bytes (R66, R102). -/
def Media.slot (m : Media) (k : Nat) : Option (List Byte × List Byte) :=
  match look m.held k with
  | some h => some (h.data, h.pi)
  | none => (look m.content k).map fun x => (x.data, x.pi)

/-- Data of a slot; a slot never written, deallocated or reclaimed reads zero (R66). -/
def Media.data (m : Media) (k : Nat) : List Byte := ((m.slot k).map fun x => x.1).getD (List.replicate 4096 0)

/-- A stored slot passes its CRC32C (R129, R371). -/
def Slot4k.sound (x : Slot4k) : Bool := x.err == 0

/-- The newest content of a slot passes its CRC32C; what does not is never returned as good data (R86, R371). -/
def Media.sound (m : Media) (k : Nat) : Bool :=
  match look m.held k with
  | some h => h.err == 0
  | none => (look m.content k).all Slot4k.sound

/-- Protection bytes of a slot. -/
def Media.prot (m : Media) (k : Nat) : List Byte := ((m.slot k).map fun x => x.2).getD (List.replicate 8 0xFF)

/-! Blocks and pools (R116, R118). -/

def blkKey (p : Place) : Nat := (p.die.val * 4 + p.plane.val) * 4096 + p.block.val
def planeIndex (p : Place) : Nat := p.die.val * 4 + p.plane.val
def groupOf (die : Nat) : Nat := if die % 4 < 2 then 0 else 1

/-- The block of a key. -/
def placeOf (k : Nat) : Option Place :=
  if h : k / 16384 < 64 then
    if b : k % 4096 < 2800 then some { die := ⟨k / 16384, h⟩, plane := ⟨k / 4096 % 4, Nat.mod_lt _ (by decide)⟩, block := ⟨k % 4096, b⟩ }
    else none
  else none

/-- A block; every block of a failed die is retired (R146). -/
def Media.blk (m : Media) (p : Place) : Blk :=
  let b := (look m.blocks (blkKey p)).getD .fresh
  if ((m.dies[p.die.val]?).getD .reset).failed then { b with retired := true } else b
def Media.modBlk (m : Media) (p : Place) (f : Blk → Blk) : Media := { m with blocks := put m.blocks (blkKey p) (f (m.blk p)) }
def Media.die (m : Media) (d : Nat) : Die := (m.dies[d]?).getD .reset
def Media.group (m : Media) (g : Nat) : Group := (m.groups[g]?).getD ⟨false, false⟩

/-- Spare blocks of a plane that have taken the place of retired ones. -/
def Media.joined (m : Media) (i : Nat) : Nat := 84 - (m.spares[i]?).getD 0

/-- A block is in its plane's general pool: of its 2,800 blocks the first 2,704, and the spares that replaced retired ones;
the last 12 are the system pool (Table 5-2; which numbers the pools have is a DESIGN CHOICE, notes/assumptions/76.md). -/
def Media.general (m : Media) (p : Place) : Bool :=
  decide (p.block.val < 2704) || (decide (p.block.val < 2788) && decide (p.block.val < 2704 + m.joined (planeIndex p)))

/-- A listed block is in service: neither it nor its die has been retired (R143, R146). -/
def Media.inService (m : Media) (x : Nat × Blk) : Bool := !x.2.retired && !(m.die (x.1 / 16384)).failed

/-- A powered hour has passed for the blocks that hold data (R402). -/
def Media.hourOlder (m : Media) : Media :=
  { m with blocks := m.blocks.map fun x => (x.1, if x.2.used then { x.2 with age := x.2.age + 1 } else x.2) }

/-- A block of the general pool is erased and sound, of a mode where one is asked for; a block never erased since shipment
takes either mode. -/
def Media.isErased (m : Media) (p : Place) (tlc : Option Bool) : Bool :=
  let b := m.blk p
  m.general p && !b.used && !b.retired && b.header && !(m.die p.die.val).failed && (tlc.all fun t => b.tlc == t || b.erases == 0)

/-- Bytes of one general-pool block. -/
def blockBytes : Nat := 25165824

/-- Free space of a group (Table 5-5): its erased general-pool blocks, without the reserve of R123. -/
def Media.free (m : Media) (g : Nat) : Nat :=
  let planes := (List.range 256).filter fun i => groupOf (i / 4) == g && !(m.die (i / 4)).failed
  let all := (planes.map fun i => 2704 + m.joined i).foldl (· + ·) 0
  let gone := m.blocks.filter fun x => (placeOf x.1).any fun p =>
    groupOf p.die.val == g && !(m.die p.die.val).failed && m.general p && !m.isErased p none
  blockBytes * (all - gone.length - 124)

/-- The superblock that a block belongs to. -/
def Media.superOf (m : Media) (p : Place) : Option (Nat × Super) := m.supers.find? fun x => x.2.members.contains p

/-- Keys of the slots that lie in a block. -/
def Media.inBlock (m : Media) (p : Place) : List Nat :=
  (m.content.filter fun x => x.2.place == some p).map fun x => x.1

/-- Bytes of one-bit data of a group not folded (R122). -/
def Media.unfolded (m : Media) (g : Nat) : Nat :=
  4096 * (m.content.filter fun x => x.2.place.any fun p => (groupOf p.die.val == g) && !(m.blk p).tlc).length

/-- Host and ingest writes to a group wait: its buffer holds 64 GiB not folded, or its free space is critical (R123, R131). -/
def Media.limited (m : Media) (g : Nat) : Bool := decide (68719476736 ≤ m.unfolded g) || decide (m.free g < 8589934592)

/-- Host and ingest writes are admitted (R123, R131). -/
def Media.admits (m : Media) : Bool := !m.limited 0 || !m.limited 1

/-! Slow dies (R147, R148). -/

/-- Twice the median of a list; 0 of an empty one. -/
def median2 (xs : List Nat) : Nat :=
  let ys := xs.mergeSort fun a b => decide (a ≤ b)
  let n := ys.length
  (ys[(n - 1) / 2]?).getD 0 + (ys[n / 2]?).getD 0

/-- Four times the median over all dies of their medians in a mode. -/
def Media.allMedian4 (m : Media) (tlc : Bool) : Nat :=
  median2 ((m.dies.toList.map fun d => if tlc then d.tTlc else d.tOne).filterMap fun t =>
    if t.isEmpty then none else some (median2 t))

/-- A die meets the condition of R147 in some mode. With fewer than 64 programs its median is that of the programs there are
(DESIGN CHOICE, notes/assumptions/77.md: the rule speaks of the last 64). -/
def Die.slow (d : Die) (tlc4 one4 : Nat) : Bool := decide (3 * tlc4 < 4 * median2 d.tTlc) || decide (3 * one4 < 4 * median2 d.tOne)

/-- A detoured die returns: in both modes its median is 1.25 times the all-die median or less (R148; DESIGN CHOICE,
notes/assumptions/77.md: the rule names no mode). -/
def Die.fast (d : Die) (tlc4 one4 : Nat) : Bool := decide (8 * median2 d.tTlc ≤ 5 * tlc4) && decide (8 * median2 d.tOne ≤ 5 * one4)

/-- Dies that meet the condition of R147. -/
def Media.slowDies (m : Media) : Nat :=
  let a := m.allMedian4 true
  let b := m.allMedian4 false
  (m.dies.toList.filter fun d => d.slow a b).length

/-! Superblocks (R116, R117, R121, R123, R124). -/

def Super.tlc (u : Super) : Bool := u.kind == 1 || u.kind == 2 || u.kind == 3

/-- Slots that a die can take: its four blocks without their last page, the summary page (R167). -/
def Super.room (u : Super) : Nat := if u.tlc then 4 * 1535 * 4 else 4 * 511 * 4

def Super.dies (u : Super) : List (Fin 64) := (u.members.map fun p => p.die).dedup
def Super.filled (u : Super) (d : Fin 64) : Nat := (look u.fill d.val).getD 0
def Super.block (u : Super) (d : Fin 64) (q : Nat) : Option Place := u.members.find? fun p => p.die == d && p.plane.val == q

/-- The dies that the next stripes of a superblock use: not failed, no failed program here, and for the buffer not detoured
(R117, R147). -/
def Media.stripeDies (m : Media) (u : Super) : List (Fin 64) :=
  u.dies.filter fun d => !(m.die d.val).failed && !u.out.contains d && !(u.kind == 0 && (m.die d.val).detoured)

/-- The fill that every die of the next stripes has reached. -/
def Media.level0 (m : Media) (u : Super) : Nat :=
  match (m.stripeDies u).map u.filled with
  | [] => u.room
  | x :: xs => xs.foldl min x

/-- A stripe has begun and is not complete; its parity is in staging SRAM (R121). -/
def Media.begun (m : Media) (u : Super) : Bool := (m.stripeDies u).any fun d => decide (m.level0 u < u.filled d)

/-- A superblock takes more programs. -/
def Media.takes (m : Media) (u : Super) : Bool := !u.closed && decide (m.level0 u < u.room)

/-- Whole stripes below a fill; the last stripe of a TLC superblock is shorter by the summary pages. -/
def Super.stripes (u : Super) (n : Nat) : Nat :=
  let k := if u.tlc then 48 else 16
  if u.room ≤ n then ceilDiv u.room k else n / k

/-- The stripes that every die has programmed have their parity on the parity die (R121); a one-bit parity row is 4 pages,
that of a TLC stripe 12. -/
def Media.settleRows (m : Media) (k : Nat) : Media :=
  match look m.supers k with
  | none => m
  | some u =>
    let busy := (m.progs.filter fun p => p.sb == k).map fun p => 16 * p.row
    let r := u.stripes (busy.foldl min (m.level0 u))
    if r ≤ u.rows then m else
    { m with supers := put m.supers k { u with rows := r }
             parRows := m.parRows + (r - u.rows) * (if u.tlc then 12 else 4) }

/-- Close a superblock (R124): no die takes another program, the last page of each block is its summary page (R167), and the sources of
the copies in it whose map changes are durable are kept no longer. The running patrol round takes the blocks in (R137). -/
def Media.closeSuper (m : Media) (k : Nat) : Media :=
  match look m.supers k with
  | none => m
  | some u =>
    let m := { m with supers := put m.supers k { u with closed := true, verify := true }
                      copied := m.copied.filter fun x => !(x.durable && u.members.contains x.dst) }
    (u.members ++ u.parity).foldl (fun m p => m.modBlk p fun b => { b with closed := true, passes := m.round }) m

/-- A superblock whose last stripe is programmed closes (R124). -/
def Media.closeFull (m : Media) (k : Nat) : Media :=
  let m := m.settleRows k
  match look m.supers k with
  | some u => if !u.closed && !m.takes u && !(m.progs.any fun p => p.sb == k) then m.closeSuper k else m
  | none => m

/-- The dies of a group in ascending order of c, then t. -/
def groupDies (g : Nat) : List (Fin 64) := (List.finRange 64).filter fun d => groupOf d.val == g

/-- A block of a plane for a use: the lowest-numbered erased one, for levelling the most worn (R135). But for the flush, and for Held
data in end of life, which is programmed as kind 4 too, one that the flush can use stays erased (R123, R149). -/
def Media.choose (m : Media) (kind : Nat) (tlc : Bool) (d : Fin 64) (q : Fin 4) : Option Place :=
  let all := (List.finRange 2800).map fun b => (⟨d, q, b⟩ : Place)
  let ok := all.filter fun p => m.isErased p (some tlc)
  let best := if kind = 3 then ok.foldl (fun (o : Option Place) p => match o with
      | none => some p
      | some x => if (m.blk x).wear < (m.blk p).wear then some p else o) none
    else all.find? fun p => m.isErased p (some tlc)
  best.bind fun p =>
    if kind = 4 || (all.find? fun x => x != p && m.isErased x (some false)).isSome then some p else none

/-- A block of a plane joins a superblock. -/
def Media.grab (m : Media) (kind : Nat) (tlc : Bool) (d : Fin 64) (q : Fin 4) : Option (Place × Media) :=
  (m.choose kind tlc d q).map fun p => (p, m.modBlk p fun b => { b with used := true, tlc := tlc, born := m.wseq, age := 0 })

/-- Blocks for a list of planes, or none when a plane has none. -/
def Media.grabAll (m : Media) (kind : Nat) (tlc : Bool) : List (Fin 64 × Fin 4) → Option (List Place × Media)
  | [] => some ([], m)
  | x :: xs => (m.grab kind tlc x.1 x.2).bind fun r => (r.2.grabAll kind tlc xs).map fun y => (r.1 :: y.1, y.2)

/-- Open a superblock of a kind in a group (R117): the parity die steps through the group's dies, and every other die gives a
block of each plane; a failed die gives none, nor a detoured one to the buffer, parity or data (R146, R147). -/
def Media.openSuper (m : Media) (g kind : Nat) : Option (Nat × Media) :=
  let ds := groupDies g
  let n := (m.nextPar[g]?).getD 0
  let live := ds.filter fun d => !(m.die d.val).failed && !(kind == 0 && (m.die d.val).detoured)
  let ring := (ds.drop (n % 32) ++ ds.take (n % 32)).filter live.contains
  let tlc := kind == 1 || kind == 2 || kind == 3
  match ring with
  | [] => none
  | par :: _ =>
    let data := live.filter fun d => d != par
    let planes : Fin 64 → List (Fin 64 × Fin 4) := fun d => (List.finRange 4).map fun q => (d, q)
    (m.grabAll kind tlc (data.flatMap planes)).bind fun r =>
      (r.2.grabAll kind false (planes par ++ if tlc then planes par ++ planes par else [])).map fun y =>
        (m.nextSuper, { y.2 with
          supers := put y.2.supers m.nextSuper { grp := g, kind := kind, parDie := par, members := r.1, parity := y.1, fill := []
                                                 out := [], rows := 0, closed := false, verify := false, failing := [] }
          nextSuper := m.nextSuper + 1, nextPar := vput m.nextPar g (n + 1) })

/-- An open superblock of a kind and group that takes more, not the one to be avoided; else a new one. -/
def Media.openOf (m : Media) (g kind : Nat) (avoid : Option Nat) : Option (Nat × Media) :=
  match m.supers.find? fun x => x.2.grp == g && x.2.kind == kind && some x.1 != avoid && m.takes x.2 with
  | some x => some (x.1, m)
  | none => m.openSuper g kind

/-- The groups in the order in which a new buffer stripe takes them: the one with less unfolded data, then group 0 (R123). -/
def Media.groupOrder (m : Media) : List Nat := if m.unfolded 1 < m.unfolded 0 then [1, 0] else [0, 1]

/-- A superblock of some groups that takes the next one-bit program: one whose stripe has begun, else of the group for a new stripe. -/
def Media.bufferIn (m : Media) (kind : Nat) (avoid : Option Nat) (groups : List Nat) : Option (Nat × Media) :=
  match m.supers.find? fun x => x.2.kind == kind && some x.1 != avoid && groups.contains x.2.grp && m.takes x.2 && m.begun x.2 with
  | some x => some (x.1, m)
  | none => groups.findSome? fun g => m.openOf g kind avoid

/-- The superblock that takes the next program of a host or ingest write: of a group that takes such writes (R123, R131). -/
def Media.bufferSuper (m : Media) (avoid : Option Nat) : Option (Nat × Media) :=
  m.bufferIn 0 avoid (m.groupOrder.filter fun g => !m.limited g)

/-- The superblock that takes a program which waits for no group: the flush, and what the card programs as it stops. -/
def Media.flushSuper (m : Media) (kind : Nat) : Option (Nat × Media) :=
  (if kind = 0 then m.bufferSuper none else none).orElse fun _ => m.bufferIn kind none m.groupOrder

/-! Programs (R119, R120, R121). -/

/-- Pages for a program of up to 64 KiB: chunks go into the page of a plane while they fit whole (R120, R171). -/
def packPages (sb : Nat) : List Chunk → List (List Chunk) → List (List Chunk) × List Chunk
  | [], ps => (ps.reverse, [])
  | c :: cs, ps =>
    if c.avoid = some sb then (ps.reverse, c :: cs) else
    match ps with
    | p :: rest =>
      if ((p ++ [c]).map fun x => x.slots.length).foldl (· + ·) 0 ≤ 4 then packPages sb cs ((p ++ [c]) :: rest)
      else if ps.length < 4 then packPages sb cs ([c] :: ps)
      else (ps.reverse, c :: cs)
    | [] => packPages sb cs [[c]]

/-- A chunk comes from Held data in DRAM. -/
def Media.fromDram (m : Media) (c : Chunk) : Bool := c.grp.isNone && c.slots.all fun x => (look m.held x.1).isSome

/-- Start the next one-bit program: waiting chunks go together to the first free die of the stripe (R120). `may`: those that may be
programmed now (R391, R392). -/
def Media.pumpOne (m : Media) (may : Chunk → Bool) : Option Media :=
  let (q, wait) := m.queue.partition may
  match q with
  | [] => none
  | c :: _ =>
    match (m.bufferSuper c.avoid).orElse fun _ => if m.eol then m.bufferIn 4 c.avoid m.groupOrder else none with
    | none => none
    | some (k, n) =>
      match look n.supers k with
      | none => none
      | some u =>
        let low := n.level0 u
        match (n.stripeDies u).find? fun d => u.filled d == low && !(n.progs.any fun p => p.die == d) with
        | none => none
        | some d =>
          let (pages, rest) := packPages k q []
          some { n with queue := rest ++ wait, nextProg := n.nextProg + 1
                        progs := n.progs ++ [⟨n.nextProg, k, d, low / 16, pages⟩]
                        supers := put n.supers k { u with fill := put u.fill d.val (low + 16) } }

/-- Start programs while a die is free. -/
def Media.pump (may : Chunk → Bool) : Nat → Media → Media
  | 0, m => m
  | fuel + 1, m => (m.pumpOne may).elim m fun m => Media.pump may fuel m

/-- Chunks of at most one plane page (R171). -/
def chunksOf (grp : Option Nat) (xs : List (Nat × Slot4k)) : List Chunk :=
  (List.range (ceilDiv xs.length 4)).map fun i => ⟨(xs.drop (4 * i)).take 4, grp, none⟩

/-- One-bit data waits for a die, or starts at once. -/
def Media.submit (m : Media) (may : Chunk → Bool) (cs : List Chunk) : Media :=
  Media.pump may (m.queue.length + cs.length) { m with queue := m.queue ++ cs }

/-- Chunks that have not ended. -/
def Media.chunks (m : Media) : List Chunk := m.queue ++ m.progs.flatMap fun p => p.pages.flatten

/-- Keys that hold data or will, with what is on its way to NAND (R79). -/
def Media.allocated (m : Media) : List Nat :=
  m.held.map (fun x => x.1) ++ m.content.map (fun x => x.1) ++ (m.chunks.flatMap fun c => c.slots.map fun x => x.1) ++
    m.partials.flatMap fun x => x.2.map fun y => y.1

/-- A slot waits for its program, outside a Held write that shows as a whole: its data are in staging SRAM or DRAM. -/
def Media.onWay (m : Media) (k : Nat) : Bool := m.chunks.any fun c => c.grp.isNone && c.slots.any fun x => x.1 == k

/-- The Held data of a slot in DRAM, where it waits for a die, goes no further (R119). -/
def Media.unqueue (m : Media) (k : Nat) : Media :=
  match look m.held k with
  | none => m
  | some h => { m with queue := (m.queue.map fun c =>
      { c with slots := c.slots.filter fun x => !(x.1 == k && x.2.wseq == h.wseq) }).filter fun c => !c.slots.isEmpty }

/-- Held data leaves DRAM. -/
def Media.dropHeld (m : Media) (k : Nat) : Media := { m.unqueue k with held := del m.held k }

/-- Held data in DRAM no longer passes its CRC32C (Table 13-9). -/
def Media.spoilHeld (m : Media) (k : Nat) : Media := { m with held := adjust m.held k fun h => { h with err := 1 } }

/-- A slot is on its way to NAND with at least this write sequence. -/
def Media.inFlight (m : Media) (k w : Nat) : Bool :=
  m.chunks.any fun c => c.slots.any fun x => x.1 == k && decide (w ≤ x.2.wseq)

/-! The map, its cache and its journal (R125, R126, R168, R170). -/

/-- A page is in a cache of so many pages as the most recently used; a full cache evicts the least recently used clean page,
and writes the oldest dirty one back first where none is clean (R125, R261). -/
def lruTouch (cap pg : Nat) (dirty : Bool) (c : List (Nat × Bool)) : List (Nat × Bool) :=
  let was := c.any fun x => x.1 == pg && x.2
  let rest := c.filter fun x => x.1 != pg
  let rest := if rest.length < cap then rest else
    match rest.reverse.find? fun x => !x.2 with
    | some v => rest.filter fun x => x.1 != v.1
    | none => rest.dropLast
  (pg, dirty || was) :: rest

/-- A map page is used; a change that waited for it makes it dirty (R125, R126). -/
def Media.touchPage (m : Media) (pg : Nat) (dirty : Bool) : Media :=
  { m with cache := lruTouch 1048576 pg (dirty || m.stale.contains pg) m.cache, wants := m.wants.filter fun x => x != pg
           stale := m.stale.filter fun x => x != pg }

/-- Pages of a namespace's position index are used (R261): one for each eight extents of 2 MiB, which is 1/4,096 of them
(R260; DESIGN CHOICE, notes/assumptions/79.md). -/
def Media.touchIndex (m : Media) (nsid : Nat) (extents : List Nat) (dirty : Bool) : Media :=
  { m with idx := ((extents.map fun e => e / 8).dedup).foldl (fun c e => lruTouch 262144 (slotKey nsid e) dirty c) m.idx }

/-- A map page is in the cache. -/
def Media.cached (m : Media) (pg : Nat) : Bool := m.cache.any fun x => x.1 == pg

/-- The map entry of a slot changes: in its page when it is cached, else when it will be (R126). -/
def Media.remap (m : Media) (k : Nat) : Media :=
  let pg := pageKey k
  if m.cached pg then m.touchPage pg true
  else if m.stale.contains pg then m else { m with stale := m.stale ++ [pg] }

/-- Cached pages are written back. -/
def Media.cleanPages (m : Media) (p : Nat → Bool) : Media :=
  { m with cache := m.cache.map (fun x => if p x.1 then (x.1, false) else x), stale := m.stale.filter fun x => !p x }

/-- A change of Held slots joins the journal (R168). A record that shares a slot with a waiting one takes it in: both become
durable together, so that neither shows in part (R171; DEDUCED, notes/assumptions/78.md). -/
def Media.addRec (m : Media) (keys : List Nat) (now_ : Nat) : Media :=
  let meets : JRec → Bool := fun r => r.keys.any keys.contains
  let old := m.jrnl.filter meets
  { m with jrnl := (m.jrnl.filter fun r => !meets r) ++
      [⟨((old.flatMap fun r => r.keys) ++ keys).dedup, (old.map fun r => r.wseq).foldl min m.wseq, (old.map fun r => r.ns).foldl min now_⟩] }

/-- The map changes of slots are durable: what stood before them is no longer named (R168, R170). One whose slot waits for its
program is not. -/
def Media.makeDurable (m : Media) (p : Nat → Bool) : Media :=
  let copied := m.copied.map fun x => if p x.key then { x with durable := true } else x
  { m with shadow := m.shadow.filter fun x => !p x.1 || m.onWay x.1, copied := copied.filter fun x => !(x.durable && (m.blk x.dst).closed) }

/-- Every slot of a journal record is in NAND (R168). -/
def Media.ready (m : Media) (r : JRec) : Bool := r.keys.all fun k => (look m.held k).isNone && !m.onWay k

/-- The journal is programmed up to its first record that is not ready (R168). -/
def Media.programJournal (m : Media) : Media :=
  let done := m.jrnl.takeWhile m.ready
  let ks := done.flatMap fun r => r.keys
  { m.makeDurable ks.contains with jrnl := m.jrnl.drop done.length }

/-- The map pages of slots are programmed (R105); what a record changes of which a slot is not in NAND yet stays as it was (R171). -/
def Media.programPages (m : Media) (p : Nat → Bool) : Media :=
  let waits : Nat → Bool := fun k => m.jrnl.any fun r => !m.ready r && r.keys.contains k
  let m' := m.makeDurable fun k => p k && !waits k
  { m' with jrnl := m.jrnl.filter fun r => !(m.ready r && r.keys.all p) }

/-- Bytes of waiting journal entries, 8 bytes each (R168; DESIGN CHOICE, notes/assumptions/78.md). -/
def Media.jrnlBytes (m : Media) : Nat := 8 * (m.jrnl.map fun r => max 1 r.keys.length).foldl (· + ·) 0

/-- An unprogrammed journal is lost: every slot that it changed shows what the durable map names (R170, R171, R175). -/
def Media.revert (m : Media) : Media :=
  let c := m.shadow.foldl (fun c x => match x.2 with
    | some y => put c x.1 y
    | none => del c x.1) m.content
  { m with content := c, shadow := [], jrnl := [], partials := [], copied := m.copied.filter fun x => !(m.shadow.any fun y => y.1 == x.key) }

/-! What lands in NAND. -/

/-- What the durable map names for a slot is kept while a journal record changes it (R170), or while its new slot waits for its
program. -/
def Media.keepShadow (m : Media) (k : Nat) : Media :=
  if (look m.shadow k).isSome || !(m.onWay k || m.jrnl.any fun r => r.keys.contains k) then m
  else { m with shadow := put m.shadow k (look m.content k) }

/-- Place the content of one key in NAND; its unrecovered mark goes (R142). -/
def Media.place (m : Media) (k : Nat) (x : Slot4k) : Media :=
  let m := m.keepShadow k
  { m with content := put m.content k x, unrec := m.unrec.filter fun u => u != k }

/-- A programmed slot shows, unless newer content does (R166); Held data that it makes old leaves DRAM (R119), and newer Held data
has been dirty only since its own acceptance (R105). A Scan slot is durable with its write sequence (R166). -/
def Media.land (m : Media) (k : Nat) (x : Slot4k) : Media :=
  let m := if (look m.content k).any fun y => decide (x.wseq < y.wseq) then m else (m.place k x).remap k
  let m := if m.onWay k || (m.jrnl.any fun r => r.keys.contains k) then m else { m with shadow := del m.shadow k }
  match look m.held k with
  | none => m
  | some h =>
    if h.wseq ≤ x.wseq then { m with held := del m.held k } else { m with held := put m.held k { h with since := h.wseq } }

/-- Slots that the card orders itself show from staging SRAM until they are programmed (R76, R176). -/
def Media.stage (m : Media) (xs : List (Nat × Slot4k)) : Media :=
  let m := { m with queue := m.queue ++ chunksOf none xs }
  xs.foldl (fun m x => m.land x.1 x.2) m

/-- The slots of a chunk as they stand in a block from a position on. -/
def Chunk.at_ (c : Chunk) (pl : Option Place) (pos : Nat) : List (Nat × Slot4k) :=
  c.slots.zipIdx.map fun y => (y.1.1, { y.1.2 with place := pl, pos := pos + y.2 })

/-- The slots of a program as they stand in their blocks, chunk by chunk, of the planes that passed. -/
def Prog.placed (p : Prog) (u : Super) (fails : List (Fin 4)) : List (Chunk × List (Nat × Slot4k)) :=
  (p.pages.zipIdx.filter fun x => !(fails.any fun q => q.val == x.2)).flatMap fun x =>
    (x.1.foldl (fun (a : Nat × List (Chunk × List (Nat × Slot4k))) (c : Chunk) =>
      (a.1 + c.slots.length, a.2 ++ [(c, c.at_ (u.block p.die x.2) (4 * p.row + a.1))])) (0, [])).2

/-- NSID of a slot header that pads a page, and of system data (Table 6-7). -/
def padNsid : Nat := 0
def systemNsid : Nat := 0xFFFF

/-- The pad slots of a page row from a position of a block on fill its page (R120); their LBA and write sequence are 0 (DESIGN CHOICE,
notes/assumptions/81.md). -/
def Media.pads (m : Media) (p : Place) (row n : Nat) : Media :=
  m.modBlk p fun b => { b with slots := b.slots ++ (List.range (4 - n)).map fun i => (4 * row + n + i, slotKey padNsid 0, 0) }

/-- The slot headers of programmed slots (R165); the summary page of a block holds them once it closes (R167). -/
def Media.heads (m : Media) (xs : List (Nat × Slot4k)) : Media :=
  xs.foldl (fun m x => x.2.place.elim m fun p => m.modBlk p fun b => { b with slots := b.slots ++ [(x.2.pos, x.1, x.2.wseq)] }) m

/-- A Held write that is programmed whole shows, with its journal record (R67, R168). -/
def Media.landGroups (m : Media) (now_ : Nat) : Media :=
  m.partials.foldl (fun (m : Media) (x : Nat × List (Nat × Slot4k)) =>
    if m.chunks.any fun c => c.grp == some x.1 then m
    else
      let m := { m with partials := del m.partials x.1 }
      x.2.foldl (fun m y => m.land y.1 y.2) (m.addRec (x.2.map fun y => y.1) now_)) m

/-- A program ends: what passed is in NAND, and what failed waits for another superblock (R67, R120, R143). -/
def Media.endProg (m : Media) (p : Prog) (fails : List (Fin 4)) (now_ : Nat) : Media :=
  let again := (p.pages.zipIdx.filter fun x => fails.any fun q => q.val == x.2).flatMap fun x =>
    x.1.map fun c => { c with avoid := some p.sb }
  let xs := (look m.supers p.sb).elim [] fun u => p.placed u fails
  let m := { m with progs := m.progs.filter (fun x => x.id != p.id), queue := again ++ m.queue }.heads (xs.flatMap (fun x : Chunk × List (Nat × Slot4k) => x.2))
  let m := (p.pages.zipIdx.filter fun x => !(fails.any fun q => q.val == x.2)).foldl (fun (m : Media) (x : List Chunk × Nat) =>
    (((look m.supers p.sb).bind fun u => u.block p.die x.2).elim m) fun b =>
      m.pads b p.row ((x.1.map fun c => c.slots.length).foldl (· + ·) 0)) m
  let m := xs.foldl (fun (m : Media) (x : Chunk × List (Nat × Slot4k)) => match x.1.grp with
    | none => x.2.foldl (fun m y => m.land y.1 y.2) m
    | some h => { m with partials := put m.partials h ((look m.partials h).getD [] ++ x.2) }) m
  m.landGroups now_

/-- One row of 4 plane pages is programmed at once, as the flush and a stop of the card do it. With no block left the slots stand
nowhere. -/
def Media.putRow (m : Media) (kind : Nat) (xs : List (Nat × Slot4k)) : Media :=
  match (m.flushSuper kind).bind fun r => (look r.2.supers r.1).bind fun u =>
      ((r.2.stripeDies u).find? fun d => u.filled d == r.2.level0 u).map fun d => (r.1, u, d, r.2) with
  | none => xs.foldl (fun m x => m.land x.1 { x.2 with place := none, pos := 0 }) m
  | some (k, u, d, n) =>
    let base := u.filled d / 4
    let n := { n with supers := put n.supers k { u with fill := put u.fill d.val (u.filled d + 16) } }
    let ys := xs.zipIdx.map fun x => (x.1.1, { x.1.2 with place := u.block d (x.2 / 4), pos := base + x.2 % 4 })
    let n := (List.range 4).foldl (fun (n : Media) q => (u.block d q).elim n fun p => n.pads p (base / 4) (min 4 (xs.length - 4 * q))) (n.heads ys)
    (ys.foldl (fun m x => m.land x.1 x.2) n).closeFull k

/-- Slots are programmed at once, 16 to a row. -/
def Media.putRows (m : Media) (kind : Nat) (xs : List (Nat × Slot4k)) : Media :=
  ((List.range (ceilDiv xs.length 16)).map fun i => (xs.drop (16 * i)).take 16).foldl (fun m r => m.putRow kind r) m

/-- Held data as it is programmed, with its CRC32C and the write sequence that it has. -/
def HeldSlot.slot (h : HeldSlot) : Slot4k := ⟨h.data, h.pi, h.err, h.wseq, none, 0⟩

/-- Program Held slots from DRAM: their content moves to NAND with the write sequence it has (R119, R166). -/
def Media.programHeld (m : Media) (kind : Nat) (keys : List Nat) : Media :=
  m.putRows kind (keys.filterMap fun k => (look m.held k).map fun h => (k, h.slot))

/-- Keys of the Held slots, oldest acceptance first (R119, Table 6-4). -/
def Media.heldOrder (m : Media) : List Nat :=
  (m.held.mergeSort fun a b => decide (a.2.wseq ≤ b.2.wseq)).map fun x => x.1

/-- The running parity of the stripes not complete is programmed in the power-loss flush (Table 6-4 step 5). -/
def Media.endStripes (m : Media) : Media :=
  m.supers.foldl (fun m x =>
    if x.2.tlc || !m.takes x.2 || !m.begun x.2 then m
    else { m with supers := put m.supers x.1 { x.2 with rows := x.2.rows + 1 }, parRows := m.parRows + 4 }) m

/-- All Held data and the journal are programmed (R105, R110, Table 6-4): programs on the dies run to their end, what shows from
staging SRAM is programmed, and a Held write that is not programmed whole leaves its old content (R104). -/
def Media.flush (m : Media) (kind now_ : Nat) : Media :=
  let m := m.progs.foldl (fun m p => m.endProg p [] now_) m
  let again := (m.queue.flatMap fun c => c.slots).filter fun x => (look m.content x.1).any fun (y : Slot4k) => y.wseq == x.2.wseq
  let m := { m with queue := [], partials := [] }.putRows kind again
  let m := (m.programHeld kind m.heldOrder).programJournal
  if kind = 4 then m.endStripes else m

/-- Trimmed slots leave what is on its way to NAND. -/
def Chunk.without (c : Chunk) (ks : Nat → Bool) : Chunk := { c with slots := c.slots.filter fun x => !ks x.1 }

/-- The slots of a trim leave the media, and their marks clear (R142, R166). -/
def Media.trim (m : Media) (ks : Nat → Bool) (held : Bool) (now_ : Nat) : Media :=
  let m := ((m.content.map fun x => x.1).filter ks).foldl Media.remap m
  let m : Media := { m with
    held := m.held.filter (fun x => !ks x.1), content := m.content.filter (fun x => !ks x.1)
    unrec := m.unrec.filter (fun k => !ks k)
    queue := m.queue.map (fun c => c.without ks)
    partials := m.partials.map (fun x => (x.1, x.2.filter fun y => !ks y.1))
    progs := m.progs.map fun p => { p with pages := p.pages.map fun cs => cs.map fun c => c.without ks }
    jrnl := m.jrnl.map fun r => { r with keys := r.keys.filter fun k => !ks k } }
  let m := m.makeDurable ks
  if held then m.addRec [] now_ else m

/-- A Scan checkpoint (R169, R262): the dirty Scan map pages and index pages, then the record with the open blocks. -/
def Media.checkpoint (m : Media) (scan : Nat → Bool) (now_ : Nat) : Media :=
  let opens := (m.supers.filter fun x => !x.2.closed).flatMap fun x => x.2.members.map blkKey
  let pages := (m.cache.filter fun x => x.2 && scan x.1).map (fun x => x.1) ++ m.stale.filter scan
  { (m.cleanPages scan).makeDurable scan with
    ckptSeq := m.wseq, ckptNs := now_, ckptOpen := opens, ckptPages := pages, scanBytes := 0
    idx := m.idx.map fun x => (x.1, false) }

/-! Erases (R122, R124, R167, R170, R178). -/

/-- No durable map entry can name a slot of a block (R170). -/
def Media.vacant (m : Media) (p : Place) : Bool :=
  (m.inBlock p).isEmpty && !(m.shadow.any fun x => x.2.any fun y => y.place == some p) && !(m.copied.any fun x => x.src == p)

/-- The parity blocks of a superblock wait for their erase (R124). -/
def Media.dropParity (m : Media) (k : Nat) : Media :=
  match look m.supers k with
  | some u => { m with supers := put m.supers k { u with parity := [] }, toErase := m.toErase ++ u.parity }
  | none => m

/-- Closed superblocks with no slot left leave, and their blocks wait for their erases; the parity that a failed verify read
kept goes with the last data of the failing blocks (R122, R124, R132). -/
def Media.reap (m : Media) : Media :=
  m.supers.foldl (fun m x =>
    let u := x.2
    if !u.closed || u.verify then m
    else if u.members.all m.vacant then
      { m with supers := del m.supers x.1
               toErase := m.toErase ++ (u.members ++ u.parity).filter fun p => !(m.blk p).retired }
    else if !u.failing.isEmpty && u.failing.all m.vacant then
      let m := m.dropParity x.1
      { m with supers := adjust m.supers x.1 fun u => { u with failing := [] } }
    else m) m

/-- Each plane with no erase in flight starts one: its erase-intent record is programmed, and the open header goes (R178). -/
def Media.startErases (m : Media) : Media :=
  m.reap.toErase.foldl (fun m p =>
    if m.intents.any fun k => k / 4096 == planeIndex p then m else
    let m := m.modBlk p fun b => { b with header := false }
    { m with toErase := m.toErase.filter fun q => q != p, intents := m.intents ++ [blkKey p] }) m.reap

/-- A listed block lies in the general pool of its plane. -/
def Media.listedGeneral (m : Media) (x : Nat × Blk) : Bool := (placeOf x.1).any m.general

/-- Blocks of the general pool (R118): 2,704 in each plane and the spares that joined it, less the retired ones; a failed die has
none. -/
def Media.poolSize (m : Media) : Nat :=
  let planes := (List.range 256).filter fun i => !(m.die (i / 4)).failed
  let all := (planes.map fun i => 2704 + m.joined i).foldl (· + ·) 0
  all - (m.blocks.filter fun x => m.listedGeneral x && x.2.retired && !(m.die (x.1 / 16384)).failed).length

/-- Wear of each listed block of the general pool in 1/100 unit; a retired one has left the pool. -/
def Media.wears (m : Media) : List Nat := (m.blocks.filter fun x => m.inService x && m.listedGeneral x).map fun x => x.2.wear

/-- Spread of wear over the general pool, in 1/100 unit; a block that is not listed has none, and a retired one is not in the
pool (R135). -/
def Media.spread (m : Media) : Nat :=
  let ws := m.wears
  let top := ws.foldl max 0
  if m.poolSize ≤ ws.length then top - ws.foldl min top else top

/-- Wear levelling starts above 250 units of spread and stops at 200 (R135). -/
def Media.level (m : Media) : Media :=
  { m with levelling := decide (25000 < m.spread) || (m.levelling && decide (20000 < m.spread)) }

/-- GC starts below 96 GiB, or below 128 GiB when no write has come for 1 s, and stops at 128 GiB (Table 5-5). -/
def Media.gcMarks (m : Media) (g : Nat) : Media :=
  { m with groups := vmod m.groups g fun x => { x with
      gc := if 137438953472 ≤ m.free g then false
            else x.gc || decide (m.free g < 103079215104) || m.idle } }

/-- A group folds: at 2,976 MiB of unfolded data, or with any when no write has come for 1 s (R122). A fold that has started
goes on until no unfolded data is left (DESIGN CHOICE, notes/assumptions/77.md: the rule gives no end). -/
def Media.foldMark (m : Media) (g : Nat) : Media :=
  let n := m.unfolded g
  { m with groups := vmod m.groups g fun x =>
      { x with folding := decide (n ≠ 0) && (x.folding || decide (3120562176 ≤ n) || m.idle) } }

/-- A block is erased: mode, count, wear and open header (R134, R136, R167). -/
def Media.erased (m : Media) (p : Place) (tlc : Bool) : Media :=
  let b := m.blk p
  let m := m.modBlk p fun _ => { Blk.fresh with erases := b.erases + 1, wear := b.wear + (if tlc then 100 else 15)
                                                suspect := b.suspect, tlc := tlc }
  let m := { m with intents := m.intents.filter fun k => k != blkKey p }
  (m.gcMarks (groupOf p.die.val)).level

/-- A slot of a block can be rebuilt: its superblock is open, or keeps its parity (R124, R139). -/
def Media.guarded (m : Media) (p : Place) : Bool := !(m.blk p).closed || (m.superOf p).any fun x => !x.2.parity.isEmpty

/-- A die of a superblock takes no more programs there, and the slots copied to its blocks go back to their sources (R143,
R145). -/
def Media.leaveDie (m : Media) (k : Nat) (d : Fin 64) : Media :=
  { m with supers := adjust m.supers k fun u => { u with out := d :: u.out.filter fun x => x != d } }

/-- A destination fails during a copy: the slots already copied to it are invalid, and the map points at their sources
(R145); for Held slots, `held`, that map change joins the journal too (R168). -/
def Media.uncopy (m : Media) (held : Nat → Bool) (now_ : Nat) (dst : Place) : Media :=
  let mine := m.copied.filter fun x => x.dst == dst
  let ks := (mine.map fun x => x.key).filter held
  let m := if ks.isEmpty then m else ks.foldl Media.keepShadow (m.addRec ks now_)
  { m with copied := m.copied.filter fun x => x.dst != dst
           content := mine.foldl (fun cs x => adjust cs x.key fun y =>
             if y.place = some dst then { y with place := some x.src, pos := x.pos } else y) m.content }

end Sys2Proof.Machine
end

