-- ==== Sys2Proof/Machine/Porters.lean ====
section
/-! DEFINITION. Porters (R10, R11, R21, R22): 128 in eight groups of 16. A requester waits for a Porter of its world for each
data movement: the flash translation cores for each program, the host queue engine for each I/O command that moves data, the
management firmware for each admin command that does (DEDUCED, notes/assumptions/84.md), and a Stall for each emit and move. -/

namespace Sys2Proof.Machine

/-- Who asks for Porters (Table 1-6): the queues of one world share the host queue engine's limit. -/
inductive Requester where
  | cores
  | host (secure : Bool)
  | mgmt
  | stall (n : Nat)
deriving DecidableEq, Repr

/-- Table 1-6; the flash translation cores have no limit during the power-loss flush. -/
def Requester.limit (flush : Bool) : Requester → Nat
  | .cores => if flush then 128 else 48
  | .host _ => 64
  | .mgmt => 8
  | .stall _ => 8

/-- The command moves data between the host and the card (NVMe; Tables 3-5, 3-6, 9-4, 9-6 and the vendor admin commands). -/
def Cmd.moves (c : Cmd) : Bool :=
  if c.qid = 0 then [0x02, 0x06, 0x0D, 0x11, 0x15, 0xC1, 0xC5, 0xC9, 0xCA, 0xCC].contains c.opc
  else [0x01, 0x02, 0x05, 0x09, 0x81, 0x82, 0x85, 0x8A].contains c.opc

/-- A command holds or waits for a Porter from the grant of its locks until its data have moved. -/
def Cmd.wantsPorter (c : Cmd) : Bool :=
  c.moves && ((c.phase == .ready && (c.qid == 0 || c.granted)) || c.phase == .landing)

/-- The requester a movement belongs to. -/
def State.requester (s : State) : Holder → Requester
  | .cores _ => .cores
  | .host h => if (s.cmd h).any fun c => c.qid == 0 then .mgmt else .host ((s.cmd h).any fun c => c.secure)
  | .stall n _ => .stall n

/-- The movements that need a Porter now, in the order of R22's ties. -/
def State.movements (s : State) : List Holder :=
  let cmds := s.nv.inflight.filter fun c => c.wantsPorter
  (s.med.progs.map fun p => .cores p.id) ++ ((cmds.filter fun c => c.qid != 0).map fun c => .host c.h) ++
    ((cmds.filter fun c => c.qid == 0).map fun c => .host c.h) ++
    (List.range 64).flatMap fun n => (s.stall n).moves.map fun m => .stall n m.id

/-- A Porter's group serves a movement (R21): a group of the requester's world, and every group the cores and the management
firmware. -/
def State.serves (s : State) (i : Nat) (x : Holder) : Bool :=
  let w := bit s.acc.active.misc (i / 16)
  match s.requester x with
  | .cores | .mgmt => true
  | .host secure => w == secure
  | .stall n => w == s.stallWorld n

/-- Porters that a requester holds. -/
def State.portersOf (s : State) (held : List (Nat × Holder)) (r : Requester) : Nat :=
  (held.filter fun p => s.requester p.2 == r).length

/-- The movement that a free Porter takes up (R22): of the waiting requesters that it serves and whose limit leaves room, the one
that holds the fewest, the first on a tie. -/
def State.nextMovement (s : State) (i : Nat) (held : List (Nat × Holder)) (waiting : List Holder) : Option Holder :=
  let flush := s.pwr.flush != .idle
  let can := waiting.filter fun x => s.serves i x && (!flush || s.requester x == .cores) &&
    decide (s.portersOf held (s.requester x) < (s.requester x).limit flush)
  can.foldl (fun b x => match b with
    | none => some x
    | some y => if s.portersOf held (s.requester x) < s.portersOf held (s.requester y) then some x else some y) none

/-- Each free Porter in turn takes up a waiting movement. -/
def State.grant (s : State) : List Nat → List Holder → List (Nat × Holder) → List (Nat × Holder)
  | [], _, held => held
  | i :: is, waiting, held =>
    match s.nextMovement i held waiting with
    | none => State.grant s is waiting held
    | some x => State.grant s is (waiting.erase x) (put held i x)

/-- Porters whose movement has ended are free, and the free Porters go to what waits (R22). -/
def State.servedPorters (s : State) : List (Nat × Holder) :=
  let all := s.movements
  let held := s.porters.filter fun p => all.contains p.2
  let waiting := all.filter fun x => !(held.any fun p => p.2 == x)
  if waiting.isEmpty then held
  else s.grant ((List.range 128).filter fun i => (look held i).isNone) waiting held

/-- The Porters after a command; all are free while the main domain is off. -/
def servePorters (s : State) : State := { s with porters := if s.running then s.servedPorters else [] }

/-- A movement has its Porter. -/
def State.moving (s : State) (x : Holder) : Bool := s.porters.any fun p => p.2 == x

/-- A command moves no data, or has its Porter (Table 1-2: until then it waits, with no time limit). -/
def State.carried (s : State) (c : Cmd) : Bool := !c.moves || s.moving (.host c.h)

end Sys2Proof.Machine
end

