-- ==== Sys2Proof/Machine/Units.lean ====
section
/-! DEFINITION. The service of the fixed-function units (R195): each instance serves one call at a time, calls are served in the
order they were made, and a call goes to the first free instance of its kind. -/

namespace Sys2Proof.Machine

/-- Frames of the instances of a unit's kind (Tables 1-1 and 7-3). -/
def unitFrames (unit : Nat) : List Nat :=
  if unit < 4 then (List.range 8).map fun k => 0x28 + k
  else if unit = 4 then (List.range 4).map fun k => 0x30 + k
  else [0x34, 0x35]

/-- The calls of every Stall by their order. -/
def State.unitCalls (s : State) : AMap UnitCall :=
  s.stalls.toList.foldl (fun m t => match t.call with
    | some c => put m c.order c
    | none => m) []

/-- Instances whose call has ended are free, and free instances take up the waiting calls. -/
def State.servedUnits (s : State) : List (Nat × Nat) :=
  let calls := s.unitCalls
  let units := s.units.filter fun u => (look calls u.2).isSome
  let waiting := calls.filter fun c => !(units.any fun u => u.2 == c.1)
  waiting.foldl (fun m c => match (unitFrames c.2.unit).find? fun f => (look m f).isNone with
    | some f => put m f c.1
    | none => m) units

/-- The instances after a command; all are free while the main domain is off. -/
def serveUnits (s : State) : State := { s with units := if s.running then s.servedUnits else [] }

/-- The frame of the instance that serves a call. -/
def State.unitOf (s : State) (order : Nat) : Option Nat := (s.units.find? fun u => u.2 == order).map fun u => u.1

end Sys2Proof.Machine
end

