-- ==== Sys2Proof/Machine/Power.lean ====
section
/-! DEFINITION. Values in force: persistent registers (R312), the power state (R112), the operating point of the Stalls
(R211 to R213, R376, R406), the dirty budget (R156 to R159), temperature thresholds (R387), and the recomputation of the
life terms and warnings (R408 to R412). -/

namespace Sys2Proof.Machine

/-! Persistent registers. -/

/-- The Reset column of Table 11-8; the m field of this card is N. -/
def persistReset (n : Nat) : W32 :=
  if n = 2 then 0x4000 else if n = 3 then 0xFFFF else if n = 6 then 10 else if n = 9 then 0x80000002 else 0

/-- The value of persistent register n. -/
def State.persist (s : State) (n : Nat) : W32 := (look s.hb.values n).getD (persistReset n)

/-- PERSIST_WEAR_n. -/
def State.persistWear (s : State) (n : Nat) : Nat := (look s.hb.wear n).getD 0

/-! The power state (R112). -/

/-- The state that POWER_CAP allows (Table 11-8). -/
def State.capState (s : State) : Nat := min 3 (fld (s.persist 7) 2 0)

/-- The commanded operational state; while Watch is commanded it is the one before. -/
def State.cmdState (s : State) : Nat := if s.pwr.cmd = 4 then s.pwr.before else s.pwr.cmd

/-- The operational state in force. -/
def State.opState (s : State) : Nat := max (min 3 s.cmdState) s.capState

/-- PWR_STATUS [2:0]. -/
def State.powerState (s : State) : Nat := if s.pwr.watch = .asleep then 4 else s.opState

/-- POWER_CAP limits the state; Watch comes by command. -/
def State.capped (s : State) : Bool := s.pwr.watch != .asleep && decide (s.cmdState < s.capState)

/-- PWR_STATUS (Table 11-3). -/
def State.pwrStatus (s : State) : W32 :=
  w32 (b2n (s.therm.cap != 0) * 64 + b2n s.capped * 32 + b2n (!s.capped) * 16 + s.powerState)

/-! Operating points. -/

/-- Nominal voltage in mV (Table 7-14). -/
def nominal (p : Nat) : Nat := if p = 0 then 600 else if p = 1 then 680 else if p = 2 then 750 else 850

/-- The guardband G in mV. -/
def State.guardMv (s : State) : Nat := s.health.guardMax

/-- Highest point of the power state (Table 4-8), and of thermal enforcement (Table 14-12). -/
def psLimit (ps : Nat) : Nat := if ps = 0 then 3 else if ps = 1 then 2 else if ps = 2 then 1 else 0
def thermLimit (level : Nat) : Nat := if level = 0 then 3 else if level = 1 then 2 else if level = 2 then 1 else 0

/-- Read, write and scan caps of an operational state in MB/s (Table 4-8), PS0 at its ratings (Table 0-3). -/
def stateCaps (ps : Nat) : Nat × Nat × Nat :=
  if ps = 0 then (14000, 12500, 50000) else if ps = 1 then (10000, 8000, 32000)
  else if ps = 2 then (5000, 4000, 16000) else (1000, 500, 4000)

/-- The caps in force: those of the state, by the enforcement level (Table 14-12). How the card paces commands to them over time is
not modelled (notes/assumptions/71.md). -/
def State.caps (s : State) : Nat × Nat × Nat :=
  let c := stateCaps s.opState
  let k := 4 - min 3 s.therm.cap
  (c.1 * k / 4, c.2.1 * k / 4, c.2.2 * k / 4)

/-- The boost token is in force: it is held, in PS0 and without thermal enforcement (R376). -/
def State.boostAllowed (s : State) : Bool := s.bus.token && s.opState == 0 && s.therm.cap == 0

/-- The point that R211 selects, with the token rule of R376 and the limit of R406. -/
def State.selectPoint (s : State) : Nat :=
  let token := if s.boostAllowed then 3 else 2
  min (min (psLimit s.opState) token)
    (min (thermLimit s.therm.cap) (min s.pwr.op.limit (if 60 < s.health.delta then 2 else 3)))

/-- Start the change to a point: a rise waits for the voltage, a fall switches the clock at once (R212). A lowering by
thermal enforcement or POWER_CAP pends source 26 (Table 7-17); one that the commanded power state asks for does not. -/
def startPoint (p : Nat) (s : State) : State :=
  let o := s.pwr.op
  let lower := p < o.point ∧ min (psLimit s.capState) (thermLimit s.therm.cap) ≤ p
  let s := { s with pwr := { s.pwr with op :=
    { o with target := p, moving := true, railTo := nominal p + s.guardMv, point := min p o.point } } }
  if lower then pendAll 26 s else s

/-- Select the point again: nothing during a transition (R212), with DIRECT set (R213) or while the main domain is off. -/
def reselect (s : State) : State :=
  let o := s.pwr.op
  if o.moving || o.direct || !s.running then s else
  let p := s.selectPoint
  if p = o.point ∧ o.railMv = nominal p + s.guardMv then s else startPoint p s

/-- A direct request for a voltage (R213): refused below the nominal voltage plus G of the present frequency or above 880 mV. -/
def directVset (mv : Nat) (s : State) : State :=
  let o := s.pwr.op
  let o := if mv < nominal o.point + s.guardMv ∨ 880 < mv then { o with orderErr := true }
    else { o with vset := mv, railTo := mv, target := o.point, moving := mv != o.railMv }
  { s with pwr := { s.pwr with op := o } }

/-- A direct request for a frequency (R213, R376, R406): each case that refuses it sets its bit; a new point pends source 14
OP_CHANGE (R214). -/
def directFset (p : Nat) (s : State) : State :=
  let o := s.pwr.op
  let token := decide (p = 3) && !s.boostAllowed
  let order := decide (o.railMv < nominal p + s.guardMv) || (decide (p = 3) && decide (60 < s.health.delta))
  let o := if token || order then { o with tokenErr := o.tokenErr || token, orderErr := o.orderErr || order }
    else { o with fset := p, point := p, target := p }
  let moved := o.point != s.pwr.op.point
  let s := { s with pwr := { s.pwr with op := o } }
  if moved then pendAll 14 s else s

/-- The direct requests that wait take effect in the order they were made, until one starts a transition (R212). -/
def runRequests : List (Bool × Nat) → State → State
  | [], s => { s with pwr := { s.pwr with op := { s.pwr.op with reqs := [] } } }
  | r :: rs, s =>
    if s.pwr.op.moving then { s with pwr := { s.pwr with op := { s.pwr.op with reqs := r :: rs } } }
    else runRequests rs (if r.1 then directFset r.2 s else directVset r.2 s)

/-- A transition ends: the rail and the clock are at their targets, OP_CHANGE pends, and the requests made meanwhile take
effect (R212). -/
def endTransition (s : State) : State :=
  let o := s.pwr.op
  if !o.moving then s else
  let s := pendAll 14 { s with pwr := { s.pwr with op := { o with moving := false, point := o.target, railMv := o.railTo } } }
  if o.direct then runRequests o.reqs s else reselect s

/-- Thermal enforcement, loss of the token and PS4 entry clear DIRECT (R213). -/
def clearDirect (s : State) : State := { s with pwr := { s.pwr with op := { s.pwr.op with direct := false, reqs := [] } } }

/-- The boost token is gained or lost (R300). -/
def setToken (v : Bool) (s : State) : State :=
  if s.bus.token = v then s else
  let s := { s with bus := { s.bus with token := v } }
  reselect (if v then s else clearDirect s)

/-- A write of STALL_OP_CTL. -/
def writeOpCtl (v : W32) (s : State) : State :=
  reselect { s with pwr := { s.pwr with op := { s.pwr.op with direct := bit v 31, limit := fld v 1 0
                                                              reqs := if bit v 31 then s.pwr.op.reqs else [] } } }

/-- A direct request, which waits for the end of a transition (R212, R213). -/
def request (r : Bool × Nat) (s : State) : State := runRequests (s.pwr.op.reqs ++ [r]) s

/-- A write of STALL_VSET: without DIRECT it is stored and moves nothing. -/
def writeVset (v : W32) (s : State) : State :=
  if s.pwr.op.direct then request (false, fld v 9 0) s
  else { s with pwr := { s.pwr with op := { s.pwr.op with vset := fld v 9 0 } } }

/-- A write of STALL_FSET. -/
def writeFset (v : W32) (s : State) : State :=
  if s.pwr.op.direct then request (true, fld v 1 0) s
  else { s with pwr := { s.pwr with op := { s.pwr.op with fset := fld v 1 0 } } }

/-- G rises (R406). -/
def raiseGuard (g : Nat) (s : State) : State :=
  let o := s.pwr.op
  let s := { s with health := { s.health with guardMax := g } }
  let o := { o with guard := o.guard.publish g }
  let o := if o.direct then
      let need := nominal o.point + g
      if o.vset < need then { o with vset := need, railTo := max need o.railTo, moving := true } else o
    else { o with railTo := nominal o.target + g, moving := true }
  { s with pwr := { s.pwr with op := o } }

/-- STALL_OP_STATUS (Table 7-15). -/
def State.opStatus (s : State) : W32 :=
  let o := s.pwr.op
  w32 (o.point * 2 ^ 30 + b2n o.moving * 2 ^ 29 + b2n o.orderErr * 2 ^ 28 + b2n o.tokenErr * 2 ^ 27 +
    b2n s.bus.token * 2 ^ 26 + o.railMv % 1024)

/-! The dirty budget. -/

/-- The budget of R156 before the range limit and the cap, E in µJ. -/
def budgetRaw (e : Int) : Int := fdivNat (8 * e - 1500000) 6300

/-- The budget of R156, in MiB. -/
def budgetOf (e : Int) : Nat := (min 512 (max 0 (budgetRaw e))).toNat

/-- The budget in force for the E, the cap and a lowering for a measurement. -/
def State.budgetNow (s : State) : Nat :=
  let b := min (budgetOf s.hu.energy) (capOf (s.persist 5))
  s.hu.lowered.elim b fun l => min b l

/-- Bytes of Held data not yet in NAND. -/
def State.dirtyBytes (s : State) : Nat := 4096 * s.med.held.length

/-! Programs of Held data (R119, R391, R392). -/

/-- The write temperature window is closed (R391). -/
def State.windowClosed (s : State) : Bool := s.therm.winHot || s.therm.winCold

/-- Bytes counted as programmed into NAND (Table 15-7). -/
def countNand (n : Nat) (s : State) : State := { s with health := { s.health with nandBytes := s.health.nandBytes + n } }

/-- The media after programs: their pages and the parity pages programmed with them count (R121, Table 15-7). -/
def setMedia (pages : Nat) (m : Media) (s : State) : State :=
  countNand (16384 * (pages + (m.parRows - s.med.parRows))) { s with med := m }

/-- A Flush that has begun covers a chunk (R105). -/
def State.flushAsks (s : State) (c : Chunk) : Bool :=
  s.nv.inflight.any fun x => match x.phase with
    | .flushing below => c.slots.any fun y => (x.nsid == 0xFFFFFFFF || keyNs y.1 == x.nsid) &&
        (look s.med.held y.1).any fun h => decide (h.since < below)
    | _ => false

/-- A chunk may be programmed now: the card runs no flush of Table 6-4, and the write window is open, or a Flush or a budget reduction
asks for Held data in DRAM (R161, R391, R392). -/
def State.mayProgram (s : State) (c : Chunk) : Bool :=
  s.pwr.flush == .idle && s.pwr.fatal.isNone &&
    (!s.windowClosed || (s.med.fromDram c && (s.hu.flushing || s.flushAsks c)))

/-- One-bit data is handed to the dies. -/
def submit (cs : List Chunk) (s : State) : State := { s with med := s.med.submit s.mayProgram cs }

/-- Held slots that no program carries yet, oldest first. -/
def Media.unprogrammed (m : Media) : List Nat :=
  m.heldOrder.filter fun k => (look m.held k).any fun h => !m.inFlight k h.wseq

/-- An LBA is marked unrecovered (R140), unless it is marked already or newer data of it waits in DRAM; the channel of the die that
held it shows it. -/
def markUnrec (p : Option Place) (k : Nat) (s : State) : State :=
  if s.med.unrec.contains k || (look s.med.held k).isSome then s else
  let s := { s with med := { s.med with unrec := s.med.unrec ++ [k] }
                    health := { s.health with unrecEver := s.health.unrecEver + 1 } }
  mediaEvent 6 (keyLba k + keyNs k * 2 ^ 40) (p.elim s fun p => raiseFault (chanFrame p.die.val) 7 s)

/-- Held data already completed is lost: its LBA is marked unrecovered (R140, Table 13-9). -/
def loseHeld (k : Nat) (s : State) : State :=
  if (look s.med.held k).isNone then s else markUnrec none k { s with med := s.med.dropHeld k }

/-- Held data that is found bad as it is programmed is lost (Table 13-9). -/
def dropSpoiled (ks : List Nat) (s : State) : State :=
  (ks.filter fun k => (look s.med.held k).any fun h => h.err != 0).foldl (fun s k => loseHeld k s) s

/-- Start programming Held slots. -/
def programHeld (ks : List Nat) (s : State) : State :=
  let s := dropSpoiled ks s
  submit (chunksOf none (ks.filterMap fun k => (look s.med.held k).map fun h => (k, h.slot))) s

/-- Recompute the budget and V_B (R157, R159): a change raises BUDGET, and dirty data above it is flushed down, the oldest
first. -/
def rebudget (s : State) : State :=
  let b := s.budgetNow
  let changed := b ≠ s.hu.budget
  let s := { s with hu := { s.hu with budget := b, mBudget := s.hu.mBudget.follow b
                                      mVb := s.hu.mVb.follow (vbFor s.hu.energy s.hu.vchg b) } }
  let excess := s.med.held.length - s.budgetSlots
  let s := { s with hu := { s.hu with flushing := excess != 0 } }
  let ks := s.med.heldOrder.take excess
  let s := if s.running then programHeld (ks.filter s.med.unprogrammed.contains) s else s
  if changed then raisePulse 260 0 0 s else s

/-- HOLDUP_STATUS (Table 6-6). -/
def State.holdupStatus (s : State) : W32 :=
  w32 (s.hu.state * 2 ^ 30 + b2n s.heldWt * 2 ^ 29 + b2n s.pwr.lossArmed * 2 ^ 28 + b2n s.pwr.early * 2 ^ 27 +
    s.hu.capOk.toNat * 2 ^ 18 + s.hu.stagger)

/-- Capacitors isolated. -/
def State.capsOut (s : State) : Nat := 6 - popcount 6 s.hu.capOk.toNat

/-! Temperatures. Sensor 0 is the controller, 1 to 8 the NAND packages, 9 the DRAM, 10 the hold-up bank; classes are 0
controller, 1 NAND, 2 hold-up bank; levels are 1 warning, 2 throttle, 3 shutdown. -/

def sensorClass (i : Nat) : Option Nat :=
  if i = 0 then some 0 else if i ≤ 8 then some 1 else if i = 10 then some 2 else none

def sensorIndex : Sensor → Nat
  | .ctrl => 0
  | .nand k => k.val + 1
  | .dram => 9
  | .holdup => 10

/-- Table 14-10, in °C. -/
def baseLimit (cls level : Nat) : Int :=
  if cls = 0 then (if level = 1 then 100 else if level = 2 then 110 else 120)
  else if cls = 1 then (if level = 1 then 80 else if level = 2 then 85 else 95)
  else (if level = 1 then 95 else if level = 2 then 100 else 105)

/-- °C by which THERM_LIMIT_USER lowers a class. -/
def State.userLower (s : State) (cls : Nat) : Nat :=
  let v := s.persist 4
  min 40 (if cls = 0 then fld v 7 0 else if cls = 1 then fld v 15 8 else fld v 23 16)

/-- Index of a class in Feature 04h: 0 NAND, 1 controller, 2 hold-up. -/
def warnIndex (cls : Nat) : Nat := if cls = 1 then 0 else if cls = 0 then 1 else 2

/-- The warning threshold that THERM_LIMIT_USER leaves, in °C. -/
def State.warnDefault (s : State) (cls : Nat) : Int := baseLimit cls 1 - (s.userLower cls : Int)

/-- A threshold in force, in 1/16 °C (R387). -/
def State.limitOf (s : State) (cls level : Nat) : Int :=
  let d := (baseLimit cls level - (s.userLower cls : Int)) * 16
  if level = 1 then
    match (s.therm.warnSet[warnIndex cls]?).join with
    | some k => min d ((k - 273) * 16)
    | none => d
  else d

/-- The reading compared with the thresholds: a stuck sensor counts as at its class's throttle threshold (R386). -/
def State.reading (s : State) (i : Nat) : Int :=
  let v := ((s.therm.temp[i]?).getD .reset).value
  match sensorClass i with
  | some c => if (s.therm.bad[i]?).getD false then s.limitOf c 2 else v
  | none => v

/-- Sensors that have thresholds. -/
def classSensors : List Nat := [0, 1, 2, 3, 4, 5, 6, 7, 8, 10]

/-- Every sensor is below (level threshold − margin °C). -/
def State.allBelow (s : State) (level : Nat) (margin : Int) : Bool :=
  classSensors.all fun i => (sensorClass i).all fun c => decide (s.reading i < s.limitOf c level - 16 * margin)

/-- Some sensor is at or above a level's threshold. -/
def State.anyAt (s : State) (level : Nat) : Bool :=
  classSensors.any fun i => (sensorClass i).any fun c => decide (s.limitOf c level ≤ s.reading i)

/-- COOLED (Table 14-11): a sensor without a reading is not below. -/
def State.cooled (s : State) : Bool :=
  (classSensors.all fun i => ((s.therm.temp[i]?).getD .reset).valid) && s.allBelow 3 10

/-- The thermal state of a class: that of its hottest sensor (Table 14-11), the highest where several read the same. -/
def State.classState (s : State) (cls : Nat) : Nat :=
  let is := classSensors.filter fun i => sensorClass i == some cls && ((s.therm.temp[i]?).getD .reset).valid
  let hot := is.foldl (fun m i => max m (s.reading i)) (s.reading (is.headD 0))
  (is.filter fun i => s.reading i == hot).foldl (fun m i => max m ((s.therm.state[i]?).getD 0)) 0

/-- THERM_STATUS (Table 14-11). -/
def State.thermStatus (s : State) : W32 :=
  let t := s.therm
  let warm := t.winCold && s.running && s.pwr.watch != .asleep
  w32 (b2n t.held * 2 ^ 31 + b2n s.cooled * 2 ^ 30 + b2n t.winHot * 2 ^ 29 + b2n t.winCold * 2 ^ 28 +
    b2n warm * 2 ^ 27 + s.classState 0 * 2 ^ 22 + s.classState 1 * 2 ^ 20 + s.classState 2 * 2 ^ 18 + t.sticky.toNat)

/-- HOLDUP temperature, voltage and the like in SAMPLER_CTL form (Table 14-6). -/
def Sampler.ctl (p : Sampler) : W32 := w32 (p.hit.toNat * 256 + p.en.toNat)

/-! Life (R408 to R411). -/

/-- Blocks retired: those listed as such, and every block of a failed die (R146). -/
def Media.retiredBlocks (m : Media) : Nat :=
  11200 * (m.dies.toList.filter fun d => d.failed).length +
    (m.blocks.filter fun x => x.2.retired && !(m.die (x.1 / 16384)).failed).length

/-- Wear of the general-pool blocks together; a block that is not listed has none. -/
def Media.wearSum (m : Media) : Nat := m.wears.foldl (· + ·) 0

/-- Mean wear of the general-pool blocks in 1/100 unit. -/
def Media.meanWear (m : Media) : Nat := m.wearSum / m.poolSize

/-- Media remaining in %, of the exact mean wear: 6,500 units are 0 %. -/
def Media.remaining (m : Media) : Nat :=
  let all := 650000 * m.poolSize
  100 * (all - min all m.wearSum) / all

/-- Spares remaining in % (R149): of the worst plane, 84 at shipment. -/
def Media.sparesPct (m : Media) : Nat := 100 * (m.spares.toList.foldl min 84) / 84

/-- Hold-up remaining in %. -/
def Holdup.remaining (h : Holdup) : Nat :=
  let top := h.energy - 212700
  let all := h.energy0 - 212700
  if all ≤ 0 then 0 else (min 100 (max 0 (100 * top / all))).toNat

/-- Dies that meet the detour condition or are detoured, and dies failed. -/
def Media.detours (m : Media) : Nat := (m.dies.toList.filter fun d => d.detoured).length

/-- The conditions of HEALTH_WARN that hold now (Table 15-5), given the terms. -/
def State.warnNow (s : State) (life : Nat) : W32 :=
  let f : List Bool := [decide (life ≤ 10), decide (life = 0), decide (s.med.sparesPct < 10),
    decide (budgetRaw s.hu.energy < 128), decide (s.hu.remaining = 0) || s.hu.state == 3, s.hu.capOk != 0x3F, decide (4 < s.med.slowDies),
    s.med.dies.toList.any fun d => d.detoured, decide (60 < s.health.delta), decide (s.health.refresh.value = 1),
    s.med.eol, s.hb.worn != 0 || (s.hb.wear.any fun w => decide (200000 ≤ w.2)) ||
      s.hb.erases.any fun e => decide (100000 ≤ e.2)]
  w32 (ofBits f)

/-- Life in % as the terms stand. -/
def State.lifeNow (s : State) : Nat := min s.med.remaining (min s.med.sparesPct s.hu.remaining)

/-- Evaluate the warnings (R411). -/
def evalWarn (s : State) : State :=
  { s with health := { s.health with warn := s.health.warn ||| s.warnNow s.lifeNow } }

/-! Log page 0xC0 (Tables 15-7 and 16-3). -/

/-- Fields laid into bytes: offset, width in bytes, value. -/
def fields (base : List Byte) (fs : List (Nat × Nat × Nat)) : List Byte :=
  fs.foldl (fun bs f => patch bs f.1 (leBytes f.2.1 f.2.2)) base

/-- An integer in k bytes, in two's complement. -/
def sBytes (k : Nat) (v : Int) : Nat := lowBits (8 * k) v

/-- The block places of a die, as u64 bits. -/
def Media.dieBits (m : Media) (f : Die → Bool) : Nat := vbits m.dies f

/-- The page in Compat mode (Table 16-3). -/
def State.healthCompat (s : State) : List Byte :=
  let h := s.health
  fields (List.replicate 512 0) [(0, 1, h.life.value.toNat), (1, 1, h.media.value.toNat), (2, 1, h.spares.value.toNat),
    (3, 1, h.holdup.value.toNat), (4, 4, h.warn.toNat), (8, 8, h.hostBytes), (0x10, 4, sBytes 4 s.hu.energy), (0x14, 4, s.hu.budget),
    (0x18, 4, s.pwr.hours), (0x1C, 4, s.pwr.unsafeOff)]

/-- Lowest block wear: 0 while some block has never been erased. -/
def Media.lowWear (m : Media) : Nat :=
  if m.wears.length < m.poolSize then 0 else (minOf m.wears).getD 0

/-- R in 0.1 mV per powered day: the largest rate over all dies (R404). -/
def Health.rate (h : Health) : Nat := h.rates.toList.foldl max 0

/-- The page in Native mode (Table 15-7). -/
def State.healthNative (s : State) : List Byte :=
  let h := s.health
  let base := fields (List.replicate 512 0) [(0, 1, h.life.value.toNat), (1, 1, h.media.value.toNat), (2, 1, h.spares.value.toNat),
    (3, 1, h.holdup.value.toNat), (4, 4, h.warn.toNat), (8, 8, h.hostBytes), (0x10, 8, h.nandBytes),
    (0x18, 4, s.med.meanWear), (0x1C, 4, s.med.wears.foldl max 0), (0x20, 4, s.med.lowWear),
    (0x24, 4, s.med.retiredBlocks), (0x28, 4, sBytes 4 s.hu.energy), (0x2C, 4, sBytes 4 s.hu.energy0),
    (0x30, 4, s.hu.cNf), (0x34, 4, s.hu.esr), (0x38, 4, s.hu.budget), (0x3C, 4, sBytes 4 (budgetRaw s.hu.energy)),
    (0x40, 4, s.vb), (0x44, 1, s.hu.capOk.toNat), (0x45, 1, s.capsOut), (0x48, 4, s.hu.measHours),
    (0x50, 4, h.interval), (0x54, 4, h.rate), (0x58, 4, h.delta), (0x5C, 4, h.guardMax),
    (0x60, 4, s.pwr.hours), (0x64, 4, s.pwr.unsafeOff), (0x68, 8, s.med.dieBits fun d => d.detoured),
    (0x70, 8, s.med.dieBits fun d => d.failed), (0x78, 4, s.med.unrec.length)]
  let medians := s.med.dies.toList.flatMap fun d => leBytes 2 (median2 d.tTlc / 2) ++ leBytes 2 (median2 d.tOne / 2)
  let centres := (List.range 64).map fun d => b8 ((Config.logByte 0xC0 d).toNat % 8)
  patch (patch base 0x80 medians) 0x180 centres

/-- Log page 0xC0 as it stands. -/
def State.healthPage (s : State) : List Byte := if s.compat then s.healthCompat else s.healthNative

/-- Recompute the life terms, all four in one step (R409); log page 0xC0 is sampled with them (R413). -/
def lifeRecalc (s : State) : State :=
  let h := s.health
  let s := evalWarn { s with
    health := { h with life := h.life.publish s.lifeNow, media := h.media.publish s.med.remaining
                       spares := h.spares.publish s.med.sparesPct, holdup := h.holdup.publish s.hu.remaining } }
  { s with health := { s.health with page := s.healthPage } }

/-- A new E: the budget, the life terms and the hold-up registers follow (R159, R400, R409). -/
def newEnergy (e : Int) (s : State) : State :=
  lifeRecalc (rebudget { s with hu := { s.hu with energy := e, mEnergy := s.hu.mEnergy.publish e } })

/-- The temperature bit of the Critical Warning (R387). -/
def Thermal.critical (t : Thermal) : Bool := t.state.toList.any fun x => decide (1 ≤ x)

/-- SMART Critical Warning (Table 15-6). -/
def State.critWarn (s : State) : Nat :=
  let w := s.health.warn
  ofBits [bit w 2, s.therm.critical, (s.med.dies.toList.any fun d => d.failed) || !s.med.unrec.isEmpty, bit w 10, bit w 4]

/-- Information of the asynchronous event for a Critical Warning bit (NVMe). -/
def critInfo (b : Nat) : Nat := if b = 0 then 2 else if b = 1 then 1 else 0

/-- The Critical Warning bits that have set raise asynchronous events that Feature 0Bh enables (R412); the temperature
event is raised at each threshold entry (R387). -/
def critEvents (s : State) : State :=
  let now_ := s.critWarn
  let rise := [0, 2, 3, 4].filter fun b => Nat.testBit now_ b && !bit s.nv.crit b && bit s.nv.feat.async b
  rise.foldl (fun s b => asyncEvent 1 (critInfo b) 2 s) { s with nv := { s.nv with crit := b8 now_ } }

/-! Programming of Held data. -/

/-- The namespace of a slot is of class Scan. -/
def State.scanKey (s : State) (k : Nat) : Bool := (look s.ns (keyNs k)).any fun n => n.scan

/-- A block is queued for refresh: 1 Refresh class, 2 Fold class (R130, R136). -/
def Media.queueRefresh (m : Media) (p : Place) (cls : Nat) : Media :=
  m.modBlk p fun b => { b with refresh := max b.refresh cls }

/-- What a program of Held data leaves of the media when the write window is closed: the blocks that took it are queued for refresh
(R392). -/
def State.heldRefresh (s : State) (m : Media) : Media :=
  if !s.windowClosed then m else
  s.med.held.foldl (fun m x => match look m.content x.1 with
    | some y => if y.wseq = x.2.wseq then y.place.elim m fun p => m.queueRefresh p 1 else m
    | none => m) m

/-- A discharge measurement that waited for a lowered budget runs once what is dirty lies within it (R401). -/
def startLowered (s : State) : State :=
  if s.hu.due && s.hu.lowered.isSome && s.hu.state == 1 && s.pwr.flush == .idle then
    { s with hu := { s.hu with measuring := true, due := false } } else s

/-- Program all Held data and the map-journal tail, into the buffer (kind 0) or the flush reserve (kind 4, R161). -/
def flushHeld (kind : Nat) (s : State) : State :=
  let s := dropSpoiled s.med.heldOrder s
  let pages := ceilDiv s.med.held.length 4 + (s.med.progs.map fun p => p.pages.length).foldl (· + ·) 0
  startLowered (setMedia pages (s.heldRefresh (s.med.flush kind s.now)) { s with hu := { s.hu with flushing := false } })

/-- Every map page and a Scan checkpoint are programmed, and the clean-shutdown record (R110, R172). -/
def cleanStop (s : State) : State :=
  let m := (s.med.cleanPages fun p => !s.scanKey p).checkpoint s.scanKey s.now
  { s with med := { m with clean := true } }

/-- Shutdown processing ends when every command already fetched has completed (R110): Held data and the map are programmed,
and a clean shutdown is recorded. -/
def endShutdown (s : State) : State :=
  if s.nv.shst ≠ 1 ∨ (s.nv.inflight.any fun c => c.phase != .event) then s else
  let s := cleanStop (flushHeld 0 s)
  { s with nv := { s.nv with shst := 2, wtHold := true } }

/-- The event router's update at the end of a command (R358 to R361). It does not run while the main domain is off, in Watch
or in the recovery state (R373). -/
def publish (s : State) : State :=
  if s.running && s.pwr.watch != .asleep then sendCompletions (sendEvents (publishHoldup (critEvents (endShutdown s)))) else s

/-- What the end of every command brings: the event router's update, and free Porters and unit instances go to what waits for
them (R22, R195). -/
def settle (s : State) : State := serveUnits (servePorters (publish s))

/-- A command ends: the event router sees what it did. -/
def done (s : State) : Host.Outcome State Fault Refusal := .next (settle s)

end Sys2Proof.Machine
end

