-- ==== Sys2Proof/Machine/Domain.lean ====
section
/-! DEFINITION. The reset of the main domain (R10, R303, R347, R378, Table 7-2). -/

namespace Sys2Proof.Machine

/-- The Stream side of a namespace after the DRAM is lost: the open Lot goes (Table 6-4). -/
def Ns.lost (n : Ns) : Ns := { n with st := { n.st with opened := [] } }

/-- A session channel is closed (R347). -/
def Channel.closed (c : Channel) : Channel := { c with session := none, hs := none }

/-- The registers of the event group and the frames of the main domain (R359, R363). Pulse bits of the Arc sources stay:
they belong to the aux domain. -/
def Events.mainReset (e : Events) : Events :=
  { e with pulse := e.pulse &&& BitVec.ofNat 512 (2 ^ 128 - 1), level := 0, due := 0, recorded := 0, en := routeReset
           alert := routeReset, vector := [], sel := 0
           auxEn := routeReset &&& BitVec.ofNat 512 (7 <<< 192), auxAlert := routeReset &&& BitVec.ofNat 512 (7 <<< 192)
           status := vmapi e.status fun f v => if f ≤ 2 then v else 0
           enable := vmapi e.enable fun f v => if f ≤ 2 then v else frameBits f
           mask := BitVec.allOnes 256, fmask := false, inject := false, dropped := 0 }

/-- The health group of registers (Table 11-1); what the system records hold stays. -/
def Health.mainReset (h : Health) : Health :=
  { h with life := .reset, media := .reset, spares := .reset, holdup := .reset, warn := 0, hostTb := .reset
           drift := .reset, delay := .reset, refresh := ⟨false, 0, 7⟩, interval := 7, roundMax := Vector.replicate 64 0
           page := [] }

/-- The hold-up registers and the state of its controller. -/
def Holdup.mainReset (h : Holdup) : Holdup :=
  { h with state := 0, reached := false, lowered := none, flushing := false, measuring := false, due := false
           midCharge := false, mVolt := .reset, mEnergy := .reset, mBudget := .reset, mDirty := .reset, mVb := .reset }

/-- What the DRAM and the channels hold of the media, without what is in NAND: an unprogrammed journal is lost with them, and
the patrol begins anew (R137, R170, R171). -/
def Media.mainReset (m : Media) : Media :=
  { m.revert with held := [], queue := [], progs := [], cache := [], wants := [], idx := [], stale := [], pendMarks := [], path := none
                  idle := true, levelling := false, groups := m.groups.map fun _ => ⟨false, false⟩, round := 0
                  blocks := m.blocks.map fun x => (x.1, { x.2 with passes := 0, patrol := 0 }) }

def Harbour.mainReset (h : Harbour) : Harbour :=
  { h with addr := 0, buf := Vector.replicate 256 0, stat := 0, wearIdx := 0, sectIdx := 0, busy := none, download := []
           running := none }

/-- The main domain resets: every main-domain register and memory takes its power-up value. The aux domain, the Beacon,
the Arcs and the bus are not disturbed (R163, R313). -/
def mainReset (s : State) : State :=
  { s with
    pwr := { s.pwr with step := min s.pwr.step 2, charging := false, recovery := false, link := false, detect := false
                        flush := .idle, fatal := none, early := false, watch := .awake, wakeDue := false
                        hostPs4 := false, cmd := if s.pwr.cmd = 4 then s.pwr.before else s.pwr.cmd
                        busCmd := if s.pwr.cmd = 4 then s.pwr.before else s.pwr.busCmd, pairsOut := 0
                        op := { OpPoint.reset with railMv := 750 + s.guardMv, railTo := 750 + s.guardMv } }
    hu := s.hu.mainReset, health := s.health.mainReset
    bcn := { s.bcn with com := { s.bcn.com with running := false } }
    bus := { s.bus with held := none }
    keeper := { s.keeper with nvme := s.keeper.nvme.closed, bus := s.keeper.bus.closed, armed := []
                              kx := Vector.replicate 127 0, kxStat := 0 }
    therm := { s.therm with warnSet := Vector.replicate 3 none, evtOver := Vector.replicate 4 none, evtUnder := Vector.replicate 4 none }
    acc := { s.acc with sel := 0, past := [], violAddr := 0, violKind := 0, violMast := 0, violRule := 0, mismatch := false }
    ev := s.ev.mainReset, hb := s.hb.mainReset
    nv := { Nvme.reset with next := s.nv.next, errs := s.nv.errs, errCount := s.nv.errCount, tests := s.nv.tests
                            sanitize := s.nv.sanitize, wctemp := s.warnDefault 1 + 273
                            cctemp := baseLimit 1 3 - (s.userLower 1 : Int) + 273 }
    ns := s.ns.map fun x => (x.1, x.2.lost)
    med := s.med.mainReset, stalls := Vector.replicate 64 .reset, lots := [], pipes := [], queries := [], slots := []
    waitq := [], opens := [], ram := [] }

/-- The main domain goes off with its state lost. -/
def mainOff (s : State) : State :=
  let s := mainReset s
  { s with pwr := { s.pwr with mainOn := false, step := min s.pwr.step 1 }
           bus := { s.bus with token := false } }

end Sys2Proof.Machine
end

