-- ==== Sys2Proof/Machine/Keeper.lean ====
section
/-! DEFINITION. Keeper sessions (R346 to R351): the handshake, its failure rule, closing, MACs, the bus window and armed
commands; and the OTP row they read (R328, R330). -/

namespace Sys2Proof.Machine

/-! OTP. -/

/-- Factory content of OTP word k: the UID, the Keeper code and m field (DESIGN CHOICE, notes/assumptions/9.md). -/
def otpFactory (k : Nat) : W32 := if k = 0 then 0x00001793 else if k = 1 then 0x4F210000 else if k = 10 then 0x4E345437 else 0

def State.otpWord (s : State) (k : Nat) : W32 := (look s.hb.otp k).getD (otpFactory k)

/-- Bytes of the OTP row. -/
def State.otpBytes (s : State) (off len : Nat) : List Byte :=
  (List.range len).map fun i => b8 ((s.otpWord ((off + i) / 4)).toNat >>> (8 * ((off + i) % 4)))

/-- The UID. -/
def State.uid (s : State) : Nat := (s.otpWord 0).toNat + (s.otpWord 1).toNat * 2 ^ 32

/-- SHA-256 of the Keeper key. -/
def State.keyHash (s : State) : List Byte := s.otpBytes 8 32

/-- Used slots of the rollback counter: slot j is words 256 + 2j and 257 + 2j. -/
def State.rollbackSlots (s : State) : List Nat :=
  (List.range 128).filter fun j => bit s.hb.used (256 + 2 * j) || bit s.hb.used (257 + 2 * j)

/-- The rollback counter (R330). -/
def State.rollback (s : State) : Nat :=
  match s.rollbackSlots.getLast? with
  | some j => (s.otpWord (256 + 2 * j)).toNat + (s.otpWord (257 + 2 * j)).toNat * 2 ^ 32
  | none => 0

/-- Program an OTP word and its used bit (R328). -/
def programOtp (k : Nat) (v : W32) (s : State) : State :=
  { s with hb := { s.hb with otp := put s.hb.otp k v, used := putBit s.hb.used k true } }

/-! Sessions. -/

/-- k bytes of the random source. -/
def random (k : Nat) (s : State) : List Byte × State :=
  let (n, s) := s.take
  ((List.range k).map (Config.random n), s)

/-- ASCII of AQ716-KS and of AQ716-PROVE. -/
def textKs : List Byte := [0x41, 0x51, 0x37, 0x31, 0x36, 0x2D, 0x4B, 0x53]
def textProve : List Byte := [0x41, 0x51, 0x37, 0x31, 0x36, 0x2D, 0x50, 0x52, 0x4F, 0x56, 0x45]

/-- A HELLO that is accepted: the answers n_C and C and the channel with its handshake (R346). -/
def hello (ch : Byte) (c : Channel) (modulus nH : List Byte) (s : State) : List Byte × List Byte × Channel × State :=
  let (nC, s) := random 32 s
  let (secret, s) := random 32 s
  let (seed, s) := random 32 s
  let cipher := rsaOaep modulus seed secret
  let t := [ch] ++ nH ++ modulus ++ nC ++ cipher
  let ks := hmac secret (textKs ++ [ch] ++ nH ++ nC)
  let proof := hmac ks (textProve ++ sha256 t)
  (nC, cipher, { c with hs := some ⟨ks, proof, deviceSign t⟩ }, s)

/-- HELLO is accepted: the modulus is the Keeper's, no session is open and HELLO is not refused. -/
def State.helloOk (s : State) (c : Channel) (modulus : List Byte) : Bool :=
  sha256 modulus == s.keyHash && c.session.isNone && !c.refusing

/-- PROVE: the session opens, or the handshake is discarded and HELLO is refused for a while (R346). -/
def Channel.prove (c : Channel) (p : List Byte) : Bool × Channel :=
  match c.hs with
  | none => (false, c)
  | some h =>
    if h.proof = p then
      (true, { c with session := some (h.ks, 0), hs := none, fails := 0, refusing := false, serial := c.serial + 1 })
    else (false, { c with hs := none, fails := c.fails + 1, refusing := true })

/-- Close the NVMe session: its key and the armed entries are erased (R347). -/
def closeNvme (s : State) : State :=
  { s with keeper := { s.keeper with nvme := { s.keeper.nvme with session := none }, armed := [] } }

/-- Close the bus session. -/
def closeBus (s : State) : State :=
  { s with keeper := { s.keeper with bus := { s.keeper.bus with session := none } } }

/-- The serial of the open bus session. -/
def State.busSession (s : State) : Option Nat := s.keeper.bus.session.map fun _ => s.keeper.bus.serial

/-! Frame MACs (R296, R297). -/

/-- The request message of Table 10-7. -/
def macRequest (ctr : Nat) (f : Frame) : List Byte :=
  [0x00] ++ beBytes 8 ctr ++ [f.dest, f.cmd] ++ beBytes 2 f.reg.toNat ++ beBytes 4 f.data.toNat

/-- The response message of Table 10-7. -/
def macResponse (ctr : Nat) (f : Frame) (stat : Byte) (data : W32) : List Byte :=
  [0x01] ++ beBytes 8 ctr ++ [f.dest, f.cmd] ++ beBytes 2 f.reg.toNat ++ [stat] ++ beBytes 4 data.toNat

/-- A MAC: the first four digest bytes. -/
def mac (ks msg : List Byte) : W32 := w32 (ofBe ((hmac ks msg).take 4))

/-- The first counter of the eight that may follow whose MAC matches. -/
def macCounter (ks : List Byte) (last : Nat) (f : Frame) : Option Nat :=
  ((List.range 8).map fun i => last + 1 + i).find? fun c => mac ks (macRequest c f) == f.mac

/-- A session frame is accepted (R296): the counter it carried. -/
def acceptMac (f : Frame) (s : State) : Option Nat × State :=
  match s.keeper.bus.session with
  | none => (none, s)
  | some (ks, last) =>
    match macCounter ks last f with
    | some c => (some c, { s with keeper := { s.keeper with bus := { s.keeper.bus with session := some (ks, c) } } })
    | none => (none, s)

/-- The MAC of an NVMe Keeper Session operation (R348). -/
def nvmeMac (ks : List Byte) (ctr : Nat) (dw : Vector W32 16) (buf : List Byte) : List Byte :=
  hmac ks ([0x02] ++ beBytes 8 ctr ++
    ([10, 11, 12, 13].flatMap fun k => leBytes 4 (((dw[k]?).getD 0).toNat)) ++ buf.drop 40)

/-- An operation other than HELLO and PROVE is authenticated (R348). -/
def nvmeAuth (dw : Vector W32 16) (buf : List Byte) (s : State) : Option State :=
  match s.keeper.nvme.session with
  | none => none
  | some (ks, last) =>
    let ctr := ofBe (slice buf 0 8)
    if last < ctr ∧ slice buf 8 32 = nvmeMac ks ctr dw buf then
      some { s with keeper := { s.keeper with nvme := { s.keeper.nvme with session := some (ks, ctr) } } }
    else none

/-- Arm a submission entry; of more than eight the oldest goes (R350). -/
def arm (e : Armed) (s : State) : State :=
  let xs := s.keeper.armed ++ [e]
  { s with keeper := { s.keeper with armed := xs.drop (xs.length - 8) } }

/-- A fetched entry is inside the session when it is armed; the entry is consumed (R350). -/
def takeArmed (qid : Nat) (dw : Vector W32 16) (s : State) : Bool × State :=
  let e : Armed := ⟨qid, dw⟩
  if s.keeper.armed.contains e then (true, { s with keeper := { s.keeper with armed := s.keeper.armed.erase e } })
  else (false, s)

/-! The KX window (R351): byte j lies in KX_(j ÷ 4) at bits 8 (j mod 4). -/

def Keeper.kxBytes (k : Keeper) (off len : Nat) : List Byte :=
  (List.range len).map fun i => b8 (((k.kx[(off + i) / 4]?).getD 0).toNat >>> (8 * ((off + i) % 4)))

def Keeper.kxPut (k : Keeper) (bs : List Byte) : Keeper :=
  { k with kx := vmapi k.kx fun i w => if 4 * i < bs.length then w32 (u32At bs (4 * i)) else w }

/-- The STAT of a window operation is stored. -/
def kxStat (v : Nat) (s : State) : State := { s with keeper := { s.keeper with kxStat := b8 v } }

/-- KX_127 HELLO. -/
def kxHello (s : State) : State :=
  let n := s.keeper.kxBytes 0 384
  if s.helloOk s.keeper.bus n then
    let (nC, c, chan, s) := hello 0x01 s.keeper.bus n (s.keeper.kxBytes 384 32) s
    kxStat 0 { s with keeper := { s.keeper.kxPut (nC ++ c) with bus := chan } }
  else kxStat 6 s

/-- KX_127 SIGNATURE; with no handshake there is no signature to place. -/
def kxSignature (s : State) : State :=
  match s.keeper.bus.hs with
  | some h => kxStat 0 { s with keeper := s.keeper.kxPut (slice h.sigma 0 384) }
  | none => kxStat 6 s

/-- KX_127 PROVE. -/
def kxProve (s : State) : State :=
  let r := s.keeper.bus.prove (s.keeper.kxBytes 0 32)
  kxStat (if r.1 then 0 else 6) { s with keeper := { s.keeper with bus := r.2 } }

/-- KX_127 CLOSE, in a frame with KEY = 1. -/
def kxClose (keeper : Bool) (s : State) : State := if keeper then kxStat 0 (closeBus s) else kxStat 6 s

/-- A read of KX_127: BUSY is 0, since each operation is one step. -/
def Keeper.kxControl (k : Keeper) : W32 := w32 (b2n k.bus.session.isSome * 2 ^ 30 + k.kxStat.toNat)

end Sys2Proof.Machine
end

