-- ==== Sys2Proof/Machine/Harbour.lean ====
section
/-! DEFINITION. Harbour flash, the mailbox, the persistent store and OTP programming (R312 to R330, R349): what starts a
ROM operation, and what its end does. STAT codes are those of Table 10-4. -/

namespace Sys2Proof.Machine

/-! STAT codes. -/

def statOk : Nat := 0
def statBusy : Nat := 1
def statNotReady : Nat := 2
def statCrc : Nat := 3
def statBadReg : Nat := 4
def statDenied : Nat := 5
def statNotKeeper : Nat := 6
def statWorn : Nat := 7
def statNotBlank : Nat := 8
def statOtpUsed : Nat := 9

/-! The flash. -/

/-- Erases of a sector (R320). -/
def Harbour.eraseCount (h : Harbour) (s : Nat) : Nat := (look h.erases s).getD 0

/-- An entry of the persistent store (Table 11-9): register, generation, value and write count. -/
def storeEntry (n gen : Nat) (v : W32) (count : Nat) : List Byte :=
  let b := leBytes 2 n ++ leBytes 2 gen ++ leBytes 4 v.toNat ++ leBytes 4 count
  b ++ leBytes 4 (crc32c b)

/-- A byte of line 0 of a pair's active sector at shipment: an entry for each of its 16 registers (R315). -/
def factoryStore (a : Nat) : Byte :=
  let n := 8 * (a / 0x10000 - 448) + a % 256 / 16
  ((storeEntry n 0 (persistReset n) 0)[a % 16]?).getD 0xFF

/-- What an unlisted byte reads as: 0xFF, or what was shipped in a sector of a bank or of the persistent store never erased
since. -/
def Harbour.blank (h : Harbour) (a : Nat) : Byte :=
  let sec := a / 0x10000
  if h.eraseCount sec ≠ 0 then 0xFF
  else if a < 0x1000000 then Config.factoryFlash a
  else if 448 ≤ sec ∧ sec < 480 ∧ sec % 2 = 0 ∧ a % 0x10000 < 256 then factoryStore a
  else 0xFF

def Harbour.bytes (h : Harbour) (a len : Nat) : List Byte := Memory.readBytes h.blank h.flash a len
def Harbour.store (h : Harbour) (a : Nat) (bs : List Byte) : Harbour :=
  { h with flash := Memory.writeBytes h.blank h.flash a bs }

/-- A sector is worn (R321). -/
def Harbour.isWorn (h : Harbour) (s : Nat) : Bool := bit h.worn s || decide (100000 ≤ h.eraseCount s)

/-- The sectors of a range. -/
def sectorsOf (a len : Nat) : List Nat :=
  (List.range ((a + max 1 len - 1) / 0x10000 + 1 - a / 0x10000)).map fun k => a / 0x10000 + k

/-- A sector fails: it is worn, and VERIFY sets (R321). -/
def wearSector (sec : Nat) (s : State) : State :=
  raiseFault 3 0 { s with hb := { s.hb with worn := putBit s.hb.worn sec true } }

/-- The count rises before the erase, and the marker goes (R320). -/
def Harbour.beginErase (h : Harbour) (sec : Nat) : Harbour :=
  { h with erases := put h.erases sec (h.eraseCount sec + 1), marked := putBit h.marked sec false
           flash := h.flash.filter fun c => c.1 / 0x10000 != sec }

/-- The erase is verified and marked. -/
def Harbour.endErase (h : Harbour) (sec : Nat) : Harbour := { h with marked := putBit h.marked sec true }

/-- A bank whose bytes change by the mailbox is verified by the ROM at the next step 3. -/
def Harbour.touch (h : Harbour) (a : Nat) : Harbour :=
  if a < 0x800000 then { h with bankA := .raw } else if a < 0x1000000 then { h with bankB := .raw } else h

/-! The mailbox (R323, R324, R327, R329). -/

/-- Areas of Table 11-11: 0 banks, 1 image store, 2 user area, 3 the rest. -/
def areaOf (sec : Nat) : Nat := if sec < 256 then 0 else if sec < 384 then 1 else if sec < 448 then 2 else 3

/-- Table 11-13 for one area: `write` is PROGRAM or ERASE. -/
def areaStat (keeper recovery write : Bool) (area : Nat) : Nat :=
  if recovery then (if area = 0 then statOk else statDenied)
  else if area = 3 then statDenied
  else if area = 0 then (if write then statDenied else if keeper then statOk else statNotKeeper)
  else if area = 1 then (if write && !keeper then statNotKeeper else statOk)
  else statOk

/-- The first part that is refused. -/
def rangeStat (keeper recovery write : Bool) (a len : Nat) : Nat :=
  (((sectorsOf a len).map fun x => areaStat keeper recovery write (areaOf x)).find? fun x => x != statOk).getD statOk

/-- Every byte of a range is erased. -/
def Harbour.isBlank (h : Harbour) (a len : Nat) : Bool := (h.bytes a len).all fun b => b == 0xFF

/-- The buffer's first bytes are replaced. -/
def Harbour.putBuf (h : Harbour) (bs : List Byte) : Harbour :=
  { h with buf := vmapi h.buf fun i b => (bs[i]?).getD b }

/-- HB_RESULT takes the code of the operation. -/
def hbResult (v : Nat) (s : State) : Nat × State := (v, { s with hb := { s.hb with stat := b8 v } })

/-- An operation is handed to the ROM, which stops the cores until it ends (R319). -/
def startJob (j : RomJob) (a : Actor) (s : State) : State := { s with hb := { s.hb with busy := some (j, a) } }

/-- A READ or BLANK_CHECK of bytes. -/
def readStat (keeper recovery : Bool) (a len : Nat) : Nat :=
  if 0x2000000 < a + len then statBadReg else rangeStat keeper recovery false a len

/-- A PROGRAM of bytes: the STAT before it begins. -/
def programStat (keeper : Bool) (a len : Nat) (s : State) : Nat :=
  if 0x2000000 < a + len ∨ a % 8 ≠ 0 then statBadReg else
  let st := rangeStat keeper s.pwr.recovery true a len
  if st ≠ statOk then st
  else if (sectorsOf a len).any s.hb.isWorn then statWorn
  else if s.hb.isBlank a len then statOk else statNotBlank

/-- An ERASE: the STAT before it begins. -/
def eraseStat (keeper : Bool) (a : Nat) (s : State) : Nat :=
  if a % 0x10000 ≠ 0 ∨ 0x2000000 ≤ a then statBadReg else
  let st := rangeStat keeper s.pwr.recovery true a 1
  if st ≠ statOk then st else if s.hb.isWorn (a / 0x10000) then statWorn else statOk

/-- OTP_READ: bytes of the row with the hidden fields zero (Table 11-15). -/
def State.otpVisible (s : State) (off len : Nat) : List Byte :=
  (List.range len).map fun i =>
    let o := off + i
    if (0x50 ≤ o ∧ o < 0x100) ∨ (0x800 ≤ o ∧ o < 0xC00) then 0 else (s.otpBytes o 1).headD 0

/-- OTP_PROGRAM: the STAT before it begins (R329). -/
def otpStat (keeper : Bool) (off len : Nat) (s : State) : Nat :=
  if off % 4 ≠ 0 ∨ 0x1000 < off + len then statBadReg
  else if s.pwr.recovery ∨ off < 0xC00 then statDenied
  else if !keeper then statNotKeeper
  else if (List.range (len / 4)).any fun k => bit s.hb.used (off / 4 + k) then statOtpUsed
  else statOk

/-- Program words of the user region. -/
def programOtpBytes (off : Nat) (bs : List Byte) (s : State) : State :=
  (List.range (bs.length / 4)).foldl (fun s k => programOtp (off / 4 + k) (w32 (u32At bs (4 * k))) s) s

/-- LEN of HB_CMD is legal for an operation. -/
def lenOk (op len : Nat) : Bool :=
  if op = 5 ∨ op = 6 then decide (4 ≤ len ∧ len ≤ 256 ∧ len % 4 = 0)
  else decide (8 ≤ len ∧ len ≤ 256 ∧ len % 8 = 0)

/-- HB_CMD READ (R323). -/
def hbReadOp (keeper : Bool) (v : W32) (s : State) : Nat × State :=
  let len := fld v 8 0
  let a := s.hb.addr.toNat
  if !lenOk 1 len then hbResult statBadReg s else
  let st := readStat keeper s.pwr.recovery a len
  if st ≠ statOk then hbResult st s
  else hbResult statOk { s with hb := s.hb.putBuf (s.hb.bytes a len) }

/-- HB_CMD BLANK_CHECK. -/
def hbBlankOp (keeper : Bool) (v : W32) (s : State) : Nat × State :=
  let len := fld v 8 0
  let a := s.hb.addr.toNat
  if !lenOk 4 len then hbResult statBadReg s else
  let st := readStat keeper s.pwr.recovery a len
  if st ≠ statOk then hbResult st s
  else hbResult (if s.hb.isBlank a len then statOk else statNotBlank) s

/-- HB_CMD PROGRAM: within one line; it starts when nothing refuses it (R319, R324). -/
def hbProgramOp (keeper : Bool) (a : Actor) (v : W32) (s : State) : Nat × State :=
  let len := fld v 8 0
  let off := s.hb.addr.toNat
  if !lenOk 2 len || decide (256 < off % 256 + len) then hbResult statBadReg s else
  let st := programStat keeper off len s
  if st ≠ statOk then hbResult st s else (statBusy, startJob (.mailbox v) a s)

/-- HB_CMD ERASE. -/
def hbEraseOp (keeper : Bool) (a : Actor) (v : W32) (s : State) : Nat × State :=
  let off := s.hb.addr.toNat
  let st := eraseStat keeper off s
  if st ≠ statOk then hbResult st s
  else (statBusy, startJob (.mailbox v) a { s with hb := (s.hb.beginErase (off / 0x10000)).touch off })

/-- HB_CMD OTP_READ. -/
def hbOtpReadOp (v : W32) (s : State) : Nat × State :=
  let len := fld v 8 0
  let off := s.hb.addr.toNat
  if !lenOk 5 len ∨ off % 4 ≠ 0 ∨ 0x1000 < off + len then hbResult statBadReg s
  else hbResult statOk { s with hb := s.hb.putBuf (s.otpVisible off len) }

/-- HB_CMD OTP_PROGRAM. -/
def hbOtpProgramOp (keeper : Bool) (v : W32) (s : State) : Nat × State :=
  let len := fld v 8 0
  let off := s.hb.addr.toNat
  if !lenOk 6 len then hbResult statBadReg s else
  let st := otpStat keeper off len s
  if st ≠ statOk then hbResult st s else hbResult statOk (programOtpBytes off (s.hb.buf.toList.take len) s)

/-- HB_CMD REBOOT: start-up runs again from step 3 (R327); a card in the recovery state stays in it until a bank verifies (R373).
What is dirty is programmed first (DESIGN CHOICE, notes/assumptions/14.md). -/
def hbRebootOp (s : State) : Nat × State :=
  let r := s.pwr.recovery
  let s := mainReset (flushHeld 0 s)
  (statOk, { s with pwr := { s.pwr with recovery := r } })

/-- A write of HB_CMD (Table 11-12); in the recovery state the ROM denies what R327 does not list. -/
def hbCommand (keeper : Bool) (a : Actor) (v : W32) (s : State) : Nat × State :=
  if s.pwr.recovery && !([1, 2, 3, 4, 5, 7].contains (fld v 31 28)) then hbResult statDenied s else
  match fld v 31 28 with
  | 1 => hbReadOp keeper v s
  | 2 => hbProgramOp keeper a v s
  | 3 => hbEraseOp keeper a v s
  | 4 => hbBlankOp keeper v s
  | 5 => hbOtpReadOp v s
  | 6 => hbOtpProgramOp keeper v s
  | 7 => hbRebootOp s
  | _ => hbResult statBadReg s

/-- Bytes whose value is undefined (R237, R319). -/
def freeBytes (len : Nat) (s : State) : List Byte × State :=
  let (n, s) := s.take
  ((List.range len).map (Config.freeByte n), s)

/-- Where, in a program of `len` bytes at `a`, the line begins that holds byte m of it, and where it ends (R319). -/
def lineStart (a m : Nat) : Nat := (a + m) / 256 * 256 - a
def lineEnd (a m len : Nat) : Nat := min len ((a + m) / 256 * 256 + 256 - a)

/-- A program ends: STAT, bytes programmed and state. Line after line is programmed and read back; at the first line whose read-back
fails the operation stops, and that line's target is undefined (R319, R321). -/
def endProgram (a : Nat) (bs : List Byte) (e : RomEnd) (s : State) : Nat × Nat × State :=
  let s := { s with hb := s.hb.touch a }
  match e with
  | .programFails k =>
    let m := min k (bs.length - 1)
    let lo := lineStart a m
    let (xs, s) := freeBytes (lineEnd a m bs.length - lo) s
    (statWorn, lo, wearSector ((a + lo) / 0x10000) { s with hb := s.hb.store a (bs.take lo ++ xs) })
  | _ => (statOk, bs.length, { s with hb := s.hb.store a bs })

/-- An erase that has begun ends (R320, R321). -/
def endEraseOf (sec : Nat) (e : RomEnd) (s : State) : Nat × State :=
  if e = .ok then (statOk, { s with hb := s.hb.endErase sec })
  else
    let (xs, s) := freeBytes 0x10000 s
    (statWorn, wearSector sec { s with hb := s.hb.store (sec * 0x10000) xs })

/-- The end of a mailbox operation. -/
def endMailbox (v : W32) (e : RomEnd) (s : State) : Nat × State :=
  let a := s.hb.addr.toNat
  if fld v 31 28 = 3 then
    let (st, s) := endEraseOf (a / 0x10000) e s
    hbResult st s
  else
    let (st, _, s) := endProgram a (s.hb.buf.toList.take (fld v 8 0)) e s
    hbResult st s

/-! System records (R332, R349, R352, R357; the sectors and the layout are the model's choice, notes/assumptions/92.md). Record r lies in one
of sectors 484 + 2r and 485 + 2r; a new version is programmed in the other, and the old sector is erased. -/

/-- The sector that holds record r, and the other one. -/
def Harbour.recSector (h : Harbour) (r : Nat) : Nat := 484 + 2 * r + b2n ((h.recs[r]?).getD false)
def Harbour.recOther (h : Harbour) (r : Nat) : Nat := 484 + 2 * r + b2n (!(h.recs[r]?).getD false)

/-- A new version of record r cannot be written: one of its sectors is worn (R321). -/
def Harbour.recWorn (h : Harbour) (r : Nat) : Bool := h.isWorn (h.recSector r) || h.isWorn (h.recOther r)

/-- A new version of record r is programmed, and the erase of the old sector begins. -/
def Harbour.beginRec (h : Harbour) (r : Nat) (bs : List Byte) : Harbour :=
  let h' := (h.store (h.recOther r * 0x10000) bs).beginErase (h.recSector r)
  { h' with recs := vmod h'.recs r fun x => !x }

/-- Record r takes new bytes, all well. -/
def Harbour.writeRec (h : Harbour) (r : Nat) (bs : List Byte) : Harbour :=
  if h.recWorn r then h else (h.beginRec r bs).endErase (h.recSector r)

/-- The record of wrapped keys: the device key, then NSID and key of each namespace. -/
def State.keyRecord (s : State) : List Byte :=
  Config.deviceKey ++ s.ns.flatMap fun x => leBytes 4 x.1 ++ x.2.key

/-- The record of wrapped keys follows the namespaces: of an old key no wrapped copy remains (R352, R357). -/
def recordKeys (s : State) : State := { s with hb := s.hb.writeRec 0 s.keyRecord }

/-- The bytes of a rule set: the world bitmaps in address order, then the rules (Table 12-13). -/
def RuleSet.encode (r : RuleSet) : List Byte :=
  leBytes 8 r.ns.toNat ++ leBytes 32 r.q.toNat ++ leBytes 8 r.stall.toNat ++ leBytes 8 r.arc.toNat ++ leBytes 4 r.misc.toNat ++
  leBytes 32 r.slot.toNat ++
  (List.range 192).flatMap fun i => (List.range 6).flatMap fun k => leBytes 4 (r.word i k).toNat

/-- The active set is the saved one from now on. -/
def saveRules (s : State) : State := { s with acc := { s.acc with saved := s.acc.active } }

/-- The end of RULE_SAVE or COMMIT_RULES: the set is durable once it is programmed, and the erase of the old sector ends or wears it
(R320, R321, R349). -/
def endRules (e : RomEnd) (s : State) : Nat × State :=
  let bs := s.acc.active.encode
  let old := s.hb.recSector 1
  match e with
  | .programFails k =>
    let sec := s.hb.recOther 1
    let m := min k (bs.length - 1)
    let lo := lineStart 0 m
    let (xs, s) := freeBytes (lineEnd 0 m bs.length - lo) s
    (statWorn, wearSector sec { s with hb := s.hb.store (sec * 0x10000) (bs.take lo ++ xs) })
  | e =>
    let s := saveRules { s with hb := s.hb.beginRec 1 bs }
    (statOk, (endEraseOf old e s).2)

/-! The persistent store (R312 to R317). -/

/-- Defined bits of a persistent register (Table 11-8). -/
def persistMask (n : Nat) : W32 :=
  if n = 0 then 1 else if n = 1 then 0xFF else if n = 2 then 0xFFFFC000 else if n = 4 then 0xFFFFFF
  else if n = 5 then 0x3FF else if n = 6 then 0xFFF else if n = 7 then 7 else if n = 9 then 0x800000FF else 0xFFFFFFFF

/-- Registers of the store: 0 to 9 and 0x40 to 0xFF. -/
def persistListed (n : Nat) : Bool := decide (n ≤ 9) || decide (0x40 ≤ n ∧ n ≤ 0xFF)

def Harbour.pairOf (h : Harbour) (n : Nat) : Pair := (h.pairs[n / 16]?).getD ⟨16, 0, false, false, 0, 0⟩

/-- The active sector of a pair, and the standby. -/
def Pair.active (x : Pair) : Nat := if x.second then x.other else x.first
def Pair.standby (x : Pair) : Nat := if x.second then x.first else x.other

/-- Value and write count of register n, those of its entry with the highest count (R315). -/
def Harbour.value (h : Harbour) (n : Nat) : W32 := (look h.values n).getD (persistReset n)
def Harbour.writes (h : Harbour) (n : Nat) : Nat := (look h.wear n).getD 0

/-- A write answers WORN: the register or its pair is worn (R314, R317). -/
def State.persistWorn (s : State) (n : Nat) : Bool := decide (200000 ≤ s.persistWear n) || (s.hb.pairOf n).worn

/-- A sector of the store becomes worn: the lowest-numbered spare left replaces it, or the pair answers WORN from then on (R317;
notes/assumptions/59.md). -/
def wearPair (p sec : Nat) (s : State) : State :=
  let s := wearSector sec s
  if 0 < s.hb.spares then
    let k := 484 - s.hb.spares
    { s with hb := { s.hb with spares := s.hb.spares - 1, pairs := vmod s.hb.pairs p fun x =>
        if x.first = sec then { x with first := k } else { x with other := k } } }
  else { s with hb := { s.hb with pairs := vmod s.hb.pairs p fun x => { x with worn := true } } }

/-- Line 0 of a sector: the entries of the pair's 16 registers with a generation (R315, R316). -/
def Harbour.line0 (h : Harbour) (p gen : Nat) : List Byte :=
  (List.range 16).flatMap fun k => storeEntry (16 * p + k) gen (h.value (16 * p + k)) (h.writes (16 * p + k))

/-- The value and count of register n as its next write leaves them. -/
def Harbour.setValue (h : Harbour) (n : Nat) (v : W32) : Harbour :=
  { h with values := put h.values n v, wear := put h.wear n (h.writes n + 1) }

/-- Where the next entry of register n goes. -/
def Pair.nextEntry (x : Pair) : Nat := x.active * 0x10000 + 16 * x.used

/-- Line 0 of a sector is programmed: the pair's entries lie there with the generation plus one (R316 step 1). -/
def Harbour.fillLine (h : Harbour) (p sec : Nat) : Harbour :=
  let x := h.pairOf (16 * p)
  { h.store (sec * 0x10000) (h.line0 p (x.gen + 1)) with pairs := vput h.pairs p { x with used := 16, gen := x.gen + 1 } }

/-- The pair rotates: line 0 of the standby is programmed, the standby is the active sector, and the erase of the old one begins
(R316). -/
def Harbour.beginRotate (h : Harbour) (p : Nat) : Harbour :=
  let x := h.pairOf (16 * p)
  let h := (h.fillLine p x.standby).beginErase x.active
  { h with pairs := vmod h.pairs p fun y => { y with second := !y.second } }

/-- The pair rotates whole: the old sector is erased and marked. -/
def Harbour.rotate (h : Harbour) (p : Nat) : Harbour := (h.beginRotate p).endErase (h.pairOf (16 * p)).active

/-! The store as the ROM reads it at start-up step 3 (R315 to R317). -/

/-- An entry of 16 bytes is blank; its CRC passes. -/
def entryBlank (e : List Byte) : Bool := e.all fun b => b == 0xFF
def entryOk (e : List Byte) : Bool := decide (u32At e 12 = ofLe (leBytes 4 (crc32c (e.take 12))))

/-- Nothing has been programmed or erased in either sector of a pair since shipment. -/
def Harbour.shipped (h : Harbour) (x : Pair) : Bool :=
  [x.first, x.other].all fun sec => decide (h.eraseCount sec = 0) && h.flash.all fun c => c.1 / 0x10000 != sec

/-- Entries of a sector from its first on, up to the first blank one: at most n. -/
def Harbour.entriesFrom (h : Harbour) (sec : Nat) : Nat → Nat → List (List Byte)
  | 0, _ => []
  | n + 1, k =>
    let e := h.bytes (sec * 0x10000 + 16 * k) 16
    if entryBlank e then [] else e :: h.entriesFrom sec n (k + 1)

def Harbour.entries (h : Harbour) (sec : Nat) : List (List Byte) := h.entriesFrom sec 4096 0

/-- Line 0 of a sector is valid: sixteen entries whose CRC passes. -/
def lineOk (es : List (List Byte)) : Bool := decide (16 ≤ es.length) && (es.take 16).all entryOk

/-- Value and count of register n among the entries of a pair: of those whose CRC passes, the one with the highest count (R315). -/
def bestEntry (es : List (List Byte)) (n : Nat) : Option (Nat × W32) :=
  (es.filter fun e => decide (u16At e 0 = n) && entryOk e).foldl (fun b e =>
    if b.all fun x => decide (x.1 ≤ u32At e 8) then some (u32At e 8, w32 (u32At e 4)) else b) none

/-- What the ROM finds in a pair: its active sector is that whose line 0 is valid with the higher generation (R316). -/
def Harbour.readPair (h : Harbour) (x : Pair) : Pair :=
  let a := h.entries x.first
  let b := h.entries x.other
  let gen : List (List Byte) → Nat := fun es => (es[0]?).elim 0 fun e => u16At e 2
  let second := lineOk b && (!lineOk a || decide (gen a < gen b))
  let es := if second then b else a
  { x with second := second, used := es.length, gen := gen es }

/-- The ROM reads the store: pairs, values and wear counters; a register with no valid entry has its Reset value and wear 0, and
PERSIST_LOST sets (R315, R317). -/
def readStore (s : State) : State :=
  let h := s.hb
  let ps := (List.range 16).filter fun p => !h.shipped (h.pairOf (16 * p))
  let found : List (Nat × Option (Nat × W32)) := ps.flatMap fun p =>
    let x := h.pairOf (16 * p)
    let es := h.entries x.first ++ h.entries x.other
    ((List.range 16).map fun k => 16 * p + k).map fun n => (n, bestEntry es n)
  let h := ps.foldl (fun h p => { h with pairs := vmod h.pairs p h.readPair }) h
  let h := found.foldl (fun h f => match f.2 with
    | some (c, v) => { h with values := put h.values f.1 v, wear := put h.wear f.1 c }
    | none => { h with values := del h.values f.1, wear := del h.wear f.1 }) h
  let s := { s with hb := h }
  if found.any fun f => f.2.isNone then raiseFault 3 1 s else s

/-- A standby sector holds programmed entries and a line 0 that fails: it is erased in step 5 (R317). -/
def Harbour.staleStandby (h : Harbour) (x : Pair) : Bool :=
  let es := h.entries x.standby
  !h.shipped x && !es.isEmpty && !lineOk es

/-- A write of register n is programmed: an entry in the active sector, or with none blank the pair rotates (R315, R316). -/
def Harbour.addEntry (h : Harbour) (n : Nat) (v : W32) : Harbour :=
  let x := h.pairOf n
  let g := h.setValue n v
  if x.used < 4096 then
    { g.store x.nextEntry (storeEntry n x.gen v (g.writes n)) with pairs := vput g.pairs (n / 16) { x with used := x.used + 1 } }
  else g.rotate (n / 16)

/-- A stored value takes effect (R156, R112, R313). -/
def persistEffect (n : Nat) (v : W32) (s : State) : State :=
  match n with
  | 0 => { s with hb := { s.hb with auxMode := v } }
  | 1 => { s with hb := { s.hb with auxPref := v } }
  | 2 => { s with hb := { s.hb with auxCfg := v } }
  | 3 => { s with hb := { s.hb with auxCpc := v } }
  | 5 => rebudget s
  | 6 => { s with hb := { s.hb with auxWatch := v } }
  | 7 => reselect s
  | _ => s

/-- A write of register n becomes durable: value, wear counter, store entry, effect (R314). -/
def storePersist (n : Nat) (v : W32) (s : State) : State :=
  evalWarn (persistEffect n v { s with hb := s.hb.addEntry n v })

/-- The end of a persistent write. A program that fails wears its sector, the active one or in a rotation the standby, and leaves
its bytes undefined; line 0 of the spare that replaces it then takes the write. In a rotation whose line 0 is programmed the write
is durable, and an erase of the old sector that fails wears that one (R316, R317, R319, R321; notes/assumptions/59.md). -/
def endPersist (n : Nat) (v : W32) (e : RomEnd) (s : State) : Nat × State :=
  let x := s.hb.pairOf n
  let full := decide (4096 ≤ x.used)
  match e with
  | .ok => (statOk, storePersist n v s)
  | .eraseFails =>
    let s := persistEffect n v { s with hb := (s.hb.setValue n v).beginRotate (n / 16) }
    let (xs, s) := freeBytes 0x10000 s
    (statOk, evalWarn (wearPair (n / 16) x.active { s with hb := s.hb.store (x.active * 0x10000) xs }))
  | .programFails _ =>
    let (xs, s) := freeBytes (if full then 256 else 16) s
    let s := { s with hb := s.hb.store (if full then x.standby * 0x10000 else x.nextEntry) xs }
    let s := wearPair (n / 16) (if full then x.standby else x.active) s
    if (s.hb.pairOf n).worn then (statWorn, evalWarn s)
    else if full then (statOk, storePersist n v s)
    else (statOk, evalWarn (persistEffect n v { s with
      hb := (s.hb.setValue n v).fillLine (n / 16) (s.hb.pairOf n).active }))

/-- A write of persistent register n (R314). -/
def writePersist (n : Nat) (a : Actor) (v : W32) (s : State) : Nat × State :=
  if n = 8 then (statOk, s)
  else if s.persistWorn n then (statWorn, evalWarn s)
  else (statBusy, startJob (.persist n (v &&& persistMask n)) a s)

/-- A hardware update of SHUTDOWN_RECORD; a worn one is not stored (R314). The ROM's program is part of the same step (DESIGN CHOICE,
notes/assumptions/70.md). -/
def recordShutdown (sensor : Nat) (temp : Int) (s : State) : State :=
  if s.persistWorn 8 then s else
  let old := s.persist 8
  let n := min 0xFFFF (fld old 31 16 + 1)
  storePersist 8 (w32 (n * 65536 + lowBits 8 (temp / 16) * 256 + sensor)) s

/-- A persistent write is abandoned (R315, R316, R322): the bytes it was programming are free. Where they are what the write would
have left, it is durable; else they fail their CRC, an entry that is not blank stays unused, and a line 0 of the standby sector
is erased in step 5 (R317). In a rotation whose line 0 is durable the erase of the old sector is what power loss cut
(notes/assumptions/90.md). -/
def abandonPersist (n : Nat) (v : W32) (s : State) : State :=
  let x := s.hb.pairOf n
  let g := s.hb.setValue n v
  if x.used < 4096 then
    let (xs, s) := freeBytes 16 s
    if xs = storeEntry n x.gen v (g.writes n) then storePersist n v s else
    { s with hb := { s.hb.store x.nextEntry xs with pairs := vput s.hb.pairs (n / 16) { x with
        used := if entryBlank xs then x.used else x.used + 1 } } }
  else
    let (xs, s) := freeBytes 256 s
    if xs = g.line0 (n / 16) (x.gen + 1) then evalWarn (persistEffect n v { s with hb := (s.hb.setValue n v).beginRotate (n / 16) })
    else { s with hb := s.hb.store (x.standby * 0x10000) xs }

/-- A save of the rule set is abandoned (R322): its bytes in the other sector are free, and that sector is erased in step 5; where they
are those of the set, it is durable, and what power loss cut is the erase of the old sector. -/
def abandonRules (s : State) : State :=
  let bs := s.acc.active.encode
  let sec := s.hb.recOther 1
  let (xs, s) := freeBytes bs.length s
  if xs = bs then saveRules { s with hb := s.hb.beginRec 1 bs }
  else
    let h := s.hb.store (sec * 0x10000) xs
    { s with hb := { h with marked := putBit h.marked sec false } }

/-- A program of bytes is abandoned: they are undefined (R322). -/
def abandonProgram (a len : Nat) (s : State) : State :=
  let (xs, s) := freeBytes len s
  { s with hb := (s.hb.touch a).store a xs }

/-- An erase is abandoned: its sector is without the marker, and its bytes are what the erase had made of them (R322). -/
def abandonErase (sec : Nat) (s : State) : State :=
  let (xs, s) := freeBytes 0x10000 s
  { s with hb := s.hb.store (sec * 0x10000) xs }

/-- Slot of Firmware Commit: bank B is slot 2 (R354). -/
def fwSlot (c : Cmd) : Nat := fld (c.dword 10) 2 0

/-- The first sector of a bank. -/
def bankBase (b : Bool) : Nat := if b then 128 else 0

/-- Bytes of a bank. -/
def bankBytes : Nat := 8388608

/-- Power loss, or a fault of the ROM sequencer, abandons the operation in progress: a program leaves its target undefined, and an
erase leaves its sector without the marker (R322). -/
def abandonJob (s : State) : State :=
  let t := { s with hb := { s.hb with busy := none } }
  match s.hb.busy with
  | some (.persist n v, _) => abandonPersist n v t
  | some (.mailbox v, _) =>
    if fld v 31 28 = 3 then abandonErase (s.hb.addr.toNat / 0x10000) t else abandonProgram s.hb.addr.toNat (fld v 8 0) t
  | some (.hostMailbox h, _) =>
    match s.cmd h with
    | none => t
    | some c =>
      let off := fld (c.dword 11) 24 0
      if fld (c.dword 10) 31 28 = 3 then abandonErase (off / 0x10000) t else abandonProgram off (c.dword 12).toNat t
  | some (.saveRules, _) => abandonRules t
  | some (.commitRules _, _) => abandonRules t
  | some (.fwCommit h k, _) =>
    match s.cmd h with
    | none => t
    | some c =>
      let b := fwSlot c == 2
      if k < 128 then abandonErase (bankBase b + k) t else
      let (n, t) := t.take
      let (xs, t) := freeBytes (Config.freeVoltage n % bankBytes) t
      { t with hb := t.hb.store (bankBase b * 0x10000) xs }
  | _ => t

/-- The main domain goes off, and what the ROM was doing is abandoned. -/
def stopMain (s : State) : State := mainOff (abandonJob s)

/-! Firmware banks (R353, R355). -/

def Harbour.bank (h : Harbour) (b : Bool) : Bank := if b then h.bankB else h.bankA

/-- The header of a bank that verifies (R353). -/
def State.bankOk (s : State) (b : Bool) : Option FwHeader :=
  match s.hb.bank b with
  | .image h => if s.rollback ≤ h.rollback.toNat then some h else none
  | _ => none

/-- FW_ACTIVE (Table 11-2): zero until step 3 ends. -/
def State.fwActive (s : State) : W32 :=
  match s.hb.running with
  | some b => w32 (b2n b * 65536 + ((s.bankOk b).elim 0 fun h => h.release.toNat))
  | none => 0

/-- FW_OTHER. -/
def State.fwOther (s : State) : W32 :=
  match s.hb.running with
  | some b => w32 (b2n (!b) * 65536 + ((s.bankOk (!b)).elim 0 fun h => h.release.toNat))
  | none => 0

end Sys2Proof.Machine
end

