-- ==== Sys2Proof/Machine/Regs.lean ====
section
/-! DEFINITION. The bus registers (R44, R160, R211, R302, R303 to R312, R323, R342, R351, R358 to R364, R384, R388,
R407, R411): who reaches each one, what a read returns and does, and what a write does. Addresses that are not listed
answer BAD_REG. -/

namespace Sys2Proof.Machine

/-- Is this actor inside a Keeper session. -/
def byKeeper : Actor → Bool
  | .keeper | .queue => true
  | _ => false

/-- Registers of the world bitmaps and the rule words, which hold the staged set (Table 11-5). -/
def isMapReg (reg : Nat) : Bool := decide (0x0500 ≤ reg ∧ reg ≤ 0x050E) || decide (0x0520 ≤ reg ∧ reg ≤ 0x0527)

/-- The register belongs to the Secure world (R44, R295, R304, R351): group 0x0500, a Secure group, or a Secure Arc's. In the
recovery state any bus master reaches the mailbox group (R327). -/
def State.secureReg (s : State) (reg : Nat) : Bool :=
  if reg / 256 = 5 then true
  else if 0x0240 ≤ reg ∧ reg ≤ 0x02FF then s.arcWorld (reg % 64)
  else if 0x0780 ≤ reg ∧ reg ≤ 0x07FF then false
  else if s.pwr.recovery ∧ reg / 256 = 7 then false
  else s.groupWorld (reg / 256)

/-- Access by the actor to a register: OK, NOT_KEEPER or DENIED (R5, R295, R304, R351). Keeper authority reaches every
register. M belongs to the Secure world (R331): it never reaches group 0x0500, which is always Keeper only (Table 11-1); in Native
mode it reaches the groups of its world and the two that belong to none, and it is denied in the Normal groups. The STAT that
stands for M's denial is the model's choice (notes/assumptions/15.md). The host reaches none. -/
def State.regAllowed (s : State) (a : Actor) (reg : Nat) : Nat :=
  match a with
  | .keeper | .queue => statOk
  | .mgmt =>
    if reg / 256 = 5 then statNotKeeper else if s.compat then statOk
    else if reg / 256 < 2 || 0x0780 ≤ reg && reg ≤ 0x07FF || s.secureReg reg then statOk else statDenied
  | .bus => if s.secureReg reg then statNotKeeper else statOk
  | .host => statBadReg

/-! The Beacon group. -/

/-- The current stamp at time t: the position follows the extrapolation first, then the fraction (R34). -/
def stampNow (t : Nat) (s : State) : W64 × State :=
  let s := if s.beaconOn then bcnApply (s.bcn.advance t s.commitOk) s else s
  let (n, s) := s.take
  (s.bcn.stamp t (Config.freeFraction n), s)

/-- Registers that only hold what was written, and the reserved bits they clear. -/
def BcnRegs.put (r : BcnRegs) (reg : Nat) (v : W32) : BcnRegs :=
  if reg = 0x0202 then { r with ssi := storeSsi v }
  else if reg = 0x0203 then { r with jump := v }
  else if reg = 0x0204 then { r with timing := v }
  else if reg = 0x0205 then { r with intRate := storeRate v }
  else if reg = 0x0210 then { r with commitPos := v }
  else if reg = 0x0216 then { r with zeroCyc := v &&& 0xFFFFFF }
  else if reg = 0x0217 then { r with wakeLo := v }
  else if reg = 0x0218 then { r with wakeHi := v }
  else r

/-- A register that only holds what was written. A STILL_TIME written while the Beacon is still leaves it still until its next count
change (DESIGN CHOICE, notes/assumptions/39.md: R43 names no other end). -/
def Bcn.putReg (b : Bcn) (reg : Nat) (v : W32) : Bcn := { b with regs := b.regs.put reg v }

/-- A write of an Arc register; it takes effect at the next count change (R49). -/
def Bcn.putArc (b : Bcn) (reg : Nat) (v : W32) : Bcn :=
  let n := reg % 64
  { b with arcs := vmod b.arcs n fun a =>
      if reg < 0x0280 then { a with start := v } else if reg < 0x02C0 then { a with stop := v }
      else { a with ctl := storeArcCtl v } }

/-- A bus-fed count (R40): discarded unless MODE = 11. -/
def bcnFeed (t : Nat) (v : W32) (s : State) : State :=
  if !s.beaconOn || s.bcn.mode != 3 then s else
  let s := bcnApply (s.bcn.advance t s.commitOk) s
  bcnApply (s.bcn.sampleIn t s.commitOk v.toNat) s

/-- RESUME (R55). -/
def bcnResume (s : State) : State := if s.beaconOn then bcnApply s.bcn.endFault s else s

/-- ZERO_NOW and ZERO_ARM (R58). -/
def bcnZeroNow (s : State) : State := if s.beaconOn then bcnApply (s.bcn.zeroNow s.bcn.regs.zeroCyc.toNat) s else s
def bcnZeroArm (v : Nat) (s : State) : State := if s.beaconOn then bcnApply (s.bcn.zeroArrives v) s else s

/-- BCN_CTL: RESUME, then ZERO_NOW, then ZERO_ARM (R58). -/
def bcnCtl (v : W32) (s : State) : State :=
  let s := if bit v 0 then bcnResume s else s
  let s := if bit v 1 then bcnZeroNow s else s
  if bit v 2 then bcnZeroArm s.bcn.regs.zeroCyc.toNat s else s

/-- Stored without effect in Compat mode (R61). -/
def Bcn.storeOnly (b : Bcn) (reg : Nat) (v : W32) : Bcn :=
  if reg = 0x0200 then { b with regs := { b.regs with cfg := v &&& 0xFFFFC000 } }
  else if reg = 0x0201 then { b with regs := { b.regs with cpc := if v.toNat < 15 then 15 else v } }
  else if reg = 0x0211 then { b with regs := { b.regs with commitCtl := v &&& 0x8000FFFF } }
  else if 0x0240 ≤ reg then b.putArc reg v
  else b.putReg reg v

/-- A write in the Beacon group, at time t. -/
def writeBeacon (t reg : Nat) (v : W32) (s : State) : State :=
  if reg = 0x0208 then { s with bcn := { s.bcn with sticky := s.bcn.sticky &&& ~~~ b8 (v.toNat &&& 0xFE) } }
  else if s.compat then { s with bcn := s.bcn.storeOnly reg v }
  else if reg = 0x0200 then bcnApply (s.bcn.writeCfg v, []) s
  else if reg = 0x0201 then bcnApply (s.bcn.writeCpc v, []) s
  else if reg = 0x0205 then { s with bcn := s.bcn.writeRate t v }
  else if reg = 0x0206 then bcnFeed t v s
  else if reg = 0x0207 then bcnCtl v s
  else if reg = 0x0211 then { s with bcn := s.bcn.writeCommitCtl v }
  else if 0x0240 ≤ reg then { s with bcn := s.bcn.putArc reg v }
  else { s with bcn := s.bcn.putReg reg v }

/-! Power commands (R377, R380, R395). -/

/-- The card leaves thermal shutdown once it has cooled: start-up runs from step 3 (R395). -/
def thermalRestart (s : State) : State :=
  if s.therm.held && s.cooled then
    { s with therm := { s.therm with held := false }
             pwr := { s.pwr with mainOn := s.pwr.rail12, step := if s.pwr.rail12 then 2 else 1
                                 cmd := if s.pwr.cmd = 4 then s.pwr.before else s.pwr.cmd
                                 busCmd := if s.pwr.cmd = 4 then s.pwr.before else s.pwr.busCmd } }
  else s

/-- Set Features commands that wait for Watch end, when a later command takes its place. -/
def endWatchWaits (s : State) : State :=
  (s.nv.inflight.filter fun c => c.phase == .watch).foldl (fun s c => succeed c.h s) s

/-- A write of PWR_CMD. In thermal shutdown 0 to 3 restart the card once it has cooled, and before that have no effect (R395); a 4 is
stored (R8), commands nothing there, and a restart returns to the state before it, as a wake does (DESIGN CHOICE,
notes/assumptions/80.md). In Watch 0 to 3 wake the card (R380) and a 4 is stored. A command of 0 to 3 cancels a request for Watch,
and a wake recorded for it. -/
def writePwrCmd (v : W32) (s : State) : State :=
  let c := min 4 (fld v 2 0)
  let put : State → State := fun s => { s with pwr := { s.pwr with cmd := c, busCmd := c } }
  let keep : State → State := fun s => { s with pwr := { s.pwr with before := s.cmdState } }
  if s.therm.held then
    if c = 4 then put (keep s) else if s.cooled then thermalRestart (put { s with pwr := { s.pwr with before := c } }) else s
  else if s.pwr.watch = .asleep then
    if c = 4 then put s else wake 0 (put { s with pwr := { s.pwr with before := c } })
  else if c = 4 then
    if s.pwr.cmd = 4 then put s else
    let s := put (keep s)
    { s with pwr := { s.pwr with watch := .requested } }
  else
    let s := put s
    reselect (endWatchWaits { s with pwr := { s.pwr with watch := .awake, hostPs4 := false, wakeDue := false } })

/-! Event router and fault mirrors. -/

/-- EVT_STATUS_k. -/
def State.evtWord (s : State) (k : Nat) : W32 := w32 ((s.ev.pulse ||| s.levels).toNat >>> (32 * k))

/-- A read of EVT_STATUS_k records the pulse bits set (R362). -/
def recordPulses (k : Nat) (s : State) : State :=
  let m : BitVec 512 := BitVec.ofNat 512 (0xFFFFFFFF <<< (32 * k))
  { s with ev := { s.ev with recorded := (s.ev.recorded &&& ~~~m) ||| (s.ev.pulse &&& m) } }

/-- A 1 in PULSE_k clears the recorded bits of word k (R362). -/
def ackPulses (k : Nat) (s : State) : State :=
  let m : BitVec 512 := BitVec.ofNat 512 (0xFFFFFFFF <<< (32 * k))
  { s with ev := { s.ev with pulse := s.ev.pulse &&& ~~~(s.ev.recorded &&& m), recorded := s.ev.recorded &&& ~~~m } }

/-- A write of FAULT_STATUS of frame f (R362 to R364); a frame still set is sent again (R360). -/
def writeFaultStatus (f : Nat) (v : W32) (s : State) : State :=
  if !s.frameOn f then s else
  let s := if f = 5 then (setBits 16 v.toNat).foldl (fun s k => ackPulses k s) s else s
  let s := s.setFrame f (s.frameStatus f &&& ~~~v)
  if s.frameRaises f then { s with ev := { s.ev with due := putBit s.ev.due (192 + f) true } } else s

/-- A write of FAULT_ENABLE of frame f. -/
def writeFaultEnable (f : Nat) (v : W32) (s : State) : State :=
  if !s.frameOn f then s else
  { s with ev := { s.ev with enable := vput s.ev.enable f (v &&& frameBits f) } }

/-- FAULT_FORCE of frame f (R369). -/
def forceFaults (f : Nat) (v : W32) (s : State) : State :=
  (setBits 32 (v &&& frameBits f).toNat).foldl (fun s b => raiseFaultKind 1 f b s) s

/-- A write of EVT_ROUTE for the selected source (R359, R360). -/
def writeRoute (v : W32) (s : State) : State :=
  let e := s.ev
  let src := e.sel
  let on := bit v 31
  let al := bit v 30
  let fresh := on && !al && !(bit e.en src && !bit e.alert src)
  let aux := decide (src < 128) || decide (192 ≤ src ∧ src ≤ 194)
  let e := { e with en := putBit e.en src on, alert := putBit e.alert src al, vector := put e.vector src (fld v 7 0)
                    auxEn := if aux then putBit e.auxEn src on else e.auxEn
                    auxAlert := if aux then putBit e.auxAlert src al else e.auxAlert }
  let s := { s with ev := e }
  if fresh && bit s.levels src then { s with ev := { s.ev with due := putBit s.ev.due src true } } else s

/-- EVT_ROUTE of the selected source. -/
def State.routeWord (s : State) : W32 :=
  w32 (b2n (bit s.ev.en s.ev.sel) * 2 ^ 31 + b2n (bit s.ev.alert s.ev.sel) * 2 ^ 30 + s.ev.vec s.ev.sel)

/-- Which frames raise their source, and which Stalls. -/
def State.frameFault (s : State) : Nat := ofBits ((List.range 64).map fun f => s.frameRaises f)
def State.stallFault (s : State) : Nat := vbits s.stalls Stall.raises

/-- The master that an actor without a Keeper session is (R295, R331). -/
def actorMaster : Actor → Option Master
  | .bus => some .bus
  | .mgmt => some .mgmt
  | _ => none

/-- A mirror register of frame f, checked for the master that the actor is (R336, R337, R340). -/
def mirrorStat (a : Actor) (need f off : Nat) (s : State) : Nat × State :=
  match actorMaster a with
  | some m =>
    let addr := 0x00F000000000 + f * 0x10000 + off
    if s.acc.mismatch then (statDenied, s.unmatched) else
    match s.acc.active.memCheck m need addr with
    | none => (statOk, s)
    | some v => (statDenied, capture (violKind false (if need = 1 then 0 else 1) 0 1) addr m v s)
  | none => (statOk, s)

/-! Worlds and rules. -/

/-- A 32-bit part of a bitmap. -/
def part32 {n : Nat} (x : BitVec n) (k : Nat) : W32 := w32 (x.toNat >>> (32 * k))
def setPart32 {n : Nat} (x : BitVec n) (k : Nat) (v : W32) : BitVec n := putFld x (32 * k + 31) (32 * k) v.toNat

/-- The staged word of a bitmap register (Table 11-5). -/
def RuleSet.mapWord (r : RuleSet) (reg : Nat) : W32 :=
  if reg ≤ 0x0501 then part32 r.ns (reg - 0x0500)
  else if reg ≤ 0x0509 then part32 r.q (reg - 0x0502)
  else if reg ≤ 0x050B then part32 r.stall (reg - 0x050A)
  else if reg ≤ 0x050D then part32 r.arc (reg - 0x050C)
  else if reg = 0x050E then r.misc
  else part32 r.slot (reg - 0x0520)

/-- A write of a bitmap register, to the staged set (R332). -/
def RuleSet.putMap (r : RuleSet) (reg : Nat) (v : W32) : RuleSet :=
  if reg ≤ 0x0501 then { r with ns := setPart32 r.ns (reg - 0x0500) v }
  else if reg ≤ 0x0509 then { r with q := setPart32 r.q (reg - 0x0502) v }
  else if reg ≤ 0x050B then { r with stall := setPart32 r.stall (reg - 0x050A) v }
  else if reg ≤ 0x050D then { r with arc := setPart32 r.arc (reg - 0x050C) v }
  else if reg = 0x050E then { r with misc := v &&& 0xFFFF }
  else { r with slot := setPart32 r.slot (reg - 0x0520) v }

/-- A write of RULE_Wk of the selected rule; reserved bits are held as written (R333). -/
def RuleSet.putRule (r : RuleSet) (sel k : Nat) (v : W32) : RuleSet :=
  let old := (look r.rules sel).getD ⟨Vector.replicate 6 0⟩
  { r with rules := put r.rules sel ⟨vput old.w k v⟩ }

/-! Reads. -/

/-- Identity and status (Table 11-2). -/
def State.readId (s : State) (reg : Nat) : Option W32 :=
  if reg = 0 then some (if s.compat then 0x4F4C0508 else 0x4F4C0716)
  else if reg = 1 then some (w32 Config.hwRev.toNat)
  else if reg = 2 then some (s.otpWord 0)
  else if reg = 3 then some (s.otpWord 1)
  else if reg = 4 then some (s.otpWord 10)
  else if reg = 5 then some (w32 (b2n s.pwr.recovery * 8 + b2n s.pwr.compatLow * 4 + b2n s.compat))
  else if reg = 6 then some s.fwActive
  else if reg = 7 then some s.fwOther
  else if reg = 8 then some (w32 s.rollback)
  else if reg = 9 then some (w32 (s.rollback / 2 ^ 32))
  else if reg = 0xA then some s.pwr.starts
  else if reg = 0xB then some 2
  else if reg = 0xC then some 0xB2D05E00
  else if 0x10 ≤ reg ∧ reg ≤ 0x17 then some (s.otpWord (12 + (reg - 0x10)))
  else none

def Moor.code : Moor → Nat
  | .unmoored => 0
  | .provisional => 1
  | .moored => 2

/-- BUS_STATUS (Table 10-9). -/
def State.busStatus (s : State) : W32 :=
  w32 (s.bus.moor.code * 2 ^ 30 + b2n s.alertLow * 2 ^ 29 + b2n s.bus.held.isSome * 2 ^ 28 +
    b2n s.keeper.bus.session.isSome * 2 ^ 27 + b2n s.bus.token * 2 ^ 26 + (s.bus.sticky.toNat &&& 0xF8))

/-- The bus and Mooring group (Table 10-8). -/
def State.readBus (s : State) (reg : Nat) : Option W32 :=
  let ctr := s.keeper.bus.session.elim 0 fun x => x.2
  if reg = 0x100 then some s.busStatus
  else if reg = 0x101 then some (w32 s.bus.addr)
  else if reg = 0x102 then some s.bus.crcErr
  else if reg = 0x103 then some s.bus.macErr
  else if reg = 0x104 then some (w32 ctr)
  else if reg = 0x105 then some (w32 (ctr / 2 ^ 32))
  else if reg = 0x106 then some s.bus.lease
  else none

/-- The Beacon and Arc group but for BCN_STAMP_LO (Table 2-4). -/
def State.readBeacon (s : State) (reg : Nat) : Option W32 :=
  let b := s.bcn
  if reg = 0x200 then some b.regs.cfg
  else if reg = 0x201 then some b.regs.cpc
  else if reg = 0x202 then some b.regs.ssi
  else if reg = 0x203 then some b.regs.jump
  else if reg = 0x204 then some b.regs.timing
  else if reg = 0x205 then some b.regs.intRate
  else if reg = 0x206 ∨ reg = 0x207 then some 0
  else if reg = 0x208 then some (b.status s.compat)
  else if reg = 0x20A then some (part32 b.latch 1)
  else if reg = 0x210 then some b.regs.commitPos
  else if reg = 0x211 then some b.regs.commitCtl
  else if reg = 0x212 then some (part32 b.com.num 0)
  else if reg = 0x213 then some (part32 b.com.num 1)
  else if reg = 0x214 then some (w32 b.arcState)
  else if reg = 0x215 then some (w32 (b.arcState / 2 ^ 32))
  else if reg = 0x216 then some b.regs.zeroCyc
  else if reg = 0x217 then some b.regs.wakeLo
  else if reg = 0x218 then some b.regs.wakeHi
  else if 0x240 ≤ reg ∧ reg ≤ 0x2FF then
    (b.arcs[reg % 64]?).map fun a => if reg < 0x280 then a.start else if reg < 0x2C0 then a.stop else a.ctl
  else none

/-- The power and thermal group (Tables 11-3 and 7-15). -/
def State.readPower (s : State) (reg : Nat) : Option W32 :=
  let o := s.pwr.op
  if reg = 0x300 then some (w32 s.pwr.busCmd)
  else if reg = 0x301 then some s.pwrStatus
  else if reg = 0x302 then some (w32 s.pwr.wakeSrc.toNat)
  else if reg = 0x303 then some s.pwr.watchTimer
  else if reg = 0x304 then some s.therm.samp.ctl
  else if 0x308 ≤ reg ∧ reg ≤ 0x30F then some (w32 (((s.therm.samp.lim[reg - 0x308]?).getD 0).toNat))
  else if 0x310 ≤ reg ∧ reg ≤ 0x31A then some (((s.therm.temp[reg - 0x310]?).getD .reset).word)
  else if reg = 0x320 then some s.thermStatus
  else if reg = 0x321 then some s.therm.grace
  else if reg = 0x322 then some s.therm.holdTime
  else if reg = 0x323 then some (w32 s.therm.cap)
  else if reg = 0x340 then some (w32 (b2n o.direct * 2 ^ 31 + o.limit))
  else if reg = 0x341 then some s.opStatus
  else if reg = 0x342 then some (w32 o.vset)
  else if reg = 0x343 then some (w32 o.fset)
  else if reg = 0x344 then some o.guard.word
  else none

/-- The health and ageing group (Tables 11-4 and 6-5). -/
def State.readHealth (s : State) (reg : Nat) : Option W32 :=
  let h := s.health
  if reg = 0x400 then some h.life.word
  else if reg = 0x401 then some h.media.word
  else if reg = 0x402 then some h.spares.word
  else if reg = 0x403 then some h.holdup.word
  else if reg = 0x404 then some h.warn
  else if reg = 0x405 then some h.hostTb.word
  else if reg = 0x410 then some h.drift.word
  else if reg = 0x411 then some h.delay.word
  else if reg = 0x412 then some h.refresh.word
  else if reg = 0x420 then some s.holdupStatus
  else if reg = 0x421 then some s.hu.mVolt.word
  else if reg = 0x422 then some s.hu.mEnergy.word
  else if reg = 0x423 then some s.hu.mBudget.word
  else if reg = 0x424 then some s.hu.mDirty.word
  else if reg = 0x425 then some s.hu.mVb.word
  else if reg = 0x470 then some (w32 s.hb.wearIdx)
  else if reg = 0x471 then some (w32 (s.persistWear s.hb.wearIdx))
  else if reg = 0x472 then some (w32 s.hb.sectIdx)
  else if reg = 0x473 then some (w32 (b2n (s.hb.isWorn s.hb.sectIdx) * 2 ^ 31 + s.hb.eraseCount s.hb.sectIdx))
  else none

/-- The worlds and access-rule group (Table 11-5). -/
def State.readRules (s : State) (reg : Nat) : Option W32 :=
  let a := s.acc
  if isMapReg reg then some (a.staged.mapWord reg)
  else if reg = 0x510 then some a.epoch
  else if reg = 0x511 then some s.drain
  else if reg = 0x512 then some 0
  else if reg = 0x518 then some (part32 a.violAddr 0)
  else if reg = 0x519 then some (part32 a.violAddr 1)
  else if reg = 0x51A then some a.violKind
  else if reg = 0x51B then some a.violMast
  else if reg = 0x51C then some a.violRule
  else if reg = 0x530 then some (w32 a.sel)
  else if 0x531 ≤ reg ∧ reg ≤ 0x536 then some (a.staged.word a.sel (reg - 0x531))
  else none

/-- The event group but for the fault mirrors and EVT_STATUS (Table 11-6). -/
def State.readEvents (s : State) (reg : Nat) : Option W32 :=
  if reg = 0x600 then some (w32 s.ev.sel)
  else if reg = 0x601 then some s.routeWord
  else if 0x602 ≤ reg ∧ reg ≤ 0x611 then some (s.evtWord (reg - 0x602))
  else if reg = 0x620 then some s.ev.dropped
  else if reg = 0x621 then some (w32 s.frameFault)
  else if reg = 0x622 then some (w32 (s.frameFault / 2 ^ 32))
  else if reg = 0x623 then some (w32 s.stallFault)
  else if reg = 0x624 then some (w32 (s.stallFault / 2 ^ 32))
  else if 0x640 ≤ reg ∧ reg ≤ 0x67F then some (if s.frameOn (reg - 0x640) then s.frameStatus (reg - 0x640) else 0)
  else if 0x680 ≤ reg ∧ reg ≤ 0x6BF then
    some (if s.frameOn (reg - 0x680) then (s.ev.enable[reg - 0x680]?).getD 0 else 0)
  else none

/-- The mailbox group (Table 11-12). -/
def State.readMailbox (s : State) (reg : Nat) : Option W32 :=
  if reg = 0x700 then some 0
  else if reg = 0x701 then some s.hb.addr
  else if reg = 0x702 then some (w32 (b2n s.hb.busy.isSome * 2 ^ 31 + s.hb.stat.toNat))
  else if 0x740 ≤ reg ∧ reg ≤ 0x77F then some (w32 (u32At s.hb.buf.toList (4 * (reg - 0x740))))
  else if 0x780 ≤ reg ∧ reg ≤ 0x7FE then s.keeper.kx[reg - 0x780]?
  else if reg = 0x7FF then some s.keeper.kxControl
  else none

/-- The test group (Table 11-7). -/
def State.readTest (s : State) (reg : Nat) : Option W32 :=
  if reg = 0x900 then some (w32 (b2n s.ev.inject))
  else if reg = 0x901 ∨ (0x940 ≤ reg ∧ reg ≤ 0x97F) then some 0
  else none

/-- What a read returns, without its effects; none where no register is listed. BCN_STAMP_LO is in `regRead`. -/
def State.peek (s : State) (reg : Nat) : Option W32 :=
  let g := reg / 256
  if g = 0 then s.readId reg
  else if g = 1 then s.readBus reg
  else if g = 2 then s.readBeacon reg
  else if g = 3 then s.readPower reg
  else if g = 4 then s.readHealth reg
  else if g = 5 then s.readRules reg
  else if g = 6 then s.readEvents reg
  else if g = 7 then s.readMailbox reg
  else if g = 8 then (if persistListed (reg % 256) then some (s.persist (reg % 256)) else none)
  else if g = 9 then s.readTest reg
  else none

/-- The frame and the offset of the register that a fault mirror stands for. -/
def mirrorOf (reg : Nat) : Option (Nat × Nat) :=
  if 0x640 ≤ reg ∧ reg ≤ 0x67F then some (reg - 0x640, 0)
  else if 0x680 ≤ reg ∧ reg ≤ 0x6BF then some (reg - 0x680, 8)
  else if 0x940 ≤ reg ∧ reg ≤ 0x97F then some (reg - 0x940, 4)
  else none

/-- A mirror reaches its frame: a powered-off one reports TILE_OFF (R26, R310). -/
def reachMirror (reg : Nat) (s : State) : State := (mirrorOf reg).elim s fun x => reachFrame x.1 s

/-- The status of an access before it acts: the register is listed, the actor may reach it, and no rule denies a mirror. -/
def regStat (a : Actor) (need reg : Nat) (s : State) : Nat × State :=
  let st := s.regAllowed a reg
  if st ≠ statOk then (st, s)
  else if reg ≠ 0x209 ∧ (s.peek reg).isNone then (statBadReg, s)
  else match mirrorOf reg with
    | some (f, off) => mirrorStat a need f off s
    | none => (statOk, s)

/-- A register read at time t: STAT, DATA and the state after it (R44, R362). -/
def regRead (t : Nat) (a : Actor) (reg : Nat) (s : State) : Nat × W32 × State :=
  let (st, s) := regStat a 1 reg s
  if st ≠ statOk then (st, 0, s)
  else if reg = 0x209 then
    let (x, s) := stampNow t s
    (statOk, part32 x 0, { s with bcn := { s.bcn with latch := x } })
  else
    let v := (s.peek reg).getD 0
    let s := reachMirror reg s
    let s := if 0x602 ≤ reg ∧ reg ≤ 0x611 then recordPulses (reg - 0x602) s else s
    (statOk, v, s)

/-! Writes. -/

/-- Writes in the bus group. -/
def writeBusGroup (reg : Nat) (v : W32) (s : State) : State :=
  if reg = 0x100 then { s with bus := { s.bus with sticky := s.bus.sticky &&& ~~~ b8 (v.toNat &&& 0xF8) } }
  else if reg = 0x106 then { s with bus := { s.bus with lease := v &&& 0xFFFF } }
  else s

/-- Writes in the power group. -/
def writePowerGroup (reg : Nat) (v : W32) (s : State) : State :=
  if reg = 0x300 then writePwrCmd v s
  else if reg = 0x302 then { s with pwr := { s.pwr with wakeSrc := s.pwr.wakeSrc &&& ~~~ BitVec.ofNat 5 (fld v 4 0) } }
  else if reg = 0x303 then { s with pwr := { s.pwr with watchTimer := v } }
  else if reg = 0x304 then
    { s with therm := { s.therm with samp := { s.therm.samp with
      en := b8 (fld v 7 0), hit := s.therm.samp.hit &&& ~~~ b8 (fld v 15 8) } } }
  else if 0x308 ≤ reg ∧ reg ≤ 0x30F then
    { s with therm := { s.therm with samp := { s.therm.samp with
      lim := vput s.therm.samp.lim (reg - 0x308) (BitVec.ofNat 16 (fld v 15 0)) } } }
  else if reg = 0x320 then
    { s with therm := { s.therm with sticky := s.therm.sticky &&& ~~~ BitVec.ofNat 9 (fld v 8 0) } }
  else if reg = 0x321 then
    { s with therm := { s.therm with grace := w32 (max 500 (min 30000 (fld v 15 0))) } }
  else if reg = 0x322 then { s with therm := { s.therm with holdTime := v &&& 0xFFFF } }
  else if reg = 0x340 then writeOpCtl v s
  else if reg = 0x341 then
    { s with pwr := { s.pwr with op := { s.pwr.op with orderErr := s.pwr.op.orderErr && !bit v 28
                                                       tokenErr := s.pwr.op.tokenErr && !bit v 27 } } }
  else if reg = 0x342 then writeVset v s
  else if reg = 0x343 then writeFset v s
  else s

/-- Writes in the health group. -/
def writeHealthGroup (reg : Nat) (v : W32) (s : State) : State :=
  if reg = 0x404 then evalWarn { s with health := { s.health with warn := s.health.warn &&& ~~~v } }
  else if reg = 0x470 then { s with hb := { s.hb with wearIdx := fld v 7 0 } }
  else if reg = 0x472 then { s with hb := { s.hb with sectIdx := fld v 8 0 } }
  else s

/-- Writes in the worlds group, but for RULE_SAVE. -/
def writeRulesGroup (reg : Nat) (v : W32) (s : State) : State :=
  let a := s.acc
  if isMapReg reg then { s with acc := { a with staged := a.staged.putMap reg v } }
  else if reg = 0x510 then epochWrite v s
  else if reg = 0x51A then
    if bit v 31 then { s with acc := { a with violKind := a.violKind &&& 0x3FFFFFFF } } else s
  else if reg = 0x530 then { s with acc := { a with sel := min 191 (fld v 7 0) } }
  else if 0x531 ≤ reg ∧ reg ≤ 0x536 then { s with acc := { a with staged := a.staged.putRule a.sel (reg - 0x531) v } }
  else s

/-- Writes in the event group. -/
def writeEventGroup (reg : Nat) (v : W32) (s : State) : State :=
  if reg = 0x600 then { s with ev := { s.ev with sel := fld v 8 0 } }
  else if reg = 0x601 then writeRoute v s
  else if 0x640 ≤ reg ∧ reg ≤ 0x67F then writeFaultStatus (reg - 0x640) v s
  else if 0x680 ≤ reg ∧ reg ≤ 0x6BF then writeFaultEnable (reg - 0x680) v s
  else s

/-- A discharge measurement is asked for (R399). It runs with the bank charged; with short headroom the budget is lowered
first (R401). -/
def startMeasure (s : State) : State :=
  if s.hu.state ≠ 1 ∨ s.hu.measuring ∨ s.hu.lowered.isSome ∨ s.pwr.flush ≠ .idle then s else
  if s.hu.vchg < s.vb + 1500 then
    let v := s.hu.vchg - 1500
    let e := s.hu.energy * ((v * v : Nat) - 64000000) / ((s.hu.vchg * s.hu.vchg : Nat) - 64000000)
    let s := rebudget { s with hu := { s.hu with lowered := some (budgetOf e) } }
    if s.hu.flushing then { s with hu := { s.hu with due := true } }
    else { s with hu := { s.hu with measuring := true, due := false } }
  else { s with hu := { s.hu with measuring := true, due := false } }

/-- KX_127 (R351): CLOSE acts in a frame with KEY = 1 only. -/
def writeKx (a : Actor) (v : W32) (s : State) : State :=
  match fld v 3 0 with
  | 1 => kxHello s
  | 2 => kxSignature s
  | 3 => kxProve s
  | 4 => kxClose (a == .keeper) s
  | _ => s

/-- Writes in the mailbox group: STAT and state. While an operation runs the group answers NOT_READY (R323); in the recovery state the
ROM denies the operations of the KX window (R327). -/
def writeMailboxGroup (a : Actor) (reg : Nat) (v : W32) (s : State) : Nat × State :=
  if s.hb.busy.isSome then (statNotReady, s)
  else if reg = 0x700 then hbCommand (byKeeper a) a v s
  else if reg = 0x701 then (statOk, { s with hb := { s.hb with addr := v &&& 0x1FFFFFF } })
  else if 0x740 ≤ reg ∧ reg ≤ 0x77F then
    (statOk, { s with hb := s.hb.putBuf (patch s.hb.buf.toList (4 * (reg - 0x740)) (leBytes 4 v.toNat)) })
  else if 0x780 ≤ reg ∧ reg ≤ 0x7FE then
    (statOk, { s with keeper := { s.keeper with kx := vput s.keeper.kx (reg - 0x780) v } })
  else if reg = 0x7FF then
    if s.pwr.recovery && decide (1 ≤ fld v 3 0 ∧ fld v 3 0 ≤ 4) then (statDenied, s) else
    let s := writeKx a v s
    (if 1 ≤ fld v 3 0 ∧ fld v 3 0 ≤ 4 then s.keeper.kxStat.toNat else statOk, s)
  else (statOk, s)

/-- Writes in the test group (R311, R369, R399). -/
def writeTestGroup (a : Actor) (reg : Nat) (v : W32) (s : State) : State :=
  if reg = 0x900 then { s with ev := { s.ev with inject := bit v 0 } }
  else if reg = 0x901 then (if bit v 0 then startMeasure s else s)
  else if 0x940 ≤ reg ∧ reg ≤ 0x97F then
    if s.ev.inject || a == .mgmt then forceFaults (reg - 0x940) v s else s
  else s

/-- A register write at time t: STAT and the state after it. BUSY: the ROM runs an operation, and its end gives the
outcome. -/
def regWrite (t : Nat) (a : Actor) (reg : Nat) (v : W32) (s : State) : Nat × State :=
  let (st, s) := regStat a 2 reg s
  if st ≠ statOk then (st, s) else
  let s := reachMirror reg s
  let g := reg / 256
  if g = 1 then (statOk, writeBusGroup reg v s)
  else if g = 2 then (statOk, writeBeacon t reg v s)
  else if g = 3 then (statOk, writePowerGroup reg v s)
  else if g = 4 then (statOk, writeHealthGroup reg v s)
  else if reg = 0x512 then
    if !bit v 0 then (statOk, s)
    else if s.hb.busy.isSome then (statNotReady, s)
    else if s.hb.recWorn 1 then (statWorn, s)
    else (statBusy, startJob .saveRules a s)
  else if g = 5 then (statOk, writeRulesGroup reg v s)
  else if g = 6 then (statOk, writeEventGroup reg v s)
  else if g = 7 then writeMailboxGroup a reg v s
  else if g = 8 then (if s.hb.busy.isSome then (statNotReady, s) else writePersist (reg % 256) a v s)
  else if g = 9 then (statOk, writeTestGroup a reg v s)
  else (statOk, s)

/-- A register of the aux domain: identity, bus, Beacon, and 0x0300 to 0x033F (R283). -/
def auxServed (reg : Nat) : Bool := decide (reg / 256 ≤ 2) || decide (0x300 ≤ reg ∧ reg ≤ 0x33F)

/-- The cores run for the bus: start-up has ended, and the card is not in the recovery state (R286). -/
def State.coresUp (s : State) : Bool := s.firmware && decide (6 ≤ s.pwr.step)

/-- The cores serve registers now: they run, the card is not in Watch, the ROM does not hold them, and no rule denies M its memory
(R285, R286, R319, R340). -/
def State.coresServe (s : State) : Bool :=
  s.coresUp && s.pwr.watch != .asleep && s.hb.busy.isNone && !s.mStopped

/-- The ROM serves a register: the mailbox group, in the recovery state once start-up step 3 has ended (R286, R327). -/
def State.romServes (s : State) (reg : Nat) : Bool :=
  s.pwr.auxOn && s.pwr.mainOn && s.pwr.recovery && decide (3 ≤ s.pwr.step) && decide (reg / 256 = 7)

/-- The interrupt controller of the management cores while the ROM runs them in the recovery state (R373): priority mode, the
threshold, and the levels of the two sources that it takes, a frame arriving on the bus and the end of a harbour operation. -/
def State.romIntCtl (s : State) : Option (IntCtl × Nat × Nat) :=
  if s.pwr.recovery then some ({ IntCtl.reset with prio := true, disable := false, thresh := 0 }, 2, 1) else none

/-- A register can be reached now by an access that does not wait: the aux domain is on, and for a core-served register
the cores serve, or the ROM in the recovery state serves the mailbox (R286, R327). -/
def State.regReady (s : State) (reg : Nat) : Bool :=
  s.pwr.auxOn && (auxServed reg || s.coresServe || (s.romServes reg && s.hb.busy.isNone))

/-- A direct access to a register by an actor: its effect, when it can be reached. -/
def access (t : Nat) (a : Actor) (reg : Nat) (v : W32) (s : State) : State :=
  if s.regReady reg then (regWrite t a reg v s).2 else s

end Sys2Proof.Machine
end

