-- ==== Sys2Proof/Machine/BusFrames.lean ====
section
/-! DEFINITION. The management bus (10_management_bus.md) and protocol v1 (16_compat_mode.md): frames, responses, Mooring,
broadcasts and Keeper session frames. -/

namespace Sys2Proof.Machine

/-! Frame fields (Tables 10-2 and 16-4). -/

def frameCode (f : Frame) : Nat := fld f.cmd 5 0
def frameFast (f : Frame) : Bool := bit f.cmd 7
def frameKey (f : Frame) : Bool := bit f.cmd 6

/-- The CRC over DEST through MAC (R278), or over DEST through DATA in v1 (R422). -/
def frameCrcOk (f : Frame) : Bool :=
  if f.sync then
    crc8 ([f.dest, f.cmd, b8 f.reg.toNat] ++ beBytes 4 f.data.toNat) == f.crc.toNat % 256
  else
    crc16 ([f.dest, f.cmd] ++ beBytes 2 f.reg.toNat ++ beBytes 4 f.data.toNat ++
      (if frameKey f then beBytes 4 f.mac.toNat else [])) == f.crc.toNat

def isUnicast (f : Frame) : Bool := decide (1 ≤ f.dest.toNat ∧ f.dest.toNat ≤ 250)
def isBroadcast (f : Frame) : Bool := f.dest == 255

/-- DEST matches this card: the address it holds, or 0 while it is unmoored. -/
def State.mine (s : State) (f : Frame) : Bool :=
  if s.bus.moor = .unmoored then f.dest == 0 else isUnicast f && f.dest.toNat == s.bus.addr

/-- Opcodes of Table 10-3, and those that protocol v1 keeps (R423). -/
def codeKnown (v1 : Bool) (c : Nat) : Bool :=
  if v1 then [1, 2, 3, 8, 9, 10, 11, 12, 18].contains c else [1, 2, 3, 8, 9, 10, 11, 12, 16, 17, 18].contains c

/-- DEST, FAST and KEY that Table 10-3 allows for an opcode. -/
def frameAllowed (f : Frame) : Bool :=
  let plain := !frameFast f && !frameKey f
  let c := frameCode f
  codeKnown f.sync c && (!f.sync || plain) &&
  (if c = 1 then isUnicast f || (f.dest == 0 && plain && decide (if f.sync then f.reg.toNat % 256 < 0x10 else f.reg.toNat < 0x100))
   else if c = 2 then isUnicast f ||
     (isBroadcast f && plain && !f.sync && (f.reg == 0x0206 || f.reg == 0x0207))
   else if c = 3 then isUnicast f
   else if c = 10 then isUnicast f && plain
   else if c = 11 ∨ c = 18 then (isUnicast f || isBroadcast f) && plain
   else isBroadcast f && plain)

/-! What the card drives. -/

/-- A response: STAT, DATA, a MAC in a session frame, and the CRC over them. -/
def respond (f : Frame) (ack : Bool) (stat : Nat) (data : W32) (m : Option W32) (s : State) : State :=
  let body := [b8 stat] ++ beBytes 4 data.toNat ++ (m.elim [] fun x => beBytes 4 x.toNat)
  let crc := if f.sync then crc8 body else crc16 body
  { s with bus := { s.bus with out := .response ack (b8 stat) data m (BitVec.ofNat 16 crc) } }

def silent (s : State) : State := { s with bus := { s.bus with out := .silent } }

/-- A card becomes unmoored (R291, R347): the token, the stored response and the session go; an operation already accepted
completes, and its outcome is discarded. -/
def becomeUnmoored (s : State) : State :=
  setToken false (closeBus { s with bus := { s.bus with moor := .unmoored, addr := 0, stored := none
                                                        held := s.bus.held.map fun h => { h with dropped := true } } })

/-- The MAC field of an answer to a frame that is not judged under a session key: a frame with KEY carries one, which holds zero
(DEDUCED from Table 10-2, notes/assumptions/87.md). -/
def blankMac (f : Frame) : Option W32 := if frameKey f && !f.sync then some 0 else none

/-- The low n bits of a number, most significant first. -/
def msbBits (n x : Nat) : List Bool := (List.range n).map fun i => Nat.testBit x (n - 1 - i)

/-- The bits of a response from STAT to CRC (Tables 10-2 and 16-4). -/
def responseBits (sync : Bool) (stat : Byte) (data : W32) (m : Option W32) (crc : W16) : List Bool :=
  msbBits 8 stat.toNat ++ msbBits 32 data.toNat ++ (m.elim [] fun x => msbBits 32 x.toNat) ++
    msbBits (if sync then 8 else 16) crc.toNat

/-- A slot of the response was lost (R274, R279): only one in which the card sends a 1 can be. It drives nothing after that slot, COLLISION
sets and it becomes unmoored, but for a card that answers DEST 0 (R290). -/
def loseResponse (f : Frame) (lost : Option Nat) (s : State) : State :=
  match lost, s.bus.out with
  | some k, .response ack st d m crc =>
    let bs := responseBits f.sync st d m crc
    if bs[k]? ≠ some true then s else
    let s := { s with bus := { s.bus with out := .cut ack (bs.take (k + 1)) } }
    if f.dest = 0 then s else raiseFault 1 7 (becomeUnmoored s)
  | _, _ => s

/-- The bits that the card drives in a field, most significant first, when it meets others (R274): it stops after the
slot it loses. -/
def drive (n mine : Nat) (others : List Nat) : List Bool :=
  let slots := (List.range n).map fun i => n - 1 - i
  let keeps := slots.takeWhile fun i => !(Nat.testBit mine i && others.any fun o =>
    !Nat.testBit o i && o / 2 ^ (i + 1) == mine / 2 ^ (i + 1))
  (slots.take (keeps.length + 1)).map fun i => Nat.testBit mine i

/-- The card wins a field: no other sends a lower word. -/
def wins (mine : Nat) (others : List Nat) : Bool := others.all fun o => decide (mine ≤ o)

/-- A frame reaches the card (R275, R276, R279, R282, R421): its CRC and its command are judged, and `k` says what an
allowed command does. A frame of MOOR, MOOR_CHECK or ALERT_WHO has no response fields (R277), also when its CRC fails. -/
def busFrame (f : Frame) (lost : Option Nat) (s : State) (k : State → State) : State :=
  let s := silent s
  if !s.pwr.auxOn || !s.bus.idleSeen || s.bus.ignoring then s
  else if f.sync != s.compat then { s with bus := { s.bus with ignoring := true } }
  else if !frameCrcOk f then
    if s.mine f then
      let s := raiseFault 1 6 { s with bus := { s.bus with crcErr := satInc s.bus.crcErr } }
      if [8, 10, 12].contains (frameCode f) then s else loseResponse f lost (respond f false statCrc 0 (blankMac f) s)
    else if frameFast f && !f.sync then { s with bus := { s.bus with ignoring := true } } else s
  else if frameFast f && !f.sync && !s.mine f then { s with bus := { s.bus with ignoring := true } }
  else if !frameAllowed f then 
    (if s.mine f && isUnicast f then loseResponse f lost (respond f true statBadReg 0 (blankMac f) s) else s)
  else k s

/-- A frame row whose opcode is another defined one is not that row's frame. -/
def ofCode (c : Nat) (f : Frame) (lost : Option Nat) (s : State) (k : State → State) : State :=
  if frameCode f = c then busFrame f lost s k
  else if codeKnown f.sync (frameCode f) then s
  else busFrame f lost s id

/-! Registers of protocol v1 (Table 16-5). -/

def mapV1 (r : Nat) : Option Nat :=
  if r ≤ 0x0C then some r
  else if 0x10 ≤ r ∧ r ≤ 0x16 then some (0x0100 + (r - 0x10))
  else if 0x20 ≤ r ∧ r ≤ 0x2F then some (0x0300 + (r - 0x20))
  else if 0x30 ≤ r ∧ r ≤ 0x3A then some (0x0310 + (r - 0x30))
  else if 0x3B ≤ r ∧ r ≤ 0x3E then some (0x0320 + (r - 0x3B))
  else if 0x40 ≤ r ∧ r ≤ 0x45 then some (0x0400 + (r - 0x40))
  else if 0x48 ≤ r ∧ r ≤ 0x4D then some (0x0420 + (r - 0x48))
  else if 0x50 ≤ r ∧ r ≤ 0x52 then some (0x0620 + (r - 0x50))
  else if 0x60 ≤ r ∧ r ≤ 0x69 then some (0x0800 + (r - 0x60))
  else if 0x70 ≤ r ∧ r ≤ 0x7F then some (0x0840 + (r - 0x70))
  else if 0x80 ≤ r ∧ r ≤ 0x82 then some (0x0700 + (r - 0x80))
  else if 0xC0 ≤ r ∧ r ≤ 0xFF then some (0x0740 + (r - 0xC0))
  else none

/-- The v2 address of the frame's register. -/
def frameReg (f : Frame) : Option Nat := if f.sync then mapV1 (f.reg.toNat % 256) else some f.reg.toNat

/-! Serving registers (R283 to R286). -/

/-- What a read of a register returns after a write of it (Table 10-4): of BCN_STAMP_LO, which nothing writes, the current stamp, which
the write does not latch. -/
def readBack (t reg : Nat) (s : State) : W32 × State :=
  if reg = 0x209 then
    let (x, s) := stampNow t s
    (part32 x 0, s)
  else ((s.peek reg).getD 0, s)

/-- A register operation by the aux domain or the cores: STAT, DATA and state. -/
def serveReg (t : Nat) (a : Actor) (reg : Nat) (v : Option W32) (s : State) : Nat × W32 × State :=
  match v with
  | none => regRead t a reg s
  | some v =>
    let (st, s) := regWrite t a reg v s
    if st = statOk ∨ st = statWorn then
      let (d, s) := readBack t reg s
      (st, d, s)
    else (st, 0, s)

/-- The outcome of the held operation is stored (R281, R284), or discarded when the card has become unmoored since (R291). -/
def storeOutcome (stat : Nat) (data : W32) (session : Option Nat) (s : State) : State :=
  { s with bus := { s.bus with held := none
                               stored := if s.bus.held.any (·.dropped) then s.bus.stored
                                         else some ⟨b8 stat, data, session⟩ } }

/-- The cores, or in the recovery state the ROM, take up an operation that was accepted while they were held. -/
def serveHeld (s : State) : State :=
  match s.bus.held with
  | some h =>
    if h.begun || !(s.coresServe || (s.romServes h.reg.toNat && s.hb.busy.isNone)) then s else
    let a : Actor := if h.session.isSome then .keeper else .bus
    let (st, d, s) := serveReg s.now a h.reg.toNat h.val s
    if st = statBusy then { s with bus := { s.bus with held := some { h with begun := true } } }
    else storeOutcome st d h.session s
  | none => s

/-- The final response of an accepted operation: sent, and stored when the frame is unicast (R281). -/
def answer (f : Frame) (lost : Option Nat) (stat : Nat) (data : W32) (session : Option Nat) (m : Nat → W32 → Option W32)
    (s : State) : State :=
  let s := if isUnicast f then { s with bus := { s.bus with stored := some ⟨b8 stat, data, session⟩ } } else s
  loseResponse f lost (respond f true stat data (m stat data) s)

/-- A READ or WRITE of a register that the cores serve, or of any register in a session frame (R284 to R286, R295). In thermal shutdown,
before the card has cooled, it is answered OK and has no effect (R395). -/
def coreOp (f : Frame) (lost : Option Nat) (reg : Nat) (v : Option W32) (session : Option Nat)
    (m : Nat → W32 → Option W32) (s : State) : State :=
  let a : Actor := if session.isSome then .keeper else .bus
  let op : HeldOp := ⟨BitVec.ofNat 16 reg, v, session, false, false⟩
  let rom := s.romServes reg
  let ready := s.coresUp || rom
  let reply := fun (st : Nat) (s : State) => loseResponse f lost (respond f true st 0 (m st 0) s)
  if s.therm.held && !s.cooled then reply statOk s
  else if s.pwr.watch = .asleep then reply statNotReady (wake 0 s)
  else if !ready || s.bus.held.isSome then reply statNotReady s
  else if !rom && !s.coresServe || s.hb.busy.isSome then
    reply statBusy { s with bus := { s.bus with held := some op, stored := none } }
  else
    let (st, d, s) := serveReg s.now a reg v s
    if st = statBusy then reply statBusy { s with bus := { s.bus with held := some { op with begun := true }, stored := none } }
    else answer f lost st d session m s

/-- Session frames are served where the cores run at all (R285, R286, R295). -/
def State.sessionServed (s : State) : Bool := s.coresUp && s.pwr.watch != .asleep

/-- A session frame where the cores do not run: NOT_READY, with no key for a MAC; in Watch it starts a wake (R285), and in thermal
shutdown it is answered OK before the card has cooled (R395). -/
def sessionNotReady (f : Frame) (lost : Option Nat) (s : State) : State :=
  let st := if s.therm.held && !s.cooled then statOk else statNotReady
  let s := if s.pwr.watch = .asleep then wake 0 s else s
  loseResponse f lost (respond f true st 0 (some 0) s)

/-- A READ or WRITE, unicast or to the unmoored cards. -/
def registerFrame (f : Frame) (lost : Option Nat) (v : Option W32) (s : State) : State :=
  if !s.mine f then s else
  match frameReg f with
  | none => answer f lost statBadReg 0 none (fun _ _ => none) s
  | some reg =>
    if frameKey f then
      if !s.sessionServed then sessionNotReady f lost s
      else
        match acceptMac f s with
        | (none, s) =>
          let s := raiseFault 1 5 { s with bus := { s.bus with macErr := satInc s.bus.macErr } }
          loseResponse f lost (respond f true statNotKeeper 0 (some 0) s)
        | (some ctr, s) =>
          let ks := s.keeper.bus.session.elim [] fun x => x.1
          let m := fun (st : Nat) (d : W32) => some (mac ks (macResponse ctr f (b8 st) d))
          coreOp f lost reg v s.busSession m s
    else if auxServed reg then
      let (st, d, s) := serveReg s.now .bus reg v s
      answer f lost st d none (fun _ _ => none) s
    else coreOp f lost reg v none (fun _ _ => none) s

/-- A broadcast WRITE: every card applies it, but for a group of the Secure world (R298, R299). -/
def broadcastWrite (f : Frame) (s : State) : State :=
  if s.groupWorld 2 then raiseFault 1 3 s else (regWrite s.now .bus f.reg.toNat f.data s).2

/-- BUS_READ (R283). -/
def execBusRead (f : Frame) (lost : Option Nat) (s : State) : Host.Outcome State Fault Refusal :=
  done (ofCode 1 f lost s fun s => registerFrame f lost none s)

/-- BUS_WRITE (R283, R298). -/
def execBusWrite (f : Frame) (lost : Option Nat) (s : State) : Host.Outcome State Fault Refusal :=
  done (ofCode 2 f lost s fun s => if isBroadcast f then broadcastWrite f s else registerFrame f lost (some f.data) s)

/-- The answer of POLL (R281): with nothing stored the card answers NOT_READY (DESIGN CHOICE, notes/assumptions/16.md). -/
def pollAnswer (session : Option Nat) (s : State) : Nat × W32 :=
  if s.bus.held.any (!·.dropped) then (statBusy, 0) else
  match s.bus.stored with
  | none => (statNotReady, 0)
  | some r => if r.session.isSome ∧ r.session ≠ session then (statNotKeeper, 0) else (r.stat.toNat, r.data)

/-- POLL (R281, R295). -/
def execPoll (f : Frame) (lost : Option Nat) (s : State) : Host.Outcome State Fault Refusal :=
  done (ofCode 3 f lost s fun s =>
    if !s.mine f then s
    else if frameKey f then
      if !s.sessionServed then sessionNotReady f lost s else
      match acceptMac f s with
      | (none, s) =>
        let s := raiseFault 1 5 { s with bus := { s.bus with macErr := satInc s.bus.macErr } }
        loseResponse f lost (respond f true statNotKeeper 0 (some 0) s)
      | (some ctr, s) =>
        let ks := s.keeper.bus.session.elim [] fun x => x.1
        let (st, d) := pollAnswer s.busSession s
        loseResponse f lost (respond f true st d (some (mac ks (macResponse ctr f (b8 st) d))) s)
    else
      let (st, d) := pollAnswer none s
      loseResponse f lost (respond f true st d none s))

/-! Mooring (R287 to R291). -/

/-- MOOR (R287): the unmoored card with the lowest UID takes the address. -/
def execMoor (f : Frame) (others : List W64) (s : State) : Host.Outcome State Fault Refusal :=
  done (ofCode 8 f none s fun s =>
    let a := f.reg.toNat % 256
    if s.bus.moor ≠ .unmoored ∨ a < 1 ∨ 250 < a then s else
    let os := others.map fun x => x.toNat
    if wins s.uid os then
      { s with bus := { s.bus with moor := .moored, addr := a, out := .slots (drive 64 s.uid os ++ [false]) } }
    else { s with bus := { s.bus with out := .slots (drive 64 s.uid os) } })

/-- MOOR_RESUME (R288); before the first start-up step 3 has copied PREF_ADDR the card acts as unmoored only (R313). -/
def execMoorResume (f : Frame) (s : State) : Host.Outcome State Fault Refusal :=
  done (ofCode 9 f none s fun s =>
    let a := fld s.hb.auxPref 7 0
    if s.pwr.copied ∧ s.bus.moor = .unmoored ∧ 1 ≤ a ∧ a ≤ 250 then
      { s with bus := { s.bus with moor := .provisional, addr := a } } else s)

/-- MOOR_CHECK (R289): the UID, then the UID inverted; losing either phase unmoors. -/
def execMoorCheck (f : Frame) (others : List W64) (s : State) : Host.Outcome State Fault Refusal :=
  done (ofCode 10 f none s fun s =>
    if s.bus.moor = .unmoored || !s.mine f then s else
    let os := others.map fun x => x.toNat
    let inv : Nat → Nat := fun x => 2 ^ 64 - 1 - x
    let out := BusOut.slots (drive 64 s.uid os ++ drive 64 (inv s.uid) (os.map inv))
    let s := if wins s.uid os && wins (inv s.uid) (os.map inv) then
        { s with bus := { s.bus with moor := .moored } } else becomeUnmoored s
    { s with bus := { s.bus with out := out } })

/-- UNMOOR (R291): a unicast one takes effect after its response. -/
def execUnmoor (f : Frame) (lost : Option Nat) (s : State) : Host.Outcome State Fault Refusal :=
  done (ofCode 11 f lost s fun s =>
    if isBroadcast f then becomeUnmoored s
    else if s.mine f then becomeUnmoored (loseResponse f lost (respond f true statOk 0 none s))
    else s)

/-- ALERT_WHO (R293): a card that drives ALERT# sends its address. -/
def execAlertWho (f : Frame) (others : List Byte) (s : State) : Host.Outcome State Fault Refusal :=
  done (ofCode 12 f none s fun s =>
    if !s.alertLow then s
    else { s with bus := { s.bus with out := .slots (drive 8 s.bus.addr (others.map fun x => x.toNat)) } })

/-! Broadcasts and WAKE. -/

/-- BEACON_ZERO (R58, R298, R299). -/
def execBeaconZero (f : Frame) (s : State) : Host.Outcome State Fault Refusal :=
  done (ofCode 16 f none s fun s =>
    if s.groupWorld 2 then raiseFault 1 3 s else bcnZeroArm (fld f.data 23 0) s)

/-- TOKEN (R300): for moored cards in BASE to BASE + 31. -/
def execToken (f : Frame) (s : State) : Host.Outcome State Fault Refusal :=
  done (ofCode 17 f none s fun s =>
    let base := fld f.reg 15 8
    if s.bus.moor ≠ .moored ∨ base < 1 ∨ 250 < base ∨ s.bus.addr < base ∨ base + 31 < s.bus.addr then s
    else setToken (bit f.data (s.bus.addr - base)) s)

/-- TOKEN_LAPSE (R300): a TOKEN_LEASE of 0 means no lapse. -/
def execTokenLapse (s : State) : Host.Outcome State Fault Refusal :=
  done (if fld s.bus.lease 15 0 = 0 then s else setToken false s)

/-- WAKE (R285, R395). -/
def execWake (f : Frame) (lost : Option Nat) (s : State) : Host.Outcome State Fault Refusal :=
  done (ofCode 18 f lost s fun s =>
    if isBroadcast f then thermalRestart (wake 0 s)
    else if s.mine f then
      loseResponse f lost (respond f true statOk 0 none (thermalRestart (wake 0 s)))
    else s)

/-- BUS_IDLE_DETECT (R276): the frame ends, a truncated one sets FRAME, and a new or ignoring card listens again. -/
def execBusIdleDetect (truncated : Bool) (s : State) : Host.Outcome State Fault Refusal :=
  if !s.pwr.auxOn then done s else
  let s := if truncated && s.bus.idleSeen && !s.bus.ignoring then raiseFault 1 4 s else s
  done { s with bus := { s.bus with idleSeen := true, ignoring := false, out := .silent } }

/-! Sessions. -/

/-- SESSION_TIMEOUT (R347). -/
def execSessionTimeout (nvme : Bool) (s : State) : Host.Outcome State Fault Refusal :=
  done (if nvme then closeNvme s else closeBus s)

/-- HELLO_REFUSAL_EXPIRY (R346). -/
def execHelloRefusalExpiry (nvme : Bool) (s : State) : Host.Outcome State Fault Refusal :=
  done (if nvme then { s with keeper := { s.keeper with nvme := { s.keeper.nvme with refusing := false } } }
    else { s with keeper := { s.keeper with bus := { s.keeper.bus with refusing := false } } })

end Sys2Proof.Machine
end

