-- ==== Sys2Proof/Machine/HarbourOps.lean ====
section
/-! DEFINITION. Commands on the Keeper window, the mailbox, the persistent store and the rule set, and the end of a ROM
operation (R314, R319 to R330, R344, R349, R351, R353, R354). -/

namespace Sys2Proof.Machine

/-! The KX window (R351). -/

/-- KX_HELLO. -/
def execKxHello (a : Actor) (s : State) : Host.Outcome State Fault Refusal := done (access s.now a 0x07FF 1 s)

/-- KX_SIGNATURE. -/
def execKxSignature (a : Actor) (s : State) : Host.Outcome State Fault Refusal := done (access s.now a 0x07FF 2 s)

/-- KX_PROVE. -/
def execKxProve (a : Actor) (s : State) : Host.Outcome State Fault Refusal := done (access s.now a 0x07FF 3 s)

/-- KX_CLOSE. -/
def execKxClose (a : Actor) (s : State) : Host.Outcome State Fault Refusal := done (access s.now a 0x07FF 4 s)

/-! Persistent registers and the mailbox. -/

/-- PERSISTENT_WRITE (R314). -/
def execPersistentWrite (a : Actor) (n : Fin 256) (v : W32) (s : State) : Host.Outcome State Fault Refusal :=
  done (access s.now a (0x0800 + n.val) v s)

/-- A write of HB_CMD whose OP is the row's. -/
def hbCmdRow (op : Nat) (a : Actor) (v : W32) (s : State) : State :=
  if fld v 31 28 = op then access s.now a 0x0700 v s else s

/-- HB_READ (R323). -/
def execHbRead (a : Actor) (v : W32) (s : State) : Host.Outcome State Fault Refusal := done (hbCmdRow 1 a v s)

/-- HB_PROGRAM (R319). -/
def execHbProgram (a : Actor) (v : W32) (s : State) : Host.Outcome State Fault Refusal := done (hbCmdRow 2 a v s)

/-- HB_ERASE (R320). -/
def execHbErase (a : Actor) (v : W32) (s : State) : Host.Outcome State Fault Refusal := done (hbCmdRow 3 a v s)

/-- HB_BLANK_CHECK (R323). -/
def execHbBlankCheck (a : Actor) (v : W32) (s : State) : Host.Outcome State Fault Refusal := done (hbCmdRow 4 a v s)

/-- HB_OTP_READ (R328). -/
def execHbOtpRead (a : Actor) (v : W32) (s : State) : Host.Outcome State Fault Refusal := done (hbCmdRow 5 a v s)

/-- HB_OTP_PROGRAM (R329). -/
def execHbOtpProgram (a : Actor) (v : W32) (s : State) : Host.Outcome State Fault Refusal := done (hbCmdRow 6 a v s)

/-- HB_REBOOT (R327). -/
def execHbReboot (a : Actor) (v : W32) (s : State) : Host.Outcome State Fault Refusal := done (hbCmdRow 7 a v s)

/-- RULE_EPOCH_WRITE (R344). -/
def execRuleEpochWrite (a : Actor) (v : W32) (s : State) : Host.Outcome State Fault Refusal :=
  done (serveHeld (access s.now a 0x0510 v s))

/-- RULE_SAVE (R349). -/
def execRuleSave (a : Actor) (v : W32) (s : State) : Host.Outcome State Fault Refusal := done (access s.now a 0x0512 v s)

/-! Firmware images (R353, R354). -/

/-- The image that the download parts spell. -/
def Harbour.downloaded (h : Harbour) : List Byte :=
  let top := h.download.foldl (fun m p => max m (p.1 + p.2.length)) 0
  h.download.foldl (fun bs p => patch bs p.1 p.2) (List.replicate top 0)

/-- The header of a firmware image that is valid (R353). -/
def fwValid (rollback : Nat) (img : List Byte) : Option FwHeader :=
  let total := u32At img 8
  let release := u16At img 6
  let rb := u64At img 0x10
  if u32At img 0 = 0x46574231 ∧ u16At img 4 = 1 ∧ 100 ≤ release ∧ release ≤ 999 ∧ total % 256 = 0 ∧ 1024 ≤ total ∧
      total ≤ 8388608 ∧ total ≤ img.length ∧ rollback ≤ rb then
    let modulus := slice img (total - 768) 384
    if sha256 modulus = Config.romKeyHash ∧
        rsaVerify modulus (img.take (total - 768)) (slice img (total - 384) 384) then
      some ⟨BitVec.ofNat 16 release, w64 rb, sha256 (img.take total)⟩
    else none
  else none

/-- Action of Firmware Commit (Dword 10). -/
def fwAction (c : Cmd) : Nat := fld (c.dword 10) 5 3

/-- What a bank holds is known to the card as x. -/
def Harbour.setBank (h : Harbour) (b : Bool) (x : Bank) : Harbour := if b then { h with bankB := x } else { h with bankA := x }

/-- A sector of a bank is worn. -/
def Harbour.bankWorn (h : Harbour) (b : Bool) : Bool := (List.range 128).any fun k => h.isWorn (bankBase b + k)

/-- A Firmware Commit that writes a bank begins: nothing in the bank verifies any more, and the erase of its first sector begins
(R354). -/
def startFwCommit (h : Nat) (b : Bool) (s : State) : State :=
  startJob (.fwCommit h 0) .mgmt { s with hb := (s.hb.setBank b .bad).beginErase (bankBase b) }

/-- The image has been programmed and verified: the bank holds it, and with action 001 it is tried first (R354). -/
def endFwImage (h : Nat) (c : Cmd) (e : RomEnd) (s : State) : State :=
  let b := fwSlot c == 2
  let img := s.hb.downloaded
  match fwValid s.rollback img with
  | none => fail h 1 0x07 s
  | some hd =>
    let (st, _, s) := endProgram (bankBase b * 0x10000) (img.take (u32At img 8)) e s
    if st ≠ statOk then fail h 0 0x06 { s with hb := s.hb.setBank b .bad }
    else
      let hb := s.hb.setBank b (.image hd)
      succeed h { s with hb := if fwAction c = 1 then { hb with firstB := b } else hb }

/-- One erase of a Firmware Commit, or its program, has ended: the next sector's erase begins, or the image is programmed. A sector that
fails ends the command with Internal Error (R321, R354; notes/assumptions/93.md). -/
def endFwCommit (h k : Nat) (e : RomEnd) (s : State) : State :=
  match s.cmd h with
  | none => s
  | some c =>
    let b := fwSlot c == 2
    if 128 ≤ k then endFwImage h c e s else
    let (st, s) := endEraseOf (bankBase b + k) e s
    if st ≠ statOk then fail h 0 0x06 s
    else
      startJob (.fwCommit h (k + 1)) .mgmt
        (if k + 1 < 128 then { s with hb := s.hb.beginErase (bankBase b + k + 1) } else s)

/-- The end of a Harbour Mailbox operation of the host: DW0 the STAT code, DW1 the bytes programmed or erased (R326). -/
def endHostMailbox (h : Nat) (e : RomEnd) (s : State) : State :=
  match s.cmd h with
  | none => s
  | some c =>
    let off := fld (c.dword 11) 24 0
    let len := (c.dword 12).toNat
    if fld (c.dword 10) 31 28 = 3 then
      let (st, s) := endEraseOf (off / 0x10000) e s
      complete h 0 0 (w32 st) (w32 (if st = statOk then len else 0)) [] s
    else
      let (st, n, s) := endProgram off (slice c.sub.buf 0 len) e s
      complete h 0 0 (w32 st) (w32 n) [] s

/-- A result is one that the operation in progress can have: an erase fails as an erase, a program as a program; a rotation, and a save
of the rule set, have both. -/
def State.jobCan (s : State) (j : RomJob) (e : RomEnd) : Bool :=
  let erases := match j with
    | .persist n _ => decide (4096 ≤ (s.hb.pairOf n).used)
    | .mailbox v => fld v 31 28 == 3
    | .hostMailbox h => (s.cmd h).any fun c => fld (c.dword 10) 31 28 == 3
    | .fwCommit _ k => decide (k < 128)
    | .saveRules | .commitRules _ => true
    | .reboot => false
  let programs := match j with
    | .persist _ _ | .saveRules | .commitRules _ => true
    | .reboot => false
    | _ => !erases
  match e with
  | .ok => true
  | .programFails _ => programs
  | .eraseFails => erases

/-- What a ROM operation leaves when it ends: STAT and state. -/
def endJob (j : RomJob) (e : RomEnd) (s : State) : Nat × State :=
  match j with
  | .persist n v => endPersist n v e s
  | .mailbox v => endMailbox v e s
  | .saveRules => endRules e s
  | .reboot => hbRebootOp s
  | .fwCommit h k => (statOk, endFwCommit h k e s)
  | .hostMailbox h => (statOk, endHostMailbox h e s)
  | .commitRules h =>
    let (st, s) := endRules e s
    (statOk, if st = statOk then succeed h s else fail h 0 0x06 s)

/-- A held bus operation that the ROM ran has its outcome. -/
def endHeld (st : Nat) (s : State) : State :=
  match s.bus.held with
  | some h =>
    if h.begun then
      storeOutcome st (if st = statOk ∨ st = statWorn then (s.peek h.reg.toNat).getD 0 else 0) h.session s
    else s
  | none => s

/-- A Keeper Session REGISTER that waits for the ROM has its outcome: DW0 the value a read then returns, DW1 the STAT (R348). -/
def endRegister (st : Nat) (s : State) : State :=
  match s.nv.inflight.find? fun c => c.phase == .rom && c.opc == 0xC9 && fld (c.dword 10) 3 0 == 4 with
  | some c => complete c.h 0 0 ((s.peek (fld (c.dword 12) 15 0)).getD 0) (w32 st) [] s
  | none => s

/-- HARBOUR_OP_COMPLETE (R319): the cores resume, the stored response is set, and a sector worn shows (R411). -/
def execHarbourOpComplete (result : RomEnd) (s : State) : Host.Outcome State Fault Refusal :=
  match s.hb.busy with
  | none => done s
  | some (j, _) =>
    if !s.jobCan j result then done s else
    let (st, s) := endJob j result { s with hb := { s.hb with busy := none } }
    done (serveHeld (endRegister st (endHeld st (evalWarn s))))

end Sys2Proof.Machine
end

