-- ==== Sys2Proof/Machine/Media.lean ====
section
/-! DEFINITION. The flash media at work (05_media_management.md): writes and trims, one-bit programs, closing, erases, copies,
reads through errors, failing blocks and dies, patrol, the map and its journal. -/

namespace Sys2Proof.Machine

/-! Writes and trims. -/

/-- A host or ingest write is accepted: the second without writes starts again (R122, R131). -/
def wrote (s : State) : State := { s with med := { s.med with idle := false } }

/-- The clean-shutdown record is invalidated; a write after shutdown processing leaves it true (R110, R172). -/
def unclean (s : State) : State := if s.nv.wtHold then s else { s with med := { s.med with clean := false } }

/-- The next write sequence (R166). -/
def nextWseq (s : State) : Nat × State := (s.med.wseq, { s with med := { s.med with wseq := s.med.wseq + 1 } })

/-- One slot of Held data goes into DRAM: newer data replaces the old there, of which only the new is programmed (R119), and its
mark goes (R142). -/
def Media.hold (m : Media) (now_ k : Nat) (data pi : List Byte) : Media :=
  let since := (look m.held k).elim m.wseq fun h => h.since
  { m.unqueue k with held := put m.held k ⟨data, pi, 0, m.wseq, since, now_⟩, unrec := m.unrec.filter (fun u => u != k)
                     wseq := m.wseq + 1 }.remap k

/-- The Held data of one write is accepted into DRAM, each slot with its write sequence (R166), and its map change joins the
journal as one record (R168). -/
def acceptHeld (xs : List (Nat × List Byte × List Byte)) (s : State) : State :=
  let m := xs.foldl (fun m x => m.hold s.now x.1 x.2.1 x.2.2) s.med
  { s with med := m.addRec (xs.map fun x => x.1) s.now }

/-- After shutdown processing a map change is programmed before its command completes, so that the clean-shutdown record stays true
(R172). -/
def programMap (s : State) : State :=
  if !s.nv.wtHold then s else
  { s with med := (s.med.programJournal.cleanPages fun p => !s.scanKey p).checkpoint s.scanKey s.now }

/-- A trim of slots of a namespace (R142, R166): they read zero, and their marks clear. -/
def trim (nsid : Nat) (ks : Nat → Bool) (s : State) : State :=
  let (_, s) := nextWseq s
  programMap { s with med := s.med.trim ks ((look s.ns nsid).any fun n => !n.scan) s.now }

/-- Scan slots that are programmed count towards the next checkpoint (R169). -/
def State.countScan (s : State) (ks : List Nat) : State :=
  { s with med := { s.med with scanBytes := s.med.scanBytes + 4096 * (ks.filter s.scanKey).length } }

/-- Slots that the card orders itself, of ingest Lots and rewrites of the rebuild: they wait for a die like a Scan write (R120), show
meanwhile, and join the journal where they are Held data (R168). -/
def programNow (xs : List (Nat × Slot4k)) (s : State) : State :=
  let held := (xs.map fun x => x.1).filter fun k => !s.scanKey k
  let m := if held.isEmpty then s.med else s.med.addRec held s.now
  submit [] { s with med := m.stage xs }

/-- The status of a Write that its programs end: HELD_DEGRADED when it was write-through, success otherwise (R69). -/
def writeStatus (c : Cmd) : Nat × Nat :=
  if c.wt then (7, 0x84) else (0, 0)

/-- Write sequences of slots that have not landed. -/
def Media.waiting (m : Media) : List Nat :=
  (m.chunks.flatMap fun c => c.slots.map fun x => x.2.wseq) ++ m.partials.flatMap fun x => x.2.map fun y => y.2.wseq

/-- The records of a command in Lots that have not retired. -/
def State.unretired (s : State) (h : Nat) : List LotRec :=
  ((s.ns.flatMap fun n => n.2.st.opened) ++ ((s.lots.filter fun l => l.query.isNone).flatMap fun l => l.recs)).filter
    fun r => r.cmd == h && r.nsid != 0

/-- Host bytes written (Table 15-7), with HOST_WRITTEN in units the register map gives. -/
def countHost (n : Nat) (s : State) : State := { s with health := { s.health with hostBytes := s.health.hostBytes + n } }

/-- A Record Append whose records have all landed and retired, and are durable in their class, completes (R76). -/
def finishAppend (h : Nat) (s : State) : State :=
  match s.cmd h with
  | none => s
  | some c =>
    if c.phase != .lots || !(s.unretired h).isEmpty || !c.slots.isEmpty then s else
    let s := countHost (c.dword 10).toNat s
    complete h (if c.wt then 7 else 0) (if c.wt then 0x84 else 0) (w32 c.first) (w32 (c.first / 2 ^ 32)) [] s

/-- Writes whose slots are all in NAND complete; during a budget flush no Held write does (R67, R68, R69). Record Appends that waited
for their slots complete too (R76). -/
def settleWrites (s : State) : State :=
  let w := s.med.waiting
  (s.nv.inflight.filter fun c => (match c.phase with | .programs _ => true | _ => false) || !c.slots.isEmpty).foldl (fun s c =>
    match c.phase with
    | .lots => finishAppend c.h (s.modCmd c.h fun x => { x with slots := x.slots.filter w.contains })
    | .programs ids =>
      let rest := ids.filter w.contains
      if rest.isEmpty && !(s.hu.flushing && (look s.ns c.nsid).any fun n => !n.scan) then
        complete c.h (writeStatus c).1 (writeStatus c).2 0 0 [] s
      else s.modCmd c.h fun x => { x with phase := .programs rest }
    | _ => s) s

/-- Held data is within the budget again: the flush that R159 asks for has ended, and a measurement that waited for it runs (R401). -/
def endBudgetFlush (s : State) : State :=
  if s.med.held.length ≤ s.budgetSlots then startLowered { s with hu := { s.hu with flushing := false } } else s

/-! Failures (R143 to R149). -/

/-- Read-only end of life (R80, R149). -/
def enterEol (s : State) : State :=
  if s.med.eol then s else
  lifeRecalc (mediaEvent 10 0 { s with med := { s.med with eol := true } })

/-- A block leaves service, and a spare of its plane joins the general pool in its place (R118, R144, R149). -/
def retire (p : Place) (s : State) : State :=
  if (s.med.blk p).retired then s else
  let left := (s.med.spares[planeIndex p]?).getD 0
  let s := mediaEvent 4 (blockDetail p) { s with med := s.med.modBlk p fun b => { b with retired := true } }
  if left = 0 then enterEol s
  else lifeRecalc { s with med := { s.med with spares := vput s.med.spares (planeIndex p) (left - 1) } }

/-- A block failed a program: suspect, or retired when it was suspect before; its valid data is rewritten (R143). -/
def failBlock (p : Place) (s : State) : State :=
  let was := (s.med.blk p).suspect
  let s := { s with med := (s.med.modBlk p fun b => { b with suspect := true }).queueRefresh p 1 }
  if was then retire p s else s

/-- A program fails (R143): its superblock programs that die no more. -/
def programFail (p : Place) (s : State) : State :=
  let s := match s.med.superOf p with
    | some x => { s with med := s.med.leaveDie x.1 p.die }
    | none => s
  failBlock p (mediaEvent 1 (blockDetail p) (raiseFault (chanFrame p.die.val) 3 s))

/-- An LBA of a slot in NAND is marked unrecovered (R140). -/
def markUnrecovered (p : Place) (k : Nat) (s : State) : State := markUnrec (some p) k s

/-- The blocks that a rebuild of a slot reads: those of its plane on the other data dies, and the parity while it is on the parity
die (R139; which of the parity blocks of a plane is a DESIGN CHOICE, notes/assumptions/81.md). -/
def Media.stripeOf (m : Media) (p : Place) : List Place :=
  match m.superOf p with
  | none => []
  | some x => (x.2.members.filter fun q => q.plane == p.plane && q.die != p.die) ++
      (if x.2.rows = 0 then [] else (x.2.parity.filter fun q => q.plane == p.plane).take 1)

/-- Page reads of a block count (R136). -/
def Media.countReads (m : Media) (p : Place) (n : Nat) : Media := m.modBlk p fun b => { b with reads := b.reads + n }

/-- The other pages of a stripe are read. -/
def readStripe (p : Place) (s : State) : State :=
  { s with med := (s.med.stripeOf p).foldl (fun m q => m.countReads q 1) s.med }

/-- A slot is rebuilt from die parity (R139, R150). -/
def parityRebuild (p : Place) (s : State) : State :=
  mediaEvent 5 (blockDetail p) (raiseFault (chanFrame p.die.val) 6 (readStripe p s))

/-! Slow dies (R147, R148). -/

/-- Die detours after a program (R147, R148). -/
def checkDetours (s : State) : State :=
  let a := s.med.allMedian4 true
  let b := s.med.allMedian4 false
  evalWarn <| (List.range 64).foldl (fun s d =>
    let x := s.med.die d
    if x.detoured && x.fast a b then
      raisePulse 264 0 0 <| mediaEvent 8 0 { s with med := { s.med with dies := vput s.med.dies d { x with detoured := false } } }
    else if !x.detoured && x.slow a b && decide (s.med.detours < 4) then
      raisePulse 264 0 0 <| mediaEvent 7 0 { s with med := { s.med with dies := vput s.med.dies d { x with detoured := true } } }
    else s) s

/-- An operation of a die ended: its run of timeouts ends (R146). -/
def Media.answered (m : Media) (die : Nat) : Media := { m with dies := vmod m.dies die fun d => { d with timeouts := 0 } }

/-- A program of a die ended in a time: the last 64 are kept (R147). -/
def noteTime (die : Nat) (tlc : Bool) (us : Nat) (s : State) : State :=
  checkDetours { s with med := { s.med.answered die with dies := vmod (s.med.answered die).dies die fun d =>
    if tlc then { d with tTlc := (us :: d.tTlc).take 64 } else { d with tOne := (us :: d.tOne).take 64 } } }

/-! Held data to NAND (R119). -/

/-- The trigger of R119 holds: 1,984 KiB are waiting, or the oldest is 100 ms old. -/
def Media.heldDue (m : Media) (now_ : Nat) : Bool :=
  let ks := m.unprogrammed
  decide (496 ≤ ks.length) || ks.any fun k => (look m.held k).any fun h => decide (h.ns + 100000000 ≤ now_)

/-! Rows. -/

/-- HELD_PROGRAM_TRIGGER (R119). While the write window is closed no program starts (R391). -/
def execHeldProgramTrigger (s : State) : Host.Outcome State Fault Refusal :=
  done (if s.operating && !s.windowClosed && s.med.heldDue s.now then programHeld s.med.unprogrammed s else s)

/-- ONE_BIT_PROGRAM_COMPLETE (R67, R120, R143, R147, R392), of a program of a page row of a die that a Porter has carried (R22):
`fails` are the planes whose page failed. What passed is in NAND, the rest is rewritten elsewhere, the next program starts, and
blocks programmed while the write window is closed are queued for refresh. -/
def execOneBitProgramComplete (id : Nat) (die : Fin 64) (row timeUs : Nat) (fails : List (Fin 4)) (s : State) :
    Host.Outcome State Fault Refusal :=
  done (match s.med.progs.find? fun p => p.id == id && p.die == die && p.row == row with
  | none => s
  | some p =>
    if !s.running || !s.moving (.cores id) then s else
    let ps := (look s.med.supers p.sb).elim [] fun u => u.members.filter fun x => x.die == p.die
    let ks := (p.pages.zipIdx.filter fun x => !(fails.any fun q => q.val == x.2)).flatMap fun x =>
      x.1.flatMap fun c => c.slots.map fun y => y.1
    let s := noteTime p.die.val false timeUs s
    let s := (setMedia p.pages.length (s.med.endProg p fails s.now) s).countScan ks
    let s := (ps.filter fun x => fails.contains x.plane).foldl (fun s x => programFail x s) s
    let s := if s.windowClosed then { s with med := ps.foldl (fun m x => m.queueRefresh x 1) s.med } else s
    let s := setMedia 0 (s.med.closeFull p.sb) (programMap s)
    settleWrites (endBudgetFlush (submit [] s)))

/-- VERIFY_READ_COMPLETE (R124, R146): the parity goes when every die passes; a failing die's block is relocated and keeps
it till then. -/
def execVerifyReadComplete (sb : Nat) (fails : List Place) (s : State) : Host.Outcome State Fault Refusal :=
  done (match look s.med.supers sb with
  | none => s
  | some u =>
    if !s.mediaOn || !u.closed || !u.verify then s else
    let bad := u.members.filter fails.contains
    let s := { s with med := (u.dies.filter fun d => !(bad.any fun p => p.die == d)).foldl (fun m d => m.answered d.val) s.med }
    let s := bad.foldl (fun s p => failBlock p (mediaEvent 3 (blockDetail p) (raiseFault (chanFrame p.die.val) 5 s))) s
    let m := { s.med with supers := adjust s.med.supers sb fun x => { x with verify := false, failing := bad } }
    { s with med := (if bad.isEmpty then m.dropParity sb else m).startErases })

/-- NAND_ERASE_COMPLETE (R144, R167, R178): of a block that an erase-intent record names. -/
def execNandEraseComplete (place : Place) (tlc ok : Bool) (s : State) : Host.Outcome State Fault Refusal :=
  done (if !s.mediaOn || !s.med.intents.contains (blkKey place) then s
  else
    let s := { s with med := s.med.answered place.die.val }
    let s := if ok then { s with med := s.med.erased place tlc }
      else
        let s := { s with med := { s.med with intents := s.med.intents.filter fun k => k != blkKey place } }
        retire place (mediaEvent 2 (blockDetail place) (raiseFault (chanFrame place.die.val) 4 s))
    { s with med := s.med.startErases })

/-- Another die of a block's superblock has failed (R139). -/
def Media.secondLoss (m : Media) (p : Place) : Bool :=
  (m.superOf p).any fun x => (x.2.parDie :: x.2.dies).any fun d => d != p.die && (m.die d.val).failed

/-- A die is declared failed (R146): what lies in open superblocks is rebuilt and programmed again, but for slots marked already, what
lies in closed ones is marked, and every block is retired. -/
def failDie (die : Fin 64) (s : State) : State :=
  let d := die.val
  let s := { s with med := { s.med with dies := vmod s.med.dies d fun x => { x with failed := true } } }
  let mine := s.med.content.filterMap fun x => x.2.place.bind fun p =>
    if p.die = die ∧ !s.med.unrec.contains x.1 then some (x, p) else none
  let lost : Place → Bool := fun p => (s.med.blk p).closed || s.med.secondLoss p
  let s := mine.foldl (fun s y => if lost y.2 then markUnrecovered y.2 y.1.1 s else parityRebuild y.2 s) s
  let s := programNow ((mine.filter fun y => !lost y.2).map fun y => (y.1.1, { y.1.2 with place := none })) s
  let s := (List.finRange 4).foldl (fun s q =>
    (List.finRange 2800).foldl (fun s b =>
      if (s.med.blk ⟨die, q, b⟩).retired then s else mediaEvent 4 (blockDetail ⟨die, q, b⟩) s)
      { s with med := { s.med with spares := vput s.med.spares (d * 4 + q.val) 0 } }) s
  enterEol (mediaEvent 9 0 s)

/-- DIE_STATUS_TIMEOUT (R146). -/
def execDieStatusTimeout (die : Fin 64) (s : State) : Host.Outcome State Fault Refusal :=
  done (if !s.running || (s.med.die die.val).failed then s else
    let s := raiseFault (chanFrame die.val) 8 s
    let n := (s.med.die die.val).timeouts + 1
    let s := { s with med := { s.med with dies := vmod s.med.dies die.val fun d => { d with timeouts := n } } }
    if 3 ≤ n then failDie die s else s)

/-! Reads (R129, R130, R136, R139, R140, R150). -/

/-- Entries of a die's read-threshold table in mV (R403): the centre, then ±15, ±30 and ±45 mV in rising distance, and +60 mV
(the order of the two signs is a DESIGN CHOICE, notes/assumptions/76.md). -/
def Die.table (d : Die) : List Int := [0, 15, -15, 30, -30, 45, -45, 60].map fun x => d.centre + x

/-- The offset at which a decode step of a block reads: step 0 at the block's current offset, steps 1 to 7 at the next
entries of the table (Table 5-4). -/
def Die.entry (d : Die) (cur : Option Int) (step : Nat) : Int :=
  let at_ := (cur.bind fun o => d.table.findIdx? fun x => x == o).getD 0
  if step = 0 then cur.getD d.centre else (d.table[(at_ + step) % 8]?).getD d.centre

/-- Page reads of a block count (R136). A step from 1 to 8 that decodes stores its offset, that of the soft decode free
(R130: no rule gives it), and step 3 or beyond asks for a refresh. -/
def noteRead (p : Place) (reads dec : Nat) (ok : Bool) (s : State) : State :=
  let (n, s) := if ok ∧ dec = 8 then s.take else (0, s)
  let d := s.med.die p.die.val
  { s with med := (s.med.answered p.die.val).modBlk p fun b => { b with
      reads := b.reads + reads
      offset := if ok ∧ 1 ≤ dec ∧ dec ≤ 7 then some (d.entry b.offset dec)
                else if ok ∧ dec = 8 then some (Config.freeVoltage n : Int) else b.offset
      refresh := if 3 ≤ dec then max b.refresh 1 else b.refresh } }

/-- The card reads around a detoured die (R150): the slot's superblock is open, its die is predicted to wait for more than
200 µs, and no other die of the stripe is. -/
def Media.readAround (m : Media) (p : Place) (waits : Option (Nat × Nat)) : Bool :=
  (m.die p.die.val).detoured && !(m.blk p).closed && waits.any fun w => decide (200 < w.1) && decide (w.2 ≤ 200)

/-- MEDIA_READ_COMPLETE (R129, R130, R139, R140, R150) of a slot, NSID and LBA: `dec` is the step of Table 5-4 that the read reached, and `ok` that it
passed; `around` are the waits in µs predicted for the die and for the slowest other die of the stripe. A read that failed
before its last step is not over, and its row only counts the page reads: two at step 8, and at step 9 those of the other dies of the
stripe. A slot that the card cannot rebuild around its die is read there by a row of its own. -/
def execMediaReadComplete (place : Place) (slot : Nat × Nat) (dec : Nat) (ok : Bool) (around : Option (Nat × Nat)) (s : State) :
    Host.Outcome State Fault Refusal :=
  let k := slotKey slot.1 slot.2
  done (if !s.mediaOn || !((look s.med.content k).any fun x => x.place == some place) then s
  else if s.med.readAround place around then
    (if ok then parityRebuild place s else readStripe place s)
  else
    let safe := s.med.guarded place
    let s := noteRead place (if dec = 8 then 2 else if dec < 8 then 1 else 0) dec ok s
    let s := if 8 ≤ dec then raiseFault (chanFrame place.die.val) 9 s else s
    let s := if 8 < dec && safe && !ok then readStripe place s else s
    if ok && decide (dec ≤ 8) then s
    else if ok && safe then
      let s := parityRebuild place s
      { s with med := s.med.queueRefresh place 1 }
    else if ok || decide ((if safe then 9 else 8) ≤ dec) then markUnrecovered place k s
    else s)

/-- The read count at which a block is relocated (R136). -/
def Blk.readLimit (b : Blk) : Nat := if b.tlc then 60000 else 200000

/-- READ_DISTURB_REFRESH (R136). -/
def execReadDisturbRefresh (place : Place) (s : State) : Host.Outcome State Fault Refusal :=
  let b := s.med.blk place
  done (if !s.mediaOn || b.reads < b.readLimit then s else
    { s with med := s.med.queueRefresh place (if 2 * b.readLimit ≤ b.reads then 2 else 1) })

/-! Folds, garbage collection, levelling and refresh (R122, R131, R132, R135). -/

/-- FOLD_START (R122). -/
def execFoldStart (grp : Fin 2) (s : State) : Host.Outcome State Fault Refusal :=
  done (if s.mediaOn then { s with med := s.med.foldMark grp.val } else s)

/-- WRITE_IDLE_TIMEOUT (R122, R131). -/
def execWriteIdleTimeout (s : State) : Host.Outcome State Fault Refusal :=
  done (if s.mediaOn then
    let m := { s.med with idle := true }
    { s with med := (((m.foldMark 0).foldMark 1).gcMarks 0).gcMarks 1 }
  else s)

/-- GC_START (R131). -/
def execGcStart (grp : Fin 2) (s : State) : Host.Outcome State Fault Refusal :=
  done (if s.mediaOn then { s with med := s.med.gcMarks grp.val } else s)

/-- Valid slots of a superblock. -/
def Media.valid (m : Media) (u : Super) : Nat := (u.members.map fun p => (m.inBlock p).length).foldl (· + ·) 0

/-- The GC victim of a group: the closed TLC superblock with the least valid data, the oldest on a tie (R132). -/
def Media.victim (m : Media) (g : Nat) : Option (Nat × Super) :=
  (m.supers.filter fun x => (x.2.grp == g) && x.2.tlc && x.2.closed).foldl (fun best x =>
    match best with
    | none => some x
    | some y => if m.valid x.2 * y.2.members.length < m.valid y.2 * x.2.members.length then some x else some y) none

/-- A block holds data, and none that does is less worn (R135). -/
def Media.leastWorn (m : Media) (p : Place) : Bool :=
  !(m.inBlock p).isEmpty && m.content.all fun x => x.2.place.all fun q => decide ((m.blk p).wear ≤ (m.blk q).wear)

/-- The kind of superblock that takes a copy from a block, if one is due: a queued relocation or a fold, GC of the victim, wear
levelling. -/
def Media.copyKind (m : Media) (src : Place) : Option Nat :=
  let g := m.group (groupOf src.die.val)
  let b := m.blk src
  if b.refresh ≠ 0 ∨ (!b.tlc && g.folding) then some 1
  else if b.tlc && g.gc && (m.victim (groupOf src.die.val)).any fun x => x.2.members.contains src then some 2
  else if m.levelling && m.leastWorn src then some 3 else none

def Media.copyDue (m : Media) (src : Place) : Bool := (m.copyKind src).isSome

/-- A die may take the next copy: no die of the superblock is a stripe behind. -/
def Media.paced (m : Media) (u : Super) (d : Fin 64) : Bool := (m.stripeDies u).all fun x => decide (u.filled d / 48 ≤ u.filled x / 48)

/-- The fill of a die after one more copy: a detoured die leaves every second stripe out, and so takes half of what the others take
(R147). -/
def Media.nextFill (m : Media) (u : Super) (d : Fin 64) : Nat :=
  let n := u.filled d + 1
  if (m.die d.val).detoured && n % 48 == 0 then n + 48 else n

/-- Plane and slot of the n-th copy on a die: 12 slots of a page row on each plane in turn, the last row shorter by the summary
pages. -/
def tlcSpot (n : Nat) : Nat × Nat :=
  if n < 24528 then (n / 12 % 4, n / 48 * 12 + n % 12) else ((n - 24528) / 8 % 4, 6132 + (n - 24528) % 8)

/-- The copy in a slot of a TLC block ends its 4-plane program. -/
def lastOfRow (dst : Place) (pos : Nat) : Bool := dst.plane.val == 3 && (pos % 12 == 11 || pos == 6139)

/-- Where a copy from a block goes on a die: superblock, block, slot, and the media with that slot taken. -/
def Media.copySpot (m : Media) (src : Place) (d : Fin 64) : Option (Nat × Place × Nat × Media) :=
  (m.copyKind src).bind fun kind =>
  (m.openOf (groupOf src.die.val) kind ((m.superOf src).map fun x => x.1)).bind fun r =>
  (look r.2.supers r.1).bind fun u =>
    let n := u.filled d
    if !(r.2.stripeDies u).contains d || !r.2.paced u d || decide (u.room ≤ n) then none else
    (u.block d (tlcSpot n).1).map fun p =>
      (r.1, p, (tlcSpot n).2, { r.2 with supers := put r.2.supers r.1 { u with fill := put u.fill d.val (r.2.nextFill u d) } })

/-- COPY_COMPLETE (R15, R143, R145, R166, R392): a copy of one slot onto a die ends. The map changes only where it still points
at the source, and an unrecovered mark stays with its LBA. The last slot of a TLC program carries its time (R147). -/
def execCopyComplete (nsid lba : Nat) (src : Place) (die : Fin 64) (timeUs : Nat) (ok : Bool) (s : State) :
    Host.Outcome State Fault Refusal :=
  let k := slotKey nsid lba
  done (if !s.mediaOn || s.windowClosed then s else
    match s.med.copySpot src die with
    | none => s
    | some (sb, dst, pos, m) =>
      let s := { s with med := m }
      let s := if !ok || lastOfRow dst pos then noteTime die.val true timeUs s else s
      let s := if !ok then
          let s := programFail dst s
          { s with med := s.med.uncopy (fun k => !s.scanKey k) s.now dst }
        else if (look s.med.content k).any (fun x => x.place == some src) then
          let old := (look s.med.content k).elim 0 fun x => x.pos
          let m := s.med.heads ((look s.med.content k).toList.map fun x => (k, { x with place := some dst, pos := pos }))
          let m := if s.scanKey k then m else (m.addRec [k] s.now).keepShadow k
          let s := (countNand 4096 { s with med := { m.remap k with
            content := adjust m.content k fun x => { x with place := some dst, pos := pos }
            copied := m.copied ++ [⟨k, src, old, dst, false⟩] } }).countScan [k]
          { s with med := s.med.foldMark (groupOf src.die.val) }
        else s
      let s := setMedia 0 (s.med.closeFull sb) s
      { s with med := s.med.startErases })

/-! Patrol (R137, R402 to R404). -/

/-- The median of signed values, the lower of the two in the middle. -/
def medianInt (xs : List Int) : Int := (((xs.mergeSort fun a b => decide (a ≤ b)))[(xs.length - 1) / 2]?).getD 0

/-- The patrol interval of a largest rate in 0.1 mV per powered day (R404). -/
def patrolDays (r : Nat) : Nat := if r = 0 then 28 else min 28 (max 1 (1400 / r))

/-- A die's round of patrol ends: its table is re-centred, and its rate follows (R402, R403). -/
def endRound (d : Nat) (s : State) : State :=
  let x := s.med.die d
  let h := s.health
  let rates := vput h.rates d ((h.roundMax[d]?).getD 0)
  let top := rates.toList.foldl max 0
  let die := (rates.toList.findIdx? fun r => r == top).getD 0
  { s with
    med := { s.med with dies := vput s.med.dies d { x with centre := if x.shifts.isEmpty then x.centre else medianInt x.shifts
                                                           shifts := [] } }
    health := { h with rates := rates, roundMax := vput h.roundMax d 0, rounds := putBit h.rounds d true
                       drift := h.drift.publish ((die * 65536 + min top 0xFFFF : Nat) : Int) } }

/-- A patrol round ends: the interval of the next one follows from the largest rate (R404). -/
def planInterval (s : State) : State :=
  let days := patrolDays s.health.rate
  evalWarn { s with health := { s.health with refresh := s.health.refresh.publish (days : Nat), interval := days } }

/-- Pages that a patrol round reads of a block: one in 64. -/
def Blk.samples (b : Blk) : Nat := if b.tlc then 24 else 8

/-- Blocks that the running patrol round has still to read. -/
def Media.unpatrolled (m : Media) : List (Nat × Blk) :=
  m.blocks.filter fun x => x.2.closed && m.inService x && decide (x.2.passes ≤ m.round)

/-- Patrol reads the closed blocks in the order in which they were programmed, the oldest first (R137). -/
def Media.patrolNext (m : Media) (p : Place) : Bool :=
  let b := m.blk p
  b.closed && !b.retired && decide (b.passes ≤ m.round) && m.unpatrolled.all fun x => decide (b.born ≤ x.2.born)

/-- One sampled page of a block is read; the last of them ends the block's part of the round, and the last block the round. -/
def Media.patrolled (m : Media) (p : Place) : Media :=
  let m := m.modBlk p fun b =>
    if b.patrol + 1 < b.samples then { b with patrol := b.patrol + 1 } else { b with patrol := 0, passes := m.round + 1 }
  if m.unpatrolled.isEmpty then { m with round := m.round + 1 } else m

/-- Slots of the page that patrol reads next of a block. -/
def Media.patrolPage (m : Media) (p : Place) : List Nat :=
  (m.content.filter fun x => x.2.place == some p && x.2.pos / 4 == 64 * (m.blk p).patrol).map fun x => x.1

/-- PATROL_READ (R130, R137, R140, R146, R402) of the next sampled page of a block, page 64 × `page`: `days` = 0 marks a read without a drift
sample, which takes five reads more (Table 15-1); else it is the block's age in whole powered days. Every step up to the last counts its page reads. A page that no step decodes in a
closed block that has no parity is unrecovered. -/
def execPatrolRead (place : Place) (page dec : Nat) (weak : Bool) (shiftMv days : Nat) (s : State) :
    Host.Outcome State Fault Refusal :=
  let b := s.med.blk place
  done (if !s.mediaOn || !s.med.patrolNext place || page != b.patrol || (days != 0 && days != b.age / 24) then s else
    let slots := s.med.patrolPage place
    let round := s.med.round
    let safe := s.med.guarded place
    let sample := days ≠ 0 ∧ b.tlc
    let s := noteRead place ((if dec < 8 then dec + 1 else 10) + (if sample then 5 else 0)) dec (decide (dec ≤ 8)) s
    let s := { s with med := (if weak then s.med.queueRefresh place 1 else s.med).patrolled place }
    let s := if 8 ≤ dec then raiseFault (chanFrame place.die.val) 9 s else s
    let s := if dec ≤ 8 then s else if safe then parityRebuild place s else slots.foldl (fun s k => markUnrecovered place k s) s
    let d := place.die.val
    let s := if ¬sample then s else
      { s with med := { s.med with dies := vmod s.med.dies d fun x => { x with shifts := (shiftMv : Int) :: x.shifts } }
               health := { s.health with roundMax := vmod s.health.roundMax d fun r => max r (10 * shiftMv / days) } }
    let s := if (s.med.blk place).patrol = 0 && !(s.med.blocks.any fun x => x.1 / 16384 == d && x.2.closed && !x.2.retired &&
        decide (x.2.passes < (s.med.blk place).passes)) then endRound d s else s
    if s.med.round = round then s else planInterval s)

/-! The map (R125, R126, R168, R169). -/

/-- The map pages of a range of slots. -/
def pagesOf (nsid lba n : Nat) : List Nat :=
  if n = 0 then [] else (List.range ((lba + n - 1) / 512 + 1 - lba / 512)).map fun i => slotKey nsid (lba / 512 + i)

/-- MAP_PAGE_FILL (R125). -/
def execMapPageFill (nsid page : Nat) (s : State) : Host.Outcome State Fault Refusal :=
  done (if s.operating then { s with med := s.med.touchPage (slotKey nsid page) false } else s)

/-- The trigger of R168 holds: 64 KiB of entries wait, or the oldest has waited for 100 ms. -/
def Media.jrnlDue (m : Media) (now_ : Nat) : Bool :=
  decide (65536 ≤ m.jrnlBytes) || m.jrnl.any fun r => decide (r.ns + 100000000 ≤ now_)

/-- MAP_JOURNAL_PROGRAM (R168): what it makes durable lets blocks be erased (R170). -/
def execMapJournalProgram (s : State) : Host.Outcome State Fault Refusal :=
  done (if s.operating && s.med.jrnlDue s.now then { s with med := s.med.programJournal.startErases } else s)

/-- The trigger of R169 holds: 4 GiB of Scan-class slots, or 60 s. -/
def Media.ckptDue (m : Media) (now_ : Nat) : Bool :=
  decide (4294967296 ≤ m.scanBytes) || decide (m.ckptNs + 60000000000 ≤ now_)

/-- SCAN_CHECKPOINT (R169). -/
def execScanCheckpoint (s : State) : Host.Outcome State Fault Refusal :=
  done (if s.operating && s.med.ckptDue s.now then { s with med := (s.med.checkpoint s.scanKey s.now).startErases } else s)

end Sys2Proof.Machine
end

