-- ==== Sys2Proof/Machine/StallMem.lean ====
section
/-! DEFINITION. The memories of a Stall (R198 to R200): 8-byte words under SECDED, poison, correction on reading, and the
flip masks. Local memory has 65,536 words and program memory 8,192; `pm` selects program memory. -/

namespace Sys2Proof.Machine

/-- What SECDED makes of a codeword: the data, and whether it had to be corrected; `none` is uncorrectable (R200). -/
def secded (w : MemWord) : Option (W64 × Bool) :=
  match popcount 72 w.flips.toNat with
  | 0 => some (w.data, false)
  | 1 => some (w.data, true)
  | 2 => none
  | _ => if Config.secdedMany w.flips then none else some (Config.secdedData w.flips w.data, true)

def Stall.mem (t : Stall) (pm : Bool) : AMap MemWord := if pm then t.pm else t.lm
def Stall.putMem (t : Stall) (pm : Bool) (m : AMap MemWord) : Stall := if pm then { t with pm := m } else { t with lm := m }

/-- The pending flip of a memory. -/
def Stall.flip (t : Stall) (pm : Bool) : BitVec 72 := if pm then t.flipPm else t.flipLm

/-- A single-bit error was corrected: the count rises, source 24 pends, ECC_CORR sets (R199). -/
def corrected (n : Nat) (s : State) : State :=
  raiseStall 0 n 5 (s.modStall n fun t => { t with corr := satInc t.corr }.pend 24)

/-- Read word i: its data, or `none` when it is uncorrectable or poison. A corrected word is written back. -/
def readWord (pm : Bool) (n i : Nat) (s : State) : Option W64 × State :=
  match look ((s.stall n).mem pm) i with
  | none => (none, s)
  | some w =>
    match secded w with
    | none => (none, s)
    | some (v, false) => (some v, s)
    | some (v, true) => (some v, corrected n (s.modStall n fun t => t.putMem pm (put (t.mem pm) i ⟨v, 0⟩)))

/-- A word is written: its codeword is XORed with the pending flip, which clears (R200). -/
def Stall.writeWord (pm : Bool) (i : Nat) (v : W64) (t : Stall) : Stall :=
  let t' := t.putMem pm (put (t.mem pm) i ⟨v, t.flip pm⟩)
  if pm then { t' with flipPm := 0 } else { t' with flipLm := 0 }

/-- A word is made poison. -/
def Stall.poison (pm : Bool) (i : Nat) (t : Stall) : Stall := t.putMem pm (del (t.mem pm) i)

/-- A master writes a poison codeword into local memory: a write like any other, so that the pending flip clears (R200, R236). -/
def Stall.poisonWrite (i : Nat) (t : Stall) : Stall := { t.poison false i with flipLm := 0 }

/-- Words i up to i + k. -/
def readWords (pm : Bool) (n i : Nat) : Nat → State → Option (List W64) × State
  | 0, s => (some [], s)
  | k + 1, s =>
    match readWord pm n i s with
    | (none, s) => (none, s)
    | (some v, s) =>
      match readWords pm n (i + 1) k s with
      | (none, s) => (none, s)
      | (some vs, s) => (some (v :: vs), s)

/-- len bytes at byte address a; `none` when any word they lie in is uncorrectable. -/
def readMem (pm : Bool) (n a len : Nat) (s : State) : Option (List Byte) × State :=
  if len = 0 then (some [], s) else
  match readWords pm n (a / 8) ((a + len - 1) / 8 + 1 - a / 8) s with
  | (none, s) => (none, s)
  | (some vs, s) => (some (slice (vs.flatMap fun v => leBytes 8 v.toNat) (a % 8) len), s)

/-- Write whole words from an 8-byte aligned address; the last word is filled with zero bytes (R240). -/
def Stall.writeBytes (a : Nat) (bs : List Byte) (t : Stall) : Stall :=
  (chunks 8 (bs.length / 8 + 1) bs).zipIdx.foldl (fun t c => t.writeWord false (a / 8 + c.2) (w64 (ofLe (slice c.1 0 8)))) t

/-- The loader's and RESTART's fill of local memory: the segments, and poison everywhere else (R198). -/
def fillLocal (segs : List (Nat × List Byte)) : AMap MemWord :=
  segs.foldl (fun m g => (chunks 8 (g.2.length / 8) g.2).zipIdx.foldl (fun m c =>
    put m (g.1 / 8 + c.2) ⟨w64 (ofLe c.1), 0⟩) m) []

end Sys2Proof.Machine
end

