-- ==== Sys2Proof/Machine/Records.lean ====
section
/-! DEFINITION. Records and stream namespaces (03_namespaces_and_records.md): headers, packing, fill records, ring reclaim,
the position index (R260), and commit marks (R52 to R54). -/

namespace Sys2Proof.Machine

/-! Record headers (Table 3-4). -/

def recType (b : List Byte) : Nat := u16At b 0 % 4096
def recVersion (b : List Byte) : Nat := u16At b 0 / 4096
def recSource (b : List Byte) : Nat := u16At b 2
def recLen (b : List Byte) : Nat := u32At b 4
def recStamp (b : List Byte) : Nat := u64At b 8
def recSeq (b : List Byte) : Nat := u64At b 16
def recArcs (b : List Byte) : Nat := u32At b 24

/-- The cycle and count fields of a stamp (R29). -/
def stampCycle (v : Nat) : Nat := v / 2 ^ 40 % 2 ^ 24
def stampCount (v : Nat) : Nat := v / 256 % 2 ^ 32
def isFaultStamp (v : Nat) : Bool := stampCycle v == 0xFFFFFF

/-- The header's CRC-32C over bytes 0 to 27. -/
def withCrc (b : List Byte) : List Byte := patch b 28 (leBytes 4 (crc32c (b.take 28)))

/-- The card's fields of a header (R30, R235). -/
def stampRecord (b : List Byte) (stamp seq arcs : Nat) : List Byte :=
  withCrc (patch b 8 (leBytes 8 stamp ++ leBytes 8 seq ++ leBytes 4 arcs))

/-- A fill record (R72), with zero bytes after its header. -/
def fillRecord (len : Nat) : List Byte :=
  withCrc (leBytes 2 0x1000 ++ leBytes 2 0 ++ leBytes 4 len ++ List.replicate 24 0) ++ List.replicate (len - 32) 0

/-- The net cycle of a stamp in an era (R33). -/
def netOf (era : Int) (stamp : Nat) : Int := era * 16777215 + (stampCycle stamp : Int)

/-! Stream namespaces. -/

/-- Bytes of a namespace. -/
def Ns.bytes (n : Ns) : Nat := 4096 * n.nsze

/-- Bytes reserved in a namespace by commands in flight (R74). -/
def State.reserved (s : State) (nsid : Nat) : Nat :=
  ((s.nv.inflight.flatMap fun c => c.resv).filter fun r => r.1 == nsid).foldl (fun a r => a + r.2) 0

/-- Take used bytes off the reservation of a command. -/
def useResv (h nsid n : Nat) (s : State) : State :=
  s.modCmd h fun c => { c with resv := c.resv.map fun r => if r.1 = nsid then (r.1, r.2 - n) else r }

/-- Slots of stream namespaces as a retiring Lot leaves them: the bytes of each, and whether they are programmed before the Lot
retires. Each slot takes one write sequence, however many records share it (R166). -/
abbrev Staged := List (Nat × (List Byte × Bool))

/-- A slot as a Lot has left it so far. -/
def Staged.data (st : Staged) (m : Media) (k : Nat) : List Byte := ((look st k).map fun x => x.1).getD (m.data k)

/-- Write bytes into a namespace from a byte offset, slot by slot. -/
def writeStream (m : Media) (nand : Bool) (nsid : Nat) : Nat → Nat → List Byte → Staged → Staged
  | 0, _, _, st => st
  | fuel + 1, off, bs, st =>
    if bs.isEmpty then st else
    let part := bs.take (4096 - off % 4096)
    let k := slotKey nsid (off / 4096)
    let was := (look st k).any fun x => x.2
    writeStream m nand nsid fuel (off + part.length) (bs.drop part.length)
      (put st k (patch (st.data m k) (off % 4096) part, nand || was))

/-- Give slots their write sequences. -/
def sequenced (xs : List (Nat × List Byte)) (s : State) : List (Nat × Slot4k) × State :=
  (xs.zipIdx.map fun x => (x.1.1, ⟨x.1.2, List.replicate 8 0xFF, 0, s.med.wseq + x.2, none, 0⟩),
    { s with med := { s.med with wseq := s.med.wseq + xs.length } })

/-- The staged slots are stored: in DRAM as Held data, or on their way to NAND, which waits for a die and the write window
(R120, R391). -/
def storeStage (st : Staged) (s : State) : State :=
  let dram := st.filter fun x => !x.2.2
  let s := if dram.isEmpty then s else acceptHeld (dram.map fun x => (x.1, x.2.1, List.replicate 8 0xFF)) s
  let (xs, s) := sequenced ((st.filter fun x => x.2.2).map fun x => (x.1, x.2.1)) s
  if xs.isEmpty then s else programNow xs s

/-- The fill from an offset over len bytes (R71, R72): zero bytes where fewer than 32 remain in the block, and a fill record
over the rest. -/
def fillBytes (off len : Nat) : List Byte :=
  let room := 4096 - off % 4096
  if len < 32 then List.replicate len 0
  else if 32 ≤ room then fillRecord len
  else List.replicate room 0 ++ (if len - room < 32 then List.replicate (len - room) 0 else fillRecord (len - room))

/-- The header of a record passes its CRC-32C. -/
def headerOk (b : List Byte) : Bool := u32At b 28 == crc32c (b.take 28)

def modNs (nsid : Nat) (f : Ns → Ns) (s : State) : State := { s with ns := adjust s.ns nsid f }

/-- Write bytes at the next free byte and advance it. -/
def appendBytes (nand : Bool) (nsid : Nat) (bs : List Byte) (x : Staged × State) : Staged × State :=
  match look x.2.ns nsid with
  | none => x
  | some n =>
    (writeStream x.2.med nand nsid (bs.length / 4096 + 2) n.st.next bs x.1,
      modNs nsid (fun n => { n with st := { n.st with next := (n.st.next + bs.length) % n.bytes, used := n.st.used + bs.length } }) x.2)

/-- Store a record (R71): at the namespace's end the rest is filled and it goes to LBA 0. The answer is the bytes used. -/
def storeRecord (nand : Bool) (nsid : Nat) (b : List Byte) (era : Int) (x : Staged × State) : Nat × (Staged × State) :=
  match look x.2.ns nsid with
  | none => (0, x)
  | some n =>
    let tail := n.bytes - n.st.next
    let fill := if tail < b.length then tail else 0
    let x := if fill = 0 then x else appendBytes nand nsid (fillBytes n.st.next fill) x
    let off := if fill = 0 then n.st.next else 0
    let x := appendBytes nand nsid b x
    let r : Stored := { seq := recSeq b, era := era, off := off, len := b.length, stamp := w64 (recStamp b), src := recSource b
                        ty := u16At b 0, arcs := recArcs b }
    (fill + b.length, (x.1, modNs nsid (fun n => { n with st := { n.st with recs := n.st.recs ++ [r] } }) x.2))

/-- End the block that holds the last byte of a Lot in a Scan namespace (R72). The answer is the bytes used. -/
def endBlock (nsid : Nat) (x : Staged × State) : Nat × (Staged × State) :=
  match look x.2.ns nsid with
  | none => (0, x)
  | some n =>
    let fill := (4096 - n.st.next % 4096) % 4096
    if fill = 0 then (0, x) else (fill, appendBytes true nsid (fillBytes n.st.next fill) x)

/-- A record's outcome for the commit marks (R259). -/
def outcome (nsid seq : Nat) (stored : Bool) (s : State) : State :=
  modNs nsid (fun n => { n with st := { n.st with marks := n.st.marks ++ [(seq, stored)] } }) s

/-- The 2 MiB extents that a stored record touches. -/
def Stored.extents (r : Stored) : List Nat :=
  (List.range ((r.off + r.len - 1) / 2097152 + 1 - r.off / 2097152)).map fun i => r.off / 2097152 + i

/-- Records leave the position index, whose pages are used and change (R261). -/
def leaveIndex (nsid : Nat) (rs : List Stored) (s : State) : State :=
  { s with med := s.med.touchIndex nsid (rs.flatMap Stored.extents).dedup true }

/-! Ring reclaim (R78). -/

/-- Offset of a byte from the oldest record of the namespace. -/
def Ns.fromTail (n : Ns) (off : Nat) : Nat :=
  let tail := (n.st.next + n.bytes - n.st.used % n.bytes) % n.bytes
  (off + n.bytes - tail) % n.bytes

/-- Reclaim whole records over at least 2 MiB. The first block goes too: what it holds before the oldest record was reclaimed
before, unless the newest data has come round into it; when nothing is left, the last block goes as well. -/
def reclaimOnce (nsid : Nat) (s : State) : State :=
  match look s.ns nsid with
  | none => s
  | some n =>
    let tail := (n.st.next + n.bytes - n.st.used % n.bytes) % n.bytes
    let rest := n.st.recs.dropWhile fun r => decide (n.fromTail r.off < 2097152)
    let gone := match rest with
      | r :: _ => n.fromTail r.off
      | [] => n.st.used
    let shared := !rest.isEmpty && tail / 4096 == n.st.next / 4096 && decide (n.st.next < tail)
    let lo := if shared then ceilDiv tail 4096 else tail / 4096
    let hi := if rest.isEmpty then ceilDiv (tail + gone) 4096 else (tail + gone) / 4096
    let s := leaveIndex nsid (n.st.recs.take (n.st.recs.length - rest.length)) s
    let s := modNs nsid (fun n => { n with st := { n.st with recs := rest, used := n.st.used - gone } }) s
    trim nsid (fun k => (keyNs k == nsid) && ((decide (lo ≤ keyLba k) && decide (keyLba k < hi)) ||
      decide (keyLba k + n.nsze < hi))) s

/-- Reclaim until a reservation fits or nothing is left. -/
def reclaim (nsid need : Nat) : Nat → State → State
  | 0, s => s
  | fuel + 1, s =>
    match look s.ns nsid with
    | none => s
    | some n =>
      if n.st.used + s.reserved nsid + need ≤ n.bytes ∨ n.st.used = 0 then s
      else reclaim nsid need fuel (reclaimOnce nsid s)

/-! Records that are discarded where they are stored (R75, R176). -/

/-- Where the extent of a discarded record ends: at the next record that stays, at the end of the data, or at the end of the
namespace (R176). -/
def extentEnd (bad : Nat → Bool) (size next off : Nat) (rs : List Stored) : Nat :=
  let ahead := rs.takeWhile fun r => decide (off < r.off)
  match ahead.find? fun r => !bad r.off with
  | some r => r.off
  | none => if ahead.length < rs.length ∨ next ≤ off then size else next

/-- The discarded records of a namespace with their extents, in storage order. -/
def badRuns (bad : Nat → Bool) (size next : Nat) : List Stored → List (Nat × Nat)
  | [] => []
  | r :: rs =>
    let rest := badRuns bad size next rs
    if bad r.off then (r.off, extentEnd bad size next r.off rs) :: rest else rest

/-- A record is discarded: the slots that it alone occupies are trimmed, and a fill header takes the place of its first 32
bytes (R176). At the end of the data, `next`, it has its last slot alone where no record stands behind it there. -/
def discardRun (nsid : Nat) (recs : List Stored) (next : Nat) (run : Nat × Nat) (s : State) : State :=
  let lo := ceilDiv run.1 4096
  let tail := 4096 * ceilDiv run.2 4096
  let last := run.2 == next && !(recs.any fun r => decide (run.2 ≤ r.off ∧ r.off < tail))
  let hi := if last then tail / 4096 else run.2 / 4096
  let s := if lo < hi then trim nsid (inRange nsid lo (hi - lo)) s else s
  storeStage (writeStream s.med true nsid 2 run.1 ((fillRecord (run.2 - run.1)).take 32) []) s

/-- Discard records of a namespace, by their offsets: they leave the position index. -/
def discardStored (nsid : Nat) (bad : Nat → Bool) (s : State) : State :=
  match look s.ns nsid with
  | none => s
  | some n =>
    let s := leaveIndex nsid (n.st.recs.filter fun r => bad r.off) s
    let s := (badRuns bad n.bytes n.st.next n.st.recs).foldl (fun s r => discardRun nsid n.st.recs n.st.next r s) s
    modNs nsid (fun n => { n with st := { n.st with recs := n.st.recs.filter fun r => !bad r.off } }) s

/-- Bytes of a namespace read zero again, from an offset up to another. -/
def eraseSpan (nsid lo hi : Nat) (s : State) : State :=
  let a := ceilDiv lo 4096
  let b := hi / 4096
  let s := if a < b then trim nsid (inRange nsid a (b - a)) s else s
  let ends := if b < a then [(lo, hi - lo)] else [(lo, 4096 * a - lo), (4096 * b, hi - 4096 * b)]
  storeStage ((ends.filter fun x => x.2 != 0).foldl (fun st x =>
    writeStream s.med true nsid 2 x.1 (List.replicate x.2 0) st) []) s

/-- The records that a command has stored in a namespace go, and nothing was stored behind them: the space that they took is as
before (R84). -/
def giveSpace (nsid next took : Nat) (bad : Nat → Bool) (s : State) : State :=
  match look s.ns nsid with
  | none => s
  | some n =>
    let s := leaveIndex nsid (n.st.recs.filter fun r => bad r.off) s
    let s := eraseSpan nsid 0 (next + took - n.bytes) (eraseSpan nsid next (min (next + took) n.bytes) s)
    modNs nsid (fun n => { n with st := { n.st with recs := n.st.recs.filter (fun r => !bad r.off), next := next
                                                    used := n.st.used - took } }) s

/-! The position index (R260, R262). -/

/-- The location field of Table 3-8. -/
def Stored.location (r : Stored) : Nat := lowBits 12 r.era * 2 ^ 52 + (r.off % 4096) * 2 ^ 40 + r.off / 4096

/-- The bucket key of a record. -/
def bucketKey (bits : Nat) (era : Int) (stamp : Nat) : Int × Nat × Nat :=
  (era, stampCycle stamp, if isFaultStamp stamp then 0 else stampCount stamp / 2 ^ bits)

/-- Records of a bucket, in storage order. -/
def Ns.bucket (n : Ns) (era : Int) (stamp : Nat) : List Stored :=
  n.st.recs.filter fun r => bucketKey n.st.bits r.era r.stamp.toNat == bucketKey n.st.bits era stamp

/-! Commit marks (R52, R53, R259). -/

/-- A record below a boundary is neither dropped nor durable: it lies in a Lot that has not retired, or its slots are not in NAND
yet. -/
def State.pendingBelow (s : State) (bound : Nat) : Bool :=
  let covers : LotRec → Bool := fun r => r.nsid != 0 && decide (r.seq < bound)
  (s.lots.any fun l => l.query.isNone && l.recs.any covers) || (s.ns.any fun n => n.2.st.opened.any covers) ||
    s.nv.inflight.any fun c => !c.slots.isEmpty && decide (c.first < bound)

/-- The entries of a mark: one per stream namespace, with the counts below its boundary. -/
def State.markEntries (s : State) (bound : Nat) : List (Nat × Nat × Nat) :=
  (s.ns.filter fun n => n.2.stream).map fun n =>
    let ms := n.2.st.marks.filter fun m => decide (m.1 < bound)
    (n.1, (ms.filter fun m => m.2).length, (ms.filter fun m => !m.2).length)

/-- A commit mark is programmed: it takes the next number, and its records leave the counts (R53, R259). -/
def programMark (late : Bool) (m : PendingMark) (s : State) : State :=
  let num := s.bcn.com.num + 1
  let late := late || m.flags / 2 % 2 == 1
  let mark : Mark := { num := num.toNat, stamp := m.stamp, era := m.era, bound := m.bound
                       flags := m.flags + (if late && m.flags / 2 % 2 == 0 then 2 else 0), entries := s.markEntries m.bound }
  let s := { s with
    med := { s.med with marks := (mark :: s.med.marks).take 1048576 }
    bcn := { s.bcn with com := { s.bcn.com with num := num, late := if late then satInc s.bcn.com.late else s.bcn.com.late } }
    ns := s.ns.map fun n => (n.1, { n.2 with st := { n.2.st with marks := n.2.st.marks.filter fun x => decide (m.bound ≤ x.1) } }) }
  raisePulse 256 0 num.toNat s

/-- COMMIT_MARK_DURABLE (R53): the oldest pending mark is programmed; not in Watch (R60) or while the write
window is closed (R392). In a thermal shutdown a Cycle Commit, which has not begun, gets no completion (R394). -/
def execCommitMarkDurable (late : Bool) (s : State) : Host.Outcome State Fault Refusal :=
  done (match s.med.pendMarks with
  | [] => s
  | m :: rest =>
    if !s.operating || s.pwr.watch == .asleep || s.windowClosed || s.pendingBelow m.bound then s else
    let s := programMark late m { s with med := { s.med with pendMarks := rest } }
    match m.cmd with
    | some h =>
      if s.therm.shutting then s else complete h 0 0 (w32 s.bcn.com.num.toNat) (w32 (s.bcn.com.num.toNat / 2 ^ 32)) [] s
    | none => s)

/-- Bytes of a commit mark (Table 2-13). -/
def Mark.encode (m : Mark) : List Byte :=
  let head := leBytes 8 m.num ++ leBytes 8 m.stamp.toNat ++ leBytes 8 m.bound ++ leBytes 4 (m.flags + m.entries.length * 65536)
  let body := m.entries.flatMap fun e => leBytes 4 e.1 ++ leBytes 4 e.2.1 ++ leBytes 4 e.2.2 ++ leBytes 4 0
  head ++ leBytes 4 (crc32c (head ++ List.replicate 4 0 ++ body)) ++ body

end Sys2Proof.Machine
end

