-- ==== Sys2Proof/Machine/Lots.lean ====
section
/-! DEFINITION. Lots and queries (01, 07, 09): forming, issue, faults, abandonment and retirement of Lots; the scope, the
answer and the end of an Arc Query. -/

namespace Sys2Proof.Machine

def State.pipe (s : State) (p : Nat) : Option Pipe := look s.pipes p
def State.modPipe (s : State) (p : Nat) (f : Pipe → Pipe) : State := { s with pipes := adjust s.pipes p f }
def State.lot (s : State) (id : Nat) : Option Lot := s.lots.find? fun l => l.id == id
def State.modLot (s : State) (id : Nat) (f : Lot → Lot) : State :=
  { s with lots := s.lots.map fun l => if l.id = id then f l else l }
def State.dropLot (s : State) (id : Nat) : State := { s with lots := s.lots.filter fun l => l.id != id }
def State.query (s : State) (id : Nat) : Option Query := s.queries.find? fun q => q.id == id
def State.modQuery (s : State) (id : Nat) (f : Query → Query) : State :=
  { s with queries := s.queries.map fun q => if q.id = id then f q else q }

def Pipe.inSet (p : Pipe) (n : Nat) : Bool := bit p.stalls n
def Pipe.gateOnly (p : Pipe) : Bool := p.bare

/-- The pipeline whose set holds a Stall. -/
def State.pipeOf (s : State) (n : Nat) : Option Nat := (s.pipes.find? fun p => p.2.inSet n).map fun p => p.1

/-- A Stall is flagged SLOW, or the elapsed count of its Lot has passed the mark (R190). -/
def Stall.isSlow (t : Stall) : Bool := t.slow || (!t.lots.isEmpty && decide (4 * t.budget < t.elapsed))

/-- Stalls of a set that can take Lots now or later (R192). -/
def State.takers (s : State) (p : Pipe) : List Nat :=
  (List.range 64).filter fun n => p.inSet n && ((s.stall n).state == .running) && !(s.stall n).isSlow

/-- The pipeline can carry records: it runs, and some Stall of its set can take Lots. -/
def State.pipeUp (s : State) (p : Pipe) : Bool := p.running && (p.gateOnly || !(s.takers p).isEmpty)

/-! Gate and decimator (R256, R257). -/

/-- The gate passes a record. -/
def Pipe.gate (p : Pipe) (stamp arcs : Nat) : Bool :=
  let m := p.gateMask.toNat
  !(p.dropFault && isFaultStamp stamp) &&
  (if p.gateMode = 1 then decide (arcs &&& m ≠ 0) else if p.gateMode = 2 then decide (arcs &&& m = m)
   else if p.gateMode = 3 then decide (arcs &&& m = 0) else true)

/-- Gate and decimator on one record: whether it passes, and the counter after it. -/
def Pipe.passes (p : Pipe) (bytes : List Byte) : Bool × Pipe :=
  if !p.gate (recStamp bytes) (recArcs bytes) then (false, p) else
  if p.decN ≤ 1 ∨ recSource bytes &&& p.decMask ≠ p.decSrc &&& p.decMask then (true, p) else
  (p.dec == 0, { p with dec := (p.dec + 1) % p.decN })

/-! Completion of Record Append (R75, R76, R191). -/

/-- A record that is discarded: it lies in a Lot and belongs to no namespace any more. -/
def LotRec.void (r : LotRec) : LotRec := { r with nsid := 0, pass := false }

/-! Lots on Stalls (R23, R189 to R191). -/

/-- The budget term of a record (R189). -/
def Image.term (i : Image) (len : Nat) : Nat := i.cRec + i.c64 * ceilDiv len 64

/-- A Lot is issued again: the pending marks that cover a record of it carry LATE (R54). -/
def lateMarks (l : Lot) (s : State) : State :=
  let late : PendingMark → PendingMark := fun m =>
    if l.query.isNone && l.recs.any (fun r => r.nsid != 0 && decide (r.seq < m.bound)) then { m with flags := m.flags ||| 2 } else m
  { s with med := { s.med with pendMarks := s.med.pendMarks.map late } }

/-- A Lot starts on a Stall. -/
def startLot (n : Nat) (s : State) : State :=
  let t := s.stall n
  match t.lots with
  | [] => { s with stalls := vput s.stalls n { t with idleAt := s.now } }
  | id :: _ =>
    match s.lot id, t.image with
    | some l, some im =>
      let b := ((l.recs.filter fun r => r.pass).map fun r => im.term r.bytes.length).foldl (· + ·) 0
      let s := s.modLot id fun l => { l with issues := l.issues + 1 }
      let s := s.setStall n ({ t with budget := b, elapsed := 0, stage := .idle, rec_ := 0, cycles := 0 }.pend 11)
      if 0 < l.issues then raiseFault 0x25 2 (lateMarks l s) else s
    | _, _ => s

/-- A Lot goes back to the dispatcher with no effect; the Stall that faulted on it does not get it again (R17). -/
def Lot.back (l : Lot) (by_ : Option Nat) : Lot :=
  { l with state := .waiting, emits := [], tally := [], tried := l.tried ++ by_.toList }

/-- A Lot is on a Stall, or ended there and waits to retire. -/
def Lot.onStall (l : Lot) : Bool :=
  match l.state with
  | .issued _ => true
  | .done _ => true
  | _ => false

/-! Queries (R263 to R271). -/

/-- The Tally section of an answer: values and touched bitmap (R271). -/
def Pipe.tallySection (p : Pipe) : List Byte :=
  let v : Nat → Option W64 := look p.tally
  ((List.range p.tallyCount).flatMap fun i => leBytes 8 ((v i).getD 0).toNat) ++
  ((List.range (ceilDiv p.tallyCount 64)).flatMap fun w =>
    leBytes 8 (ofBits ((List.range 64).map fun i => (v (64 * w + i)).isSome)))

/-- The Tally section of a query's pipeline: untouched counters before its start. A query without pipeline has none. -/
def State.sectionOf (s : State) (q : Query) : Nat × List Byte :=
  match q.pipe.bind s.pipe with
  | some p => (p.tallyCount, (if q.state = .waiting then { p with tally := [] } else p).tallySection)
  | none => (0, [])

/-- The answer (Table 9-7). -/
def Query.answer (q : Query) (s : State) (endv resume : Nat) : List Byte :=
  let (n, sec) := s.sectionOf q
  let pad := (8 - q.out.length % 8) % 8
  let off := if n = 0 then 0 else 64 + q.out.length + pad
  leBytes 4 endv ++ leBytes 4 q.unrec ++ leBytes 8 q.start ++ leBytes 8 (if endv = 1 ∨ endv = 2 then resume else 0) ++
  leBytes 8 q.entered ++ leBytes 8 q.emitted ++ leBytes 8 q.out.length ++ leBytes 8 q.media ++
  leBytes 2 n ++ leBytes 2 0 ++ leBytes 4 off ++ q.out ++ (if n = 0 then [] else List.replicate pad 0 ++ sec)

/-- A result slot is released (R269). -/
def freeSlot (k : Nat) (s : State) : State :=
  { s with slots := adjust s.slots k fun x => { x with state := .free, size := 0, answer := [] } }

/-- A query ends: a direct one completes, a slotted one makes its slot READY or releases it; its waiting Lots go. -/
def endQuery (id endv resume : Nat) (s : State) : State :=
  match s.query id with
  | none => s
  | some q =>
    let a := q.answer s endv resume
    let s := { s with queries := s.queries.filter fun x => x.id != id
                      lots := s.lots.filter fun l => !(l.query == some id && !l.onStall) }
    if q.direct then
      if endv = 2 then complete id 7 0x87 0 0 a s else complete id 0 0 0 0 a s
    else match q.slot with
      | none => s
      | some k =>
        if endv = 3 ∨ !q.releases.isEmpty then q.releases.foldl (fun s h => succeed h s) (freeSlot k s)
        else raisePulse 266 k k { s with slots := adjust s.slots k fun x => { x with state := .ready, answer := a } }

/-- The lowest sequence number in a Lot. -/
def Lot.lowest (l : Lot) : Nat := ((l.recs.map fun r => r.seq)[0]?).getD 0

/-- The Lots of a query that have not retired. -/
def State.queryLots (s : State) (id : Nat) : List Lot := s.lots.filter fun l => l.query == some id

/-- Where a query that ends early resumes: at its next Lot, or at its floor before it has begun. -/
def State.resumeOf (s : State) (q : Query) : Nat :=
  if q.state = .waiting then q.floor else ((s.queryLots q.id)[0]?).elim q.start Lot.lowest

/-- A query that is to end still has a Lot to retire: its next one when no Lot is issued any more (R263, R394), else any (R269). -/
def State.retiresMore (s : State) (id endv : Nat) : Bool :=
  let ls := s.queryLots id
  if endv = 3 then ls.any Lot.onStall else (ls[0]?).any Lot.onStall

/-- End a query at its next Lot retirement, or at once when there is none (R263, R269, R394). -/
def endSoon (endv : Nat) (id : Nat) (s : State) : State :=
  match s.query id with
  | none => s
  | some q =>
    if q.state != .waiting && s.retiresMore id endv then
      s.modQuery id fun q => { q with ending := some (q.ending.getD endv) }
    else endQuery id endv (s.resumeOf q) s

/-- A record is in a query's scope (R264). -/
def Query.scope (q : Query) (r : Stored) : Bool :=
  let v := r.stamp.toNat
  decide (r.seq < q.start) && decide (q.floor ≤ r.seq) &&
  (match q.rel with
   | some (a, b) => !isFaultStamp v && decide (a ≤ netOf r.era v) && decide (netOf r.era v ≤ b)
   | none => decide (q.lo ≤ v) && decide (v < q.hi) && (q.era.all fun e => r.era == e)) &&
  (q.arc.all fun n => Nat.testBit r.arcs n) &&
  (q.window.all fun w =>
    let c := stampCount v
    if w.1 ≤ w.2 then decide (w.1 ≤ c) && decide (c < w.2) else decide (w.1 ≤ c) || decide (c < w.2))

/-- A bucket's stamps meet the query's range and window (R265, R266). -/
def Query.meets (q : Query) (bits : Nat) (r : Stored) : Bool :=
  let v := r.stamp.toNat
  let b := if isFaultStamp v then 0 else stampCount v / 2 ^ bits
  let c0 := b * 2 ^ bits
  let c1 := if isFaultStamp v then 2 ^ 32 else (b + 1) * 2 ^ bits
  let lo := stampCycle v * 2 ^ 40 + c0 * 256
  let hi := stampCycle v * 2 ^ 40 + c1 * 256
  (match q.rel with
   | some (a, z) => decide (a ≤ netOf r.era v) && decide (netOf r.era v ≤ z)
   | none => decide (lo < q.hi) && decide (q.lo < hi) && (q.era.all fun e => r.era == e)) &&
  (q.window.all fun w =>
    if w.1 ≤ w.2 then decide (c0 < w.2) && decide (w.1 < c1) else decide (w.1 < c1) || decide (c0 < w.2))

/-- Extents that a query reads (R260, R262, R266): those of buckets it meets, dense ones whose span it meets, and every part
that is not indexed. -/
def Query.extents (q : Query) (n : Ns) : List Nat :=
  let es := (n.st.recs.flatMap Stored.extents).dedup
  es.filter fun e => n.st.unindexed.contains e ||
    let rs := n.st.recs.filter fun r => r.extents.contains e
    let keys := (rs.map fun r => bucketKey n.st.bits r.era r.stamp.toNat).dedup
    if 64 < keys.length then
      let vs := rs.filter fun r => !isFaultStamp r.stamp.toNat
      match q.rel with
      | some (a, z) =>
        vs.any (fun r => decide (netOf r.era r.stamp.toNat ≤ z)) && vs.any fun r => decide (a ≤ netOf r.era r.stamp.toNat)
      | none => vs.any (fun r => decide (r.stamp.toNat < q.hi)) && vs.any fun r => decide (q.lo ≤ r.stamp.toNat)
    else rs.any (q.meets n.st.bits)

/-- Bytes of a stored record as the media holds them. -/
def State.storedBytes (s : State) (nsid : Nat) (r : Stored) : List Byte :=
  let l0 := r.off / 4096
  slice ((List.range ((r.off + r.len - 1) / 4096 + 1 - l0)).flatMap fun i => s.med.data (slotKey nsid (l0 + i)))
    (r.off % 4096) r.len

/-- A stored record spans an unrecovered LBA. -/
def State.spansBad (s : State) (nsid : Nat) (r : Stored) : Bool :=
  s.med.unrec.any fun k => (keyNs k == nsid) && decide (r.off / 4096 ≤ keyLba k) && decide (keyLba k ≤ (r.off + r.len - 1) / 4096)

/-- Cut records into Lots of at most 256 KiB of whole records (R16, R266). -/
def cutLots : List LotRec → List LotRec → Nat → List (List LotRec)
  | [], acc, _ => if acc.isEmpty then [] else [acc.reverse]
  | r :: rs, acc, n =>
    if acc.isEmpty ∨ n + r.bytes.length ≤ 262144 then cutLots rs (r :: acc) (n + r.bytes.length)
    else acc.reverse :: cutLots rs [r] r.bytes.length

/-- A Lot that has not retired holds a record below a query's boundary (R264). -/
def State.lotsBelow (s : State) (bound : Nat) : Bool := s.pendingBelow bound

/-- Lots of a source through a pipeline can store into a namespace (R249, R253). -/
def State.feeds (s : State) (src : Nat) (pipe : Option Nat) (nsid : Nat) : Bool :=
  match pipe.bind s.pipe with
  | none => src == nsid
  | some p => p.outs.toList.any fun o => o.1 == 1 && o.2 == nsid

/-- A Lot that has not retired holds a record which can come to lie in a namespace and meets a lookup's bounds (R82). -/
def State.lotsMeeting (s : State) (nsid : Nat) (meets : LotRec → Bool) : Bool :=
  let holds : LotRec → Bool := fun r => r.nsid != 0 && r.pass && meets r
  (s.lots.any fun l => l.query.isNone && s.feeds l.nsid l.pipe nsid && l.recs.any holds) ||
    s.ns.any fun n => s.feeds n.1 ((s.ingest n.1).map fun p => p.1) nsid && n.2.st.opened.any holds

/-- Start a query (R257, R261, R265, R266, R271): its parameter block is copied, its counters clear, its Lots form. -/
def startQuery (q : Query) (s : State) : State :=
  match look s.ns q.nsid with
  | none => endQuery q.id 0 0 s
  | some n =>
    let p := q.pipe.bind s.pipe
    let hits := n.st.recs.filter q.scope
    let good := hits.filter fun r => !s.spansBad q.nsid r
    let p0 := p.map fun p => { p with dec := 0, tally := [], retired := 0 }
    let acc := good.foldl (fun (a : List LotRec × Option Pipe) r =>
      let b := s.storedBytes q.nsid r
      let (ok, p') := match a.2 with
        | some p => let x := p.passes b; (x.1, some x.2)
        | none => (true, none)
      (⟨q.nsid, 0, r.seq, r.era, b, ok, r.off⟩ :: a.1, p')) ([], p0)
    let lots := (cutLots acc.1.reverse [] 0).zipIdx.map fun x =>
      ({ id := s.nextLot + x.2, nsid := q.nsid, pipe := q.pipe, query := some q.id, recs := x.1, state := .waiting
         issues := 0, tried := [], emits := [], tally := [] } : Lot)
    let members := match p with
      | some p => (List.range 64).filter p.inSet
      | none => []
    let s := members.foldl (fun s k => s.modStall k (Stall.writeBytes 0x7F000 q.param)) s
    let s := { s with lots := s.lots ++ lots, nextLot := s.nextLot + lots.length }
    let s := match q.pipe, acc.2 with
      | some k, some p => { s with pipes := put s.pipes k p }
      | _, _ => s
    let s := s.modQuery q.id fun q =>
      { q with state := .running, formed := true, unrec := hits.length - good.length
               media := 2097152 * (q.extents n).length }
    let s := { s with med := s.med.touchIndex q.nsid (q.extents n) false }
    if lots.isEmpty then endQuery q.id 0 0 s else s

/-- A slotted query is paused from the moment Watch is asked for (R377). -/
def State.paused (s : State) (q : Query) : Bool := s.pwr.watch != .awake && !q.direct

/-- Queries without a pipeline start as soon as the Lots below their boundary have retired or gone. -/
def runFree (s : State) : State :=
  (s.queries.filter fun q => q.pipe.isNone && q.state == .waiting && !s.paused q).foldl (fun s q =>
    if s.lotsBelow q.start then s else startQuery q s) s

/-! Failing Record Appends (R75, R191). -/

/-- Lots of a pipeline have waited to 16 MiB (R257). -/
def latchFull (s : State) : State :=
  { s with pipes := s.pipes.map fun p => (p.1, { p.2 with full := p.2.full || s.backpressure p.1 }) }

/-- Discard the records of a command in Lots that have not retired; they count as dropped. -/
def discard (h : Nat) (s : State) : State :=
  let s := latchFull s
  let s := (s.unretired h).foldl (fun s r => outcome r.nsid r.seq false s) s
  let mine : LotRec → Bool := fun r => r.cmd == h
  let ns := s.ns.map fun n => (n.1, { n.2 with st := { n.2.st with opened := n.2.st.opened.filter fun r => !mine r } })
  let lots := s.lots.map fun l => if l.query.isSome then l else match l.state with
    | .waiting => { l with recs := l.recs.filter fun r => !mine r }
    | _ => { l with recs := l.recs.map fun r => if mine r then r.void else r }
  let lots := lots.filter fun l => !(l.recs.isEmpty && l.query.isNone)
  { s with ns := ns, lots := lots
           pipes := s.pipes.map fun p => (p.1, { p.2 with full := p.2.full && lots.any fun l => l.pipe == some p.1 })
           opens := s.opens.filter fun n => (look ns n).any fun x => !x.st.opened.isEmpty }

/-- The records of a command that are stored already in one namespace are discarded: the space is as before where nothing was stored
behind them (R84), else each leaves a fill record. -/
def unstoreIn (c : Cmd) (nsid : Nat) (s : State) : State :=
  match look s.ns nsid with
  | none => s
  | some n =>
    let seqs := (c.stored.filter fun x => x.1 == nsid).map fun x => x.2
    let offs := (n.st.recs.filter fun r => seqs.contains r.seq).map fun r => r.off
    match look c.took nsid with
    | some (next, took) =>
      if (next + took) % n.bytes == n.st.next then giveSpace nsid next took offs.contains s else discardStored nsid offs.contains s
    | none => discardStored nsid offs.contains s

/-- The records of a command that are stored already are discarded too (R75): in their source namespace they count as dropped, wherever
they were stored, and in a routed one no longer (R259). -/
def unstore (c : Cmd) (s : State) : State :=
  let s := ((c.stored.map fun x => x.1).dedup).foldl (fun s n =>
    let seqs := (c.stored.filter fun x => x.1 == n).map fun x => x.2
    let s := unstoreIn c n s
    if n = c.nsid then s else
      modNs n (fun x => { x with st := { x.st with marks := x.st.marks.filter fun m => !seqs.contains m.1 } }) s) s
  let seqs := c.stored.map fun x => x.2
  let drop : Nat × Bool → Nat × Bool := fun m => if seqs.contains m.1 then (m.1, false) else m
  modNs c.nsid (fun x => { x with st := { x.st with marks := x.st.marks.map drop } }) s

/-- A Record Append fails: every record of it is discarded, but for those stored already when a Lot of it was abandoned, whose
completion names its first sequence number (R75, R191). -/
def failAppend (h sct sc : Nat) (abandoned : Bool) (s : State) : State :=
  match s.cmd h with
  | none => s
  | some c =>
    let v := if abandoned then c.first else 0
    let s := discard h s
    let s := if abandoned then s else unstore c s
    runFree (complete h sct sc (w32 v) (w32 (v / 2 ^ 32)) [] s)

/-! Retirement (R17, R194, R258, R267). -/

/-- Raw outputs of a Lot: output number, source record and bytes. -/
def Lot.outputs (l : Lot) (stalls : Bool) : List (Nat × Nat × List Byte) :=
  if stalls then (l.emits.mergeSort fun a b => decide (a.src ≤ b.src)).map fun e => (e.out, e.src, e.bytes)
  else ((l.recs.zipIdx).filter fun r => r.1.pass).map fun r => (0, r.2, r.1.bytes)

/-- What a Lot stores: namespace, source record and bytes. -/
def State.stores (s : State) (l : Lot) : List (Nat × LotRec × List Byte) :=
  let p := l.pipe.bind s.pipe
  (l.outputs (p.any fun p => !p.gateOnly)).filterMap fun o =>
    (l.recs[o.2.1]?).bind fun r =>
      if r.nsid = 0 then none else
      match p with
      | none => some (r.nsid, r, o.2.2)
      | some p => (p.outs[o.1]?).bind fun x => if x.1 = 1 then some (x.2, r, o.2.2) else none

/-- The command of a record asked for FUA. -/
def State.fua (s : State) (r : LotRec) : Bool := (s.cmd r.cmd).any fun c => bit (c.dword 11) 30

/-- The namespace is of class Held. -/
def State.heldNs (s : State) (nsid : Nat) : Bool := (look s.ns nsid).any fun n => !n.scan

/-- A command takes space of a namespace: where the space began, and how much it is (R84). -/
def noteTook (h nsid next n : Nat) (s : State) : State :=
  s.modCmd h fun c => { c with took := put c.took nsid (match look c.took nsid with
    | some x => (x.1, x.2 + n)
    | none => (next, n)) }

/-- Store one record of a retiring Lot. -/
def storeOne (x : Nat × LotRec × List Byte) (y : Staged × State) : Staged × State :=
  let held := y.2.heldNs x.1
  let fua := y.2.fua x.2.1
  let wt := held && y.2.heldWt && !fua
  let (n, st, s) := storeRecord (!held || y.2.heldWt || fua) x.1 x.2.2 x.2.1.era y
  let s := noteTook x.2.1.cmd x.1 ((look y.2.ns x.1).elim 0 fun n => n.st.next) n (useResv x.2.1.cmd x.1 n s)
  let s := s.modCmd x.2.1.cmd fun c => { c with wt := c.wt || wt, stored := c.stored ++ [(x.1, x.2.1.seq)] }
  (st, if x.1 = x.2.1.nsid then s else outcome x.1 x.2.1.seq true s)

/-- The records of a Lot in the slots that it writes, with the fill that ends its last block in a Scan namespace (R72). -/
def stageLot (l : Lot) (s : State) : Staged × State :=
  let xs := s.stores l
  let y := xs.foldl (fun y x => storeOne x y) (([] : Staged), s)
  ((xs.map fun x => x.1).dedup.filter fun n => !s.heldNs n).foldl (fun y n =>
    let r := endBlock n y
    ((xs.filter fun x => x.1 == n).getLast?).elim r.2 fun x =>
      (r.2.1, noteTook x.2.1.cmd n 0 r.1 (useResv x.2.1.cmd n r.1 r.2.2))) y

/-- Slots that a Lot's records take in DRAM. -/
def State.lotDram (s : State) (l : Lot) : List Nat := ((stageLot l s).1.filter fun x => !x.2.2).map fun x => x.1

/-- Slots of DRAM that a Lot's records take beyond those that are dirty already. -/
def State.lotSlots (s : State) (l : Lot) : Nat := ((s.lotDram l).filter fun k => (look s.med.held k).isNone).length

/-- Held data of this many new slots is accepted into DRAM now: not while the card flushes down to a budget (R68, R159), nor while no
group takes host writes (R123, R131). -/
def State.room (s : State) (slots : Nat) : Bool :=
  !s.hu.flushing && s.med.admits && decide (s.med.held.length + slots ≤ s.budgetSlots)

/-- Combine a Tally update with a value (R238, R271): 0 ADD, 1 MAXU, 2 MINU, 3 MAXS. -/
def tallyOp (op : Nat) (a b : W64) : W64 :=
  if op = 0 then a + b else if op = 1 then (if a.toNat < b.toNat then b else a)
  else if op = 2 then (if b.toNat < a.toNat then b else a) else (if a.toInt < b.toInt then b else a)

/-- A Lot of a pipeline retires: its held updates are applied to the counters, and Record Append data is fetched again (R257). -/
def Pipe.addTally (p : Pipe) (t : List (Nat × (Nat × W64))) : Pipe :=
  { p with tally := t.foldl (fun m x => put m x.1 ((look m x.1).elim x.2.2 fun old => tallyOp x.2.1 old x.2.2)) p.tally
           retired := p.retired + 1, full := false }

/-- Pipeline STOP commands complete when no Lot of the pipeline is on a Stall or waits to retire (Table 9-2). -/
def endPipeStop (k : Nat) (s : State) : State :=
  match s.pipe k with
  | none => s
  | some p =>
    if p.stops.isEmpty || s.lots.any (fun l => l.pipe == some k && l.onStall) then s else
    p.stops.foldl (fun s h => succeed h s) (s.modPipe k fun p => { p with stops := [] })

/-- Retire an ingest Lot: its records are stored and enter the position index (R17, R166, R261). Those that are programmed are durable,
and their commands complete, when their slots are in NAND (R76). -/
def retireIngest (l : Lot) (s : State) : State :=
  let xs := s.stores l
  let w := s.med.wseq
  let nand := ((xs.filter fun x => !s.heldNs x.1 || s.heldWt || s.fua x.2.1).map fun x => x.2.1.cmd).dedup
  let (st, s) := stageLot l s
  let s := storeStage st s
  let s := nand.foldl (fun s h => s.modCmd h fun c => { c with slots := c.slots ++ s.med.waiting.filter fun i => decide (w ≤ i) }) s
  let s := ((xs.map fun x => x.1).dedup).foldl (fun s n =>
    { s with med := s.med.touchIndex n ((st.filter fun x => keyNs x.1 == n).map fun x => keyLba x.1 / 512).dedup true }) s
  let live := l.recs.filter fun r => r.nsid != 0
  let s := live.foldl (fun s r => outcome r.nsid r.seq (xs.any fun x => x.2.1.seq == r.seq) s) s
  let s := match l.pipe with
    | some k => s.modPipe k fun p => p.addTally l.tally
    | none => s
  let s := s.dropLot l.id
  (live.map fun r => r.cmd).dedup.foldl (fun s h => finishAppend h s) s

/-- A query whose next Lot no Stall will run ends there with END = 2 (R267). -/
def endDead (id : Nat) (s : State) : State :=
  match (s.queryLots id)[0]? with
  | some l => if l.state = .dead then endQuery id 2 l.lowest s else s
  | none => s

/-- Retire a scan Lot: its emits join the answer if they fit whole with the Tally section, else the query ends (R267). A query
of a pipeline that was stopped ends when its issued Lots have retired (Table 9-2). -/
def retireScan (l : Lot) (q : Query) (s : State) : State :=
  let p := l.pipe.bind s.pipe
  let bs := (l.outputs (p.any fun p => !p.gateOnly)).filter fun o => match p with
    | none => true
    | some p => (p.outs[o.1]?).any fun x => x.1 == 2
  let add := bs.flatMap fun o => o.2.2
  let len := 64 + q.out.length + add.length
  let sec := (s.sectionOf q).2.length
  let total := if sec = 0 then len else ceilDiv len 8 * 8 + sec
  let s := s.dropLot l.id
  if q.size < total then endQuery q.id 1 l.lowest s else
  let s := match l.pipe with
    | some k => s.modPipe k fun p => p.addTally l.tally
    | none => s
  let s := s.modQuery q.id fun q => { q with out := q.out ++ add, emitted := q.emitted + bs.length
                                             entered := q.entered + l.recs.length }
  let rest := s.queryLots q.id
  match q.ending with
  | some e => if e = 2 ∧ s.retiresMore q.id e then s else endQuery q.id e ((rest[0]?).elim q.start Lot.lowest) s
  | none => if rest.isEmpty then endQuery q.id 0 0 s else endDead q.id s

/-- A Lot is ready to retire: it has ended on its Stall, or needs none. -/
def State.lotReady (s : State) (l : Lot) : Bool :=
  match l.pipe.bind s.pipe with
  | some p => if p.gateOnly then p.running else (match l.state with | .done _ => true | _ => false)
  | none => l.state != .dead

/-- No Lot that must retire before this one is left: of the same query, or an ingest Lot of the same pipeline or namespace. -/
def State.lotFirst (s : State) (l : Lot) : Bool :=
  ((s.lots.filter fun x => x.query == l.query && (l.query.isSome || x.nsid == l.nsid || (l.pipe.isSome && x.pipe == l.pipe)))[0]?).any
    fun x => x.id == l.id

/-- Every command with a record in the Lot has landed whole (R75). -/
def State.lotLanded (s : State) (l : Lot) : Bool :=
  l.recs.all fun r => r.nsid == 0 || l.query.isSome || (s.cmd r.cmd).all fun c => c.phase != .landing && c.phase != .ready

/-- Retire a Lot that may. -/
def retire' (l : Lot) (s : State) : State :=
  let s := match l.state with
    | .done n => s.modStall n fun t => { t.pend 12 with stats := { t.stats with retired := t.stats.retired + 1 } }
    | _ => s
  let s := match l.query with
    | some id => match s.query id with
      | some q => retireScan l q s
      | none => s.dropLot l.id
    | none => retireIngest l s
  let s := match l.pipe with
    | some k => endPipeStop k s
    | none => s
  runFree s

/-- Some record of a Lot is programmed into NAND as the Lot retires. -/
def State.lotNand (s : State) (l : Lot) : Bool :=
  l.query.isNone && (s.stores l).any fun x => !s.heldNs x.1 || s.heldWt || s.fua x.2.1

/-- Host and ingest writes are programmed: the write window is open, and a group takes them (R123, R131, R391). -/
def State.writesOpen (s : State) : Bool := !s.windowClosed && s.med.admits

/-- LOT_RETIRE (R17, R68): a Lot whose records find no budget room waits in its place in the arrival order, and one whose
records are programmed waits for the write window and the groups (R123, R131, R392). A Lot of a paused query that no Stall holds does
not retire (R377). -/
def execLotRetire (lot : Nat) (s : State) : Host.Outcome State Fault Refusal :=
  done (match s.lot lot with
  | none => s
  | some l =>
    if !s.operating || s.pwr.watch = .asleep || !s.lotReady l || !s.lotFirst l || !s.lotLanded l then s else
    if !l.onStall && (l.query.bind s.query).any s.paused then s
    else if s.lotNand l && !s.writesOpen then s
    else if l.query.isSome ∨ s.lotDram l = [] ∨ (s.waitq.isEmpty ∧ s.room (s.lotSlots l)) then retire' l s
    else if s.waitq.contains (.lot lot) then s
    else { s with waitq := s.waitq ++ [.lot lot] })

/-- LOT_CLOSE_IDLE (R16). -/
def execLotCloseIdle (nsid : Nat) (s : State) : Host.Outcome State Fault Refusal :=
  done (if s.operating then closeLot nsid s else s)

/-- The Stall that R23 picks of those that qualify, a Stall being idle while it holds no Lot; one that a STOP waits for gets no new Lot (Table 7-12). -/
def pickStall (s : State) (ns : List Nat) : Option Nat :=
  (ns.filter fun n => decide ((s.stall n).lots.length < 2) && (s.stall n).stops.isEmpty).foldl (fun best n =>
    match best with
    | none => some n
    | some b =>
      let x := s.stall n
      let y := s.stall b
      if x.lots.length < y.lots.length ∨ (x.lots = [] ∧ y.lots = [] ∧ x.idleAt < y.idleAt) then some n else some b) none

/-- A Lot that no Stall will run: each Record Append with a record in it ends with STALL_FAULT (R191, R192, R249), and a query
ends at it, once the Lots formed before it have retired (R266, R267). -/
def failLot (l : Lot) (abandoned : Bool) (s : State) : State :=
  match l.query with
  | some id => endDead id (s.modLot l.id fun l => { l with state := .dead })
  | none =>
    let s := ((l.recs.filter fun r => r.nsid != 0).map fun r => r.cmd).dedup.foldl (fun s h => failAppend h 7 0x87 abandoned s) s
    s.dropLot l.id

/-- LOT_ISSUE (R17, R23, R192, R249). A Stall that faulted on the Lot does not get it again; where the set has no other that
takes Lots, the Lot ends as under R192 (DESIGN CHOICE, notes/assumptions/79.md). In a thermal shutdown only Lots of begun Record Append commands are issued (R394), and on
the way to Watch none of a slotted query (R377). -/
def execLotIssue (lot : Nat) (s : State) : Host.Outcome State Fault Refusal :=
  done (match s.lot lot with
  | none => s
  | some l =>
    match l.pipe.bind s.pipe with
    | none => s
    | some p =>
      let first := ((s.lots.filter fun x => x.pipe == l.pipe && x.state == .waiting)[0]?).any fun x => x.id == lot
      if !s.operating || s.pwr.watch = .asleep || l.state != .waiting || !first || p.gateOnly || !p.running ||
          (s.therm.shutting && l.query.isSome) ||
          (l.query.bind s.query).any s.paused then s
      else if ((s.takers p).filter fun n => !l.tried.contains n).isEmpty then failLot l false s
      else match pickStall s ((s.takers p).filter fun n => !l.tried.contains n) with
        | none => s
        | some n =>
          let empty := (s.stall n).lots.isEmpty
          let s := latchFull s
          let s := s.modLot lot fun l => { l with state := .issued n }
          let s := s.modStall n fun t => { t with lots := t.lots ++ [lot] }
          if empty then startLot n s else s)

/-! Faults of a Stall (R191, R243). Causes: 1 ILLEGAL, 2 ACCESS, 3 ECC, 4 BUDGET, 5 UNIT. -/

/-- A Lot that faulted on its second issue is abandoned (R191). -/
def abandon (l : Lot) (s : State) : State := failLot l true (raiseFault 0x25 3 s)

/-- A query that is to end, and has no Lot to retire any more, ends. -/
def endIdle (id : Nat) (s : State) : State :=
  match s.query id with
  | some q => match q.ending with
    | some e => if s.retiresMore id e then s else endQuery id e (s.resumeOf q) s
    | none => s
  | none => s

/-- A Lot goes back to the dispatcher: one of a query that has ended is dropped, and one of a STOPPED ingest pipeline ends
(R17, R249). -/
def giveBack (id : Nat) (by_ : Option Nat) (s : State) : State :=
  match s.lot id with
  | none => s
  | some l =>
    let s := s.modLot id fun l => l.back by_
    match l.query with
    | some q => if (s.query q).isNone then s.dropLot id else endIdle q s
    | none => if (l.pipe.bind s.pipe).any (fun p => !p.running) then failLot l false s else s

/-- The unstarted Lot of a Stall goes back to the dispatcher (R190, R191). -/
def returnSecond (n : Nat) (s : State) : State :=
  let t := s.stall n
  (t.lots.drop 1).foldl (fun s id => giveBack id none s) (s.setStall n { t with lots := t.lots.take 1 })

/-- STOP commands of a Stall whose running Lot has ended complete (Table 7-12). -/
def endStops (n : Nat) (s : State) : State :=
  let hs := (s.stall n).stops
  let s := s.modStall n fun t => { t with stops := [] }
  hs.foldl (fun s h => if (List.range 64).any (fun k => (s.stall k).stops.contains h) then s else succeed h s) s

/-- Bytes of the record that a Stall works on. -/
def State.curRecord (s : State) (n : Nat) : List Byte :=
  let t := s.stall n
  match (t.lots[0]?).bind s.lot with
  | some l => ((l.recs[t.rec_]?).map fun r => r.bytes).getD []
  | none => []

/-- k bytes of the window from an offset: bytes past window byte 127 or past the record read zero (R221). -/
def State.window (s : State) (n off k : Nat) : List Byte :=
  let wp := (s.stall n).core.wp
  let r := s.curRecord n
  (List.range k).map fun i => if off + i < 128 then (r[wp + off + i]?).getD 0 else 0

/-- A Lot leaves a Stall: its elapsed cycles count as busy, and their ratio to its budget (R219). -/
def Stall.countLot (t : Stall) : Stall :=
  if t.lots.isEmpty then t else
  { t with stats := { t.stats with busy := t.stats.busy + t.elapsed
                                   worst := max t.stats.worst (if t.budget = 0 then 0 else 256 * t.elapsed / t.budget) } }

/-- A Stall faults. w0 to w3 are those of the record it stopped in, at a record boundary those of the last one (R202). -/
def stallFault (n cause : Nat) (s : State) : State :=
  let t := s.stall n
  let running := t.lots[0]?
  let s := returnSecond n s
  let s := s.modStall n fun t => { t.countLot with
    state := .faulted, slow := false, cause := cause, faultPc := t.core.pc, lots := [], stage := .idle, call := none
    porterFault := none, nsOuts := [], dbgW := if t.stage == .idle then t.dbgW else s.window n 0 128
    moves := t.moves.filter fun m => match m.kind with | .toCard .. => true | .fromCard .. => true | _ => false
    stats := { t.countLot.stats with faulted := t.stats.faulted + (if running.isSome then 1 else 0) } }
  let s := raiseStall 0 n (cause - 1) s
  let s := match running with
    | none => s
    | some id =>
      match s.lot id with
      | none => s
      | some l =>
        if 2 ≤ l.issues ∧ (l.query.all fun q => (s.query q).isSome) then abandon l s else giveBack id (some n) s
  endStops n (match t.lots with | [] => s | _ => match s.pipeOf n with | some k => endPipeStop k s | none => s)

/-- BUDGET (R190). -/
def execBudget (n : Fin 64) (s : State) : Host.Outcome State Fault Refusal :=
  let t := s.stall n.val
  done (if s.operating && t.state == .running && (t.stage == .pred || t.stage == .xform) then stallFault n.val 4 s else s)

/-- A Stall is flagged SLOW: the unstarted Lot goes back (R190). -/
def flagSlow (n : Nat) (s : State) : State :=
  let s := returnSecond n s
  let s := s.modStall n fun t => { t with slow := true, elapsed := max t.elapsed (4 * t.budget + 1)
                                          stats := { t.stats with slows := t.stats.slows + 1 } }
  raiseStall 0 n 6 s

/-- SLOW (R190). -/
def execSlow (n : Fin 64) (s : State) : Host.Outcome State Fault Refusal :=
  let t := s.stall n.val
  done (if !s.operating || t.state != .running || t.lots.isEmpty || t.slow then s else flagSlow n.val s)

/-- The parser gives a record to Stall Code: it passed gate and decimator, is no fill record, and its header's CRC-32C passes
(R186). -/
def LotRec.parsed (r : LotRec) : Bool := r.pass && recType r.bytes != 0 && headerOk r.bytes

/-- LOT_END (R190): every record has been processed, every emit has landed, which the elapsed count waits for, and no handler
runs. A Porter fault not yet raised is raised here (R237), and a Stall whose count has passed the mark is flagged SLOW by now (R190). -/
def execLotEnd (n : Fin 64) (s : State) : Host.Outcome State Fault Refusal :=
  let t := s.stall n.val
  done (match t.lots with
  | [] => s
  | id :: _ =>
    match s.lot id with
    | none => s
    | some l =>
      let more := (l.recs.drop t.rec_).any LotRec.parsed
      let emits := t.moves.any fun m => match m.kind with | .toCard .. => false | .fromCard .. => false | _ => true
      if !s.operating || t.state != .running || t.stage != .idle || more || emits || !t.handlers.isEmpty then s
      else match t.porterFault with
        | some c => stallFault n.val c s
        | none =>
          let bytes := ((l.recs.filter fun r => r.pass).map fun r => r.bytes.length).foldl (· + ·) 0
          let outb := (l.emits.map fun e => e.bytes.length).foldl (· + ·) 0
          let s := s.modLot id fun l => { l with state := .done n.val }
          let (k, s) := if l.emits.isEmpty then (0, s) else (Config.waitCycles s.fresh, s.take.2)
          let s := s.modStall n.val fun t => { t with elapsed := t.elapsed + k }
          let s := if !(s.stall n.val).slow && (s.stall n.val).isSlow then flagSlow n.val s else s
          let s := s.modStall n.val fun t => { t.countLot with lots := t.lots.drop 1, stats := { t.countLot.stats with
            inBytes := t.stats.inBytes + bytes, outBytes := t.stats.outBytes + outb } }
          if t.stops.isEmpty then startLot n.val s
          else
            endStops n.val (s.modStall n.val fun t => { t with state := .stopped, slow := false, idleAt := s.now }))

/-- Start a stage: the window at byte 0, predicates and stacks cleared, 2 cycles (R222). -/
def Stall.enter (t : Stall) (st : Stage) (pc cycles : Nat) : Stall :=
  { t with stage := st, cycles := cycles + 2, elapsed := t.elapsed + 2
           core := { t.core with wp := 0, p := 0, loops := [], calls := [], pc := pc } }

/-- RECORD_STAGE_START (R186, R222): the next record that the parser gives enters the Predicate stage, or the kept
one the Transform stage. -/
def execRecordStageStart (n : Fin 64) (s : State) : Host.Outcome State Fault Refusal :=
  let t := s.stall n.val
  done (match t.lots, t.image with
  | id :: _, some im =>
    match s.lot id with
    | none => s
    | some l =>
      if !s.operating || s.pwr.watch = .asleep || t.state != .running || !t.handlers.isEmpty then s
      else match t.stage, im.xform with
        | .kept, some x => s.setStall n.val (t.enter .xform x t.cycles)
        | .idle, _ =>
          match ((l.recs.zipIdx.drop t.rec_).filter fun r => r.1.parsed)[0]? with
          | none => s
          | some r => s.setStall n.val ({ t with rec_ := r.2, nsOuts := [] }.enter .pred im.pred 0)
        | _, _ => s
  | _, _ => s)

/-- An Arc Query of a pipeline that was fetched before another has not been queued yet (R263). -/
def State.queryBefore (s : State) (pipe id : Nat) : Bool :=
  s.nv.inflight.any fun c => c.opc == 0x82 && c.qid != 0 && c.phase == .ready && decide (c.h < id) && fld (c.dword 10) 7 0 == pipe

/-- QUERY_START (R263, R264). Queries without a pipeline that waited for the way out of Watch start too. -/
def execQueryStart (pipe : Fin 32) (s : State) : Host.Outcome State Fault Refusal :=
  let mine := s.queries.filter fun q => q.pipe == some pipe.val
  done (if !s.operating || s.pwr.watch = .asleep then s else runFree <| match s.pipe pipe.val with
  | none => s
  | some p =>
    if !p.running || mine.any (fun q => q.state == .running) then s else
    match (mine.filter fun q => q.state == .waiting)[0]? with
    | none => s
    | some q => if s.paused q || s.lotsBelow q.start || s.queryBefore pipe.val q.id then s else startQuery q s)

/-- INDEX_REBUILD_DONE (R262). -/
def execIndexRebuildDone (s : State) : Host.Outcome State Fault Refusal :=
  done (if s.operating && s.pwr.watch != .asleep then
    { s with ns := s.ns.map fun n => (n.1, { n.2 with st := { n.2.st with unindexed := [] } }) } else s)

/-- OP_TRANSITION_END (R212). -/
def execOpTransitionEnd (s : State) : Host.Outcome State Fault Refusal := done (if s.running then endTransition s else s)

end Sys2Proof.Machine
end

