-- ==== Sys2Proof/Machine/Ingest.lean ====
section
/-! DEFINITION. Records of a Record Append as they land (R30 to R33, R73, R75, R256): stamping, the checks of Table 3-7, and
the open Lot. -/

namespace Sys2Proof.Machine

/-- Buffer length of a Record Append. -/
def Cmd.nbytes (c : Cmd) : Nat := (c.dword 10).toNat

/-- Bytes of records. -/
def recBytes (rs : List LotRec) : Nat := (rs.map fun r => r.bytes.length).foldl (· + ·) 0

/-- Stamping moves to another era: an era record is made (R33). -/
def noteEra (s : State) : State :=
  let e := s.bcn.curEra
  if e = s.bcn.era then s else
  { s with bcn := { s.bcn with era := e, eraBound := s.bcn.seq }
           med := { s.med with eras := (e, s.bcn.seq) :: s.med.eras } }

/-- The status of a record's checks (R75, Table 3-7). `left` is what the buffer holds from its first byte, `n` the records
before it. -/
def recordStatus (c : Cmd) (n : Ns) (up : Bool) (b : List Byte) (left : Nat) : Option (Nat × Nat) :=
  let len := recLen b
  let want := fld (c.dword 11) 15 0
  if recVersion b ≠ 1 ∨ recType b = 0 ∨ len < 32 ∨ left < len ∨ (0 < left - len ∧ left - len < 32) ∨
      (left = len ∧ want ≠ 0 ∧ want ≠ c.count + 1) then some (0, 0x02)
  else if n.maxRec < len then some (7, 0x8A)
  else if bit (c.dword 11) 31 && isFaultStamp (recStamp b) then some (7, 0x86)
  else if !up then some (7, 0x87)
  else none

/-- A record joins the open Lot of its namespace, which closes before it when it would pass 256 KiB and after it when it is
full (R16). -/
def joinLot (r : LotRec) (s : State) : State :=
  let open_ : Nat := (look s.ns r.nsid).elim 0 fun n => recBytes n.st.opened
  let s := if open_ ≠ 0 ∧ 262144 < open_ + r.bytes.length then closeLot r.nsid s else s
  let s := modNs r.nsid (fun n => { n with st := { n.st with opened := n.st.opened ++ [r] } }) s
  let s := { s with opens := if s.opens.contains r.nsid then s.opens else s.opens ++ [r.nsid] }
  let now_ : Nat := (look s.ns r.nsid).elim 0 fun n => recBytes n.st.opened
  if 262144 ≤ now_ then closeLot r.nsid s else s

/-- The header of the next record of a command has landed: it is stamped, takes its sequence number, and is checked. -/
def headerLands (c : Cmd) (n : Ns) (s : State) : State :=
  let nsid := c.nsid
  let left := c.nbytes - c.off
  let b0 := slice c.sub.buf c.off (max 32 (min left (recLen (slice c.sub.buf c.off 32))))
  let (stamp, s) := stampNow s.now s
  let s := noteEra s
  let seq := s.bcn.seq
  let b := stampRecord b0 stamp.toNat seq (s.bcn.arcState % 2 ^ 32)
  let s := { s with bcn := { s.bcn with seq := seq + 1 } }
  let s := wrote (unclean s)
  let s := s.modCmd c.h fun x => { x with begun := true, first := if x.count = 0 then seq else x.first }
  let pipe := s.ingest nsid
  match recordStatus c n (pipe.all fun p => s.pipeUp p.2) b left with
  | some (sct, sc) => failAppend c.h sct sc false (outcome nsid seq false s)
  | none =>
    let (pass, s) := match pipe with
      | none => (true, s)
      | some (k, p) =>
        let r := p.passes b
        (r.1, s.modPipe k fun _ => r.2)
    let s := joinLot ⟨nsid, c.h, seq, s.bcn.curEra, b, pass, 0⟩ s
    s.modCmd c.h fun x => { x with off := x.off + b.length, count := x.count + 1
                                   phase := if left = b.length then .lots else x.phase }

/-- A command has begun: data has moved, or its first media operation has been issued. A map page that a Read waits for
(R125) is not a media operation of the Read: such a Read has not begun (DESIGN CHOICE, notes/assumptions/75.md). -/
def Cmd.started (c : Cmd) : Bool :=
  match c.phase with
  | .ready => c.begun
  | .room => false
  | .landing => decide (0 < c.off)
  | .mark => false
  | .event => false
  | .watch => false
  | .deleting => false
  | _ => true

/-- The records of a command can land now: no other command is part-way in landing (R73), it has a Porter (R11), no backpressure of the source's
running pipeline holds it (R249, R257), the sequence reservation covers the next number (R32), and in a thermal shutdown it has begun (R394). -/
def State.canLand (s : State) (c : Cmd) : Bool :=
  s.operating && s.pwr.watch != .asleep && c.phase == .landing && s.carried c &&
    (s.nv.inflight.all fun x => x.h == c.h || x.phase != .landing || x.off == 0) &&
    (!s.therm.shutting || c.started) &&
    ((s.ingest c.nsid).all fun p => !s.pipeUp p.2 || (!p.2.full && !s.backpressure p.1)) && decide (s.bcn.seq < s.bcn.seqLimit)

/-- RECORD_HEADER_LANDS (R30). -/
def execRecordHeaderLands (t : Nat) (h : Nat) (s : State) : Host.Outcome State Fault Refusal :=
  let s := s.at_ t
  done (match s.cmd h with
  | none => s
  | some c =>
    match look s.ns c.nsid with
    | none => s
    | some n => if s.canLand c then headerLands c n s else s)

end Sys2Proof.Machine
end

