-- ==== Sys2Proof/Machine/Queues.lean ====
section
/-! DEFINITION. Queues, fetching and range locks (04_host_queues.md): doorbells, arbitration, the checks of an I/O command at
fetch, and how commands are stopped. -/

namespace Sys2Proof.Machine

/-! Namespaces as the host sees them. -/

/-- The namespaces form the Compat set (R417). -/
def State.compatSet (s : State) : Bool := s.ns.length == 1 && s.ns.all fun x =>
  x.1 == 1 && !x.2.stream && !x.2.scan && !x.2.ring && x.2.encrypt && x.2.nsze == 3000000000 && x.2.ncap == 3000000000

/-- An active namespace: attached, and in Compat mode one of the Compat set (R418). -/
def State.active (s : State) (nsid : Nat) : Option Ns :=
  if s.compat && !s.compatSet then none else
  match look s.ns nsid with
  | some n => if n.attached then some n else none
  | none => none

/-! Range locks (R101 to R103). -/

/-- Fields of a block command: first LBA and number of blocks. -/
def Cmd.slba (c : Cmd) : Nat := c.q64 10
def Cmd.blocks (c : Cmd) : Nat := fld (c.dword 12) 15 0 + 1

/-- Ranges of Dataset Management: first LBA and length; with Deallocate clear there are none. -/
def Cmd.ranges (c : Cmd) : List (Nat × Nat) :=
  if bit (c.dword 11) 2 then
    ((List.range (fld (c.dword 10) 7 0 + 1)).map fun i => (u64At c.sub.buf (16 * i + 8), u32At c.sub.buf (16 * i + 4))).filter
      fun r => r.2 != 0
  else []

/-- Commands of block namespaces that take locks: reading ones, and writing ones. -/
def lockShared (opc : Nat) : Bool := opc == 0x02 || opc == 0x05 || opc == 0x0C
def lockExcl (opc : Nat) : Bool := opc == 0x01 || opc == 0x08

/-- The locks that a command takes. -/
def locksOf (s : State) (c : Cmd) : List Lock :=
  if c.qid = 0 ∨ !((s.active c.nsid).any fun n => !n.stream) then []
  else if lockShared c.opc then [⟨c.nsid, c.slba, c.slba + c.blocks - 1, false⟩]
  else if lockExcl c.opc then [⟨c.nsid, c.slba, c.slba + c.blocks - 1, true⟩]
  else if c.opc = 0x09 then c.ranges.map fun r => ⟨c.nsid, r.1, r.1 + r.2 - 1, true⟩
  else []

/-- Two locks overlap. -/
def Lock.overlaps (x y : Lock) : Bool :=
  x.nsid == y.nsid && decide (x.lo ≤ y.hi) && decide (y.lo ≤ x.hi) && (x.excl || y.excl)

/-- None of a command's locks overlaps a lock of a command fetched before it. -/
def State.lockFree (s : State) (c : Cmd) : Bool :=
  s.nv.inflight.all fun x => decide (c.h ≤ x.h) || x.locks.all fun l => c.locks.all fun m => !l.overlaps m

/-- Entries of the range-lock table in use; it has 1,024 (Table 1-1). -/
def State.locksUsed (s : State) : Nat := (s.nv.inflight.map fun c => c.locks.length).foldl (· + ·) 0

/-! Checks at fetch (R66, R94, R339 to R343, R416, Tables 3-7 and 9-9). -/

/-- Bytes of host data and metadata of one block. -/
def Ns.hostBlock (n : Ns) (pract : Bool) : Nat := if n.fmt = 1 ∧ n.ext ∧ !(pract && n.prot != 0) then 4104 else 4096

/-- I/O opcodes that the mode supports. -/
def ioOpcode (compat : Bool) (opc : Nat) : Bool :=
  [0x00, 0x01, 0x02, 0x05, 0x08, 0x09, 0x0C].contains opc || (!compat && [0x81, 0x82, 0x85, 0x86, 0x89, 0x8A].contains opc)

def Cmd.allZero (c : Cmd) (ks : List Nat) : Bool := ks.all fun k => c.dword k == 0

/-- The NSID suits the command. -/
def nsOk (s : State) (c : Cmd) : Bool :=
  let n := s.active c.nsid
  let stream := n.any fun x => x.stream
  let op := c.opc
  if s.compat && !s.compatSet then false
  else if op = 0x00 then n.isSome || c.nsid == 0xFFFFFFFF
  else if op = 0x01 ∨ op = 0x08 ∨ op = 0x09 then n.any fun x => !x.stream
  else if op = 0x02 ∨ op = 0x05 ∨ op = 0x0C then n.isSome
  else if op = 0x89 then c.nsid == 0xFFFFFFFF
  else if op = 0x8A then
    let kind := fld (c.dword 10) 3 0
    if 3 < kind then true else if kind ≤ 1 then stream else c.nsid == 0xFFFFFFFF
  else stream

/-- Fields of Arc Query. -/
def Cmd.qPipe (c : Cmd) : Nat := fld (c.dword 10) 7 0
def Cmd.qRel (c : Cmd) : Bool := bit (c.dword 10) 8
def Cmd.qPos (c : Cmd) : Bool := bit (c.dword 10) 9
def Cmd.qWords (c : Cmd) : Nat := fld (c.dword 10) 25 16
def Cmd.qEra (c : Cmd) : Nat := fld (c.dword 10) 31 26
/-- The slotted form: no bit of Table 9-6 holds SLOTTED, and a slotted query's DPTR is 0 (DEDUCED,
notes/assumptions/18.md). -/
def Cmd.slotted (c : Cmd) : Bool := c.allZero [6, 7, 8, 9]

/-- Arc Query: its fields are legal (Table 9-9). -/
def queryFields (s : State) (c : Cmd) : Bool :=
  let size := (c.dword 11).toNat
  let p := s.pipe c.qPipe
  let words := c.qWords
  let ptr := c.q64 4
  (c.qPipe == 0xFF || p.any fun p => p.scan) &&
  (if c.slotted then size % 65536 == 0 && decide (65536 ≤ size ∧ size ≤ 67108864)
   else size % 64 == 0 && decide (128 ≤ size ∧ size ≤ 2097152)) &&
  decide (words ≤ 512) && ptr % 4096 == 0 && (words != 0 || ptr == 0) &&
  (!c.qPos || (decide (2 ≤ words) && decide (u32At c.sub.buf 0 < s.bcn.cpc) && decide (u32At c.sub.buf 4 < s.bcn.cpc))) &&
  (!c.qRel || (decide (c.q64 12 ≤ 0xFFFFFE) && c.q64 14 == 0 && c.qEra == 0)) &&
  (p.all fun p => (s.active c.nsid).all fun n => decide (n.maxRec ≤ p.maxRec))

/-- An SGL descriptor that the card supports: Data Block, Segment or Last Segment by address, dword-aligned (R94). -/
def sglOk (d : Sgl) : Bool :=
  [0x00, 0x20, 0x30].contains d.id.toNat && d.addr.toNat % 4 == 0 && d.len.toNat % 4 == 0

/-- SGL1 of a command, in dwords 6 to 9. -/
def Cmd.sgl1 (c : Cmd) : Sgl := ⟨w64 (c.q64 6), c.dword 8, b8 (fld (c.dword 9) 31 24)⟩

/-- The data pointer is one that the card supports: PRP, or an SGL for the data alone (R94). An unsupported one is Invalid
Field (DESIGN CHOICE, notes/assumptions/75.md: the spec names no status). -/
def Cmd.pointerOk (c : Cmd) : Bool :=
  let psdt := fld (c.dword 0) 15 14
  psdt == 0 || (psdt == 1 && sglOk c.sgl1 && c.sub.sgl.all sglOk)

/-- The fields of an I/O command are legal; those of Fetch Result and Release Result are checked after the NSID, when they
execute. Reserved bits of Index Lookup are ignored (R7: Table 3-7 lists none for it). -/
def fieldsOk (s : State) (c : Cmd) : Bool :=
  let op := c.opc
  let d10 := c.dword 10
  let n := s.active c.nsid
  fld (c.dword 0) 9 8 == 0 && c.pointerOk &&
  (if op = 0x01 ∨ op = 0x02 ∨ op = 0x05 then
     n.all fun x => decide (c.blocks * x.hostBlock (bit (c.dword 12) 29) ≤ 2097152)
   else if op = 0x81 then
     decide (32 ≤ d10.toNat ∧ d10.toNat ≤ 2097152) && fld (c.dword 11) 29 16 == 0 && c.allZero [2, 3, 4, 5, 12, 13, 14, 15]
   else if op = 0x82 then queryFields s c
   else if op = 0x89 then c.allZero [10, 11, 12, 13, 14, 15]
   else if op = 0x8A then
     let kind := fld d10 3 0
     let nb := (c.dword 11).toNat
     decide (kind ≤ 3) && nb % 32 == 0 && decide (64 ≤ nb ∧ nb ≤ 2097152) &&
       (kind == 0 || kind == 3 || c.allZero [2, 3, 4])
   else true)

/-- The LBAs of a block command lie in the namespace. -/
def lbasOk (s : State) (c : Cmd) : Bool :=
  let size := (s.active c.nsid).elim 0 fun n => n.nsze
  if lockShared c.opc || lockExcl c.opc then decide (c.slba + c.blocks ≤ size)
  else if c.opc = 0x09 then c.ranges.all fun r => decide (r.1 + r.2 ≤ size)
  else true

/-- Check several ranges: of the denied parts the one at the lowest LBA is captured (R341). -/
def rangesAccess (m : Master) (nsid : Nat) (needs : List Nat) (rs : List (Nat × Nat)) (s : State) : Bool × State :=
  if s.acc.mismatch && !rs.isEmpty then (false, s.unmatched) else
  let bad := rs.filterMap fun r => s.acc.active.mediaDenied m nsid needs r.1 r.2
  match bad with
  | [] => (true, s)
  | x :: xs =>
    let (lba, len, v) := xs.foldl (fun b y => if y.1 < b.1 then y else b) x
    (false, capture (violKind true (accessOf (needs.headD 1)) nsid len) lba m v s)

/-- A routed namespace: a pipeline's output names it, and it is not that pipeline's source (R253). -/
def State.routed (s : State) (nsid : Nat) : Bool :=
  s.pipes.any fun p => (p.2.scan || p.2.source != nsid) && p.2.outs.toList.any fun o => o.1 == 1 && o.2 == nsid

/-- The media permission of an I/O command (Table 12-5, R253); a denial is captured. -/
def ioAccess (c : Cmd) (s : State) : Bool × State :=
  let m := Master.queue c.qid
  let nsid := c.nsid
  let size := (s.active nsid).elim 0 fun n => n.nsze
  let op := c.opc
  if lockShared op then mediaAccess m nsid [1] c.slba (c.slba + c.blocks) s
  else if lockExcl op then mediaAccess m nsid [2] c.slba (c.slba + c.blocks) s
  else if op = 0x09 then rangesAccess m nsid [2] (c.ranges.map fun r => (r.1, r.1 + r.2)) s
  else if op = 0x81 then
    if s.routed nsid then (false, capture (violKind true 3 nsid size) 0 m (denial 2 0) s)
    else mediaAccess m nsid [4] 0 size s
  else if op = 0x82 then
    let r := mediaAccess m nsid [8] 0 size s
    let other := (s.pipe c.qPipe).any fun _ => s.qWorld 0 != s.qWorld c.qid
    (r.1 && !other, r.2)
  else if op = 0x8A ∧ fld (c.dword 10) 3 0 ≤ 1 then mediaAccess m nsid [1, 8] 0 size s
  else if op = 0x00 ∧ nsid ≠ 0xFFFFFFFF then
    if s.qWorld c.qid == s.nsWorld nsid then (true, s)
    else (false, capture (violKind true 1 nsid 0) 0 m (denial 8 0) s)
  else (true, s)

/-- The checks of an I/O command at fetch: the first that fails decides. -/
def checkIo (c : Cmd) (s : State) : Option (Nat × Nat) × State :=
  if !ioOpcode s.compat c.opc then (some (0, 0x01), s)
  else if !nsOk s c then (some (0, 0x0B), s)
  else if !fieldsOk s c then (some (0, 0x02), s)
  else if !lbasOk s c then (some (0, 0x80), s)
  else
    let r := ioAccess c s
    (if r.1 then none else some (7, 0x82), r.2)

/-- Admin opcodes that the mode supports (Table 4-5, R416). -/
def adminOpcode (compat : Bool) (opc : Nat) : Bool :=
  [0x00, 0x01, 0x02, 0x04, 0x05, 0x06, 0x08, 0x09, 0x0A, 0x0C, 0x10, 0x11, 0x14, 0x80, 0x84, 0xC9, 0xCA, 0xCC].contains opc ||
    (!compat && [0x0D, 0x15, 0xC1, 0xC2, 0xC5].contains opc)

/-- The operation that an admin command selects is one that the card has (Table 4-5, R208, R251, R348, R354). -/
def adminOp (c : Cmd) : Bool :=
  let d := c.dword 10
  if c.opc = 0x09 then !bit d 31 && [0x01, 0x02, 0x04, 0x05, 0x06, 0x07, 0x08, 0x09, 0x0A, 0x0B].contains (fld d 7 0)
  else if c.opc = 0x0D ∨ c.opc = 0x15 then decide (fld d 3 0 ≤ 1)
  else if c.opc = 0x10 then decide (fld d 5 3 ≤ 2)
  else if c.opc = 0x14 then fld d 3 0 == 1
  else if c.opc = 0x84 then fld d 2 0 == 2 || fld d 2 0 == 4
  else if c.opc = 0xC2 then decide (fld d 3 0 ≤ 5)
  else if c.opc = 0xC5 then decide (fld d 11 8 ≤ 5)
  else if c.opc = 0xC9 then decide (fld d 3 0 ≤ 5)
  else true

/-- Admin commands take PRP, no fused operations, and a fifth Abort is refused (R94, R95). -/
def checkAdmin (c : Cmd) (s : State) : Option (Nat × Nat) :=
  if !adminOpcode s.compat c.opc then some (0, 0x01)
  else if fld (c.dword 0) 9 8 ≠ 0 ∨ fld (c.dword 0) 15 14 ≠ 0 then some (0, 0x02)
  else if !adminOp c then some (0, 0x02)
  else if c.opc = 0x08 ∧ 4 ≤ (s.nv.inflight.filter fun x => x.qid == 0 && x.opc == 0x08).length then some (1, 0x03)
  else none

/-! Doorbells (R89, R113, Table 13-4). -/

/-- A Delete I/O Submission Queue has stopped a queue. -/
def State.deleting (s : State) (q : Nat) : Bool :=
  s.nv.inflight.any fun c => c.phase == .deleting && fld (c.dword 10) 15 0 == q

/-- A queue entry of zeros: what a tail doorbell brings beyond the entries given. -/
def zeroSubmission : Submission := ⟨Vector.replicate 16 0, [], [], []⟩

/-- A write of SQyTDBL. A queue whose Delete is in progress is treated as one that does not exist (DESIGN CHOICE,
notes/assumptions/75.md). -/
def tailDoorbell (y v : Nat) (es : List Submission) (s : State) : State :=
  match look s.nv.sqs y with
  | none => asyncEvent 0 0 1 (raiseFault 8 5 s)
  | some q =>
    if s.deleting y then asyncEvent 0 0 1 (raiseFault 8 5 s)
    else if q.size ≤ v then asyncEvent 0 1 1 s
    else
      let new := (List.range ((v + q.size - q.tail) % q.size)).map fun i => (es[i]?).getD zeroSubmission
      { s with nv := { s.nv with sqs := put s.nv.sqs y { q with tail := v, waiting := q.waiting ++ new } } }

/-- A write of CQyHDBL. -/
def headDoorbell (y v : Nat) (s : State) : State :=
  match look s.nv.cqs y with
  | none => asyncEvent 0 0 1 (raiseFault 8 5 s)
  | some q =>
    let n := (v + q.size - q.head) % q.size
    if q.size ≤ v ∨ q.posted.length < n then asyncEvent 0 1 1 s
    else { s with nv := { s.nv with cqs := put s.nv.cqs y { q with head := v, posted := q.posted.drop n } } }

/-- A doorbell of queue y: with no such queue, also while the controller is not ready, it raises the event (R89). -/
def doorbell (head : Bool) (y : Nat) (value : W32) (entries : List Submission) (s : State) : State :=
  let v := fld value 15 0
  if head then headDoorbell y v s else tailDoorbell y v entries s

/-- DOORBELL_WRITE (R89): a doorbell in Watch wakes the card, and is stored (R113, Table 14-2). -/
def execDoorbellWrite (head : Bool) (y : Byte) (value : W32) (entries : List Submission) (s : State) :
    Host.Outcome State Fault Refusal :=
  done (if !s.pwr.mainOn || !s.pwr.link then s else
    let s := doorbell head y.toNat value entries s
    if s.pwr.watch = .asleep then wake 1 s else s)

/-! Arbitration (R98, R99). -/

/-- A completion queue has a free entry for one more command (R99). -/
def State.cqFree (s : State) (cq : Nat) : Bool :=
  (look s.nv.cqs cq).any fun q =>
    let held := (s.nv.inflight.filter fun c => (look s.nv.sqs c.qid).any fun x => x.cq == cq).length
    decide (q.posted.length + held + 1 < q.size)

/-- A queue has a command that can be fetched. -/
def State.fetchable (s : State) (q : Nat) : Bool :=
  (look s.nv.sqs q).any fun x => !x.waiting.isEmpty && s.cqFree x.cq && !s.deleting q

/-- I/O queues with a command to fetch, of a priority (0 urgent to 3 low), or of any. -/
def State.ready_ (s : State) (prio : Option Nat) : List Nat :=
  (s.nv.sqs.filter fun q => q.1 != 0 && (prio.all fun p => q.2.prio == p) && s.fetchable q.1).map fun q => q.1

/-- The next queue in QID order after one. -/
def nextQueue (last : Nat) (qs : List Nat) : Option Nat := (qs.find? fun q => decide (last < q)).orElse fun _ => qs.head?

/-- Commands of one turn: the Arbitration Burst, 0 for no limit. -/
def State.burst (s : State) : Nat := if fld s.nv.feat.arb 2 0 = 7 then 0 else 2 ^ fld s.nv.feat.arb 2 0

/-- One fetch from a class in turns: the queue, the turn left, and the queue whose turn ended last. `len` is the length of a
turn that begins now, 0 for no limit. A turn of the urgent or round-robin queues lasts until its length is used or another
queue of the class is fetched from: with every queue of the class empty in between, it goes on with what is left of it
(DESIGN CHOICE, notes/assumptions/75.md). -/
def takeTurn (len : Nat → Nat) (last : Nat) (turn : Option (Nat × Nat)) (qs : List Nat) : Option (Nat × Option (Nat × Nat) × Nat) :=
  let go : Nat → Nat → Nat × Option (Nat × Nat) × Nat := fun q left => if left = 1 then (q, none, q) else (q, some (q, left - 1), last)
  match turn with
  | some (q, left) =>
    if qs.contains q then some (go q left)
    else (nextQueue q qs).map fun x => go x (len x)
  | none => (nextQueue last qs).map fun x => go x (len x)

/-- A turn of the weighted classes fetches at most what waits in the queue when it begins (R98). -/
def State.turnLength (s : State) (q : Nat) : Nat :=
  let n := (look s.nv.sqs q).elim 0 fun x => x.waiting.length
  if s.burst = 0 then n else min s.burst n

/-- Weight of a class: HPW, MPW or LPW plus 1. -/
def State.weight (s : State) (cls : Nat) : Nat :=
  let v := s.nv.feat.arb
  (if cls = 0 then fld v 31 24 else if cls = 1 then fld v 23 16 else fld v 15 8) + 1

/-- End the running turn of the weighted classes. -/
def Arbiter.endTurn (a : Arbiter) : Arbiter :=
  match a.turn with
  | some (q, _) => { a with turn := none, last := vput a.last a.cls q }
  | none => a

/-- The weighted classes: the class visited fetches until its weight is used or it has nothing waiting (R98). A visit takes
the weight in force at its first fetch; a weight changed during it acts from the next visit, and where no weighted
class has anything to fetch, the arbiter stays as it is and the visit goes on later with what is left of its weight (DESIGN CHOICE,
notes/assumptions/75.md). -/
def pickWeighted (s : State) (qsOf : Nat → List Nat) : Nat → Arbiter → Option (Nat × Arbiter)
  | 0, _ => none
  | fuel + 1, a =>
    let qs := qsOf a.cls
    let left := a.left.getD (s.weight a.cls)
    match (if left = 0 then none else takeTurn s.turnLength ((a.last[a.cls]?).getD 0) a.turn qs) with
    | some (q, turn, last) =>
      let a := { a with left := some (left - 1), turn := turn, last := vput a.last a.cls last }
      some (q, if left = 1 then a.endTurn else a)
    | none =>
      let a := a.endTurn
      pickWeighted s qsOf fuel { a with cls := (a.cls + 1) % 3, left := none }

/-- The I/O queue to fetch from, and the arbiter after it. -/
def pickIo (s : State) : Option (Nat × Arbiter) :=
  let a := s.nv.arb
  let only : List Nat → List Nat := fun qs => match a.stuck with
    | some q => if s.fetchable q then qs.filter fun x => x == q else qs
    | none => qs
  let urgent := only (s.ready_ (if s.nv.ams = 0 then none else some 0))
  match takeTurn (fun _ => s.burst) ((a.last[3]?).getD 0) a.uturn urgent with
  | some (q, turn, last) => some (q, { a with uturn := turn, last := vput a.last 3 last })
  | none => if s.nv.ams = 0 then none else pickWeighted s (fun c => only (s.ready_ (some (c + 1)))) 4 a

/-- The queue to fetch from next (R98, R99): the admin queue first. -/
def pickQueue (s : State) : Option (Nat × Arbiter) :=
  if s.fetchable 0 then some (0, s.nv.arb)
  else if 8192 ≤ s.nv.inflight.length then none
  else pickIo s

/-- The card fetches commands: it is operating and awake, the controller is ready, and no shutdown stops it (R110, R372, R377,
R394). I/O fetching has also stopped where the bus commanded Watch. -/
def State.fetching (s : State) : Bool :=
  s.operating && s.pwr.watch != .asleep && s.pwr.link && s.nv.rdy && s.nv.shst != 1 && !s.therm.shutting
def State.fetchingIo (s : State) : Bool := s.pwr.watch == .awake || s.pwr.hostPs4

/-- The command at the head of a queue, as it is when fetched now. -/
def headCmd (s : State) (q : Nat) : Option Cmd :=
  ((look s.nv.sqs q).bind fun x => x.waiting.head?).map fun e =>
    { h := s.nv.next, qid := q, sub := e, locks := [], keeper := false, epoch := s.acc.epoch, secure := s.qWorld q
      begun := false, phase := .ready, bound := s.bcn.seq, net := s.bcn.net, era := s.bcn.curEra, first := 0, off := 0
      count := 0, resv := [], wt := false, stored := [], granted := true, below := s.med.wseq }

/-- The command enters the card: its locks, its place in the fetch order, and the checks at fetch. -/
def fetchCmd (c : Cmd) (locks : List Lock) (arb : Arbiter) (s : State) : State :=
  let (keeper, s) := takeArmed c.qid c.sub.dw s
  let c := { c with locks := locks, keeper := keeper }
  let c := { c with granted := s.lockFree c }
  let s := { s with nv := { s.nv with
    arb := { arb with stuck := if c.qid = 0 then arb.stuck else none }
    next := s.nv.next + 1, inflight := s.nv.inflight ++ [c]
    sqs := adjust s.nv.sqs c.qid fun x => { x with waiting := x.waiting.drop 1 } } }
  if c.qid = 0 then
    match checkAdmin c { s with nv := { s.nv with inflight := s.nv.inflight.filter fun x => x.h != c.h } } with
    | some (sct, sc) => fail c.h sct sc s
    | none => s
  else
    match checkIo c s with
    | (some (sct, sc), s) => fail c.h sct sc s
    | (none, s) => s

/-- COMMAND_FETCH (R98 to R103). -/
def execCommandFetch (s : State) : Host.Outcome State Fault Refusal :=
  done (if !s.fetching then s else
    match pickQueue s with
    | none => s
    | some (q, arb) =>
      if q ≠ 0 ∧ !s.fetchingIo then s else
      match headCmd s q with
      | none => s
      | some c =>
        let locks := locksOf s c
        if 1024 < s.locksUsed + locks.length then
          { s with nv := { s.nv with arb := { s.nv.arb with stuck := some q } } }
        else fetchCmd c locks arb s)

/-- RANGE_LOCK_GRANT (R102). -/
def execRangeLockGrant (h : Nat) (s : State) : Host.Outcome State Fault Refusal :=
  done (match s.cmd h with
  | none => s
  | some c => if s.lockFree c then s.modCmd h fun c => { c with granted := true } else s)

/-- COALESCING_TIME_EXPIRY (R93). -/
def execCoalescingTimeExpiry (y : Byte) (s : State) : Host.Outcome State Fault Refusal :=
  let due : CompQueue → CompQueue := fun q => if q.irqs && decide (q.unsent ≠ 0) then { q with irq := true } else q
  done { s with nv := { s.nv with cqs := adjust s.nv.cqs y.toNat due } }

/-! Stopping commands (R107 to R109). -/

/-- An unbegun command leaves nothing behind. -/
def forget (h : Nat) (s : State) : State :=
  { s with waitq := s.waitq.filter fun w => w != .write h
           med := { s.med with pendMarks := s.med.pendMarks.filter fun m => m.cmd != some h } }

/-- A direct query is cut off: its waiting Lots go. -/
def dropQuery (id : Nat) (s : State) : State :=
  { s with queries := s.queries.filter fun q => q.id != id
           lots := s.lots.filter fun l => !(l.query == some id && !l.onStall) }

/-- A command of a stopped queue ends, unless it has begun and runs on (R107). After a controller reset its queue is gone, and
`fail` posts nothing. A direct query or a lookup stops before its answer moves (DESIGN CHOICE, notes/assumptions/75.md: how much of it has
moved by the next 4 KiB boundary is open). -/
def stopCmd (c : Cmd) (s : State) : State :=
  if (s.query c.h).any fun q => q.direct then fail c.h 0 0x08 (dropQuery c.h s)
  else if c.qid ≠ 0 ∧ c.opc = 0x8A then fail c.h 0 0x08 s
  else if c.started then s
  else fail c.h 0 0x08 (forget c.h s)

/-- The bus, M or the host has commanded another state: PS4 is no longer commanded. -/
def leavePs4 (s : State) : State :=
  { s with pwr := { s.pwr with watch := if s.pwr.watch = .requested then .awake else s.pwr.watch, hostPs4 := false
                               wakeDue := s.pwr.wakeDue && s.pwr.watch != .requested } }

/-- Firmware's part of a controller reset: features, power state and the NVMe session (R108, R347). -/
def resetController (s : State) : State :=
  let s := { s with nv := { s.nv with sqs := [], cqs := [] } }
  let s := s.nv.inflight.foldl (fun s c => stopCmd c s) s
  let s := { s with nv := { s.nv.afterReset with cfs := s.pwr.fatal.isSome, wctemp := s.warnDefault 1 + 273
                                                 cctemp := baseLimit 1 3 - (s.userLower 1 : Int) + 273 }
                    therm := { s.therm with warnSet := Vector.replicate 3 none, evtOver := Vector.replicate 4 none
                                            evtUnder := Vector.replicate 4 none }
                    keeper := { s.keeper with nvme := s.keeper.nvme.closed, armed := [] }
                    pwr := { (leavePs4 s).pwr with cmd := 0 } }
  reselect s

/-- The link has gone (R109): writes not fully received are discarded, reads and direct queries stop, and the controller
resets. A Record Append part-way in landing is discarded. -/
def linkLost (s : State) : State :=
  let s := { s with pwr := { s.pwr with link := false }, nv := { s.nv with late := [] } }
  let s := (s.nv.inflight.filter fun c => c.phase == .landing).foldl (fun s c => dropCmd c.h (discard c.h s)) s
  resetController (runFree s)

/-- CC.EN goes from 0 to 1 (R97, Table 4-7): AMS 000 and 001 make the controller ready; any other sets CFS. -/
def enableController (ams : Nat) (aqa : W32) (asq acq : W64) (s : State) : State :=
  if s.nv.en || s.ready then s
  else if 1 < ams then { s with nv := { s.nv with en := true, cfs := true, ams := ams } }
  else { s with nv := { s.nv with
    en := true, rdy := true, cfs := false, shst := 0, shn := 0, ams := ams, aqa := aqa, asq := asq, acq := acq
    sqs := put s.nv.sqs 0 { size := fld aqa 11 0 + 1, cq := 0, prio := 0, tail := 0, waiting := [], after := none }
    cqs := put s.nv.cqs 0 { size := fld aqa 27 16 + 1, vector := 0, irqs := true, head := 0, posted := [], unsent := 0
                            irq := false } } }

/-- A write of the host to the controller acts (R97, R108, R110); shutdown processing waits for the commands already
fetched. -/
def applyWrite (w : HostWrite) (s : State) : State :=
  match w with
  | .enable ams aqa asq acq => enableController ams aqa asq acq s
  | .reset => if s.nv.en then resetController s else s
  | .flr => resetController s
  | .shutdown shn =>
    if s.nv.shst != 0 || (shn != 1 && shn != 2) then s
    else { s with nv := { s.nv with shst := 1, shn := shn } }

/-- The controller does not act on a write yet: the card is in Watch, or has not ended start-up step 6 (R113, R183). -/
def State.writeWaits (s : State) : Bool :=
  (s.pwr.mainOn && s.pwr.watch == .asleep) || (s.firmware && decide (s.pwr.step < 6) && s.pwr.flush == .idle)

/-- A write of the host to the controller: it acts at once, or once the card runs commands; in Watch it wakes the card. -/
def hostWrite (w : HostWrite) (s : State) : State :=
  if !s.pwr.link then s
  else if s.writeWaits then
    let s := { s with nv := { s.nv with late := s.nv.late ++ [w] } }
    if s.pwr.watch = .asleep then wake 1 s else s
  else if s.operating then applyWrite w s
  else s

/-- The writes that waited act, oldest first. -/
def runLate (s : State) : State := s.nv.late.foldl (fun s w => applyWrite w s) { s with nv := { s.nv with late := [] } }

/-- CONTROLLER_RESET (R108): CC.EN goes from 1 to 0. -/
def execControllerReset (s : State) : Host.Outcome State Fault Refusal := done (hostWrite .reset s)

/-- FUNCTION_LEVEL_RESET (R108). -/
def execFunctionLevelReset (s : State) : Host.Outcome State Fault Refusal := done (hostWrite .flr s)

/-- CONTROLLER_ENABLE (R97, R183, Table 4-7): CC.EN goes from 0 to 1 with these values of AMS, AQA, ASQ and ACQ. -/
def execControllerEnable (ams : BitVec 3) (aqa : W32) (asq acq : W64) (s : State) : Host.Outcome State Fault Refusal :=
  done (hostWrite (.enable ams.toNat aqa asq acq) s)

/-- SHUTDOWN_NOTIFICATION (R110). -/
def execShutdownNotification (shn : BitVec 2) (s : State) : Host.Outcome State Fault Refusal :=
  done (hostWrite (.shutdown shn.toNat) s)

/-- PERST_ASSERT (R109, R380). -/
def execPerstAssert (s : State) : Host.Outcome State Fault Refusal :=
  let s := { s with pwr := { s.pwr with perst := true } }
  done (if s.pwr.watch = .asleep then wake 1 { s with pwr := { s.pwr with link := false } }
  else if s.pwr.mainOn && s.pwr.rail12 && s.pwr.flush == .idle && s.pwr.fatal.isNone then linkLost s else s)

/-- LINK_DOWN (R109): SURPRISE_DOWN sets. -/
def execLinkDown (s : State) : Host.Outcome State Fault Refusal :=
  done (if s.pwr.mainOn && s.pwr.rail12 && s.pwr.link && s.pwr.watch != .asleep && s.pwr.fatal.isNone then linkLost (raiseFault 8 4 s) else s)

/-- PERST_RELEASE (R109, R161, Table 6-10): the link trains once start-up step 3 has ended, and not during a flush. -/
def execPerstRelease (s : State) : Host.Outcome State Fault Refusal :=
  let up := s.firmware && s.pwr.watch != .asleep && s.pwr.flush == .idle
  done { s with pwr := { s.pwr with perst := false, link := up || s.pwr.link } }

end Sys2Proof.Machine
end

