-- ==== Sys2Proof/Machine/Io.lean ====
section
/-! DEFINITION. NVM and vendor I/O commands (03, 04, 09): Read, Write, Compare, Verify, Write Zeroes, Dataset Management,
Flush, Record Append, Arc Query, Fetch Result, Release Result, Cycle Commit and Index Lookup. A row names a fetched command by
its place in the fetch order; it acts when that command is the one it stands for and can begin. -/

namespace Sys2Proof.Machine

/-- The fetched I/O command of a row: of that opcode, not begun, its locks granted, with a Porter where it moves data (R11), on a
card that runs commands; in a thermal shutdown only one that had begun (R394). -/
def State.io (s : State) (h opc : Nat) : Option Cmd :=
  match s.cmd h with
  | some c =>
    if s.operating && s.pwr.watch != .asleep && !s.therm.held && c.qid != 0 && c.opc == opc && c.phase == .ready && c.granted &&
      s.carried c && (!s.therm.shutting || c.begun) then some c else none
  | none => none

/-- The namespace of a command. -/
def State.nsOf (s : State) (c : Cmd) : Ns := (look s.ns c.nsid).getD
  { nsze := 0, ncap := 0, fmt := 0, ext := false, prot := 0, stream := false, scan := false, ring := false, encrypt := false
    maxRec := 0, attached := false, key := [], st := .reset }

/-! Protection information (R85, R86). -/

/-- The 8 bytes of protection information. -/
def piBytes (data : List Byte) (app ref : Nat) : List Byte :=
  beBytes 2 (crcBytes 16 0x8BB7 0 data) ++ beBytes 2 app ++ beBytes 4 ref

/-- PRACT and PRCHK of a command. -/
def Cmd.pract (c : Cmd) : Bool := bit (c.dword 12) 29
def Cmd.prchk (c : Cmd) (k : Nat) : Bool := bit (c.dword 12) (26 + k)

/-- A block's protection information passes, or the status of the check that fails. -/
def piCheck (c : Cmd) (n : Ns) (lba : Nat) (data pi : List Byte) : Option (Nat × Nat) :=
  let guard := ofBe (slice pi 0 2)
  let app := ofBe (slice pi 2 2)
  let ref := ofBe (slice pi 4 4)
  let off := app == 0xFFFF && (n.prot == 1 || ref == 0xFFFFFFFF)
  let mask := fld (c.dword 15) 31 16
  if n.prot = 0 ∨ off then none
  else if c.prchk 2 ∧ guard ≠ crcBytes 16 0x8BB7 0 data then some (2, 0x82)
  else if c.prchk 1 ∧ app &&& mask ≠ fld (c.dword 15) 15 0 &&& mask then some (2, 0x83)
  else if c.prchk 0 ∧ n.prot = 1 ∧ ref ≠ lba % 2 ^ 32 then some (2, 0x84)
  else none

/-- Block i of the host's data, with its protection bytes. -/
def hostBlock (c : Cmd) (n : Ns) (i : Nat) : List Byte × List Byte :=
  let k := n.hostBlock c.pract
  let data := slice c.sub.buf (k * i) 4096
  let given := if n.fmt = 0 then List.replicate 8 0xFF
    else if n.ext then slice c.sub.buf (k * i + 4096) 8 else slice c.sub.md (8 * i) 8
  if n.prot ≠ 0 ∧ c.pract then
    let ref := if n.prot = 1 then (c.slba + i) % 2 ^ 32 else (c.dword 14).toNat
    (data, piBytes data (fld (c.dword 15) 15 0) ref)
  else (data, given)

/-- The data blocks of a write, or the status of the first block that fails its check. -/
def hostBlocks (c : Cmd) (n : Ns) : (List (List Byte × List Byte)) × Option (Nat × Nat) :=
  let bs := (List.range c.blocks).map fun i => hostBlock c n i
  let bad := bs.zipIdx.findSome? fun x => if c.pract then none else piCheck c n (c.slba + x.2) x.1.1 x.1.2
  (bs, bad)

/-! Reading (R66, R102, R125, R126, R140, R141). -/

/-- Map pages of a range that the map cache lacks are wanted from NAND. -/
def wantPages (nsid lba n : Nat) (s : State) : State :=
  let ps := (pagesOf nsid lba n).filter fun p => !s.med.cached p && !s.med.wants.contains p
  { s with med := { s.med with wants := s.med.wants ++ ps } }

def State.mapped (s : State) (nsid lba n : Nat) : Bool := (pagesOf nsid lba n).all s.med.cached

/-- The first LBA of a range that is unrecovered or whose data fails its CRC32C (R141, R371), as an offset. -/
def State.firstBad (s : State) (nsid lba n : Nat) : Option Nat :=
  (List.range n).find? fun i => s.med.unrec.contains (slotKey nsid (lba + i)) || !s.med.sound (slotKey nsid (lba + i))

/-- A Read, Compare or Verify ends at such an LBA (R141); a CRC mismatch sets E2E_CRC of the host path and marks nothing
(Table 13-9). -/
def endBad (c : Cmd) (lba : Nat) (data : List Byte) (s : State) : State :=
  let s := if s.med.sound (slotKey c.nsid lba) then s else raiseFault 8 2 s
  complete c.h 2 0x81 0 0 data (logError c 2 0x81 lba s)

/-- What a Read moves for block i. -/
def readBlock (s : State) (c : Cmd) (n : Ns) (i : Nat) : List Byte :=
  let k := slotKey c.nsid (c.slba + i)
  if n.fmt = 1 ∧ n.ext ∧ n.hostBlock c.pract = 4104 then s.med.data k ++ s.med.prot k else s.med.data k

/-- Metadata of blocks in a separate buffer. -/
def readMeta (s : State) (c : Cmd) (n : Ns) (count : Nat) : List Byte :=
  if n.fmt = 1 ∧ !n.ext ∧ !(n.prot ≠ 0 ∧ c.pract) then
    (List.range count).flatMap fun i => s.med.prot (slotKey c.nsid (c.slba + i))
  else []

/-- The first block whose stored protection information fails a check that the command asks for. -/
def State.firstPi (s : State) (c : Cmd) (n : Ns) (count : Nat) : Option (Nat × Nat) :=
  (List.range count).findSome? fun i =>
    let k := slotKey c.nsid (c.slba + i)
    piCheck c n (c.slba + i) (s.med.data k) (s.med.prot k)

/-- Pages of a read are used, the card reads ahead over a sequential read of the queue, and bytes read count. -/
def readDone (c : Cmd) (bytes : Nat) (s : State) : State :=
  let s := { s with med := (pagesOf c.nsid c.slba c.blocks).foldl (fun m p => m.touchPage p false) s.med
                    health := { s.health with readBytes := s.health.readBytes + bytes } }
  let seqn := (look s.nv.sqs c.qid).any fun q => q.after == some (c.nsid, c.slba)
  let s := { s with nv := { s.nv with sqs := adjust s.nv.sqs c.qid fun q => { q with after := some (c.nsid, c.slba + c.blocks) } } }
  if seqn then wantPages c.nsid ((c.slba + c.blocks + 511) / 512 * 512) 1 s else s

/-- Read and Verify: the blocks before the first unrecovered LBA, then the checks. `move`: data goes to the host. -/
def readCmd (move : Bool) (c : Cmd) (s : State) : State :=
  let n := s.nsOf c
  if !s.mapped c.nsid c.slba c.blocks then wantPages c.nsid c.slba c.blocks s else
  let bad := s.firstBad c.nsid c.slba c.blocks
  let count := bad.getD c.blocks
  match s.firstPi c n count with
  | some (sct, sc) => fail c.h sct sc (readDone c 0 s)
  | none =>
    let data := if move then ((List.range count).flatMap fun i => readBlock s c n i) ++ readMeta s c n count else []
    let s := readDone c (4096 * count) s
    match bad with
    | some i => endBad c (c.slba + i) data s
    | none => complete c.h 0 0 0 0 data s

/-- READ (R102). -/
def execRead (h : Nat) (s : State) : Host.Outcome State Fault Refusal :=
  done ((s.io h 0x02).elim s fun c => readCmd true c s)

/-- VERIFY (R101). -/
def execVerify (h : Nat) (s : State) : Host.Outcome State Fault Refusal :=
  done ((s.io h 0x0C).elim s fun c => readCmd false c s)

/-- COMPARE (R102): data, and metadata where it travels. -/
def execCompare (h : Nat) (s : State) : Host.Outcome State Fault Refusal :=
  done (match s.io h 0x05 with
  | none => s
  | some c =>
    let n := s.nsOf c
    if !s.mapped c.nsid c.slba c.blocks then wantPages c.nsid c.slba c.blocks s else
    let bad := s.firstBad c.nsid c.slba c.blocks
    let count := bad.getD c.blocks
    let same := (List.range count).all fun i =>
      let k := slotKey c.nsid (c.slba + i)
      let b := hostBlock c n i
      b.1 == s.med.data k && (n.fmt == 0 || (n.prot != 0 && c.pract) || b.2 == s.med.prot k)
    let s' := readDone c (4096 * count) s
    if !same then fail h 2 0x85 s'
    else match bad with
      | some i => endBad c (c.slba + i) [] s'
      | none => succeed h s')

/-! Writing (R67 to R69, R79, R80, R86, R104, R119, R120, R392). -/

/-- Blocks of a namespace that hold data or will (NUSE). -/
def State.nuse (s : State) (nsid : Nat) : Nat :=
  (s.med.allocated.filter fun k => keyNs k == nsid).dedup.length

/-- A write would raise NUSE above NCAP (R79). -/
def State.overCap (s : State) (c : Cmd) (n : Ns) : Bool :=
  decide (n.ncap < n.nsze) && decide (n.ncap < s.nuse c.nsid +
    ((List.range c.blocks).filter fun i => !s.med.allocated.contains (slotKey c.nsid (c.slba + i))).length)

/-- A write is programmed before it completes: Scan data, FUA, and write-through (R67, R69). -/
def State.programFirst (s : State) (c : Cmd) (n : Ns) : Bool := n.scan || bit (c.dword 12) 30 || s.heldWt

/-- Slots of DRAM that a write takes beyond those that are dirty already (R68). -/
def State.newSlots (s : State) (c : Cmd) : Nat :=
  ((List.range c.blocks).filter fun i => (look s.med.held (slotKey c.nsid (c.slba + i))).isNone).length

/-- Held data of a write goes into DRAM, and the write completes. -/
def acceptWrite (c : Cmd) (bs : List (List Byte × List Byte)) (s : State) : State :=
  let xs := bs.zipIdx.map fun b => (slotKey c.nsid (c.slba + b.2), b.1.1, b.1.2)
  let s := acceptHeld xs (wrote (unclean s))
  succeed c.h (countHost (4096 * bs.length) (wantPages c.nsid c.slba c.blocks s))

/-- The slots of a write with their write sequences. -/
def writeSlots (c : Cmd) (bs : List (List Byte × List Byte)) (s : State) : List (Nat × Slot4k) × State :=
  (bs.zipIdx.map fun b => (slotKey c.nsid (c.slba + b.2), ⟨b.1.1, b.1.2, 0, s.med.wseq + b.2, none, 0⟩),
    { s with med := { s.med with wseq := s.med.wseq + bs.length } })

/-- A write is programmed; it completes with the last of its slots. A Held one shows as a whole, with its journal record
(R67, R168, R171). -/
def programWrite (c : Cmd) (n : Ns) (bs : List (List Byte × List Byte)) (s : State) : State :=
  let wt := !n.scan && !bit (c.dword 12) 30 && s.native
  let (xs, s) := writeSlots c bs (wrote (unclean s))
  let s := submit (chunksOf (if n.scan then none else some c.h) xs) s
  let s := countHost (4096 * bs.length) (wantPages c.nsid c.slba c.blocks s)
  s.modCmd c.h fun x => { x with begun := true, phase := .programs (xs.map fun y => y.2.wseq), wt := wt }

/-- A write that finds no room waits; writes arrive in fetch order (R68). -/
def insertWrite (h : Nat) : List Waiting → List Waiting
  | [] => [.write h]
  | .write x :: rest => if h < x then .write h :: .write x :: rest else .write x :: insertWrite h rest
  | .lot x :: rest => .lot x :: insertWrite h rest

/-- A write acts: it is refused, waits, is accepted or is programmed. -/
def writeCmd (c : Cmd) (s : State) : State :=
  let n := s.nsOf c
  let (bs, bad) := hostBlocks c n
  if s.med.eol then fail c.h 7 0x89 s
  else match bad with
  | some (sct, sc) => fail c.h sct sc s
  | none =>
    if s.overCap c n then fail c.h 0 0x81 s
    else if s.programFirst c n then (if s.writesOpen then programWrite c n bs s else s)
    else if s.waitq.isEmpty && s.room (s.newSlots c) then acceptWrite c bs s
    else { s.modCmd c.h fun x => { x with phase := .room } with waitq := insertWrite c.h s.waitq }

/-- WRITE (R104). -/
def execWrite (h : Nat) (s : State) : Host.Outcome State Fault Refusal :=
  done ((s.io h 0x01).elim s fun c => writeCmd c s)

/-- The head of the waiting Held data is a write: it is admitted when there is room, and programmed when Held has become
write-through (R159). -/
def admitWrite (c : Cmd) (s : State) : State :=
  let n := s.nsOf c
  let out : State → State := fun s => { s with waitq := s.waitq.drop 1 }
  let (bs, _) := hostBlocks c n
  if s.med.eol then fail c.h 7 0x89 (out s)
  else if s.overCap c n then fail c.h 0 0x81 (out s)
  else if s.programFirst c n then (if s.writesOpen then programWrite c n bs (out s) else s)
  else if s.room (s.newSlots c) then acceptWrite c bs (out s)
  else s

/-- HELD_ADMIT (R68): in strict arrival order. In a thermal shutdown the writes that wait, which have not begun, are passed over
(R394). -/
def execHeldAdmit (s : State) : Host.Outcome State Fault Refusal :=
  done (if !s.operating || s.pwr.watch == .asleep then s else
    match s.waitq with
    | [] => s
    | .write h :: rest =>
      match s.cmd h with
      | some c => if s.therm.shutting then { s with waitq := rest } else admitWrite c s
      | none => { s with waitq := rest }
    | .lot id :: rest =>
      match s.lot id with
      | none => { s with waitq := rest }
      | some l =>
        if s.room (s.lotSlots l) && (!s.lotNand l || s.writesOpen) then retire' l { s with waitq := rest } else s)

/-- A chunk holds slots of a Write's. -/
def Cmd.owns (c : Cmd) (x : Chunk) : Bool :=
  match c.phase with
  | .programs ids => x.slots.any fun y => ids.contains y.2.wseq
  | _ => false

/-- A Write none of whose slots has gone to a die yet. -/
def State.stillWaits (s : State) (c : Cmd) : Bool :=
  match c.phase with
  | .programs ids => ids.all fun i => s.med.queue.any fun x => x.slots.any fun y => y.2.wseq == i
  | _ => false

/-- WRITE_HOLD_TIMEOUT (R392, Table 3-7): what programming holds beyond WRITE_HOLD_TIME while the write window is closed. A
Cycle Commit's mark is made later, with LATE. -/
def execWriteHoldTimeout (h : Nat) (s : State) : Host.Outcome State Fault Refusal :=
  done (match s.cmd h with
  | none => s
  | some c =>
    if !s.windowClosed || !s.operating || c.qid == 0 || (s.therm.shutting && !c.started) then s
    else if (c.opc = 0x01 ∨ c.opc = 0x08) ∧ !c.started then
      { fail h 7 0x83 s with waitq := s.waitq.filter fun w => w != .write h }
    else if s.stillWaits c then { fail h 7 0x83 s with med := { s.med with queue := s.med.queue.filter fun x => !c.owns x } }
    else if c.opc = 0x81 ∧ c.phase = .lots then failAppend h 7 0x83 false s
    else if c.opc = 0x89 ∧ c.phase = .mark then
      let later : PendingMark → PendingMark := fun m =>
        if m.cmd = some h then { m with cmd := none, flags := m.flags ||| 2 } else m
      fail h 7 0x83 { s with med := { s.med with pendMarks := s.med.pendMarks.map later } }
    else s)

/-- WRITE_ZEROES (R79, R166): a trim record. -/
def execWriteZeroes (h : Nat) (s : State) : Host.Outcome State Fault Refusal :=
  done (match s.io h 0x08 with
  | none => s
  | some c =>
    if s.med.eol then fail h 7 0x89 s
    else if s.windowClosed then s
    else succeed h (trim c.nsid (inRange c.nsid c.slba c.blocks) (wrote (unclean s))))

/-- DATASET_MANAGEMENT (R79, R166): a trim record per range. -/
def execDatasetManagement (h : Nat) (s : State) : Host.Outcome State Fault Refusal :=
  done (match s.io h 0x09 with
  | none => s
  | some c =>
    if !bit (c.dword 11) 2 then succeed h s
    else if s.med.eol then fail h 7 0x89 s
    else if c.ranges.isEmpty then succeed h s
    else succeed h (c.ranges.foldl (fun s r => trim c.nsid (inRange c.nsid r.1 r.2) s) (wrote (unclean s))))

/-! Flush (R105, R106). -/

/-- A slot is of the namespace that a Flush names. -/
def Cmd.flushes (c : Cmd) (k : Nat) : Bool := c.nsid == 0xFFFFFFFF || keyNs k == c.nsid

/-- Held slots that a Flush covers: those dirty since before its fetch, whose newest data then stands for what they held. -/
def State.covered (s : State) (c : Cmd) : List Nat :=
  ((s.med.held.filter fun x => decide (x.2.since < c.below) && c.flushes x.1)).map fun x => x.1

/-- A journal record describes data accepted before the fetch of a Flush. -/
def Cmd.describes (c : Cmd) (r : JRec) : Bool := decide (r.wseq ≤ c.below) && r.keys.any c.flushes

/-- Map pages that describe covered data are not programmed yet: a journal record waits, or a page of a Held namespace is dirty. -/
def State.pagesDue (s : State) (c : Cmd) : Bool :=
  s.med.jrnl.any c.describes || (s.med.cache.any fun x => x.2 && c.flushes x.1 && !s.scanKey x.1) ||
    s.med.stale.any fun p => c.flushes p && !s.scanKey p

/-- FLUSH (R105): with nothing covered and the map pages programmed it completes at once; else what is covered is programmed,
whatever the write window. -/
def execFlush (h : Nat) (s : State) : Host.Outcome State Fault Refusal :=
  done (match s.io h 0x00 with
  | none => s
  | some c =>
    let ks := s.covered c
    if ks.isEmpty && !s.pagesDue c then succeed h s else
    let todo := s.med.unprogrammed.filter fun k => ks.contains k
    programHeld todo (s.modCmd h fun x => { x with begun := true, phase := .flushing c.below }))

/-- FLUSH_COMPLETION (R105): the covered data is in NAND, with the whole of every write that shares a journal record with it (R171), and
its map pages are programmed. -/
def execFlushCompletion (h : Nat) (s : State) : Host.Outcome State Fault Refusal :=
  done (match s.cmd h with
  | none => s
  | some c =>
    match c.phase with
    | .flushing _ =>
      if s.operating && (s.covered c).isEmpty && s.med.jrnl.all (fun r => !c.describes r || s.med.ready r) then
        succeed h { s with med := ((s.med.programPages c.flushes).cleanPages fun p => c.flushes p && !s.scanKey p).startErases }
      else s
    | _ => s)

/-! Record Append (R73, R74, R78). -/

/-- Emit figures of a pipeline (R247, R254): a gate-only one copies. -/
def State.emitFigures (s : State) (p : Pipe) : Nat × Nat :=
  match ((List.range 64).find? fun n => p.inSet n).bind fun n => (s.stall n).image with
  | some im => (im.eRec, im.eMul)
  | none => (0, 1)

/-- What a Record Append reserves: NSID and bytes, before the tail. -/
def State.needs (s : State) (c : Cmd) : List (Nat × Nat) :=
  let nb := c.nbytes
  let f := 4096 * (ceilDiv nb 262144 + 1)
  match s.ingest c.nsid with
  | none => [(c.nsid, nb + f)]
  | some (_, p) =>
    let outs := p.outs.toList.zipIdx.filter fun o => o.1.1 == 1
    if p.gateOnly then (outs.filter fun o => o.2 == 0).map fun o => (o.1.2, nb + f)
    else
      let (er, em) := s.emitFigures p
      outs.map fun o => (o.1.2, er * (nb / 32) + em * nb + f)

/-- A reservation with the tail of the namespace where it is shorter. -/
def State.withTail (s : State) (r : Nat × Nat) : Nat × Nat :=
  match look s.ns r.1 with
  | some n => let tail := n.bytes - n.st.next; (r.1, if tail < r.2 then r.2 + tail else r.2)
  | none => r

/-- A reservation fits. -/
def State.fits (s : State) (r : Nat × Nat) : Bool :=
  (look s.ns r.1).any fun n => decide (n.st.used + s.reserved r.1 + r.2 ≤ n.bytes)

def State.isRing (s : State) (nsid : Nat) : Bool := (look s.ns nsid).any fun n => n.ring

/-- RECORD_APPEND (R74): the rest of the checks at fetch, and the reservation; a ring namespace is reclaimed first. -/
def execRecordAppend (h : Nat) (s : State) : Host.Outcome State Fault Refusal :=
  done (match s.io h 0x81 with
  | none => s
  | some c =>
    if s.med.eol then fail h 7 0x89 s else
    let rs := (s.needs c).map s.withTail
    if rs.any fun r => !s.fits r && !s.isRing r.1 then fail h 7 0x85 s else
    let s := rs.foldl (fun s r => if s.isRing r.1 then reclaim r.1 r.2 4096 s else s) s
    let rs := (s.needs c).map s.withTail
    if !(rs.all s.fits) then s
    else s.modCmd h fun x => { x with phase := .landing, resv := rs })

/-! Arc Query (R263 to R268, R270). -/

/-- Bytes of the result pool that slots hold. -/
def State.poolUsed (s : State) : Nat := (s.slots.map fun x => x.2.size).foldl (· + ·) 0

/-- The free slot of a world with the lowest number. -/
def State.freeSlotOf (s : State) (world : Bool) : Option Nat :=
  (List.range 256).find? fun k => s.slotWorld k == world && (look s.slots k).all fun x => x.state == .free

/-- The query that a command asks for. -/
def Cmd.query (c : Cmd) : Query :=
  { id := c.h, direct := !c.slotted, slot := none, pipe := if c.qPipe = 0xFF then none else some c.qPipe, nsid := c.nsid
    floor := c.q64 2, lo := c.q64 12, hi := c.q64 14
    rel := if c.qRel then some (c.net - (c.q64 12 : Int), c.net) else none
    era := if c.qEra = 63 then none else some (c.era - (c.qEra : Int))
    arc := if bit (c.dword 10) 10 then some (fld (c.dword 10) 15 11) else none
    window := if c.qPos then some (u32At c.sub.buf 0, u32At c.sub.buf 4) else none
    param := slice c.sub.buf 0 (8 * c.qWords), start := c.bound, size := (c.dword 11).toNat, state := .waiting, cursor := 0
    formed := false, ending := none, resume := 0, endv := 0, unrec := 0, entered := 0, emitted := 0, media := 0, dec := 0
    out := [], epoch := c.epoch, releases := [] }

/-- A query joins those there are in fetch order (R263). -/
def queued (q : Query) (qs : List Query) : List Query :=
  (qs.takeWhile fun x => decide (x.id < q.id)) ++ q :: qs.dropWhile fun x => decide (x.id < q.id)

/-- ARC_QUERY (R263): a query is queued, into a result slot or directly. -/
def execArcQuery (h : Nat) (s : State) : Host.Outcome State Fault Refusal :=
  done (match s.io h 0x82 with
  | none => s
  | some c =>
    let q := c.query
    let p := q.pipe.bind s.pipe
    let waiting := (s.queries.filter fun x => q.pipe.isSome && x.pipe == q.pipe && x.state == .waiting).length
    if q.pipe.isSome && p.isNone then invalidField h s
    else if c.qRel && s.bcn.inFault then fail h 7 0x86 s
    else if p.any fun p => !s.pipeUp p then fail h 7 0x87 s
    else if 64 ≤ waiting then fail h 0 0x21 s
    else if q.direct then
      runFree ({ s with queries := queued q s.queries }.modCmd h fun x => { x with phase := .query })
    else
      match s.freeSlotOf c.secure with
      | none => fail h 0 0x21 s
      | some k =>
        if 1073741824 < s.poolUsed + q.size then fail h 0 0x21 s else
        let gen := (((look s.slots k).elim 0 fun x => x.gen) + 1) % 65536
        let start := s.pwr.starts.toNat % 256
        let s := { s with
          slots := put s.slots k { gen := gen, state := .running, start := start, size := q.size, nsid := q.nsid, query := h, answer := [] }
          queries := queued { q with slot := some k } s.queries }
        runFree (complete h 0 0 (w32 (start * 2 ^ 24 + gen * 256 + k)) 0 [] s))

/-- The slot that a handle names, while it has not been released (R268). -/
def State.slotOf (s : State) (handle : W32) : Option (Nat × Slot) :=
  let k := fld handle 7 0
  match look s.slots k with
  | some x =>
    if x.state != .free && x.gen == fld handle 23 8 && fld handle 31 24 == s.pwr.starts.toNat % 256 &&
        x.start == fld handle 31 24 && ((s.query x.query).all fun q => q.releases.isEmpty) then some (k, x) else none
  | none => none

/-- Fetch Result and Release Result of one handle act in fetch order (R269). -/
def State.resultTurn (s : State) (c : Cmd) : Bool :=
  s.nv.inflight.all fun x => decide (c.h ≤ x.h) || !(x.opc == 0x85 || x.opc == 0x86) || x.qid == 0 || x.dword 10 != c.dword 10 ||
    x.phase == .query

/-- A handle whose slot was released, or is another world's under the set at the fetch (R345): the world comes first (Table 9-9). -/
def slotGone (h : Nat) (c : Cmd) (s : State) : State :=
  if s.slotWorldAt c.epoch (fld (c.dword 10) 7 0) != c.secure then regionDenied h s else fail h 7 0x81 s

/-- FETCH_RESULT (R269). -/
def execFetchResult (h : Nat) (s : State) : Host.Outcome State Fault Refusal :=
  done (match s.io h 0x85 with
  | none => s
  | some c =>
    if !s.resultTurn c then s else
    let off := (c.dword 12).toNat
    let nb := (c.dword 13).toNat
    let plain := c.allZero [2, 3, 4, 5, 14, 15] && fld (c.dword 11) 31 1 == 0 && off % 8 == 0 && nb % 8 == 0 &&
      decide (8 ≤ nb ∧ nb ≤ 2097152)
    match s.slotOf (c.dword 10) with
    | none => if plain then slotGone h c s else invalidField h s
    | some (k, x) =>
      if x.nsid ≠ c.nsid then invalidNs h s
      else if !plain || (x.state == .ready && decide (x.answer.length ≤ off)) then invalidField h s
      else if s.slotWorldAt c.epoch k != c.secure then regionDenied h s
      else if x.state = .running then fail h 7 0x80 s
      else
        let n := min nb (x.answer.length - off)
        let s := if bit (c.dword 11) 0 then s else freeSlot k s
        complete h 0 0 (w32 n) (w32 x.answer.length) (slice x.answer off n) s)

/-- RELEASE_RESULT (R269): a running query ends at its next Lot retirement, and the command completes then. -/
def execReleaseResult (h : Nat) (s : State) : Host.Outcome State Fault Refusal :=
  done (match s.io h 0x86 with
  | none => s
  | some c =>
    if !s.resultTurn c then s else
    let plain := c.allZero [2, 3, 4, 5, 6, 7, 8, 9, 11, 12, 13, 14, 15]
    match s.slotOf (c.dword 10) with
    | none => if plain then slotGone h c s else invalidField h s
    | some (k, x) =>
      if x.nsid ≠ c.nsid then invalidNs h s
      else if !plain then invalidField h s
      else if s.slotWorldAt c.epoch k != c.secure then regionDenied h s
      else if x.state = .ready then succeed h (freeSlot k s)
      else
        let s := (s.modQuery x.query fun q => { q with releases := q.releases ++ [h] }).modCmd h fun y => { y with phase := .query }
        endSoon 3 x.query s)

/-! Cycle Commit (R77). -/

/-- A forced commit is made: the first commit after a Beacon Zero carries AFTER_ZERO (Table 2-13). -/
def Bcn.forced (b : Bcn) : Bcn := { b with com := { b.com with zeroForce := false } }

/-- CYCLE_COMMIT (R77): the forced mark waits to become durable. -/
def execCycleCommit (h : Nat) (s : State) : Host.Outcome State Fault Refusal :=
  done (match s.io h 0x89 with
  | none => s
  | some c =>
    if s.med.eol then fail h 7 0x89 s else
    let (stamp, s) := stampNow s.now s
    let flags := 1 + (if s.bcn.com.zeroForce then 4 else 0) + (if s.bcn.inFault then 8 else 0)
    let s := pendMark ⟨stamp, s.bcn.curEra, c.bound, flags, some h⟩ { s with bcn := s.bcn.forced }
    s.modCmd h fun x => { x with phase := .mark })

/-! Index Lookup (R81 to R83). -/

/-- An entry of kinds 0 and 1 (Table 3-8). -/
def Stored.entry (r : Stored) : List Byte :=
  leBytes 8 r.stamp.toNat ++ leBytes 8 r.seq ++ leBytes 8 r.location ++ leBytes 4 r.len ++ leBytes 2 r.src ++ leBytes 2 r.ty

/-- The answer: count, MORE and RESUME, start boundary, entries. RESUME is 0 where MORE is 0, and marks carry the next
sequence number at fetch as their start boundary (DESIGN CHOICE, notes/assumptions/75.md: R83 gives neither value). -/
def lookupAnswer (n : Nat) (resume : Option Nat) (bound : Nat) (body : List Byte) : List Byte :=
  leBytes 4 n ++ leBytes 4 (b2n resume.isSome) ++ leBytes 8 (resume.getD 0) ++ leBytes 8 bound ++ leBytes 8 0 ++ body

/-- The era of a record or mark is the one that ERA_SEL selects. -/
def Cmd.eraOk (c : Cmd) (e : Int) : Bool := bit (c.dword 4) 31 || e == c.era - (fld (c.dword 4) 30 0 : Int)

/-- A sequence number, stamp and era lie within the bounds of a lookup of kind 0 or 1 (R82). -/
def Cmd.meets (c : Cmd) (kind seq stamp : Nat) (era : Int) : Bool :=
  let lo := c.q64 12
  let hi := c.q64 14
  decide (seq < c.bound) && (if kind = 0 then
    decide (c.q64 2 ≤ seq) && decide (lo ≤ stamp) && decide (stamp < hi) && c.eraOk era
  else decide (lo ≤ seq) && decide (seq < hi))

/-- Records of a lookup of kinds 0 and 1. -/
def lookupRecords (s : State) (c : Cmd) (kind : Nat) : List Stored :=
  (s.nsOf c).st.recs.filter fun r => c.meets kind r.seq r.stamp.toNat r.era

/-- A mark's entries that the queue may not see, under the set at the fetch (R345), are blank (R82). -/
def Mark.blanked (m : Mark) (s : State) (e : W32) (q : Nat) : Mark :=
  { m with entries := m.entries.map fun x =>
      let size := (look s.ns x.1).elim 1 fun n => n.nsze
      if ((s.setOf e).mediaDenied (.queue q) x.1 [1, 8] 0 size).isSome then (0, 0, 0) else x }

/-- Marks of a lookup of kinds 2 and 3, in rising order. -/
def lookupMarks (s : State) (c : Cmd) (kind : Nat) : List Mark :=
  let lo := c.q64 12
  let hi := c.q64 14
  (s.med.marks.filter fun m => if kind = 2 then decide (lo ≤ m.num) && decide (m.num < hi)
    else decide (c.q64 2 ≤ m.num) && decide (lo ≤ m.stamp.toNat) && decide (m.stamp.toNat < hi) && c.eraOk m.era).reverse

/-- Marks that fit in a room, back to back: how many, and their bytes. -/
def fitMarks : List (List Byte) → Nat → Nat × List Byte
  | [], _ => (0, [])
  | b :: bs, room =>
    if b.length ≤ room then
      let r := fitMarks bs (room - b.length)
      (r.1 + 1, b ++ r.2)
    else (0, [])

/-- The answer of a lookup. -/
def lookup (s : State) (c : Cmd) : List Byte :=
  let kind := fld (c.dword 10) 3 0
  let room := (c.dword 11).toNat - 32
  if kind ≤ 1 then
    let rs := lookupRecords s c kind
    let n := min rs.length (room / 32)
    lookupAnswer n ((rs[n]?).map fun r => r.seq) c.bound ((rs.take n).flatMap Stored.entry)
  else
    let ms := lookupMarks s c kind
    let (n, body) := fitMarks (ms.map fun m => (m.blanked s c.epoch c.qid).encode) room
    lookupAnswer n ((ms[n]?).map fun m => m.num) c.bound body

/-- The answer of a lookup that a thermal shutdown ends while it waits (R394): no entry, MORE = 1, and RESUME its lower bound. -/
def cutLookup (c : Cmd) : List Byte :=
  lookupAnswer 0 (some (if fld (c.dword 10) 3 0 = 0 then c.q64 2 else c.q64 12)) c.bound []

/-- INDEX_LOOKUP (R82, R261): kinds 0 and 1 wait for the Lots that hold records they would return, and use the index pages of
those they find. -/
def execIndexLookup (h : Nat) (s : State) : Host.Outcome State Fault Refusal :=
  done (match s.io h 0x8A with
  | none => s
  | some c =>
    let kind := fld (c.dword 10) 3 0
    if kind ≤ 1 && s.lotsMeeting c.nsid (fun r => c.meets kind r.seq (recStamp r.bytes) r.era) then
      s.modCmd h fun x => { x with begun := true }
    else
      let used := if kind ≤ 1 then ((lookupRecords s c kind).flatMap Stored.extents).dedup else []
      complete h 0 0 0 0 (lookup s c) { s with med := s.med.touchIndex c.nsid used false })

end Sys2Proof.Machine
end

