-- ==== Sys2Proof/Machine/StallCtl.lean ====
section
/-! DEFINITION. The Stall control block and the card address space (R91, R92, R193, R200 to R203, R214 to R217, R223, R236):
control registers, accesses by BAR2 and by Porters, and the rows that write control registers. -/

namespace Sys2Proof.Machine

/-! Interrupt controller. -/

/-- Level of a source (Table 7-4). -/
def IntCtl.level (c : IntCtl) (src : Nat) : Nat := fld ((c.levels[src / 8]?).getD 0) (4 * (src % 8) + 3) (4 * (src % 8))

/-- Level of a running handler; outside priority mode it is 0. -/
def HandlerFrame.level (h : HandlerFrame) : Nat := match h.kind with | .prio k => k | _ => 0

/-- CUR_LEVEL. -/
def Stall.curLevel (t : Stall) : W32 :=
  match t.handlers with
  | [] => 0
  | h :: _ => w32 (16 + h.level)

/-- STATE of STALL_STATUS (Table 7-5). -/
def StallSt.code : StallSt → Nat
  | .off => 0
  | .empty => 1
  | .stopped => 2
  | .running => 3
  | .faulted => 4

/-- STALL_STATUS. -/
def State.stallStatus (s : State) (n : Nat) : W32 :=
  let t := s.stall n
  let p := s.pipeOf n
  w32 (t.state.code * 2 ^ 29 + b2n t.isSlow * 2 ^ 28 + min 3 t.lots.length * 2 ^ 26 + b2n p.isSome * 2 ^ 25 +
    (p.getD 0) * 256 + t.cause)

/-- A saturating 32-bit value. -/
def sat32 (v : Nat) : W32 := w32 (min v 0xFFFFFFFF)

/-- A debug register (R202). After a fault in a Fast handler DBG_G shows the ordinary g8 to g15 (DESIGN CHOICE, notes/assumptions/82.md:
which bank it shows is open). -/
def State.debugReg (s : State) (n off : Nat) : W32 :=
  let t := s.stall n
  if t.state != .stopped && t.state != .faulted then 0
  else if off < 0x880 then
    let g := (t.core.g[(off - 0x800) / 8]?).getD 0
    if off % 8 < 4 then w32 (g.toNat % 2 ^ 32) else w32 (g.toNat / 2 ^ 32)
  else if off = 0x880 then w32 (t.core.pc % 2 ^ 14)
  else if off = 0x884 then w32 t.core.p.toNat
  else if 0x900 ≤ off then
    let k := (off - 0x900) / 4
    w32 (ofLe (slice t.dbgW (4 * k) 4))
  else 0

/-- A read of a control register (Table 7-4); offsets not listed read zero. -/
def State.ctlRead (s : State) (n off : Nat) : W32 :=
  let t := s.stall n
  let lv : Nat → W32 := fun k => (t.ic.levels[k]?).getD 0
  if off = 0x000 then w32 (b2n (s.stallWorld n) * 128 + n)
  else if off = 0x004 then s.stallStatus n
  else if off = 0x008 then w32 t.faultPc
  else if off = 0x00C then sat32 t.budget
  else if off = 0x010 then sat32 t.elapsed
  else if off = 0x014 then t.corr
  else if off = 0x020 then w32 t.fstat.toNat
  else if off = 0x028 then w32 t.fen.toNat
  else if off = 0x030 then w32 (fld t.flipLm 31 0)
  else if off = 0x034 then w32 (fld t.flipLm 63 32)
  else if off = 0x038 then w32 (fld t.flipLm 71 64)
  else if off = 0x040 then w32 (fld t.flipPm 31 0)
  else if off = 0x044 then w32 (fld t.flipPm 63 32)
  else if off = 0x048 then w32 (fld t.flipPm 71 64)
  else if off = 0x080 then w32 (b2n t.ic.prio)
  else if off = 0x084 then w32 (b2n t.ic.disable)
  else if off = 0x090 then t.ic.mask
  else if off = 0x09C then t.ic.pending
  else if off = 0x0A0 then t.ic.active
  else if off = 0x0A4 then t.ic.fast
  else if off = 0x0A8 then w32 t.ic.thresh
  else if off = 0x0AC then t.curLevel
  else if 0x0B0 ≤ off ∧ off ≤ 0x0BC then lv ((off - 0x0B0) / 4)
  else if 0x0C0 ≤ off ∧ off ≤ 0x0DC then (t.ic.arcSel[(off - 0x0C0) / 4]?).getD 0
  else if off = 0x100 then t.mbIn
  else if off = 0x104 then t.mbOut
  else if 0x800 ≤ off ∧ off ≤ 0x97F then s.debugReg n off
  else 0

/-- Bits of the sources that exist (Table 7-17). -/
def sourceBits : W32 := 0x07FFFFFF

/-- MASK_SET, MASK_CLR, PEND_SET, PEND_CLR: each acts on the bits written as 1 (R217). -/
def maskSet (n : Nat) (v : W32) (s : State) : State := s.modStall n fun t => { t with ic := { t.ic with mask := t.ic.mask ||| v } }
def maskClr (n : Nat) (v : W32) (s : State) : State := s.modStall n fun t => { t with ic := { t.ic with mask := t.ic.mask &&& ~~~v } }
def pendSet (n : Nat) (v : W32) (s : State) : State :=
  s.modStall n fun t => { t with ic := { t.ic with pending := t.ic.pending ||| (v &&& sourceBits) } }
def pendClr (n : Nat) (v : W32) (s : State) : State :=
  s.modStall n fun t => { t with ic := { t.ic with pending := t.ic.pending &&& ~~~v } }

/-- DISABLE (R216). -/
def setDisable (n : Nat) (v : W32) (s : State) : State := s.modStall n fun t => { t with ic := { t.ic with disable := bit v 0 } }

/-- MAILBOX_IN: the write pends source 13. -/
def mailboxIn (n : Nat) (v : W32) (s : State) : State := s.modStall n fun t => { t with mbIn := v }.pend 13

/-- FAULT_FORCE (R203). -/
def forceStall (n : Nat) (v : W32) (s : State) : State := (setBits 8 v.toNat).foldl (fun s b => raiseStall 1 n b s) s

/-- A FLIP register (R200). -/
def Stall.setFlip (r : FlipReg) (v : W32) (t : Stall) : Stall :=
  match r with
  | .lmLo => { t with flipLm := putFld t.flipLm 31 0 v.toNat }
  | .lmHi => { t with flipLm := putFld t.flipLm 63 32 v.toNat }
  | .lmEcc => { t with flipLm := putFld t.flipLm 71 64 (v.toNat % 256) }
  | .pmLo => { t with flipPm := putFld t.flipPm 31 0 v.toNat }
  | .pmHi => { t with flipPm := putFld t.flipPm 63 32 v.toNat }
  | .pmEcc => { t with flipPm := putFld t.flipPm 71 64 (v.toNat % 256) }

/-- A clear of FAULT_STATUS bits (R8); a Stall still set is sent again (R360). -/
def clearStall (n : Nat) (v : W32) (s : State) : State :=
  let s := s.modStall n fun t => { t with fstat := t.fstat &&& ~~~(b8 v.toNat) }
  if bit s.levels (128 + n) then { s with ev := { s.ev with due := putBit s.ev.due (128 + n) true } } else s

/-- A write of a control register (Table 7-4); HW registers and offsets not listed discard it. -/
def ctlWrite (n off : Nat) (v : W32) (s : State) : State :=
  let flip : FlipReg → State := fun r => s.modStall n (Stall.setFlip r v)
  let ic : (IntCtl → IntCtl) → State := fun f => s.modStall n fun t => { t with ic := f t.ic }
  if off = 0x020 then clearStall n v s
  else if off = 0x024 then forceStall n v s
  else if off = 0x028 then s.modStall n fun t => { t with fen := b8 v.toNat }
  else if off = 0x030 then flip .lmLo
  else if off = 0x034 then flip .lmHi
  else if off = 0x038 then flip .lmEcc
  else if off = 0x040 then flip .pmLo
  else if off = 0x044 then flip .pmHi
  else if off = 0x048 then flip .pmEcc
  else if off = 0x080 then ic fun c => { c with prio := bit v 0 }
  else if off = 0x084 then setDisable n v s
  else if off = 0x088 then maskSet n v s
  else if off = 0x08C then maskClr n v s
  else if off = 0x094 then pendSet n v s
  else if off = 0x098 then pendClr n v s
  else if off = 0x0A4 then ic fun c => { c with fast := v }
  else if off = 0x0A8 then ic fun c => { c with thresh := fld v 3 0 }
  else if 0x0B0 ≤ off ∧ off ≤ 0x0BC then ic fun c => { c with levels := vput c.levels ((off - 0x0B0) / 4) v }
  else if 0x0C0 ≤ off ∧ off ≤ 0x0DC then ic fun c => { c with arcSel := vput c.arcSel ((off - 0x0C0) / 4) (v &&& 0xE000003F) }
  else if off = 0x100 then mailboxIn n v s
  else if off = 0x104 then s.modStall n fun t => { t with mbOut := v }
  else s

/-! The card address space (R25, Table 1-7). -/

/-- Where a card address leads. -/
inductive Target where
  | local_ (n a : Nat)
  | ctl (n off : Nat)
  | program (n a : Nat)
  | ram (a : Nat)
  | frame (f off : Nat)
  | nothing
deriving DecidableEq, Repr

def target (a : Nat) : Target :=
  if a < 0x02000000 then .local_ (a / 0x80000) (a % 0x80000)
  else if 0x04000000 ≤ a ∧ a < 0x04040000 then .ctl ((a - 0x04000000) / 0x1000) (a % 0x1000)
  else if 0x05000000 ≤ a ∧ a < 0x05400000 then .program ((a - 0x05000000) / 0x10000) (a % 0x10000)
  else if (0x10000000 ≤ a ∧ a < 0x14000000) ∨ (0x000100000000 ≤ a ∧ a < 0x000300000000) then .ram a
  else if 0x00F000000000 ≤ a ∧ a < 0x00F000400000 then .frame ((a - 0x00F000000000) / 0x10000) (a % 0x10000)
  else .nothing

/-- The Stall's tile that an access reaches is OFF: TILE_OFF sets (R26). -/
def tileOff (n : Nat) (s : State) : Option State :=
  if (s.stall n).state = .off then some (raiseStall 0 n 7 s) else none

/-- A register of an internal frame. -/
def State.frameReg (s : State) (f off : Nat) : W32 :=
  if !s.frameOn f then 0 else if off = 0 then s.frameStatus f else if off = 8 then (s.ev.enable[f]?).getD 0 else 0

/-- Read the aligned 8-byte word at a card address: `none` when a memory word fails its check, which sets the ECC bit of
its Stall (R92, R236). -/
def cardWord (a : Nat) (s : State) : Option W64 × State :=
  let mem : Bool → Nat → Nat → Option W64 × State := fun pm n i =>
    match tileOff n s with
    | some s => (some 0, s)
    | none => match readWord pm n i s with
      | (some v, s) => (some v, s)
      | (none, s) => (none, raiseStall 0 n 2 s)
  match target a with
  | .local_ n x => mem false n (x / 8)
  | .program n x => mem true n (x / 8)
  | .ctl n off =>
    match tileOff n s with
    | some s => (some 0, s)
    | none => (some (w64 ((s.ctlRead n (off / 8 * 8)).toNat + (s.ctlRead n (off / 8 * 8 + 4)).toNat * 2 ^ 32)), s)
  | .ram x => (some (w64 (ofLe (Memory.readBytes ramByte s.ram (x / 8 * 8) 8))), s)
  | .frame f off => (some (w64 ((s.frameReg f (off / 8 * 8)).toNat + (s.frameReg f (off / 8 * 8 + 4)).toNat * 2 ^ 32)), reachFrame f s)
  | .nothing => (some 0, s)

/-- Write bytes into one aligned 8-byte word of a Stall's memory: a whole word gets fresh check bits, fewer bytes are merged
unless the stored word fails its check (R92). -/
def mergeWord (pm : Bool) (n a : Nat) (bs : List Byte) (s : State) : State :=
  match tileOff n s with
  | some s => s
  | none =>
    if bs.length = 8 then s.modStall n (Stall.writeWord pm (a / 8) (w64 (ofLe bs)))
    else match readWord pm n (a / 8) s with
      | (none, s) => raiseStall 0 n 2 s
      | (some v, s) => s.modStall n (Stall.writeWord pm (a / 8) (w64 (ofLe (patch (leBytes 8 v.toNat) (a % 8) bs))))

/-- Write the registers of an aligned 8-byte word that bytes cover whole: a clear before a set, so that of FAULT_STATUS and
FAULT_FORCE, and of MASK_SET and MASK_CLR, the set wins (R8, R217). -/
def regBytes (f : Nat → W32 → State → State) (off : Nat) (bs : List Byte) (s : State) : State :=
  let one : Nat → State → State := fun r s =>
    if off ≤ r ∧ r + 4 ≤ off + bs.length then f r (w32 (u32At bs (r - off))) s else s
  let lo := off / 8 * 8
  if lo = 0x088 then one lo (one (lo + 4) s) else one (lo + 4) (one lo s)

/-- A write of a register of an internal frame (Table 13-3). -/
def frameWrite (f off : Nat) (v : W32) (s : State) : State :=
  if !s.frameOn f then s else if off = 0 then writeFaultStatus f v s else if off = 4 then forceFaults f v s
  else if off = 8 then writeFaultEnable f v s else s

/-- Write bytes that lie in one aligned 8-byte word. A BAR2 write to the program memory of a running Stall is discarded. -/
def cardPut (bar2 : Bool) (a : Nat) (bs : List Byte) (s : State) : State :=
  match target a with
  | .local_ n x => mergeWord false n x bs s
  | .program n x => if bar2 && (s.stall n).state == .running then s else mergeWord true n x bs s
  | .ctl n off =>
    match tileOff n s with
    | some s => s
    | none => regBytes (ctlWrite n) off bs s
  | .ram x => { s with ram := Memory.writeBytes ramByte s.ram x bs }
  | .frame f off => regBytes (frameWrite f) off bs (reachFrame f s)
  | .nothing => s

/-- Cut an access into the parts that lie in one aligned 8-byte word: address and offset into the data. -/
def wordParts : Nat → Nat → Nat → List (Nat × Nat × Nat)
  | 0, _, _ => []
  | fuel + 1, a, len =>
    if len = 0 then [] else
    let k := min len (8 - a % 8)
    (a, k, 0) :: (wordParts fuel (a + k) (len - k)).map fun p => (p.1, p.2.1, p.2.2 + k)

/-- Write bytes at a card address under a rule set; the beats that the checker denies are discarded (R341). The words of one write
act in falling order, so that PEND_SET acts after PEND_CLR (R217); a pending flip of R200 therefore goes to the highest word, which
is the first that is written (DESIGN CHOICE, notes/assumptions/95.md). -/
def cardWriteIn (r : RuleSet) (bar2 : Bool) (m : Master) (a : Nat) (bs : List Byte) (s : State) : Bool × State :=
  let (bad, s) := memAccessIn r m (writeNeed a) a bs.length s
  (!bad.isEmpty, (wordParts (bs.length / 8 + 2) a bs.length).reverse.foldl (fun s p =>
    if bad.contains (p.1 / 64 * 64) then s else cardPut bar2 p.1 (slice bs p.2.2 p.2.1) s) s)

/-- A write under the active set. -/
def cardWrite (bar2 : Bool) (m : Master) (a : Nat) (bs : List Byte) (s : State) : Bool × State :=
  cardWriteIn s.acc.active bar2 m a bs s

/-- Read bytes at a card address word by word under a rule set: `none` marks a word that fails its check; denied beats read zero. -/
def cardReadIn (r : RuleSet) (m : Master) (a len : Nat) (s : State) : Bool × List (Nat × Nat × Option W64) × State :=
  let (bad, s) := memAccessIn r m 1 a len s
  let r := (wordParts (len / 8 + 2) a len).foldl (fun (acc : List (Nat × Nat × Option W64) × State) p =>
    let (v, s) := if bad.contains (p.1 / 64 * 64) then (some 0, acc.2) else cardWord p.1 acc.2
    (acc.1 ++ [(p.1, p.2.1, v)], s)) ([], s)
  (!bad.isEmpty, r.1, r.2)

/-- A read under the active set. -/
def cardRead (m : Master) (a len : Nat) (s : State) : Bool × List (Nat × Nat × Option W64) × State :=
  cardReadIn s.acc.active m a len s

/-- A Porter reports a fault, raised at the next instruction boundary (R237). -/
def porterFault (n cause : Nat) (s : State) : State :=
  s.modStall n fun t => { t with porterFault := some (t.porterFault.getD cause) }

/-! BAR2 (R91, R92). -/

/-- The card address of a BAR2 offset; reserved offsets have none. -/
def bar2Addr (off : Nat) : Option Nat :=
  if off < 0x02000000 then some off
  else if off < 0x02040000 then some (off + 0x02000000)
  else if 0x02400000 ≤ off ∧ off < 0x02800000 then some (off + 0x02C00000)
  else none

/-- BAR2 answers: the link is up and the main domain runs (R26, R90). -/
def State.bar2On (s : State) : Bool := s.mainAwake && !s.pwr.recovery && s.pwr.link && s.native

/-- A BAR2 access in Watch reaches a domain that is off, which is reported (R26), and its exit from L1.2 wakes the card (R379,
Table 14-4). -/
def bar2Asleep (s : State) : State :=
  if s.pwr.mainOn && s.pwr.watch == .asleep && s.pwr.link && s.native then wake 1 { s with offReports := s.offReports + 1 } else s

/-- BAR2_WRITE: an access by master Q0. -/
def execBar2Write (off : Nat) (bytes : List Byte) (s : State) : Host.Outcome State Fault Refusal :=
  done (match bar2Addr off with
  | none => s
  | some a => if s.bar2On then (cardWrite true (.queue 0) a bytes s).2 else bar2Asleep s)

/-- BAR2_READ: a word that fails its check reads 0xFFFF_FFFF in each dword. -/
def execBar2Read (off len : Nat) (s : State) : Host.Outcome State Fault Refusal :=
  done (if !s.bar2On then
    (if s.pwr.watch == .asleep then { bar2Asleep s with dataOut := List.replicate len 0 } else s) else
  match bar2Addr off with
  | none => { s with dataOut := List.replicate len 0 }
  | some a =>
    let (_, ws, s) := cardRead (.queue 0) a len s
    { s with dataOut := ws.flatMap fun w => match w.2.2 with
      | some v => slice (leBytes 8 v.toNat) (w.1 % 8) w.2.1
      | none => List.replicate w.2.1 0xFF })

/-! Rows that write one control register. -/

/-- A master reaches the control block of Stall n: its own code without a check, others through the checker, and nobody
while the tile is OFF (R26, R223, R337). A denied write of a Porter is an ACCESS fault of its Stall (R193, R341). -/
def throughCtl (n : Nat) (m : CbMaster) (off : Nat) (f : State → State) (s : State) : State :=
  let go : State → State := fun s => match tileOff n s with
    | some s => s
    | none => f s
  let checked : Master → State := fun x =>
    let (bad, s) := memAccess x 2 (0x04000000 + n * 0x1000 + off) 4 s
    if bad.isEmpty then go s else match x with
      | .stall k => porterFault k 2 s
      | _ => s
  match m with
  | .own => if s.running && (s.stall n).state == .running then f s else s
  | .bar2 => if s.bar2On then checked (.queue 0) else s
  | .porter k => if s.running then checked (.stall k.val) else s
  | .mgmt => if s.running then checked .mgmt else s

/-- MAILBOX_IN_WRITE. -/
def execMailboxInWrite (n : Fin 64) (m : CbMaster) (v : W32) (s : State) : Host.Outcome State Fault Refusal :=
  done (throughCtl n.val m 0x100 (mailboxIn n.val v) s)

/-- MASK_SET. -/
def execMaskSet (n : Fin 64) (m : CbMaster) (v : W32) (s : State) : Host.Outcome State Fault Refusal :=
  done (throughCtl n.val m 0x088 (maskSet n.val v) s)

/-- MASK_CLR. -/
def execMaskClr (n : Fin 64) (m : CbMaster) (v : W32) (s : State) : Host.Outcome State Fault Refusal :=
  done (throughCtl n.val m 0x08C (maskClr n.val v) s)

/-- PEND_SET. -/
def execPendSet (n : Fin 64) (m : CbMaster) (v : W32) (s : State) : Host.Outcome State Fault Refusal :=
  done (throughCtl n.val m 0x094 (pendSet n.val v) s)

/-- PEND_CLR. -/
def execPendClr (n : Fin 64) (m : CbMaster) (v : W32) (s : State) : Host.Outcome State Fault Refusal :=
  done (throughCtl n.val m 0x098 (pendClr n.val v) s)

/-- DISABLE_WRITE. -/
def execDisableWrite (n : Fin 64) (m : CbMaster) (v : W32) (s : State) : Host.Outcome State Fault Refusal :=
  done (throughCtl n.val m 0x084 (setDisable n.val v) s)

/-- FAULT_FORCE (R203). -/
def execFaultForce (n : Fin 64) (m : CbMaster) (v : W32) (s : State) : Host.Outcome State Fault Refusal :=
  done (throughCtl n.val m 0x024 (forceStall n.val v) s)

/-- Offset of a FLIP register. -/
def flipOff : FlipReg → Nat
  | .lmLo => 0x030
  | .lmHi => 0x034
  | .lmEcc => 0x038
  | .pmLo => 0x040
  | .pmHi => 0x044
  | .pmEcc => 0x048

/-- FLIP_MASK_WRITE (R200). -/
def execFlipMaskWrite (n : Fin 64) (m : CbMaster) (r : FlipReg) (v : W32) (s : State) : Host.Outcome State Fault Refusal :=
  done (throughCtl n.val m (flipOff r) (fun s => s.modStall n.val (Stall.setFlip r v)) s)

end Sys2Proof.Machine
end

