-- ==== Sys2Proof/Machine/LogPages.lean ====
section
/-! DEFINITION. Log pages (R62, R114, R219, R367, R368, R412, R413, R420) and Identify data (R90, R94, R96, R111, R386, R420). What
NVMe defines and the spec does not give is a free value of Config (notes/assumptions/11.md). -/

namespace Sys2Proof.Machine

/-- n bytes of a log page that the spec does not give. -/
def freeLog (lid n : Nat) : List Byte := (List.range n).map (Config.logByte lid)

/-! 01h, 02h, 03h, 05h, 06h. -/

/-- An entry of the Error Information page. -/
def ErrEntry.encode (e : ErrEntry) : List Byte :=
  fields (freeLog 1 64) [(0, 8, e.count), (8, 2, e.sqid), (10, 2, e.cid), (12, 2, (e.sc + 256 * e.sct) * 2), (16, 8, e.lba), (24, 4, e.nsid)]

/-- 01h: newest entry first, then blank entries. -/
def State.errorPage (s : State) : List Byte := slice (s.nv.errs.flatMap ErrEntry.encode) 0 4096

/-- Kelvin of a reading in 1/16 °C. -/
def kelvin (v : Int) : Nat := (fdivNat v 16 + 273).toNat

/-- A sensor's temperature in K; 0 while it has no reading. -/
def State.kelvinOf (s : State) (i : Nat) : Nat :=
  let m := (s.therm.temp[i]?).getD .reset
  if m.valid then kelvin m.value else 0

/-- Composite Temperature: the hottest NAND package (R386). -/
def State.composite (s : State) : Nat := ((List.range 8).map fun k => s.kelvinOf (k + 1)).foldl max 0

/-- 02h (Table 15-6). -/
def State.smartPage (s : State) : List Byte :=
  fields (freeLog 2 512) [(0, 1, s.critWarn), (1, 2, s.composite), (3, 1, s.health.spares.value.toNat), (4, 1, 10),
    (5, 1, 100 - s.health.life.value.toNat), (32, 16, ceilDiv s.health.readBytes 512000),
    (48, 16, ceilDiv s.health.hostBytes 512000), (128, 16, s.pwr.hours), (144, 16, s.pwr.unsafeOff),
    (160, 16, s.health.unrecEver), (176, 16, s.nv.errCount), (200, 2, s.kelvinOf 0), (202, 2, s.kelvinOf 9), (204, 2, s.kelvinOf 10)]

/-- 03h: slot 1 is bank A and slot 2 bank B. -/
def State.firmwarePage (s : State) : List Byte :=
  let active := match s.hb.running with
    | some b => b2n b + 1
    | none => 0
  let next := if s.hb.firstB then 2 else 1
  fields (freeLog 3 512) [(0, 1, active + (if next = active then 0 else next) * 16)]

/-- 06h: self-test results, newest first. -/
def State.selfTestPage (s : State) : List Byte :=
  let rs := (s.nv.tests.take 20).flatMap fun t => fields (freeLog 6 28) [(0, 1, t.1), (4, 8, t.2)]
  [0, 0, 0, 0] ++ slice rs 0 560

/-! 0xC1 (Table 13-7). -/

/-- An object of a world is visible to the admin queue. -/
def State.seesStall (s : State) (n : Nat) : Bool := s.stallWorld n == s.qWorld 0
def State.seesEvents (s : State) : Bool := s.groupWorld 6 == s.qWorld 0

/-- FAULT_STATUS and FAULT_ENABLE of a frame, FAULT_STATUS zero where the frame is off. -/
def State.frameEntry (s : State) (f : Nat) : List Byte :=
  if s.seesEvents && s.frameOn f then leBytes 4 (s.frameStatus f).toNat ++ leBytes 4 ((s.ev.enable[f]?).getD 0).toNat
  else List.replicate 8 0

def State.stallEntry (s : State) (n : Nat) : List Byte :=
  if s.seesStall n then leBytes 4 (s.stall n).fstat.toNat ++ leBytes 4 (s.stall n).fen.toNat else List.replicate 8 0

def State.faultPage (s : State) (keeper : Bool) : List Byte :=
  let a := s.acc
  slice (((List.range 64).flatMap s.frameEntry) ++ ((List.range 64).flatMap s.stallEntry) ++
    ((List.range 16).flatMap fun k => leBytes 4 (s.evtWord k).toNat) ++
    leBytes 4 s.ev.dropped.toNat ++ leBytes 4 0 ++ leBytes 8 (s.ev.jnext - 1) ++
    (if keeper then leBytes 8 a.violAddr.toNat ++ leBytes 4 a.violKind.toNat ++ leBytes 4 a.violMast.toNat ++
      leBytes 4 a.violRule.toNat else [])) 0 4096

/-! 0xC2 (Table 2-15). -/

def State.beaconPage (s : State) : List Byte × State :=
  let (stamp, s) := stampNow s.now s
  let b := s.bcn
  let counts := ([1, 2, 3, 4, 5, 6, 7] : List Nat).flatMap fun k => leBytes 4 ((b.entered[k]?).getD 0).toNat
  (slice (leBytes 8 stamp.toNat ++ leBytes 8 b.seq ++ leBytes 8 b.com.num.toNat ++ leBytes 4 (b.status s.compat).toNat ++
    leBytes 4 b.regs.cfg.toNat ++ leBytes 8 b.arcState ++ counts ++ leBytes 4 b.com.late.toNat ++ leBytes 8 (sBytes 8 b.curEra) ++
    leBytes 8 b.eraBound) 0 512, s)

/-! 0xC3 (Table 7-19). -/

def sat (bits v : Nat) : Nat := min v (2 ^ bits - 1)

def State.stallPage (s : State) (n : Nat) : List Byte :=
  let t := s.stall n
  let p := s.pipeOf n
  if !s.seesStall n then List.replicate 64 0 else
  fields (List.replicate 64 0) [(0, 1, t.state.code), (1, 1, b2n t.isSlow + 2 * b2n p.isSome + 4 * b2n (s.stallWorld n)),
    (2, 1, t.cause), (3, 1, p.getD 0), (4, 4, t.image.elim 0 fun i => i.c64), (8, 8, t.image.elim 0 fun i => i.version),
    (16, 8, sat 64 t.stats.retired), (24, 4, sat 32 t.stats.faulted), (28, 4, sat 32 t.stats.slows), (32, 8, sat 64 t.stats.inBytes),
    (40, 8, sat 64 t.stats.outBytes), (48, 8, sat 64 t.stats.busy), (56, 4, sat 32 t.stats.worst), (60, 4, t.corr.toNat)]

/-! 0xC4 (R367, Table 13-5). -/

/-- The object of an entry lies in the admin queue's world. A card event of source 266 belongs to its result slot. -/
def State.seesEntry (s : State) (e : JournalEntry) : Bool :=
  if 0x40 ≤ e.origin ∧ e.origin < 0x80 ∧ e.kind ≤ 1 then s.seesStall (e.origin - 0x40)
  else if e.kind = 2 ∧ e.code = 266 then s.slotWorld e.detail == s.qWorld 0
  else s.seesEvents

def State.journalEntry (s : State) (e : JournalEntry) : List Byte :=
  let see := s.seesEntry e
  leBytes 8 e.num ++ leBytes 8 e.ns ++ leBytes 4 e.start.toNat ++ leBytes 1 e.kind ++ leBytes 1 (if see then e.origin else 0) ++
    leBytes 2 (if see then e.code else 0) ++ leBytes 8 (if see then (if e.kind = 2 ∧ e.code = 266 then 0 else e.detail) else 0)

/-- Entries held on the page: the newest 32,767, oldest first. -/
def State.journalHeld (s : State) : List JournalEntry := (s.ev.journal.take 32767).reverse

def State.journalPage (s : State) (off len : Nat) : List Byte :=
  let es := s.journalHeld
  let head := leBytes 4 es.length ++ leBytes 4 0 ++ leBytes 8 ((es.head?).elim 0 fun e => e.num) ++ leBytes 8 s.ev.dropped.toNat ++
    leBytes 8 0
  slice (head ++ es.flatMap s.journalEntry) off len

/-! 05h (R94, R114). -/

/-- The Commands Supported and Effects entry of opcode k of a set: CSUPP as Table 4-5 has it, the effects of a supported
command free; that of an unsupported one is zero (PRESUMED, as NVMe has it, notes/assumptions/11.md). -/
def effectsEntry (off k : Nat) (sup : Bool) : List Byte :=
  if !sup then List.replicate 4 0
  else (List.range 4).map fun i => Config.logByte 5 (off + 4 * k + i) ||| (if i = 0 then 1 else 0)

/-- Commands Supported and Effects: 256 admin opcodes, 256 I/O opcodes. -/
def effectsPage (compat : Bool) : List Byte :=
  ((List.range 256).flatMap fun k => effectsEntry 0 k (adminOpcode compat k)) ++
    ((List.range 256).flatMap fun k => effectsEntry 1024 k (ioOpcode compat k)) ++ List.replicate 2048 0

/-! Get Log Page (R114). -/

/-- The page of a log identifier, whole; none for an identifier that the card does not have. -/
def State.logPage (s : State) (lid : Nat) (keeper : Bool) : Option (List Byte × State) :=
  match lid with
  | 0x01 => some (s.errorPage, s)
  | 0x02 => some (s.smartPage, s)
  | 0x03 => some (s.firmwarePage, s)
  | 0x05 => some (effectsPage s.compat, s)
  | 0x06 => some (s.selfTestPage, s)
  | 0xC0 => some (if s.health.page.isEmpty then s.healthPage else s.health.page, s)
  | 0xC1 => some (s.faultPage keeper, s)
  | 0xC2 => if s.compat then none else some s.beaconPage
  | 0xC3 => if s.compat then none else some ((List.range 64).flatMap s.stallPage, s)
  | _ => none

/-! Identify. -/

def freeId (cns n : Nat) : List Byte := (List.range n).map (Config.identifyByte cns)

/-- ASCII, space-padded to 40 bytes. -/
def modelName (compat : Bool) : List Byte :=
  let name : List Byte := if compat then [0x4F, 0x4C, 0x55, 0x54, 0x55, 0x4D, 0x20, 0x41, 0x51, 0x35, 0x30, 0x38, 0x2D, 0x31, 0x32, 0x54]
    else [0x4F, 0x4C, 0x55, 0x54, 0x55, 0x4D, 0x20, 0x41, 0x51, 0x37, 0x31, 0x36, 0x2D, 0x31, 0x32, 0x54]
  name ++ List.replicate 24 0x20

/-- A power state descriptor: power in 10 mW, ENLAT and EXLAT in µs (Table 4-8). -/
def powerDesc (mp en ex : Nat) (nonOp : Bool) : List Byte :=
  leBytes 2 mp ++ [0, b8 (2 * b2n nonOp)] ++ leBytes 4 en ++ leBytes 4 ex ++ List.replicate 20 0

def powerDescs : List Byte :=
  powerDesc 2800 100 100 false ++ powerDesc 2000 500 500 false ++ powerDesc 1200 500 500 false ++ powerDesc 500 1000 2000 false ++
    powerDesc 0 5000 8000 true

/-- Identify Controller. -/
def State.identifyController (s : State) : List Byte :=
  let base := fields (freeId 1 4096) [(76, 1, 0), (77, 1, 9), (80, 4, 0x00020000), (84, 4, 1200000), (88, 4, 100000),
    (256, 2, if s.compat then 0x16 else 0x1E), (258, 1, 3), (259, 1, 15), (260, 1, 4), (262, 1, 63), (263, 1, 4), (265, 1, 0),
    (266, 2, s.nv.wctemp.toNat), (268, 2, s.nv.cctemp.toNat), (320, 2, 0), (328, 1, 3), (512, 1, 0x66), (513, 1, 0x44),
    (516, 4, if s.compat then 1 else 64), (520, 2, 0x8D), (522, 2, 0), (525, 1, 7), (536, 4, 2)]
  patch (patch base 24 (modelName s.compat)) 2048 powerDescs

/-- Identify Namespace. -/
def State.identifyNs (s : State) (nsid : Nat) (n : Ns) : List Byte :=
  fields (freeId 0 4096) [(0, 8, n.nsze), (8, 8, n.ncap), (16, 8, if n.stream then n.st.used / 4096 else s.nuse nsid),
    (24, 1, (Config.identifyByte 0 24).toNat / 4 * 4 + 2 + b2n (decide (n.ncap < n.nsze))), (25, 1, 1),
    (26, 1, n.fmt + 16 * b2n n.ext), (27, 1, 3), (28, 1, (Config.identifyByte 0 28).toNat &&& 0x18 ||| 5), (29, 1, n.prot), (30, 1, 0),
    (31, 1, 0), (36, 2, if n.scan then 3 else 31), (44, 2, 0), (128, 4, 12 * 65536), (132, 4, 8 + 12 * 65536)]

/-- A list of NSIDs above one, in rising order. -/
def nsList (xs : List Nat) (above : Nat) : List Byte :=
  slice (((xs.filter fun x => decide (above < x)).take 1024).flatMap fun x => leBytes 4 x) 0 4096

end Sys2Proof.Machine
end

