-- ==== Sys2Proof/Machine/Admin.lean ====
section
/-! DEFINITION. Admin commands on queues, log pages, Identify, Abort, features and asynchronous events (R93 to R97, R107, R112 to
R114, R377, R387, R412). -/

namespace Sys2Proof.Machine

/-- The fetched admin command of a row: of that opcode, not begun, with a Porter where it moves data (R11), on a card whose cores
run. -/
def State.admin (s : State) (h opc : Nat) : Option Cmd :=
  match s.cmd h with
  | some c =>
    if s.operating && s.pwr.watch != .asleep && !s.therm.held && s.hb.busy.isNone && !s.mStopped && c.qid == 0 && c.opc == opc &&
      c.phase == .ready && s.carried c && (!s.therm.shutting || c.begun) then some c else none
  | none => none

/-! Queues (R94, R97, R107). -/

def Cmd.queueId (c : Cmd) : Nat := fld (c.dword 10) 15 0
def Cmd.queueSize (c : Cmd) : Nat := fld (c.dword 10) 31 16 + 1

/-- CREATE_IO_CQ. -/
def execCreateIoCq (h : Nat) (s : State) : Host.Outcome State Fault Refusal :=
  done (match s.admin h 0x05 with
  | none => s
  | some c =>
    let q := c.queueId
    let d := c.dword 11
    if q = 0 ∨ 255 < q ∨ (look s.nv.cqs q).isSome then fail h 1 0x01 s
    else if c.queueSize < 2 then fail h 1 0x02 s
    else if !bit d 0 then invalidField h s
    else if 255 < fld d 31 16 then fail h 1 0x08 s
    else
      let x : CompQueue := ⟨c.queueSize, fld d 31 16, bit d 1, 0, [], 0, false⟩
      succeed h { s with nv := { s.nv with cqs := put s.nv.cqs q x } })

/-- DELETE_IO_CQ. -/
def execDeleteIoCq (h : Nat) (s : State) : Host.Outcome State Fault Refusal :=
  done (match s.admin h 0x04 with
  | none => s
  | some c =>
    let q := c.queueId
    if q = 0 ∨ (look s.nv.cqs q).isNone then fail h 1 0x01 s
    else if s.nv.sqs.any fun x => x.2.cq == q then fail h 1 0x0C s
    else succeed h { s with nv := { s.nv with cqs := del s.nv.cqs q } })

/-- CREATE_IO_SQ (R97). -/
def execCreateIoSq (h : Nat) (s : State) : Host.Outcome State Fault Refusal :=
  done (match s.admin h 0x01 with
  | none => s
  | some c =>
    let q := c.queueId
    let d := c.dword 11
    let cq := fld d 31 16
    if q = 0 ∨ 255 < q ∨ (look s.nv.sqs q).isSome ∨ cq = 0 ∨ 255 < cq then fail h 1 0x01 s
    else if (look s.nv.cqs cq).isNone then fail h 1 0x00 s
    else if c.queueSize < 2 then fail h 1 0x02 s
    else if !bit d 0 then invalidField h s
    else
      let x : SubQueue := ⟨c.queueSize, cq, fld d 2 1, 0, [], none⟩
      succeed h { s with nv := { s.nv with sqs := put s.nv.sqs q x } })

/-- DELETE_IO_SQ (R107): fetching stops, what has not begun ends, and the command completes after every fetched command of the
queue. -/
def execDeleteIoSq (h : Nat) (s : State) : Host.Outcome State Fault Refusal :=
  done (match s.admin h 0x00 with
  | none => s
  | some c =>
    let q := c.queueId
    if q = 0 ∨ (look s.nv.sqs q).isNone ∨ s.deleting q then fail h 1 0x01 s else
    let none_ : SubQueue → SubQueue := fun x => { x with waiting := [] }
    let s := { s with nv := { s.nv with sqs := adjust s.nv.sqs q none_ } }
    let s := s.modCmd h fun x => { x with phase := .deleting }
    endDeletes ((s.nv.inflight.filter fun x => x.qid == q).foldl (fun s x => stopCmd x s) s))

/-! Asynchronous events (R94, R412). -/

/-- Waiting events of a type that is not masked are reported while a request is outstanding. -/
def pumpEvents : Nat → State → State
  | 0, s => s
  | fuel + 1, s =>
    match s.nv.events.find? fun e => !s.nv.unread.contains e.1 with
    | some e =>
      if s.nv.inflight.any fun c => c.phase == .event then
        pumpEvents fuel (asyncEvent e.1 e.2.1 e.2.2 { s with nv := { s.nv with events := s.nv.events.erase e } })
      else s
    | none => s

/-- ASYNCHRONOUS_EVENT_REQUEST (R94): sixteen can be outstanding. -/
def execAsynchronousEventRequest (h : Nat) (s : State) : Host.Outcome State Fault Refusal :=
  done (match s.admin h 0x0C with
  | none => s
  | some _ =>
    if 16 ≤ (s.nv.inflight.filter fun x => x.phase == .event).length then fail h 1 0x05 s
    else pumpEvents 1 (s.modCmd h fun x => { x with phase := .event }))

/-- The log page of an event's type has been read: the type is reported again (NVMe). -/
def pageRead (lid : Nat) (s : State) : State :=
  let ty := if lid = 1 then 0 else if lid = 2 then 1 else 7
  pumpEvents 16 { s with nv := { s.nv with unread := s.nv.unread.filter fun x => x != ty } }

/-- GET_LOG_PAGE (R114). -/
def execGetLogPage (h : Nat) (s : State) : Host.Outcome State Fault Refusal :=
  done (match s.admin h 0x02 with
  | none => s
  | some c =>
    let d := c.dword 10
    let lid := fld d 7 0
    let len := 4 * (fld d 31 16 + fld (c.dword 11) 15 0 * 65536 + 1)
    let off := c.q64 12
    let after : State → State := fun s => if bit d 15 then s else pageRead lid s
    if lid = 0xC4 then after (complete h 0 0 0 0 (s.journalPage off len) s)
    else match s.logPage lid c.keeper with
      | none => fail h 1 0x09 s
      | some (page, s) =>
        if (lid = 2 ∧ c.nsid ≠ 0 ∧ c.nsid ≠ 0xFFFFFFFF) ∨ page.length < off then invalidField h s
        else after (complete h 0 0 0 0 ((page.drop off).take len) s))

/-- IDENTIFY. -/
def execIdentify (h : Nat) (s : State) : Host.Outcome State Fault Refusal :=
  done (match s.admin h 0x06 with
  | none => s
  | some c =>
    let cns := fld (c.dword 10) 7 0
    let id := c.nsid
    let nn := if s.compat then 1 else 64
    let out : List Byte → State := fun bs => complete h 0 0 0 0 bs s
    let one : Option Ns → State := fun n =>
      if id = 0xFFFFFFFF then out (freeId 0 4096)
      else if id = 0 ∨ nn < id then invalidNs h s
      else match n with
        | some n => out (s.identifyNs id n)
        | none => out (List.replicate 4096 0)
    let all := if s.compat && !s.compatSet then [] else s.ns.map fun x => x.1
    if cns = 0x00 then one (s.active id)
    else if cns = 0x01 then out s.identifyController
    else if cns = 0x02 then (if 0xFFFFFFFE ≤ id then invalidNs h s else out (nsList (all.filter fun x => (s.active x).isSome) id))
    else if cns = 0x10 then (if 0xFFFFFFFE ≤ id then invalidNs h s else out (nsList all id))
    else if cns = 0x11 then one (if all.contains id then look s.ns id else none)
    else if [0x03, 0x05, 0x06, 0x08, 0x1C].contains cns then out (freeId cns 4096)
    else invalidField h s)

/-- ABORT (R95). -/
def execAbort (h : Nat) (s : State) : Host.Outcome State Fault Refusal :=
  done (match s.admin h 0x08 with
  | none => s
  | some _ => complete h 0 0 1 0 [] s)

/-! Features (R94, R96, R99, R112, R387, R412). -/

/-- The Set Features command of a row. -/
def State.feature (s : State) (h fid : Nat) : Option Cmd :=
  match s.admin h 0x09 with
  | some c => if fld (c.dword 10) 7 0 = fid then some c else none
  | none => none

/-- A feature takes a value, and the command completes. -/
def setFeat (h : Nat) (f : Features → Features) (s : State) : State :=
  succeed h { s with nv := { s.nv with feat := f s.nv.feat } }

/-- SET_FEATURES_ARBITRATION (Table 4-6). -/
def execSetFeaturesArbitration (h : Nat) (s : State) : Host.Outcome State Fault Refusal :=
  done ((s.feature h 0x01).elim s fun c => setFeat h (fun f => { f with arb := c.dword 11 &&& 0xFFFFFF07 }) s)

/-- SET_FEATURES_POWER_MANAGEMENT (R112, R113): PS4 waits for the conditions of entry to Watch. -/
def execSetFeaturesPowerManagement (h : Nat) (s : State) : Host.Outcome State Fault Refusal :=
  done ((s.feature h 0x02).elim s fun c =>
    let d := c.dword 11
    let ps := fld d 4 0
    if 4 < ps ∨ fld d 7 5 ≠ 0 then invalidField h s
    else if ps < 4 then
      reselect (succeed h (endWatchWaits { s with pwr := { s.pwr with cmd := ps, watch := .awake, hostPs4 := false, wakeDue := false } }))
    else
      let before := if s.pwr.cmd = 4 then s.pwr.before else s.pwr.cmd
      { s with pwr := { s.pwr with before := before, cmd := 4, watch := .requested, hostPs4 := true } }.modCmd h
        fun x => { x with phase := .watch })

/-- The class of a TMPSEL: 0 NAND, 1 controller, 3 hold-up bank. -/
def tmpClass (sel : Nat) : Option Nat := if sel = 0 then some 1 else if sel = 1 then some 0 else if sel = 3 then some 2 else none

/-- SET_FEATURES_TEMPERATURE_THRESHOLD (R387). -/
def execSetFeaturesTemperatureThreshold (h : Nat) (s : State) : Host.Outcome State Fault Refusal :=
  done ((s.feature h 0x04).elim s fun c =>
    let d := c.dword 11
    let k : Int := (fld d 15 0 : Nat)
    let sel := fld d 19 16
    let th := fld d 21 20
    if 3 < sel ∨ 1 < th then invalidField h s
    else if th = 1 then succeed h { s with therm := { s.therm with evtUnder := vput s.therm.evtUnder sel (some k) } }
    else match tmpClass sel with
      | none => succeed h { s with therm := { s.therm with evtOver := vput s.therm.evtOver sel (some k) } }
      | some cls =>
        if s.warnDefault cls + 273 < k then invalidField h s
        else succeed h { s with therm := { s.therm with warnSet := vput s.therm.warnSet (warnIndex cls) (some k) } })

/-- SET_FEATURES_ERROR_RECOVERY. -/
def execSetFeaturesErrorRecovery (h : Nat) (s : State) : Host.Outcome State Fault Refusal :=
  done ((s.feature h 0x05).elim s fun c => setFeat h (fun f => { f with errRec := c.dword 11 }) s)

/-- SET_FEATURES_VOLATILE_WRITE_CACHE (R96). -/
def execSetFeaturesVolatileWriteCache (h : Nat) (s : State) : Host.Outcome State Fault Refusal :=
  done ((s.feature h 0x06).elim s fun c => if bit (c.dword 11) 0 then succeed h s else invalidField h s)

/-- The value of Feature 07h: 255 queues of each kind, 0's based. -/
def queueCounts : W32 := 0x00FE00FE

/-- SET_FEATURES_NUMBER_OF_QUEUES. -/
def execSetFeaturesNumberOfQueues (h : Nat) (s : State) : Host.Outcome State Fault Refusal :=
  done ((s.feature h 0x07).elim s fun _ => complete h 0 0 queueCounts 0 [] s)

/-- SET_FEATURES_INTERRUPT_COALESCING (R93). -/
def execSetFeaturesInterruptCoalescing (h : Nat) (s : State) : Host.Outcome State Fault Refusal :=
  done ((s.feature h 0x08).elim s fun c => setFeat h (fun f => { f with coal := c.dword 11 &&& 0xFFFF }) s)

/-- SET_FEATURES_INTERRUPT_VECTOR_CONFIG (R93). -/
def execSetFeaturesInterruptVectorConfig (h : Nat) (s : State) : Host.Outcome State Fault Refusal :=
  done ((s.feature h 0x09).elim s fun c =>
    let d := c.dword 11
    if 255 < fld d 15 0 then invalidField h s
    else setFeat h (fun f => { f with vecOff := putBit f.vecOff (fld d 15 0) (bit d 16) }) s)

/-- SET_FEATURES_WRITE_ATOMICITY. -/
def execSetFeaturesWriteAtomicity (h : Nat) (s : State) : Host.Outcome State Fault Refusal :=
  done ((s.feature h 0x0A).elim s fun c => setFeat h (fun f => { f with atomic := c.dword 11 &&& 1 }) s)

/-- SET_FEATURES_ASYNC_EVENT_CONFIG (R412). -/
def execSetFeaturesAsyncEventConfig (h : Nat) (s : State) : Host.Outcome State Fault Refusal :=
  done ((s.feature h 0x0B).elim s fun c => setFeat h (fun f => { f with async := c.dword 11 }) s)

/-- The value of Feature 04h for a sensor and a kind of threshold. -/
def State.tempFeature (s : State) (sel : Nat) (under : Bool) : W32 :=
  if under then w32 ((((s.therm.evtUnder[sel]?).join).getD 0).toNat)
  else match tmpClass sel with
    | none => w32 ((((s.therm.evtOver[sel]?).join).getD 0xFFFF).toNat)
    | some cls => w32 (kelvin (s.limitOf cls 1))

/-- The value of a feature; none where the card does not have it. -/
def State.featureValue (s : State) (fid : Nat) (d : W32) : Option W32 :=
  let f := s.nv.feat
  match fid with
  | 0x01 => some f.arb
  | 0x02 => some (w32 s.pwr.cmd)
  | 0x04 => if 3 < fld d 19 16 ∨ 1 < fld d 21 20 then none else some (s.tempFeature (fld d 19 16) (fld d 21 20 == 1))
  | 0x05 => some f.errRec
  | 0x06 => some 1
  | 0x07 => some queueCounts
  | 0x08 => some f.coal
  | 0x09 => if 255 < fld d 15 0 then none else some (w32 (fld d 15 0 + 65536 * b2n (bit f.vecOff (fld d 15 0))))
  | 0x0A => some f.atomic
  | 0x0B => some f.async
  | _ => none

/-- GET_FEATURES (R94, R96, R112). -/
def execGetFeatures (h : Nat) (s : State) : Host.Outcome State Fault Refusal :=
  done (match s.admin h 0x0A with
  | none => s
  | some c =>
    match s.featureValue (fld (c.dword 10) 7 0) (c.dword 11) with
    | some v => complete h 0 0 v 0 [] s
    | none => invalidField h s)

/-! Device Self-test (R94). -/

/-- DEVICE_SELF_TEST: the short test finds nothing and is logged. -/
def execDeviceSelfTest (h : Nat) (s : State) : Host.Outcome State Fault Refusal :=
  done (match s.admin h 0x14 with
  | none => s
  | some _ => succeed h { s with nv := { s.nv with tests := ((0x10, s.pwr.hours) :: s.nv.tests).take 20 } })

end Sys2Proof.Machine
end

