-- ==== Sys2Proof/Machine/AdminNs.lean ====
section
/-! DEFINITION. Namespace Management and Attachment, Format NVM and Sanitize (R63 to R65, R80, R87, R253, R332, R357, R417, R418). -/

namespace Sys2Proof.Machine

/-! Create (R63, R64). -/

/-- A 512-bit XTS key from the random source, wrapped under the OTP root key (R87, R352). -/
def newKey (s : State) : List Byte × State :=
  let (k, s) := s.take
  (keyWrap rootKey ((List.range 64).map (Config.random k)), s)

/-- The namespace that a create buffer asks for (Table 3-1), with its XTS key. -/
def nsOfBuffer (b : List Byte) (k : List Byte) : Ns :=
  let stream := u8At b 3840 == 1
  let mr := u32At b 3844
  { nsze := u64At b 0, ncap := u64At b 8, fmt := u8At b 26 % 16, ext := Nat.testBit (u8At b 26) 4, prot := u8At b 29 % 8
    stream := stream, scan := u8At b 3841 == 1, ring := Nat.testBit (u8At b 3842) 0, encrypt := Nat.testBit (u8At b 3842) 1
    maxRec := if stream && mr == 0 then 1048576 else mr, attached := false, key := k, st := .reset }

/-- The fields lie within Table 3-1; Type 2 is left to its own check. LBAs have 40 bits (R335). Reserved bits inside a field
of the table (FLBAS [7:5], DPS [7:3], FLAGS [7:3]) are ignored like reserved fields (DEDUCED from R7,
notes/assumptions/75.md). -/
def nsFieldsOk (b : List Byte) : Bool :=
  let kind := u8At b 3840
  let nsze := u64At b 0
  let ncap := u64At b 8
  let fmt := u8At b 26 % 16
  let dps := u8At b 29 % 8
  let flags := u8At b 3842
  let mr := u32At b 3844
  decide (kind ≤ 1) && decide (u8At b 3841 ≤ 1) && u8At b 30 == 0 &&
    nsze % 512 == 0 && ncap % 512 == 0 && decide (ncap ≤ nsze) && decide (nsze ≤ 2 ^ 40) && decide (fmt ≤ 1) && decide (dps ≤ 3) &&
    (dps == 0 || fmt == 1) &&
    (if kind = 1 then decide (1024 ≤ nsze) && ncap == nsze && fmt == 0 && (mr == 0 || decide (32 ≤ mr ∧ mr ≤ 1048576))
     else decide (512 ≤ nsze) && !Nat.testBit flags 0 && mr == 0)

/-- The world bit of a namespace in the staged, active and saved sets (R64). -/
def setNsWorld (n : Nat) (secure : Bool) (s : State) : State :=
  let f : RuleSet → RuleSet := fun r => { r with ns := putBit r.ns (n - 1) secure }
  { s with acc := { s.acc with staged := f s.acc.staged, active := f s.acc.active, saved := f s.acc.saved }
           hb := s.hb.writeRec 1 (f s.acc.saved).encode }

/-- The lowest NSID that is free. -/
def State.freeNsid (s : State) : Option Nat := ((List.range 64).map fun i => i + 1).find? fun n => (look s.ns n).isNone

/-- Sum of NCAP over all namespaces. -/
def State.ncapSum (s : State) : Nat := (s.ns.map fun x => x.2.ncap).foldl (· + ·) 0

/-- NAMESPACE_CREATE (R64): its checks in order, then the namespace and its world bit in one step. -/
def execNamespaceCreate (h : Nat) (s : State) : Host.Outcome State Fault Refusal :=
  done (match s.admin h 0x0D with
  | none => s
  | some c =>
    let b := c.sub.buf
    let secure := Nat.testBit (u8At b 3842) 2
    if fld (c.dword 10) 3 0 ≠ 0 then s
    else if !nsFieldsOk b then invalidField h s
    else if u8At b 29 % 8 = 2 then fail h 1 0x0A s
    else if secure && !c.keeper then notKeeper h s
    else if s.med.eol then fail h 7 0x89 s
    else match s.freeNsid with
      | none => fail h 1 0x16 s
      | some n =>
        if 3000000000 < s.ncapSum + u64At b 8 then fail h 1 0x15 s else
        let (k, s) := newKey s
        complete h 0 0 (w32 n) 0 [] (recordKeys (setNsWorld n secure { s with ns := put s.ns n (nsOfBuffer b k) })))

/-! Delete (R65, R80, R253). -/

/-- Another I/O command or a query still works on the namespace. -/
def State.nsBusy (s : State) (nsid : Nat) : Bool :=
  (s.nv.inflight.any fun c => c.qid != 0 && c.nsid == nsid) || s.queries.any fun q => q.nsid == nsid && q.state != .ended

/-- The namespaces that a command names. -/
def State.named (s : State) (nsid : Nat) : List Nat :=
  if nsid = 0xFFFFFFFF then s.ns.map fun x => x.1 else if (look s.ns nsid).isSome then [nsid] else []

/-- A Secure-world namespace is touched outside a Keeper session (R357). -/
def State.needsKeeper (s : State) (c : Cmd) (ids : List Nat) : Bool := !c.keeper && ids.any s.nsWorld

/-- One namespace goes, with its data, its ingest pipeline, and the outputs that name it (R253). -/
def removeNs (n : Nat) (s : State) : State :=
  let s := trim n (fun k => keyNs k == n) (unclean s)
  let kept := s.pipes.filter fun p => p.2.scan || p.2.source != n
  let cut : Pipe → Pipe := fun p => { p with outs := p.outs.map fun o => if o.1 = 1 ∧ o.2 = n then (0, n) else o }
  { s with ns := del s.ns n, pipes := kept.map fun p => (p.1, cut p.2), opens := s.opens.filter fun x => x != n }

/-- NAMESPACE_DELETE (R65): the commands fetched for the namespace complete first. -/
def execNamespaceDelete (h : Nat) (s : State) : Host.Outcome State Fault Refusal :=
  done (match s.admin h 0x0D with
  | none => s
  | some c =>
    let ids := s.named c.nsid
    if fld (c.dword 10) 3 0 ≠ 1 then s
    else if ids.isEmpty ∧ c.nsid ≠ 0xFFFFFFFF then invalidNs h s
    else if s.needsKeeper c ids then notKeeper h s
    else if ids.any s.nsBusy then s
    else succeed h (recordKeys (ids.foldl (fun s n => removeNs n s) s)))

/-- NAMESPACE_ATTACHMENT: to the one controller, or detached from it. -/
def execNamespaceAttachment (h : Nat) (s : State) : Host.Outcome State Fault Refusal :=
  done (match s.admin h 0x15 with
  | none => s
  | some c =>
    match look s.ns c.nsid with
    | none => invalidNs h s
    | some n =>
      let on := fld (c.dword 10) 3 0 == 0
      if n.attached = on then fail h 1 (if on then 0x18 else 0x1A) s
      else succeed h (modNs c.nsid (fun n => { n with attached := on }) s))

/-! Format NVM (R65, R357, R417, R418). -/

/-- One namespace is erased; records, index and data go, what the commit marks count stays. -/
def eraseNs (n : Nat) (rekey : Bool) (s : State) : State :=
  let s := trim n (fun k => keyNs k == n) (unclean s)
  let (k, s) := newKey s
  let f : Ns → Ns := fun x => { x with key := if rekey then k else x.key
                                       st := { x.st with next := 0, used := 0, recs := [], opened := [], unindexed := [] } }
  { modNs n f s with opens := s.opens.filter fun x => x != n }

/-- The fields of Format NVM: LBA format, metadata placement, protection type, Secure Erase Setting. -/
def fmtLbaf (c : Cmd) : Nat := fld (c.dword 10) 3 0 + 16 * fld (c.dword 10) 13 12
def fmtExt (c : Cmd) : Bool := bit (c.dword 10) 4
def fmtPi (c : Cmd) : Nat := fld (c.dword 10) 7 5
def fmtSes (c : Cmd) : Nat := fld (c.dword 10) 11 9

/-- A namespace takes the format that the command names. -/
def Ns.format (n : Ns) (c : Cmd) : Ns := { n with fmt := fmtLbaf c, ext := fmtExt c, prot := fmtPi c }

/-- The Compat set (R417), in the format of the command. -/
def compatNs (c : Cmd) (k : List Byte) : Ns :=
  { nsze := 3000000000, ncap := 3000000000, fmt := fmtLbaf c, ext := fmtExt c, prot := fmtPi c, stream := false, scan := false
    ring := false, encrypt := true, maxRec := 0, attached := true, key := k, st := .reset }

/-- The format is one that the namespaces take. -/
def formatOk (c : Cmd) (s : State) (ids : List Nat) : Bool :=
  decide (fmtLbaf c ≤ 1) && (fmtPi c == 0 || fmtPi c == 1 || fmtPi c == 3) && (fmtPi c == 0 || fmtLbaf c == 1) &&
    (fmtLbaf c == 0 || ids.all fun n => (look s.ns n).all fun x => !x.stream)

/-- FORMAT_NVM. -/
def execFormatNvm (h : Nat) (s : State) : Host.Outcome State Fault Refusal :=
  done (match s.admin h 0x80 with
  | none => s
  | some c =>
    let ids := s.named c.nsid
    let fresh := s.compat && !s.compatSet
    if 2 < fmtSes c then invalidField h s
    else if c.nsid ≠ 0xFFFFFFFF ∧ (ids.isEmpty ∨ fresh) then invalidNs h s
    else if !formatOk c s (if fresh then [] else ids) then fail h 1 0x0A s
    else if fmtSes c = 2 && !fresh && ids.any fun n => (look s.ns n).any fun x => !x.encrypt then invalidField h s
    else if s.needsKeeper c ids then notKeeper h s
    else if ids.any s.nsBusy then s
    else if fresh then
      let s := ids.foldl (fun s n => removeNs n s) s
      let (k, s) := newKey s
      succeed h (recordKeys (setNsWorld 1 false { s with ns := [(1, compatNs c k)] }))
    else succeed h (recordKeys (ids.foldl (fun s n => modNs n (fun x => x.format c) (eraseNs n (fmtSes c == 2) s)) s)))

/-! Sanitize (R94, R357). -/

/-- All user data goes: every namespace, and the answers in result slots. -/
def sanitize (newKeys : Bool) (s : State) : State :=
  let s := recordKeys ((s.named 0xFFFFFFFF).foldl (fun s n => eraseNs n newKeys s) s)
  { s with slots := s.slots.map fun x => (x.1, { x.2 with state := .free, answer := [], size := 0 })
           queries := [], nv := { s.nv with sanitize := 1 } }

/-- Sanitize with an action: every namespace is touched, so that no command of an I/O queue and no query may run. -/
def sanitizeCmd (act : Nat) (h : Nat) (s : State) : State :=
  match s.admin h 0x84 with
  | none => s
  | some c =>
    if fld (c.dword 10) 2 0 ≠ act then s
    else if act = 4 && s.ns.any fun x => !x.2.encrypt then invalidField h s
    else if !c.keeper then notKeeper h s
    else if (s.nv.inflight.any fun x => x.qid != 0) || s.queries.any fun q => q.state != .ended then s
    else succeed h (sanitize (act == 4) s)

/-- SANITIZE_BLOCK_ERASE. -/
def execSanitizeBlockErase (h : Nat) (s : State) : Host.Outcome State Fault Refusal := done (sanitizeCmd 2 h s)

/-- SANITIZE_CRYPTO_ERASE. -/
def execSanitizeCryptoErase (h : Nat) (s : State) : Host.Outcome State Fault Refusal := done (sanitizeCmd 4 h s)

end Sys2Proof.Machine
end

