-- ==== Sys2Proof/Machine/Codec.lean ====
section
/-! DEFINITION. What the compression units answer (R240): raw deflate streams are decompressed as RFC 1951 states and Zstandard
frames as RFC 8878 states. The bytes that a compressor writes are the unit's choice (Config): what it chooses counts only
where it decompresses to the input in the form R240 asks for, and is a stored stream or frame otherwise
(notes/assumptions/86.md). -/

namespace Sys2Proof.Machine

/-! Bits still to be read. -/

abbrev Bits := List Bool

/-- Bits of bytes from the first byte on, each from its least significant bit. -/
def bitsOf (bs : List Byte) : Bits := bs.flatMap fun b => (byteBits b).reverse

/-- The next k bits as a number, the first as its least significant bit. -/
def takeLow (k : Nat) (b : Bits) : Option (Nat × Bits) :=
  let h := b.take k
  if h.length = k then some (ofBits h, b.drop k) else none

/-- The next k bits as a number, the first as its most significant bit. -/
def takeHigh (k : Nat) (b : Bits) : Option (Nat × Bits) :=
  let h := b.take k
  if h.length = k then some (ofBits h.reverse, b.drop k) else none

/-- Copy n bytes from distance d of the output, newest byte first; none beyond its start. -/
def copyBack (d : Nat) : Nat → List Byte → Option (List Byte)
  | 0, out => some out
  | n + 1, out => if d = 0 then none else match out[d - 1]? with
    | none => none
    | some b => copyBack d n (b :: out)

/-! Deflate (RFC 1951). Output is held newest byte first. -/

/-- A prefix code by its lengths: how many codes of each length 1 to 15, and the symbols in code order. -/
def prefixCode (lens : List Nat) : List Nat × List Nat :=
  ((List.range 15).map fun k => (lens.filter fun l => l == k + 1).length,
   (List.range 15).flatMap fun k => (lens.zipIdx.filter fun p => p.1 == k + 1).map fun p => p.2)

/-- Codes of 15 bits that a set of lengths leaves unused; negative when it is over-subscribed. -/
def codeRoom (lens : List Nat) : Int :=
  2 ^ 15 - ((lens.filter fun l => l != 0).map fun l => ((2 ^ (15 - l) : Nat) : Int)).sum

/-- Lengths make a code: complete, empty, or one code of one bit. -/
def codeOk (lens : List Nat) : Bool :=
  codeRoom lens == 0 || (lens.all fun l => l == 0) || ((lens.filter fun l => l != 0) == [1])

/-- The next symbol of a prefix code. -/
def nextSymbol : List Nat → List Nat → Nat → Nat → Bits → Option (Nat × Bits)
  | c :: cs, syms, code, first, b :: rest =>
    let code := code + b2n b
    if code < first + c then (syms[code - first]?).map fun x => (x, rest)
    else nextSymbol cs (syms.drop c) (2 * code) (2 * (first + c)) rest
  | _, _, _, _, _ => none

/-- Base and extra bits of the length symbols 257 to 285. -/
def deflateLens : List (Nat × Nat) :=
  [(3, 0), (4, 0), (5, 0), (6, 0), (7, 0), (8, 0), (9, 0), (10, 0), (11, 1), (13, 1), (15, 1), (17, 1), (19, 2), (23, 2), (27, 2)] ++
  [(31, 2), (35, 3), (43, 3), (51, 3), (59, 3), (67, 4), (83, 4), (99, 4), (115, 4), (131, 5), (163, 5), (195, 5), (227, 5)] ++
  [(258, 0)]

/-- Base and extra bits of the distance symbols 0 to 29. -/
def deflateDists : List (Nat × Nat) :=
  [(1, 0), (2, 0), (3, 0), (4, 0), (5, 1), (7, 1), (9, 2), (13, 2), (17, 3), (25, 3), (33, 4), (49, 4), (65, 5), (97, 5)] ++
  [(129, 6), (193, 6), (257, 7), (385, 7), (513, 8), (769, 8), (1025, 9), (1537, 9), (2049, 10), (3073, 10), (4097, 11)] ++
  [(6145, 11), (8193, 12), (12289, 12), (16385, 13), (24577, 13)]

/-- A symbol's base with its extra bits. -/
def baseExtra (t : List (Nat × Nat)) (k : Nat) (b : Bits) : Option (Nat × Bits) := do
  let (base, n) ← t[k]?
  let (v, b) ← takeLow n b
  some (base + v, b)

/-- The symbols of one compressed block, to its end. -/
def inflateCodes (lit dist : List Nat × List Nat) : Nat → Bits → List Byte → Option (Bits × List Byte)
  | 0, _, _ => none
  | fuel + 1, b, out => do
    let (x, b) ← nextSymbol lit.1 lit.2 0 0 b
    if x < 256 then inflateCodes lit dist fuel b (b8 x :: out)
    else if x = 256 then some (b, out)
    else
      let (len, b) ← baseExtra deflateLens (x - 257) b
      let (d, b) ← nextSymbol dist.1 dist.2 0 0 b
      let (d, b) ← baseExtra deflateDists d b
      let out ← copyBack d len out
      inflateCodes lit dist fuel b out

/-- n code lengths in the code-length alphabet, the last one first. -/
def codeLengths (code : List Nat × List Nat) : Nat → Nat → Bits → List Nat → Option (Bits × List Nat)
  | 0, _, _, _ => none
  | fuel + 1, n, b, ls =>
    if n ≤ ls.length then (if ls.length = n then some (b, ls.reverse) else none) else do
    let (x, b) ← nextSymbol code.1 code.2 0 0 b
    if x < 16 then codeLengths code fuel n b (x :: ls)
    else if x = 16 then
      let l ← ls.head?
      let (k, b) ← takeLow 2 b
      codeLengths code fuel n b (List.replicate (3 + k) l ++ ls)
    else
      let (k, b) ← takeLow (if x = 17 then 3 else 7) b
      codeLengths code fuel n b (List.replicate ((if x = 17 then 3 else 11) + k) 0 ++ ls)

/-- The order of the code-length code's lengths. -/
def lengthOrder : List Nat := [16, 17, 18, 0, 8, 7, 9, 6, 10, 5, 11, 4, 12, 3, 13, 2, 14, 1, 15]

/-- n fields of k bits. -/
def takeFields (k : Nat) : Nat → Bits → Option (List Nat × Bits)
  | 0, b => some ([], b)
  | n + 1, b => do
    let (v, b) ← takeLow k b
    let (vs, b) ← takeFields k n b
    some (v :: vs, b)

/-- The two codes of a dynamic block. -/
def dynamicCodes (b : Bits) : Option ((List Nat × List Nat) × (List Nat × List Nat) × Bits) := do
  let (hlit, b) ← takeLow 5 b
  let (hdist, b) ← takeLow 5 b
  let (hclen, b) ← takeLow 4 b
  if 29 < hlit then none else
  let (cl, b) ← takeFields 3 (hclen + 4) b
  let lens := (List.range 19).map fun k => (((lengthOrder.zip cl).find? fun p => p.1 == k).map fun p => p.2).getD 0
  if codeRoom lens ≠ 0 then none else
  let n := hlit + 257
  let (b, ls) ← codeLengths (prefixCode lens) 320 (n + hdist + 1) b []
  let lit := ls.take n
  let dist := ls.drop n
  if (lit[256]?).getD 0 = 0 || !codeOk lit || !codeOk dist then none else some (prefixCode lit, prefixCode dist, b)

/-- The codes of a block with fixed codes. -/
def fixedLit : List Nat × List Nat :=
  prefixCode (List.replicate 144 8 ++ List.replicate 112 9 ++ List.replicate 24 7 ++ List.replicate 8 8)
def fixedDist : List Nat × List Nat := prefixCode (List.replicate 32 5)

/-- The blocks of a stream: its bytes, newest first, when it ends within the last byte given. -/
def inflateBlocks : Nat → Bits → List Byte → Option (List Byte)
  | 0, _, _ => none
  | fuel + 1, b, out => do
    let (last, b) ← takeLow 1 b
    let (kind, b) ← takeLow 2 b
    let (b, out) ← (match kind with
      | 0 => do
        let b := b.drop (b.length % 8)
        let (n, b) ← takeLow 16 b
        let (m, b) ← takeLow 16 b
        if n + m ≠ 0xFFFF then none else
        let (bs, b) ← takeFields 8 n b
        some (b, (bs.map b8).reverse ++ out)
      | 1 => inflateCodes fixedLit fixedDist (b.length + 1) b out
      | 2 => do
        let (lit, dist, b) ← dynamicCodes b
        inflateCodes lit dist (b.length + 1) b out
      | _ => none : Option (Bits × List Byte))
    if last = 1 then (if b.length < 8 then some out else none) else inflateBlocks fuel b out

/-- Deflate decompression of a whole input: none when it is no raw RFC 1951 stream. -/
def inflate (bs : List Byte) : Option (List Byte) := (inflateBlocks (8 * bs.length) (bitsOf bs) []).map List.reverse

/-! XXH64, the content checksum of Zstandard. -/

def xxP1 : W64 := 0x9E3779B185EBCA87
def xxP2 : W64 := 0xC2B2AE3D27D4EB4F
def xxP3 : W64 := 0x165667B19E3779F9
def xxP4 : W64 := 0x85EBCA77C2B2AE63
def xxP5 : W64 := 0x27D4EB2F165667C5

def xxRound (a lane : W64) : W64 := (a + lane * xxP2).rotateLeft 31 * xxP1

/-- The accumulators after whole stripes of 32 bytes. -/
def xxStripes (bs : List Byte) : List W64 :=
  (chunks 32 (bs.length / 32) bs).foldl (fun v c => v.zipIdx.map fun p => xxRound p.1 (w64 (u64At c (8 * p.2))))
    [xxP1 + xxP2, xxP2, 0, 0 - xxP1]

/-- The bytes after the last stripe. -/
def xxTail : Nat → List Byte → W64 → W64
  | 0, _, h => h
  | fuel + 1, bs, h =>
    if bs.isEmpty then h
    else if 8 ≤ bs.length then
      xxTail fuel (bs.drop 8) ((h ^^^ xxRound 0 (w64 (u64At bs 0))).rotateLeft 27 * xxP1 + xxP4)
    else if 4 ≤ bs.length then xxTail fuel (bs.drop 4) ((h ^^^ w64 (u32At bs 0) * xxP1).rotateLeft 23 * xxP2 + xxP3)
    else xxTail fuel (bs.drop 1) ((h ^^^ w64 (u8At bs 0) * xxP5).rotateLeft 11 * xxP1)

/-- XXH64 with seed 0. -/
def xxh64 (bs : List Byte) : W64 :=
  let h := if bs.length < 32 then xxP5 else
    let v := xxStripes bs
    let sum := ((v.zip [1, 7, 12, 18]).map fun p => p.1.rotateLeft p.2).foldl (· + ·) 0
    v.foldl (fun h x => (h ^^^ xxRound 0 x) * xxP1 + xxP4) sum
  let h := xxTail 32 (bs.drop (bs.length / 32 * 32)) (h + w64 bs.length)
  let h := (h ^^^ (h >>> 33)) * xxP2
  let h := (h ^^^ (h >>> 29)) * xxP3
  h ^^^ (h >>> 32)

/-! Zstandard (RFC 8878). -/

/-- Bits of a stream that is read from its end: the highest set bit of its last byte marks the end. -/
def backBits (bs : List Byte) : Option Bits :=
  match bs.reverse with
  | [] => none
  | b :: _ => if b = 0 then none else some (((bs.reverse.flatMap byteBits).dropWhile fun x => !x).drop 1)

/-- A finite-state entropy table: its accuracy log, and for each state its symbol, bits and base of the next state. -/
structure FseTab where
  log  : Nat
  rows : List (Nat × Nat × Nat)
deriving DecidableEq, Repr

/-- More zeros follow a probability of zero, as long as the repeat field is 3. -/
def fseZeros : Nat → Bits → List Int → Option (Bits × List Int)
  | 0, _, _ => none
  | fuel + 1, b, ps => do
    let (k, b) ← takeLow 2 b
    let ps := List.replicate k 0 ++ ps
    if k = 3 then fseZeros fuel b ps else some (b, ps)

/-- The probabilities of a table, the last symbol's first: −1 stands for less than one. -/
def fseProbs : Nat → Nat → Bits → List Int → Option (Bits × List Int)
  | 0, _, _, _ => none
  | fuel + 1, left, b, ps =>
    if left = 0 then some (b, ps) else do
    let n := Nat.log2 (left + 1) + 1
    let (lo, b1) ← takeLow (n - 1) b
    let cut := 2 ^ n - 1 - (left + 1)
    let (v, b) ← (if lo < cut then some (lo, b1) else do
      let (hi, b2) ← takeLow 1 b1
      some (if hi = 0 then lo else lo + 2 ^ (n - 1) - cut, b2) : Option (Nat × Bits))
    let p : Int := (v : Int) - 1
    if left < p.natAbs then none else
    let ps := p :: ps
    if p = 0 then
      let (b, ps) ← fseZeros 128 b ps
      fseProbs fuel left b ps
    else fseProbs fuel (left - p.natAbs) b ps

/-- The symbols of the states: those of less than one from the top down, the others spread. -/
def fseSpread (log : Nat) (ps : List Int) : List Nat :=
  let size := 2 ^ log
  let low := (ps.zipIdx.filter fun p => p.1 == -1).map fun p => p.2
  let top := size - low.length
  let step := size / 2 + size / 8 + 3
  let places := ((List.range size).map fun k => k * step % size).filter fun x => x < top
  let syms := ps.zipIdx.flatMap fun p => List.replicate p.1.toNat p.2
  let at_ := places.zip syms
  ((List.range top).map fun i => ((at_.find? fun x => x.1 == i).map fun x => x.2).getD 0) ++ low.reverse

/-- A table from its probabilities. -/
def fseTable (log : Nat) (ps : List Int) : FseTab :=
  let syms := fseSpread log ps
  ⟨log, syms.zipIdx.map fun p =>
    let seen := ((syms.take p.2).filter fun x => x == p.1).length
    let next := ((ps[p.1]?).getD 0).natAbs + seen
    let n := log - Nat.log2 next
    (p.1, n, next * 2 ^ n - 2 ^ log)⟩

/-- A table description at the start of bytes: the table and the bytes after it. -/
def fseRead (maxLog maxSym : Nat) (bs : List Byte) : Option (FseTab × List Byte) := do
  let (a, b) ← takeLow 4 (bitsOf bs)
  if maxLog < a + 5 then none else
  let (b, ps) ← fseProbs 256 (2 ^ (a + 5)) b []
  if maxSym + 1 < ps.length then none else some (fseTable (a + 5) ps.reverse, bs.drop (bs.length - b.length / 8))

/-- The next state of a table. -/
def FseTab.next (t : FseTab) (st : Nat) (b : Bits) : Option (Nat × Bits) := do
  let r ← t.rows[st]?
  let (v, b) ← takeHigh r.2.1 b
  some (r.2.2 + v, b)

/-- The symbol of a state. -/
def FseTab.symbol (t : FseTab) (st : Nat) : Nat := ((t.rows[st]?).map fun r => r.1).getD 0

/-- Huffman weights from two states in turn, until the bits do not suffice for the next state; the last weight first. -/
def fseWeights (t : FseTab) : Nat → Nat → Nat → Bits → List Nat → Option (List Nat)
  | 0, _, _, _, _ => none
  | fuel + 1, a, c, b, ws =>
    let ws := t.symbol a :: ws
    match t.next a b with
    | none => some (t.symbol c :: ws)
    | some (a, b) => fseWeights t fuel c a b ws

/-- A Huffman table: its longest code, and for each value of that many bits the symbol and the length of its code. -/
structure HufTab where
  log  : Nat
  rows : List (Nat × Nat)
deriving DecidableEq, Repr

/-- A table from the weights that a description gives; the last symbol's weight completes them. -/
def hufTable (ws : List Nat) : Option HufTab :=
  let sum := (ws.map fun w => if w = 0 then 0 else 2 ^ (w - 1)).sum
  if sum = 0 then none else
  let log := Nat.log2 sum + 1
  let left := 2 ^ log - sum
  if 11 < log ∨ 2 ^ Nat.log2 left ≠ left then none else
  let ws := ws ++ [Nat.log2 left + 1]
  some ⟨log, (List.range log).flatMap fun k =>
    (ws.zipIdx.filter fun p => p.1 == k + 1).flatMap fun p => List.replicate (2 ^ k) (p.2, log - k)⟩

/-- A Huffman tree description at the start of bytes. -/
def hufRead (bs : List Byte) : Option (HufTab × List Byte) := do
  let h ← bs.head?
  let h := h.toNat
  let bs := bs.drop 1
  if h < 128 then
    if bs.length < h then none else
    let (t, rest) ← fseRead 6 255 (bs.take h)
    let b ← backBits rest
    let (x, b) ← takeHigh t.log b
    let (y, b) ← takeHigh t.log b
    let ws ← fseWeights t 254 x y b []
    let tab ← hufTable ws.reverse
    some (tab, bs.drop h)
  else
    let n := h - 127
    let k := (n + 1) / 2
    if bs.length < k then none else
    let tab ← hufTable (((bs.take k).flatMap fun x => [x.toNat / 16, x.toNat % 16]).take n)
    some (tab, bs.drop k)

/-- n literals of one Huffman stream, which ends with them. -/
def hufStream (t : HufTab) : Nat → Bits → Option (List Byte)
  | 0, b => if b.isEmpty then some [] else none
  | n + 1, b => do
    let h := b.take t.log
    let (x, k) ← t.rows[ofBits (h ++ List.replicate (t.log - h.length) false).reverse]?
    if b.length < k then none else
    let xs ← hufStream t n (b.drop k)
    some (b8 x :: xs)

/-- Literals of one or four streams. -/
def hufLiterals (t : HufTab) (four : Bool) (n : Nat) (bs : List Byte) : Option (List Byte) :=
  if !four then (backBits bs).bind (hufStream t n) else
  let a := u16At bs 0
  let b := u16At bs 2
  let c := u16At bs 4
  let q := (n + 3) / 4
  if bs.length < 6 + a + b + c ∨ n < 3 * q then none else do
  let w ← (backBits (slice bs 6 a)).bind (hufStream t q)
  let x ← (backBits (slice bs (6 + a) b)).bind (hufStream t q)
  let y ← (backBits (slice bs (6 + a + b) c)).bind (hufStream t q)
  let z ← (backBits (bs.drop (6 + a + b + c))).bind (hufStream t (n - 3 * q))
  some (w ++ x ++ y ++ z)

/-- What blocks of a frame hand on: tables, repeat offsets, and the output, newest byte first. -/
structure ZState where
  huf  : Option HufTab
  ll   : Option FseTab
  offs : Option FseTab
  ml   : Option FseTab
  reps : List Nat
  out  : List Byte
deriving DecidableEq, Repr

/-- The literals section of a block: the literals, and the bytes after it. -/
def zLiterals (z : ZState) (bs : List Byte) : Option (List Byte × List Byte × ZState) :=
  let h := u8At bs 0
  let sf := h / 4 % 4
  if bs.isEmpty then none
  else if h % 4 < 2 then
    let k := if sf % 2 = 0 then 1 else if sf = 1 then 2 else 3
    let n := ofLe (slice bs 0 k) / (if sf % 2 = 0 then 8 else 16)
    if bs.length < k ∨ 0x20000 < n then none
    else if h % 4 = 0 then (if bs.length < k + n then none else some (slice bs k n, bs.drop (k + n), z))
    else match bs[k]? with
      | none => none
      | some b => some (List.replicate n b, bs.drop (k + 1), z)
  else
    let k := if sf ≤ 1 then 3 else sf + 2
    let w := if sf ≤ 1 then 10 else if sf = 2 then 14 else 18
    let v := ofLe (slice bs 0 k) / 16
    let n := v % 2 ^ w
    let len := v / 2 ^ w
    if bs.length < k + len ∨ 0x20000 < n then none else do
    let part := slice bs k len
    let (t, part) ← (if h % 4 = 2 then hufRead part else z.huf.map fun t => (t, part) : Option (HufTab × List Byte))
    let xs ← hufLiterals t (sf != 0) n part
    some (xs, bs.drop (k + len), { z with huf := some t })

/-- Predefined probabilities. -/
def llProbs : List Int :=
  [4, 3, 2, 2, 2, 2, 2, 2, 2, 2, 2, 2, 2, 1, 1, 1, 2, 2, 2, 2, 2, 2, 2, 2, 2, 3, 2, 1, 1, 1, 1, 1] ++ [-1, -1, -1, -1]
def mlProbs : List Int :=
  [1, 4, 3, 2, 2, 2, 2, 2, 2] ++ List.replicate 37 1 ++ [-1, -1, -1, -1, -1, -1, -1]
def ofProbs : List Int :=
  [1, 1, 1, 1, 1, 1, 2, 2, 2, 1, 1, 1, 1, 1, 1, 1, 1, 1, 1, 1, 1, 1, 1, 1] ++ [-1, -1, -1, -1, -1]

/-- Base and extra bits of literal-length and match-length codes. -/
def llCode (k : Nat) : Nat × Nat :=
  if k < 16 then (k, 0) else
  ([(16, 1), (18, 1), (20, 1), (22, 1), (24, 2), (28, 2), (32, 3), (40, 3), (48, 4), (64, 6)] ++
   (List.range 10).map fun i => (2 ^ (7 + i), 7 + i))[k - 16]?.getD (0, 0)
def mlCode (k : Nat) : Nat × Nat :=
  if k < 32 then (k + 3, 0) else
  ([(35, 1), (37, 1), (39, 1), (41, 1), (43, 2), (47, 2), (51, 3), (59, 3), (67, 4), (83, 4), (99, 5)] ++
   (List.range 10).map fun i => (3 + 2 ^ (7 + i), 7 + i))[k - 32]?.getD (0, 0)

/-- The table that a mode selects: predefined, one symbol, described, or the last one. -/
def zTable (mode maxLog maxSym : Nat) (std : FseTab) (old : Option FseTab) (bs : List Byte) : Option (FseTab × List Byte) :=
  match mode with
  | 0 => some (std, bs)
  | 1 => match bs with
    | [] => none
    | b :: rest => if maxSym < b.toNat then none else some (⟨0, [(b.toNat, 0, 0)]⟩, rest)
  | 2 => fseRead maxLog maxSym bs
  | _ => old.map fun t => (t, bs)

/-- The offset of a sequence and the repeat offsets after it. -/
def zOffset (v ll : Nat) (reps : List Nat) : Option (Nat × List Nat) :=
  let r : Nat → Nat := fun i => (reps[i]?).getD 0
  if 3 < v then some (v - 3, [v - 3, r 0, r 1]) else
  match v - 1 + (if ll = 0 then 1 else 0) with
  | 0 => some (r 0, reps)
  | 1 => some (r 1, [r 1, r 0, r 2])
  | 2 => some (r 2, [r 2, r 0, r 1])
  | _ => if r 0 ≤ 1 then none else some (r 0 - 1, [r 0 - 1, r 0, r 1])

/-- n sequences: literals, then a match (RFC 8878, 3.1.1.3.2 to 3.1.1.4). -/
def zSequences (tl to_ tm : FseTab) (window : Nat) : Nat → Nat → Nat → Nat → Bits → List Byte → ZState → Option (List Byte × ZState)
  | 0, _, _, _, b, lits, z => if b.isEmpty then some (lits, z) else none
  | n + 1, sl, so, sm, b, lits, z => do
    let oc := to_.symbol so
    let (x, b) ← takeHigh oc b
    let (mb, mk) := mlCode (tm.symbol sm)
    let (y, b) ← takeHigh mk b
    let (lb, lk) := llCode (tl.symbol sl)
    let (w, b) ← takeHigh lk b
    let ll := lb + w
    let (d, reps) ← zOffset (2 ^ oc + x) ll z.reps
    if lits.length < ll ∨ window < d then none else
    let out ← copyBack d (mb + y) ((lits.take ll).reverse ++ z.out)
    let z := { z with reps := reps, out := out }
    if n = 0 then zSequences tl to_ tm window 0 0 0 0 b (lits.drop ll) z else
    let (sl, b) ← tl.next sl b
    let (sm, b) ← tm.next sm b
    let (so, b) ← to_.next so b
    zSequences tl to_ tm window n sl so sm b (lits.drop ll) z

/-- A compressed block. -/
def zBlock (window : Nat) (bs : List Byte) (z : ZState) : Option ZState := do
  let (lits, bs, z) ← zLiterals z bs
  let h ← bs.head?
  let h := h.toNat
  let k := if h < 128 then 1 else if h < 255 then 2 else 3
  if bs.length < k then none else
  let n := if h < 128 then h else if h < 255 then (h - 128) * 256 + u8At bs 1 else u16At bs 1 + 0x7F00
  let bs := bs.drop k
  if n = 0 then (if bs.isEmpty then some { z with out := lits.reverse ++ z.out } else none) else
  let m ← bs.head?
  let m := m.toNat
  if m % 4 ≠ 0 then none else
  let bs := bs.drop 1
  let (tl, bs) ← zTable (m / 64) 9 35 (fseTable 6 llProbs) z.ll bs
  let (to_, bs) ← zTable (m / 16 % 4) 8 31 (fseTable 5 ofProbs) z.offs bs
  let (tm, bs) ← zTable (m / 4 % 4) 9 52 (fseTable 6 mlProbs) z.ml bs
  let b ← backBits bs
  let (sl, b) ← takeHigh tl.log b
  let (so, b) ← takeHigh to_.log b
  let (sm, b) ← takeHigh tm.log b
  let (lits, z) ← zSequences tl to_ tm window n sl so sm b lits { z with ll := some tl, offs := some to_, ml := some tm }
  some { z with out := lits.reverse ++ z.out }

/-- The blocks of a frame: the state after the last one, and the bytes after it. -/
def zBlocks (window : Nat) : Nat → List Byte → ZState → Option (ZState × List Byte)
  | 0, _, _ => none
  | fuel + 1, bs, z => do
    let h := ofLe (slice bs 0 3)
    let n := h / 8
    let most := min window 0x20000
    if bs.length < 3 ∨ most < n then none else
    let bs := bs.drop 3
    let len := if h / 2 % 4 = 1 then 1 else n
    if bs.length < len then none else
    let w ← (match h / 2 % 4 with
      | 0 => some { z with out := (bs.take n).reverse ++ z.out }
      | 1 => some { z with out := List.replicate n ((bs.head?).getD 0) ++ z.out }
      | 2 => zBlock window (bs.take n) z
      | _ => none : Option ZState)
    if z.out.length + most < w.out.length then none
    else if h % 2 = 1 then some (w, bs.drop len) else zBlocks window fuel (bs.drop len) w

/-- A frame header after the magic number: content size, window, checksum flag, and its length (RFC 8878, 3.1.1.1): none for a
reserved bit, a dictionary, or a window of more than 8 MiB (R240). -/
def zHeader (bs : List Byte) : Option (Option Nat × Nat × Bool × Nat) := do
  let d ← bs.head?
  let d := d.toNat
  let single := decide (d / 32 % 2 = 1)
  let dict := if d % 4 = 3 then 4 else d % 4
  let size := if d / 64 = 0 then b2n single else 2 ^ (d / 64)
  let at_ := 1 + b2n (!single)
  let len := at_ + dict + size
  if bs.length < len ∨ d / 8 % 2 = 1 ∨ ofLe (slice bs at_ dict) ≠ 0 then none else
  let v := ofLe (slice bs (at_ + dict) size)
  let content := if size = 0 then none else some (if size = 2 then v + 256 else v)
  let w := u8At bs 1
  let base := 2 ^ (10 + w / 8)
  let window := if single then content.getD 0 else base + base / 8 * (w % 8)
  if 0x800000 < window then none else some (content, window, decide (d / 4 % 2 = 1), len)

/-- One frame after its magic number: its content, whether its checksum passes, and the bytes after it. -/
def zFrame (bs : List Byte) : Option (List Byte × Bool × List Byte) := do
  let (content, window, sum, len) ← zHeader bs
  let (z, rest) ← zBlocks window bs.length (bs.drop len) ⟨none, none, none, none, [1, 4, 8], []⟩
  let out := z.out.reverse
  if content.any fun n => n != out.length then none
  else if !sum then some (out, true, rest)
  else if rest.length < 4 then none
  else some (out, decide (u32At rest 0 = (xxh64 out).toNat % 2 ^ 32), rest.drop 4)

/-- Concatenated frames; skippable frames are skipped. -/
def zFrames : Nat → List Byte → Option (List Byte × Bool)
  | 0, _ => none
  | fuel + 1, bs => do
    if bs.isEmpty then some ([], true) else
    let magic := u32At bs 0
    if 0x184D2A50 ≤ magic ∧ magic ≤ 0x184D2A5F then
      let n := u32At bs 4
      if bs.length < 8 + n then none else zFrames fuel (bs.drop (8 + n))
    else if magic ≠ 0xFD2FB528 then none
    else
      let (out, ok, rest) ← zFrame (bs.drop 4)
      let (more, ok') ← zFrames fuel rest
      some (out ++ more, ok && ok')

/-- Zstandard decompression of a whole input: its bytes and whether every checksum passes, or none when it is malformed; no
bytes hold no frame. -/
def zstdDecompress (bs : List Byte) : Option (List Byte × Bool) := if bs.isEmpty then none else zFrames (bs.length + 1) bs

/-- Deflate decompression; no bytes hold no stream. -/
def deflateDecompress (bs : List Byte) : Option (List Byte) := inflate bs

/-! Compression. -/

/-- One frame of raw blocks with content size and checksum. -/
def zstdStored (bs : List Byte) : List Byte :=
  let cs := if bs.isEmpty then [[]] else chunks 0x20000 (bs.length / 0x20000 + 1) bs
  leBytes 4 0xFD2FB528 ++ [0xA4] ++ leBytes 4 bs.length ++
    (cs.zipIdx.flatMap fun c => leBytes 3 (8 * c.1.length + b2n (decide (c.2 + 1 = cs.length))) ++ c.1) ++
    leBytes 4 ((xxh64 bs).toNat % 2 ^ 32)

/-- Bytes are one frame with content size and checksum and no dictionary, which decompresses to an input. -/
def zstdFits (out bs : List Byte) : Bool :=
  u32At out 0 == 0xFD2FB528 &&
    ((zHeader (out.drop 4)).any fun h => h.1.isSome && h.2.2.1) &&
    fld ((out[4]?).getD 0) 1 0 == 0 && zFrame (out.drop 4) == some (bs, true, [])

/-- The frame that a Zstandard unit writes. -/
def zstdCompress (level : Nat) (bs : List Byte) : List Byte :=
  let out := Config.zstdCompress level bs
  if zstdFits out bs then out else zstdStored bs

/-- A stream of stored blocks. -/
def deflateStored (bs : List Byte) : List Byte :=
  let cs := if bs.isEmpty then [[]] else chunks 0xFFFF (bs.length / 0xFFFF + 1) bs
  cs.zipIdx.flatMap fun c =>
    [b8 (b2n (decide (c.2 + 1 = cs.length)))] ++ leBytes 2 c.1.length ++ leBytes 2 (0xFFFF - c.1.length) ++ c.1

/-- The stream that a deflate unit writes. -/
def deflateCompress (level : Nat) (bs : List Byte) : List Byte :=
  let out := Config.deflateCompress level bs
  if inflate out == some bs then out else deflateStored bs

end Sys2Proof.Machine
end

