-- ==== Sys2Proof/Machine/Flags.lean ====
section
/-! DEFINITION. The arithmetic of Stall Code: ALU functions (Table 8-5), compare conditions (Table 8-6), how a predicate is
combined (R224), and the fields that EXT, INS and SHI cut. -/

namespace Sys2Proof.Machine

/-- Leading zero bits of a 64-bit value (Table 8-5, CLZ). -/
def clz64 (v : Nat) : Nat := 63 + 1 - (if v = 0 then 0 else Nat.log2 v + 1)

/-- A 64-bit value with its bytes reversed (BSWAP). -/
def bswap64 (v : W64) : W64 := w64 (ofBe (leBytes 8 v.toNat))

/-- Signed quotient rounding toward zero (R228). -/
def divS (a b : W64) : W64 := if b = 0 then BitVec.allOnes 64 else a.sdiv b

/-- Signed remainder with the sign of the dividend (R228). -/
def remS (a b : W64) : W64 := if b = 0 then a else a.srem b

/-- An ALU function (R228): shift amounts are taken modulo 64. -/
def alu (fn : Nat) (a b : W64) : W64 :=
  let sh := b.toNat % 64
  if fn = 0 then a + b
  else if fn = 1 then a - b
  else if fn = 2 then a &&& b
  else if fn = 3 then a ||| b
  else if fn = 4 then a ^^^ b
  else if fn = 5 then a &&& ~~~b
  else if fn = 6 then a <<< sh
  else if fn = 7 then a >>> sh
  else if fn = 8 then a.sshiftRight sh
  else if fn = 9 then a.rotateRight sh
  else if fn = 10 then (if b.toNat < a.toNat then b else a)
  else if fn = 11 then (if a.toNat < b.toNat then b else a)
  else if fn = 12 then (if b.toInt < a.toInt then b else a)
  else if fn = 13 then (if a.toInt < b.toInt then b else a)
  else if fn = 14 then a * b
  else if fn = 15 then w64 (a.toNat * b.toNat / 2 ^ 64)
  else if fn = 16 then BitVec.ofInt 64 (a.toInt * b.toInt / 2 ^ 64)
  else if fn = 17 then (if b = 0 then BitVec.allOnes 64 else w64 (a.toNat / b.toNat))
  else if fn = 18 then (if b = 0 then a else w64 (a.toNat % b.toNat))
  else if fn = 19 then divS a b
  else if fn = 20 then remS a b
  else if fn = 21 then w64 (popcount 64 a.toNat)
  else if fn = 22 then w64 (clz64 a.toNat)
  else bswap64 a

/-- Cycles of an ALU function. -/
def aluCycles (fn : Nat) : Nat :=
  if fn = 14 then 3 else if fn = 15 ∨ fn = 16 then 4 else if 17 ≤ fn ∧ fn ≤ 20 then 20 else 1

/-- A compare condition (Table 8-6). -/
def cond (c : Nat) (a b : W64) : Bool :=
  if c = 0 then a == b
  else if c = 1 then a != b
  else if c = 2 then decide (a.toNat < b.toNat)
  else if c = 3 then decide (b.toNat ≤ a.toNat)
  else if c = 4 then decide (a.toInt < b.toInt)
  else if c = 5 then decide (b.toInt ≤ a.toInt)
  else if c = 6 then decide (a.toNat ≤ b.toNat)
  else if c = 7 then decide (b.toNat < a.toNat)
  else if c = 8 then decide (a.toInt ≤ b.toInt)
  else if c = 9 then decide (b.toInt < a.toInt)
  else if c = 10 then (a &&& b) != 0
  else (a &&& b) == 0

/-- COMB (R224): 0 replaces the predicate, 1 AND, 2 OR, 3 XOR. -/
def comb (k : Nat) (p c : Bool) : Bool :=
  if k = 0 then c else if k = 1 then p && c else if k = 2 then p || c else p != c

/-- PSET's operation on two predicates. -/
def psetOp (op : Nat) (a b : Bool) : Bool :=
  if op = 0 then a && b else if op = 1 then a || b else if op = 2 then a != b
  else if op = 3 then a && !b else if op = 4 then !a else if op = 5 then true else false

/-- SHI's kinds: SHL, SHR, SAR, ROR. -/
def shiftKind (kind n : Nat) (a : W64) : W64 := alu (6 + kind) a (w64 n)

/-- Sign extension of the low k bits to 64. -/
def sext64 (k v : Nat) : W64 := BitVec.ofInt 64 (sext k v)

/-- EXT: a field of `width` bits at `lsb`. -/
def extField (a : W64) (lsb width : Nat) (signed : Bool) : W64 :=
  let v := (a.toNat >>> lsb) % 2 ^ width
  if signed then sext64 width v else w64 v

/-- INS: a field of `width` bits at `lsb` replaced. -/
def insField (d a : W64) (lsb width : Nat) : W64 := putFld d (lsb + width - 1) lsb a.toNat

/-- A field of record bytes: little-endian, or big-endian with `be`, sign-extended with `s`. -/
def byteField (bs : List Byte) (s be : Bool) : W64 :=
  let v := if be then ofBe bs else ofLe bs
  if s then sext64 (8 * bs.length) v else w64 v

/-- The CRC-32C state after bytes, with no final inversion (R240). -/
def crcState (c : Nat) (bs : List Byte) : Nat := bs.foldl crc32cByte c

end Sys2Proof.Machine
end

