-- ==== Sys2Proof/Machine/StallCode.lean ====
section
/-! DEFINITION. Stall Code (08_stall_code.md): the words of the six formats, the common course of one instruction, and the
meaning of every instruction of Table 8-4. A command names the instruction that Stall n executes next: where the word at
its PC is another one, the command changes nothing (notes/assumptions/17.md). -/

namespace Sys2Proof.Machine

/-! Words (Table 8-3). -/

def wordOf (op : Nat) (rest : Nat) : W32 := w32 (op * 2 ^ 26 + rest)
def rWord (op : Nat) (f : RFmt) : W32 :=
  wordOf op (f.g.toNat * 2 ^ 22 + f.d.toNat * 2 ^ 18 + f.a.toNat * 2 ^ 14 + f.b.toNat * 2 ^ 10 + f.fn.toNat)
def iWord (op : Nat) (f : IFmt) : W32 :=
  wordOf op (f.g.toNat * 2 ^ 22 + f.d.toNat * 2 ^ 18 + f.a.toNat * 2 ^ 14 + f.imm.toNat)
def wWord (op : Nat) (f : WFmt) : W32 :=
  wordOf op (f.g.toNat * 2 ^ 22 + f.d.toNat * 2 ^ 18 + f.lane.toNat * 2 ^ 16 + f.imm.toNat)
def xWord (op : Nat) (f : XFmt) : W32 :=
  wordOf op (f.g.toNat * 2 ^ 22 + f.d.toNat * 2 ^ 18 + f.off.toNat * 2 ^ 11 + f.wid.toNat * 2 ^ 9 + f.s.toNat * 2 ^ 8 +
    f.be.toNat * 2 ^ 7 + f.z.toNat)
def bWord (op : Nat) (f : BFmt) : W32 := wordOf op (f.g.toNat * 2 ^ 22 + f.z.toNat * 2 ^ 14 + f.off.toNat)
def lWord (op : Nat) (f : LFmt) : W32 := wordOf op (f.stop.toNat * 2 ^ 12 + f.cnt.toNat)

/-- Opcodes that Table 8-4 lists. -/
def opListed (op : Nat) : Bool :=
  decide (1 ≤ op ∧ op ≤ 0x1A) || decide (0x20 ≤ op ∧ op ≤ 0x29) || decide (0x2C ≤ op ∧ op ≤ 0x31) ||
    decide (0x34 ≤ op ∧ op ≤ 0x36) || decide (0x38 ≤ op ∧ op ≤ 0x3B)

/-- GUARD's unused bits are zero (R225). -/
def guardOk (g : BitVec 4) : Bool := bit g 3 || g == 0

/-- GUARD is true for predicates p (R225). -/
def guardTrue (g p : BitVec 4) : Bool := !bit g 3 || (bit p (fld g 1 0) != bit g 2)

/-! Registers. -/

/-- A Fast handler runs on the shadow bank (R215). -/
def Stall.shadowed (t : Stall) : Bool := match t.handlers with
  | h :: _ => h.kind == .fast
  | [] => false

/-- Read gi; g0 reads zero (R220). -/
def Stall.reg (t : Stall) (i : BitVec 4) : W64 :=
  let k := i.toNat
  if k = 0 then 0 else if t.shadowed && decide (8 ≤ k) then (t.core.shadow[k - 8]?).getD 0 else (t.core.g[k]?).getD 0

/-- Write gi; writes to g0 are discarded (R220). -/
def Stall.setReg (i : BitVec 4) (v : W64) (t : Stall) : Stall :=
  let k := i.toNat
  if k = 0 then t
  else if t.shadowed && decide (8 ≤ k) then { t with core := { t.core with shadow := vput t.core.shadow (k - 8) v } }
  else { t with core := { t.core with g := vput t.core.g k v } }

/-- Write predicate D[1:0] per COMB in D[3:2] (R224). -/
def Stall.setPred (d : BitVec 4) (c : Bool) (t : Stall) : Stall :=
  let k := fld d 1 0
  { t with core := { t.core with p := putBit t.core.p k (comb (fld d 3 2) (bit t.core.p k) c) } }

/-! The common course of an instruction (R225, R226, R190, R231, R243). -/

/-- How an instruction ends. -/
inductive Flow where
  | next
  | jump (pc : Nat)
  | ret (pc : Nat)     -- as after the instruction before pc, a CALL
  | stay               -- PC and loops are left as the instruction put them
  | wait               -- the instruction waits: nothing else has happened
  | fault (cause : Nat)
deriving DecidableEq, Repr

/-- An index is reached after `pc` in order: loops whose body ends there go back or end (R231, R232). -/
def CoreRegs.after (pc : Nat) : List LoopFrame → Nat → CoreRegs → CoreRegs
  | [], _, c => { c with pc := pc + 1, loops := [] }
  | f :: fs, depth, c =>
    if f.last = pc ∧ f.depth = depth then
      if 0 < f.left then
        { c with pc := f.first, loops := { f with left := f.left - 1 } :: fs, wp := if f.chunk then c.wp + 64 else c.wp }
      else CoreRegs.after pc fs depth (if f.chunk then { c with wp := c.wp + 64 } else c)
    else { c with pc := pc + 1, loops := f :: fs }

/-- The next index in order after `pc`. -/
def CoreRegs.advance (c : CoreRegs) (pc : Nat) : CoreRegs := CoreRegs.after pc c.loops c.calls.length c

/-- A taken branch: loops of this subroutine whose body it leaves end (R233). -/
def CoreRegs.branch (c : CoreRegs) (t : Nat) : CoreRegs :=
  { c with pc := t, loops := c.loops.dropWhile fun f => decide (f.depth = c.calls.length) && decide (f.last < t) }

def Stall.modCore (f : CoreRegs → CoreRegs) (t : Stall) : Stall := { t with core := f t.core }

/-- Stall Code runs: in a handler, or in a stage that no unit call holds (R240, R241). -/
def State.codeRuns (s : State) (n : Nat) : Bool :=
  let t := s.stall n
  s.operating && (s.pwr.watch != .asleep) && (t.state == .running) &&
    (!t.handlers.isEmpty || ((t.stage == .pred || t.stage == .xform) && t.call.isNone))

/-- The current record's term (R189). -/
def State.curTerm (s : State) (n : Nat) : Nat := ((s.stall n).image.map fun i => i.term (s.curRecord n).length).getD 0

/-- Cycles of the Lot that a Stall runs; between Lots none count (R190). -/
def Stall.pass (k : Nat) (t : Stall) : Stall := { t with elapsed := if t.lots.isEmpty then t.elapsed else t.elapsed + k }

/-- Charge cycles: the record's count outside handlers, the elapsed count always (R190). -/
def Stall.charge (k : Nat) (t : Stall) : Stall :=
  { t.pass k with cycles := if t.handlers.isEmpty then t.cycles + k else t.cycles }

/-- What an instruction is: its word, whether its fields are legal, its cycles with a true and a false guard, its guard, and
whether a handler may hold it (R242). -/
structure Op where
  word    : W32
  legal   : Bool
  cost    : Nat
  skip    : Nat
  guard   : BitVec 4
  handler : Bool

/-- WP has 21 bits and moves only forward (R220, R221). The spec gives no value for a move past its last one: it is a free
multiple of 32 from the old position on (notes/assumptions/20.md). -/
def holdWp (n old : Nat) (s : State) : State :=
  if (s.stall n).core.wp < 2 ^ 21 then s else
  let (k, s) := s.take
  let v := ofLe ((List.range 4).map (Config.freeByte k))
  s.modStall n fun t => t.modCore fun c => { c with wp := old + 32 * (v % max 1 ((2 ^ 21 - old) / 32)) }

/-- An instruction that can wait has waited, for cycles that count in the elapsed count alone (R190); the spec gives no number
of them, and none at all is one of the free values (notes/assumptions/82.md). -/
def waited (n : Nat) (s : State) : State :=
  let (k, s) := s.take
  s.modStall n (Stall.pass (Config.waitCycles k))

/-- The index after an instruction: a handler leaves the loop stack alone (R242). -/
def CoreRegs.onward (inH : Bool) (pc : Nat) (c : CoreRegs) : CoreRegs := if inH then { c with pc := pc + 1 } else c.advance pc

/-- A taken branch; a handler's leaves the loop stack alone (R242). -/
def CoreRegs.branchTo (inH : Bool) (p : Nat) (c : CoreRegs) : CoreRegs := if inH then { c with pc := p } else c.branch p

/-- One instruction on Stall n. The causes come in the order of R243; an index past the 14 bits of PC names no word of program
memory and is ILLEGAL (notes/assumptions/20.md). -/
def runOp (n : Nat) (o : Op) (body : State → Flow × State) (s : State) : State :=
  if !s.codeRuns n then s else
  match (s.stall n).porterFault with
  | some c => stallFault n c s
  | none =>
    let pc := (s.stall n).core.pc
    match readWord true n (pc / 2) s with
    | (none, s) => stallFault n (if 2 ^ 14 ≤ pc then 1 else 3) s
    | (some v, s1) =>
      let w := if pc % 2 = 0 then w32 (v.toNat % 2 ^ 32) else w32 (v.toNat / 2 ^ 32)
      if w ≠ o.word then (if opListed (fld w 31 26) then s else stallFault n 1 s1) else
      let t := s1.stall n
      let inH := !t.handlers.isEmpty
      let on := guardTrue o.guard t.core.p
      if !o.legal || !guardOk o.guard || (inH && !o.handler && on) then stallFault n 1 s1 else
      if on && (body s1).1 == .fault 1 then stallFault n 1 (body s1).2 else
      let k := if on then o.cost else o.skip
      if !inH && decide (s1.curTerm n < t.cycles + k) then stallFault n 4 s1 else
      if !on then holdWp n t.core.wp (s1.modStall n fun t => (t.charge k).modCore (CoreRegs.onward inH pc)) else
      let old := t.core.wp
      match body s1 with
      | (.next, s2) => holdWp n old (s2.modStall n fun t => (t.charge k).modCore (CoreRegs.onward inH pc))
      | (.jump p, s2) => holdWp n old (s2.modStall n fun t =>
          (t.charge k).modCore (CoreRegs.branchTo inH p))
      | (.ret p, s2) => holdWp n old (s2.modStall n fun t => (t.charge k).modCore fun c => c.advance (p - 1))
      | (.stay, s2) => holdWp n old (s2.modStall n fun t => t.charge k)
      | (.wait, _) => s
      | (.fault c, s2) => stallFault n c s2

/-- An instruction that only computes on the Stall. -/
def onStall (n : Nat) (f : Stall → Stall) (s : State) : Flow × State := (.next, s.modStall n f)

/-! Computation (Table 8-4, 0x01 to 0x0F). -/

/-- ALU (R228). -/
def execAlu (n : Fin 64) (f : RFmt) (s : State) : Host.Outcome State Fault Refusal :=
  let fn := f.fn.toNat
  done (runOp n.val ⟨rWord 0x01 f, decide (fn < 24) && (decide (fn < 21) || f.b == 0), aluCycles fn, aluCycles fn, f.g, true⟩
    (onStall n.val fun t => t.setReg f.d (alu fn (t.reg f.a) (t.reg f.b))) s)

/-- ADDI. -/
def execAddi (n : Fin 64) (f : IFmt) (s : State) : Host.Outcome State Fault Refusal :=
  done (runOp n.val ⟨iWord 0x02 f, true, 1, 1, f.g, true⟩
    (onStall n.val fun t => t.setReg f.d (t.reg f.a + sext64 14 f.imm.toNat)) s)

/-- ANDI. -/
def execAndi (n : Fin 64) (f : IFmt) (s : State) : Host.Outcome State Fault Refusal :=
  done (runOp n.val ⟨iWord 0x03 f, true, 1, 1, f.g, true⟩
    (onStall n.val fun t => t.setReg f.d (t.reg f.a &&& w64 f.imm.toNat)) s)

/-- ORI. -/
def execOri (n : Fin 64) (f : IFmt) (s : State) : Host.Outcome State Fault Refusal :=
  done (runOp n.val ⟨iWord 0x04 f, true, 1, 1, f.g, true⟩
    (onStall n.val fun t => t.setReg f.d (t.reg f.a ||| w64 f.imm.toNat)) s)

/-- XORI. -/
def execXori (n : Fin 64) (f : IFmt) (s : State) : Host.Outcome State Fault Refusal :=
  done (runOp n.val ⟨iWord 0x05 f, true, 1, 1, f.g, true⟩
    (onStall n.val fun t => t.setReg f.d (t.reg f.a ^^^ w64 f.imm.toNat)) s)

/-- SHI. -/
def execShi (n : Fin 64) (f : IFmt) (s : State) : Host.Outcome State Fault Refusal :=
  done (runOp n.val ⟨iWord 0x06 f, fld f.imm 11 6 == 0, 1, 1, f.g, true⟩
    (onStall n.val fun t => t.setReg f.d (shiftKind (fld f.imm 13 12) (fld f.imm 5 0) (t.reg f.a))) s)

/-- MOVZ. -/
def execMovz (n : Fin 64) (f : WFmt) (s : State) : Host.Outcome State Fault Refusal :=
  done (runOp n.val ⟨wWord 0x07 f, true, 1, 1, f.g, true⟩
    (onStall n.val fun t => t.setReg f.d (w64 (f.imm.toNat <<< (16 * f.lane.toNat)))) s)

/-- MOVK. -/
def execMovk (n : Fin 64) (f : WFmt) (s : State) : Host.Outcome State Fault Refusal :=
  let lo := 16 * f.lane.toNat
  done (runOp n.val ⟨wWord 0x08 f, true, 1, 1, f.g, true⟩
    (onStall n.val fun t => t.setReg f.d (putFld (t.reg f.d) (lo + 15) lo f.imm.toNat)) s)

/-- EXT. -/
def execExt (n : Fin 64) (f : IFmt) (s : State) : Host.Outcome State Fault Refusal :=
  let lsb := fld f.imm 13 8
  let width := fld f.imm 5 0 + 1
  done (runOp n.val ⟨iWord 0x09 f, !bit f.imm 6 && decide (lsb + width ≤ 64), 1, 1, f.g, true⟩
    (onStall n.val fun t => t.setReg f.d (extField (t.reg f.a) lsb width (bit f.imm 7))) s)

/-- INS. -/
def execIns (n : Fin 64) (f : IFmt) (s : State) : Host.Outcome State Fault Refusal :=
  let lsb := fld f.imm 13 8
  let width := fld f.imm 5 0 + 1
  done (runOp n.val ⟨iWord 0x0A f, fld f.imm 7 6 == 0 && decide (lsb + width ≤ 64), 1, 1, f.g, true⟩
    (onStall n.val fun t => t.setReg f.d (insField (t.reg f.d) (t.reg f.a) lsb width)) s)

/-- SEL. -/
def execSel (n : Fin 64) (f : RFmt) (s : State) : Host.Outcome State Fault Refusal :=
  done (runOp n.val ⟨rWord 0x0B f, decide (f.fn.toNat < 4), 1, 1, f.g, true⟩
    (onStall n.val fun t => t.setReg f.d (if bit t.core.p (fld f.fn 1 0) then t.reg f.a else t.reg f.b)) s)

/-- CMP. -/
def execCmp (n : Fin 64) (f : RFmt) (s : State) : Host.Outcome State Fault Refusal :=
  done (runOp n.val ⟨rWord 0x0C f, decide (f.fn.toNat < 12), 1, 1, f.g, true⟩
    (onStall n.val fun t => t.setPred f.d (cond f.fn.toNat (t.reg f.a) (t.reg f.b))) s)

/-- CMPI. -/
def execCmpi (n : Fin 64) (f : IFmt) (s : State) : Host.Outcome State Fault Refusal :=
  done (runOp n.val ⟨iWord 0x0D f, decide (fld f.imm 13 10 < 12), 1, 1, f.g, true⟩
    (onStall n.val fun t => t.setPred f.d (cond (fld f.imm 13 10) (t.reg f.a) (sext64 10 (fld f.imm 9 0)))) s)

/-- PSET. -/
def execPset (n : Fin 64) (f : RFmt) (s : State) : Host.Outcome State Fault Refusal :=
  let ok := decide (f.d.toNat < 4) && decide (f.a.toNat < 4) && decide (f.b.toNat < 4) && decide (f.fn.toNat ≤ 6)
  done (runOp n.val ⟨rWord 0x0E f, ok, 1, 1, f.g, true⟩
    (onStall n.val fun t => { t with core := { t.core with
      p := putBit t.core.p f.d.toNat (psetOp f.fn.toNat (bit t.core.p f.a.toNat) (bit t.core.p f.b.toNat)) } }) s)

/-- TSTB. -/
def execTstb (n : Fin 64) (f : IFmt) (s : State) : Host.Outcome State Fault Refusal :=
  done (runOp n.val ⟨iWord 0x0F f, fld f.imm 13 6 == 0, 1, 1, f.g, true⟩
    (onStall n.val fun t => t.setPred f.d (bit (t.reg f.a) (fld f.imm 5 0))) s)

/-! The window and the header (0x10 to 0x17). -/

/-- XF (R221). -/
def execXf (n : Fin 64) (f : XFmt) (s : State) : Host.Outcome State Fault Refusal :=
  let k := 2 ^ f.wid.toNat
  done (runOp n.val ⟨xWord 0x10 f, f.z == 0 && decide (f.off.toNat + k ≤ 128), 1, 1, f.g, false⟩
    (fun s => onStall n.val (fun t => t.setReg f.d (byteField (s.window n.val f.off.toNat k) (bit f.s 0) (bit f.be 0))) s) s)

/-- XFR. -/
def execXfr (n : Fin 64) (f : IFmt) (s : State) : Host.Outcome State Fault Refusal :=
  let k := 2 ^ fld f.imm 13 12
  done (runOp n.val ⟨iWord 0x11 f, fld f.imm 9 0 == 0, 1, 1, f.g, false⟩
    (fun s => onStall n.val (fun t =>
      t.setReg f.d (byteField (s.window n.val (t.reg f.a).toNat k) (bit f.imm 11) (bit f.imm 10))) s) s)

/-- WADV. -/
def execWadv (n : Fin 64) (f : IFmt) (s : State) : Host.Outcome State Fault Refusal :=
  let k := f.imm.toNat
  done (runOp n.val ⟨iWord 0x12 f, f.d == 0 && f.a == 0 && decide (1 ≤ k) && decide (k ≤ 4), 1, 1, f.g, false⟩
    (onStall n.val fun t => t.modCore fun c => { c with wp := c.wp + 32 * k }) s)

/-- WSEEK. -/
def execWseek (n : Fin 64) (f : RFmt) (s : State) : Host.Outcome State Fault Refusal :=
  done (runOp n.val ⟨rWord 0x13 f, f.d == 0 && f.b == 0 && f.fn == 0, 2, 2, f.g, false⟩
    (onStall n.val fun t =>
      let v := (t.reg f.a).toNat / 32 * 32
      t.modCore fun c => { c with wp := max c.wp v }) s)

/-- WPOS. -/
def execWpos (n : Fin 64) (f : RFmt) (s : State) : Host.Outcome State Fault Refusal :=
  done (runOp n.val ⟨rWord 0x14 f, f.a == 0 && f.b == 0 && f.fn == 0, 1, 1, f.g, false⟩
    (onStall n.val fun t => t.setReg f.d (w64 t.core.wp)) s)

/-- The running Lot of a Stall. -/
def State.curLot (s : State) (n : Nat) : Option Lot := ((s.stall n).lots[0]?).bind s.lot

/-- A field of Table 8-7. -/
def State.headerField (s : State) (n k : Nat) : Nat :=
  let r := s.curRecord n
  if k = 0 then u16At r 0 else if k = 1 then recSource r else if k = 2 then recLen r else if k = 3 then recStamp r
  else if k = 4 then recSeq r else if k = 5 then recArcs r
  else if k = 6 then b2n ((s.curLot n).any fun l => l.query.isSome)
  else if k = 7 then ((s.curLot n).map fun l => l.nsid).getD 0
  else (s.stall n).rec_

/-- RHDR (R229). -/
def execRhdr (n : Fin 64) (f : RFmt) (s : State) : Host.Outcome State Fault Refusal :=
  done (runOp n.val ⟨rWord 0x15 f, f.a == 0 && f.b == 0 && decide (f.fn.toNat ≤ 8), 1, 1, f.g, false⟩
    (fun s => onStall n.val (fun t => t.setReg f.d (w64 (s.headerField n.val f.fn.toNat))) s) s)

/-- A range of local memory: aligned, and inside it. -/
def localRange (a len align_ : Nat) : Bool := decide (a % align_ = 0) && decide (a + len ≤ 0x80000)

/-- WST. -/
def execWst (n : Fin 64) (f : IFmt) (s : State) : Host.Outcome State Fault Refusal :=
  done (runOp n.val ⟨iWord 0x16 f, decide (f.d.toNat < 4), 2, 2, f.g, false⟩
    (fun s =>
      let a := ((s.stall n.val).reg f.a + w64 (8 * f.imm.toNat)).toNat
      if localRange a 32 8 then onStall n.val (Stall.writeBytes a (s.window n.val (32 * f.d.toNat) 32)) s
      else (.fault 2, s)) s)

/-- Start a loop of `count` iterations over a body of `len` instructions (R231). -/
def startLoop (n len count : Nat) (chunk : Bool) (s : State) : Flow × State :=
  let c := (s.stall n).core
  if count = 0 then
    (.stay, s.modStall n fun t => t.modCore fun c => c.advance (c.pc + len))
  else if 4 ≤ c.loops.length then (.fault 1, s)
  else (.stay, s.modStall n fun t => t.modCore fun c => { c with
    pc := c.pc + 1, loops := ⟨c.pc + 1, c.pc + len, count - 1, chunk, c.calls.length⟩ :: c.loops })

/-- LOOPC (R232). -/
def execLoopc (n : Fin 64) (f : LFmt) (s : State) : Host.Outcome State Fault Refusal :=
  done (runOp n.val ⟨lWord 0x17 f, f.cnt == 0 && decide (1 ≤ f.stop.toNat), 2, 2, 0, false⟩
    (fun s =>
      let len := (s.curRecord n.val).length
      let wp := (s.stall n.val).core.wp
      startLoop n.val f.stop.toNat (min 4096 (ceilDiv (len - wp) 64)) true s) s)

/-! Memory (0x18 to 0x1A; R223, R237). -/

/-- Local bytes as a load sees them: those that a move into local memory leaves undefined are free (R237). -/
def loadLocal (n a len : Nat) (s : State) : Option (List Byte) × State :=
  match readMem false n a len s with
  | (none, s) => (none, s)
  | (some bs, s) =>
    let bad : Nat → Bool := fun i => (s.stall n).undef.any fun r => decide (r.1 ≤ a + i) && decide (a + i < r.1 + r.2)
    if (List.range len).any bad then
      let (k, s) := s.take
      (some (bs.zipIdx.map fun b => if bad b.2 then Config.freeByte k b.2 else b.1), s)
    else (some bs, s)

/-- A load of k bytes. -/
def load (n : Nat) (f : IFmt) (signed : Bool) (s : State) : Flow × State :=
  let t := s.stall n
  let k := 2 ^ fld f.imm 13 12
  let a := (t.reg f.a + w64 (fld f.imm 11 0 * k)).toNat
  let put_ : W64 → State → Flow × State := fun v s => onStall n (fun t => t.setReg f.d v) s
  if localRange a k k then
    match loadLocal n a k s with
    | (none, s) => (.fault 3, s)
    | (some bs, s) => put_ (byteField bs signed false) s
  else if 0x80000 ≤ a ∧ a < 0x81000 ∧ k = 4 ∧ a % 4 = 0 then
    let v := s.ctlRead n (a - 0x80000)
    put_ (if signed then sext64 32 v.toNat else w64 v.toNat) s
  else (.fault 2, s)

/-- LD. -/
def execLd (n : Fin 64) (f : IFmt) (s : State) : Host.Outcome State Fault Refusal :=
  done (runOp n.val ⟨iWord 0x18 f, true, 2, 2, f.g, true⟩ (load n.val f false) s)

/-- LDS. -/
def execLds (n : Fin 64) (f : IFmt) (s : State) : Host.Outcome State Fault Refusal :=
  done (runOp n.val ⟨iWord 0x19 f, true, 2, 2, f.g, true⟩ (load n.val f true) s)

/-- A store of k bytes: narrower than a word into poison or a word that fails its check is an ECC fault (R198). -/
def store (n : Nat) (f : IFmt) (s : State) : Flow × State :=
  let t := s.stall n
  let k := 2 ^ fld f.imm 13 12
  let a := (t.reg f.a + w64 (fld f.imm 11 0 * k)).toNat
  let bs := leBytes k (t.reg f.d).toNat
  if localRange a k k then
    if k = 8 then onStall n (Stall.writeWord false (a / 8) (t.reg f.d)) s
    else match readWord false n (a / 8) s with
      | (none, s) => (.fault 3, s)
      | (some v, s) => onStall n (Stall.writeWord false (a / 8) (w64 (ofLe (patch (leBytes 8 v.toNat) (a % 8) bs)))) s
  else if 0x80000 ≤ a ∧ a < 0x81000 ∧ k = 4 ∧ a % 4 = 0 then
    (.next, ctlWrite n (a - 0x80000) (w32 (t.reg f.d).toNat) s)
  else (.fault 2, s)

/-- ST. -/
def execSt (n : Fin 64) (f : IFmt) (s : State) : Host.Outcome State Fault Refusal :=
  done (runOp n.val ⟨iWord 0x1A f, true, 1, 1, f.g, true⟩ (store n.val f) s)

/-! Control flow (0x20 to 0x29). -/

/-- B (R233). -/
def execB (n : Fin 64) (f : BFmt) (s : State) : Host.Outcome State Fault Refusal :=
  done (runOp n.val ⟨bWord 0x20 f, f.z == 0 && decide (1 ≤ f.off.toNat), 2, 1, f.g, true⟩
    (fun s => (.jump ((s.stall n.val).core.pc + f.off.toNat), s)) s)

/-- LOOP (R231). -/
def execLoop (n : Fin 64) (f : LFmt) (s : State) : Host.Outcome State Fault Refusal :=
  done (runOp n.val ⟨lWord 0x21 f, decide (1 ≤ f.stop.toNat), 1, 1, 0, false⟩
    (startLoop n.val f.stop.toNat (f.cnt.toNat + 1) false) s)

/-- LOOPR (R231). -/
def execLoopr (n : Fin 64) (f : LFmt) (s : State) : Host.Outcome State Fault Refusal :=
  done (runOp n.val ⟨lWord 0x22 f, fld f.cnt 7 0 == 0 && decide (1 ≤ f.stop.toNat), 1, 1, 0, false⟩
    (fun s => startLoop n.val f.stop.toNat (min 4096 ((s.stall n.val).reg (BitVec.ofNat 4 (fld f.cnt 11 8))).toNat) false s) s)

/-- CALL: a fifth call is a stack overflow (Table 8-11). -/
def execCall (n : Fin 64) (f : BFmt) (s : State) : Host.Outcome State Fault Refusal :=
  done (runOp n.val ⟨bWord 0x23 f, f.z == 0, 2, 2, f.g, false⟩
    (fun s =>
      if 4 ≤ (s.stall n.val).core.calls.length then (.fault 1, s) else
      (.stay, s.modStall n.val fun t => t.modCore fun c => { c with calls := (c.pc + 1) :: c.calls, pc := f.off.toNat })) s)

/-- RET: out of place with no call (Table 8-11). -/
def execRet (n : Fin 64) (f : BFmt) (s : State) : Host.Outcome State Fault Refusal :=
  done (runOp n.val ⟨bWord 0x24 f, f.z == 0 && f.off == 0, 2, 2, f.g, false⟩
    (fun s =>
      match (s.stall n.val).core.calls with
      | [] => (.fault 1, s)
      | r :: rest => (.ret r, s.modStall n.val fun t => t.modCore fun c => { c with
          calls := rest, loops := c.loops.dropWhile fun l => decide (rest.length < l.depth) })) s)

/-- The record's processing ends: the next record's turn comes. -/
def endRecord (n : Nat) (s : State) : State :=
  s.modStall n fun t => { t with stage := .idle, rec_ := t.rec_ + 1, dbgW := s.window n 0 128 }

/-- A stage ends in place: in its stage, outside subroutines (Table 8-11). -/
def State.stageIs (s : State) (n : Nat) (st : Stage) : Bool :=
  ((s.stall n).stage == st) && (s.stall n).core.calls.isEmpty

/-- The pipeline of a Stall's running Lot. -/
def State.lotPipe (s : State) (n : Nat) : Option Pipe := ((s.curLot n).bind fun l => l.pipe).bind s.pipe

/-- The pipeline defines an output: KIND 1 or 2, or one that a deleted namespace has turned into KIND 0 (R253). -/
def Pipe.defines (p : Pipe) (out : Nat) : Bool := (p.outs[out]?).any fun x => x.1 != 0 || x.2 != 0

/-- The output is bound to a namespace. -/
def Pipe.toNs (p : Pipe) (out : Nat) : Bool := (p.outs[out]?).any fun x => x.1 == 1

/-- An emit is admitted (R235): its output is defined, and no second emit of the record goes to a namespace. -/
def State.emitOk (s : State) (n out : Nat) : Bool :=
  (s.lotPipe n).any fun p => p.defines out && !(p.toNs out && (s.stall n).nsOuts.contains out)

/-- A Porter job starts, checked under the rule epoch in force (R193). -/
def startMove (n : Nat) (k : MoveKind) (s : State) : State :=
  s.modStall n fun t => { t with moves := t.moves ++ [⟨t.nextMove, k, s.acc.epoch⟩], nextMove := t.nextMove + 1 }

/-- A credit is free (R193). -/
def State.credit (s : State) (n : Nat) : Bool := decide ((s.stall n).moves.length < 8)

/-- Emit the current record to an output. -/
def emitRecord (n out : Nat) (s : State) : State :=
  let t := s.stall n
  let s := startMove n (.emitRecord ((t.lots[0]?).getD 0) t.rec_ out) s
  s.modStall n fun t => { t with nsOuts := out :: t.nsOuts }

/-- KEEP (R234): without a transform the record is emitted unchanged to output 0. -/
def execKeep (n : Fin 64) (f : BFmt) (s : State) : Host.Outcome State Fault Refusal :=
  done (runOp n.val ⟨bWord 0x25 f, f.z == 0 && f.off == 0, 1, 1, f.g, false⟩
    (fun s =>
      if !s.stageIs n.val .pred then (.fault 1, s)
      else if ((s.stall n.val).image.bind fun i => i.xform).isSome then
        (.stay, s.modStall n.val fun t => { t with stage := .kept })
      else if !(s.lotPipe n.val).any (fun p => p.defines 0) then (.stay, endRecord n.val s)
      else if !s.emitOk n.val 0 then (.fault 2, s)
      else if !s.credit n.val then (.wait, s)
      else (.stay, endRecord n.val (emitRecord n.val 0 (waited n.val s)))) s)

/-- A dropped record produces no output (R187): its emits leave the Lot, and those on their way are withdrawn. -/
def withdraw (n : Nat) (s : State) : State :=
  let t := s.stall n
  let id := (t.lots[0]?).getD 0
  let s := s.modLot id fun l => { l with emits := l.emits.filter fun e => e.src != t.rec_ }
  s.modStall n fun t => { t with moves := t.moves.filter fun m => match m.kind with
    | .emitRecord _ r _ => r != t.rec_
    | .emitMemory _ r _ _ _ => r != t.rec_
    | _ => true }

/-- DROP (R234). -/
def execDrop (n : Fin 64) (f : BFmt) (s : State) : Host.Outcome State Fault Refusal :=
  done (runOp n.val ⟨bWord 0x26 f, f.z == 0 && f.off == 0, 1, 1, f.g, false⟩
    (fun s => if s.stageIs n.val .pred then (.stay, endRecord n.val (withdraw n.val s)) else (.fault 1, s)) s)

/-- DONE (R234). -/
def execDone (n : Fin 64) (f : BFmt) (s : State) : Host.Outcome State Fault Refusal :=
  done (runOp n.val ⟨bWord 0x27 f, f.z == 0 && f.off == 0, 1, 1, f.g, false⟩
    (fun s => if s.stageIs n.val .xform then (.stay, endRecord n.val s) else (.fault 1, s)) s)

/-- Leave the innermost handler: what its entry saved comes back, and its source's ACTIVE bit clears (R218, R242). -/
def Stall.leave (t : Stall) : Stall :=
  match t.handlers with
  | [] => t
  | h :: hs =>
    let g := match h.kind with
      | .prio _ => (List.range 8).foldl (fun g i => vput g (8 + i) ((h.saved[i]?).getD 0)) t.core.g
      | _ => t.core.g
    { t with handlers := hs, ic := { t.ic with active := putBit t.ic.active h.src (hs.any fun x => x.src == h.src) }
             core := { t.core with pc := h.pc, p := h.p, g := g } }

/-- IRET (R242). -/
def execIret (n : Fin 64) (f : BFmt) (s : State) : Host.Outcome State Fault Refusal :=
  done (runOp n.val ⟨bWord 0x28 f, f.z == 0 && f.off == 0, 2, 2, f.g, true⟩
    (fun s =>
      if (s.stall n.val).handlers.isEmpty then (.fault 1, s)
      else (.stay, s.modStall n.val fun t => { t.leave with cycles := t.cycles - (if t.handlers.length = 1 then 2 else 0) })) s)

/-- A free 64-bit value. -/
def freeWord (s : State) : W64 × State :=
  let (k, s) := s.take
  (w64 (ofLe ((List.range 8).map (Config.freeByte k))), s)

/-- IRQSRC: outside a handler no source is running, and the value is free. -/
def execIrqsrc (n : Fin 64) (f : RFmt) (s : State) : Host.Outcome State Fault Refusal :=
  done (runOp n.val ⟨rWord 0x29 f, f.a == 0 && f.b == 0 && f.fn == 0, 1, 1, f.g, true⟩
    (fun s =>
      match (s.stall n.val).handlers with
      | h :: _ => onStall n.val (fun t => t.setReg f.d (w64 h.src)) s
      | [] => let (v, s) := freeWord s; onStall n.val (fun t => t.setReg f.d v) s) s)

/-! CRC, units, Tally, Beacon (0x2C to 0x31). -/

/-- CRCW. -/
def execCrcw (n : Fin 64) (f : RFmt) (s : State) : Host.Outcome State Fault Refusal :=
  done (runOp n.val ⟨rWord 0x2C f, f.a == 0 && f.b == 0 && decide (f.fn.toNat < 2), 2, 2, f.g, false⟩
    (fun s => onStall n.val (fun t =>
      t.setReg f.d (w64 (crcState (fld (t.reg f.d) 31 0) (s.window n.val (64 * f.fn.toNat) 64)))) s) s)

/-- CRCM. -/
def execCrcm (n : Fin 64) (f : IFmt) (s : State) : Host.Outcome State Fault Refusal :=
  let len := 8 * (fld f.imm 11 0 + 1)
  done (runOp n.val ⟨iWord 0x2D f, fld f.imm 13 12 == 0, 1 + ceilDiv len 32, 1 + ceilDiv len 32, f.g, true⟩
    (fun s =>
      let a := ((s.stall n.val).reg f.a).toNat
      if !localRange a len 8 then (.fault 2, s) else
      match loadLocal n.val a len s with
      | (none, s) => (.fault 3, s)
      | (some bs, s) => onStall n.val (fun t => t.setReg f.d (w64 (crcState (fld (t.reg f.d) 31 0) bs))) s) s)

/-- Bytes of local memory as they stand, with none for a byte of a word that fails its check. -/
def State.peekLocal (s : State) (n a len : Nat) : List (Option Byte) :=
  (List.range len).map fun i =>
    ((look (s.stall n).lm ((a + i) / 8)).bind secded).map fun w => b8 (w.1.toNat >>> (8 * ((a + i) % 8)))

/-- UCALL (R195, R240): the call takes its place in the order of calls. A gated unit and ranges outside are UNIT faults, but a
source word that fails its check is reported before them (R243). -/
def execUcall (n : Fin 64) (f : RFmt) (s : State) : Host.Outcome State Fault Refusal :=
  let unit := fld f.fn 3 0
  let src := fld f.fn 4 4
  let ok := f.d == 0 && f.a == 0 && f.b == 0 && decide (f.fn.toNat < 32) && decide (unit ≤ 5)
  done (runOp n.val ⟨rWord 0x2E f, ok, 4, 4, f.g, false⟩
    (fun s =>
      let t := s.stall n.val
      let g : Nat → Nat := fun k => (t.reg (BitVec.ofNat 4 k)).toNat
      let srcOk := if src = 1 then decide (g 1 + g 2 ≤ (s.curRecord n.val).length) else decide (g 1 + g 2 ≤ 0x80000)
      let dstOk := if unit < 4 then decide (g 3 % 8 = 0) && decide (g 3 + g 4 ≤ 0x80000)
        else if unit = 4 then localRange (g 3) 32 8 else true
      let ecc := unit < 5 && src = 0 && srcOk && (s.peekLocal n.val (g 1) (g 2)).any Option.isNone
      if (unit < 4 && !s.compressOn) || (unit < 5 && !(srcOk && dstOk)) then (.fault (if ecc then 3 else 5), s)
      else
        let c : UnitCall := ⟨unit, src, Vector.ofFn fun i => t.reg (BitVec.ofNat 4 (i.val + 1)), s.nextCall, s.bcn.curEra⟩
        (.stay, { s with nextCall := s.nextCall + 1 }.modStall n.val fun t => { t with call := some c })) s)

/-- What a compression unit answers: status and bytes written. -/
def unitBytes (unit level : Nat) (src : List Byte) : Nat × List Byte :=
  let lv := if 1 ≤ level ∧ level ≤ 9 then level else 3
  if unit = 0 then (0, zstdCompress lv src)
  else if unit = 1 then (0, deflateCompress lv src)
  else if unit = 2 then match zstdDecompress src with
    | none => (2, [])
    | some (bs, true) => (0, bs)
    | some (bs, false) => (3, bs)
  else match deflateDecompress src with
    | none => (2, [])
    | some bs => (0, bs)

/-- Bytes with their tail filled to whole words. -/
def toWords (bs : List Byte) : List Byte := bs ++ List.replicate ((8 - bs.length % 8) % 8) 0

/-- Free bytes over a destination, as whole words (R240: its contents are undefined). -/
def freeDest (n a len : Nat) (s : State) : State :=
  let (k, s) := s.take
  s.modStall n (Stall.writeBytes a (toWords ((List.range len).map (Config.freeByte k))))

/-- Write results g1, g2 and so on, and go on after the UCALL. The wait counts in the elapsed count (R195). -/
def endCall (n : Nat) (rs : List Nat) (s : State) : State :=
  let s := waited n s
  holdWp n (s.stall n).core.wp <| s.modStall n fun t =>
    let t := rs.zipIdx.foldl (fun t r => t.setReg (BitVec.ofNat 4 (r.2 + 1)) (w64 r.1)) { t with call := none }
    t.modCore fun c => c.advance c.pc

/-- A call to a unit ends well (R240): the unit has read its source. -/
def answerCall (n : Nat) (c : UnitCall) (bs : List Byte) (s : State) : State :=
  let g : Nat → Nat := fun k => ((c.args[k - 1]?).getD 0).toNat
  if c.unit = 4 then endCall n [0] (s.modStall n (Stall.writeBytes (g 3) (sha256 bs)))
  else
    let (st, out) := unitBytes c.unit (g 5 % 16) bs
    if st = 2 then endCall n [2, 0] s
    else if g 4 < out.length then endCall n [1, 0] (freeDest n (g 3) (g 4) s)
    else endCall n [st, out.length] (s.modStall n (Stall.writeBytes (g 3) (toWords out)))

/-- A position-index lookup ends well: the bucket of the era at the call, whose index pages it uses (R261). -/
def answerLookup (n : Nat) (c : UnitCall) (nsid stamp : Nat) (s : State) : State :=
  let found := ((look s.ns nsid).map fun ns => ns.bucket c.era stamp).getD []
  let s := { s with med := s.med.touchIndex nsid (found.flatMap Stored.extents).dedup false }
  match found with
  | [] => endCall n [4, 0] s
  | r :: rs => endCall n [0, rs.length + 1, r.location, r.seq] s

/-- The instance in frame f reports a hardware error (R196): the destination is undefined. -/
def failCall (n f : Nat) (c : UnitCall) (s : State) : State :=
  let g : Nat → Nat := fun k => ((c.args[k - 1]?).getD 0).toNat
  let s := if c.unit < 4 then freeDest n (g 3) (min (g 4) 0x80000) s else if c.unit = 4 then freeDest n (g 3) 32 s else s
  stallFault n 5 (raiseFault f 2 s)

/-- UNIT_CALL_COMPLETE (R195, R196, R240) of a call that an instance serves, after any handler that interrupted the wait. A
lookup without permission and a source word that fails its check are reported before a hardware error (R243). -/
def execUnitCallComplete (n : Fin 64) (hwError : Bool) (s : State) : Host.Outcome State Fault Refusal :=
  let m := n.val
  let t := s.stall m
  done (match t.call with
  | none => s
  | some c =>
    match s.unitOf c.order with
    | none => s
    | some f =>
      if !s.operating || s.pwr.watch = .asleep || t.state != .running || !t.handlers.isEmpty then s else
      let g : Nat → Nat := fun k => ((c.args[k - 1]?).getD 0).toNat
      if c.unit = 5 then
        let (ok, s) := match look s.ns (g 1) with
          | some ns => mediaAccess (.stall m) (g 1) [8] 0 ns.nsze s
          | none => (true, s)
        if !ok then stallFault m 2 s
        else if hwError then failCall m f c s else answerLookup m c (g 1) (g 2) s
      else
        let r := s.curRecord m
        let (src, s) := if c.src = 1 then (some (slice r (g 1) (g 2)), s) else loadLocal m (g 1) (g 2) s
        match src with
        | none => stallFault m 3 s
        | some bs => if hwError then failCall m f c s else answerCall m c bs s)

/-- TALLY (R238). -/
def execTally (n : Fin 64) (f : RFmt) (s : State) : Host.Outcome State Fault Refusal :=
  let op := f.fn.toNat
  done (runOp n.val ⟨rWord 0x2F f, f.d == 0 && decide (op < 4), 1, 1, f.g, false⟩
    (fun s =>
      let t := s.stall n.val
      let i := (t.reg f.b).toNat
      let v := t.reg f.a
      match s.curLot n.val, s.lotPipe n.val with
      | some l, some p =>
        if p.tallyCount ≤ i then (.fault 2, s) else
        match look l.tally i with
        | none => (.next, s.modLot l.id fun l => { l with tally := put l.tally i (op, v) })
        | some (o, old) =>
          if o ≠ op then (.fault 5, s)
          else (.next, s.modLot l.id fun l => { l with tally := put l.tally i (op, tallyOp op old v) })
      | _, _ => (.fault 2, s)) s)

/-- Arcs of a Stall's world that are inside (R239). -/
def State.stallArcs (s : State) (n : Nat) : Nat :=
  ofBits ((List.range 64).map fun a =>
    Nat.testBit s.bcn.arcState a && (s.arcWorld a == s.stallWorld n))

/-- BCN (R239). -/
def execBcn (n : Fin 64) (f : RFmt) (s : State) : Host.Outcome State Fault Refusal :=
  done (runOp n.val ⟨rWord 0x30 f, f.a == 0 && f.b == 0 && decide (f.fn.toNat ≤ 5), 4, 4, f.g, true⟩
    (fun s =>
      let k := f.fn.toNat
      let (v, s) := if k = 0 then stampNow s.now s else
        (if k = 1 then w64 (s.bcn.status s.compat).toNat
         else if k = 2 then w64 (s.stallArcs n.val)
         else if k = 3 then w64 s.bcn.regs.cpc.toNat
         else if k = 4 then s.bcn.com.num
         else w64 s.bcn.seq, s)
      onStall n.val (fun t => t.setReg f.d v) s) s)

/-- ARCT (R239). -/
def execArct (n : Fin 64) (f : IFmt) (s : State) : Host.Outcome State Fault Refusal :=
  done (runOp n.val ⟨iWord 0x31 f, f.a == 0 && fld f.imm 13 6 == 0, 4, 4, f.g, true⟩
    (fun s => onStall n.val (fun t => t.setPred f.d (Nat.testBit (s.stallArcs n.val) (fld f.imm 5 0))) s) s)

/-! Emits, moves and ordering (0x34 to 0x3B). -/

/-- EMITR (R235). -/
def execEmitr (n : Fin 64) (f : RFmt) (s : State) : Host.Outcome State Fault Refusal :=
  done (runOp n.val ⟨rWord 0x34 f, f.d == 0 && f.a == 0 && f.b == 0 && decide (f.fn.toNat < 4), 2, 2, f.g, false⟩
    (fun s =>
      if !s.emitOk n.val f.fn.toNat then (.fault 2, s)
      else if !s.credit n.val then (.wait, s)
      else (.next, emitRecord n.val f.fn.toNat (waited n.val s))) s)

/-- EMITM (R235, R237): the instruction checks the header, where its word can be read; the Emit stage reads the source, and
reports a word that fails its check, after the instruction. -/
def execEmitm (n : Fin 64) (f : RFmt) (s : State) : Host.Outcome State Fault Refusal :=
  let out := fld f.fn 1 0
  let cls := fld f.fn 7 4
  let ok := f.d == 0 && fld f.fn 3 2 == 0 && fld f.fn 9 8 == 0 && decide (cls ≤ 14)
  done (runOp n.val ⟨rWord 0x35 f, ok, 2, 2, f.g, false⟩
    (fun s =>
      let t := s.stall n.val
      let a := (t.reg f.a).toNat
      let len := (t.reg f.b).toNat
      if !localRange a len 8 || decide (len < 32) || decide (2 ^ (cls + 5) < len) || !s.emitOk n.val out then (.fault 2, s)
      else
        let (h, s) := loadLocal n.val a 8 s
        if h.any fun b => recVersion b != 1 || recType b == 0 then (.fault 2, s)
        else if !s.credit n.val then (.wait, s) else
        let s := startMove n.val (.emitMemory ((t.lots[0]?).getD 0) t.rec_ out a (s.peekLocal n.val a len)) (waited n.val s)
        (.next, s.modStall n.val fun t => { t with nsOuts := out :: t.nsOuts })) s)

/-- PMOV (R236). -/
def execPmov (n : Fin 64) (f : RFmt) (s : State) : Host.Outcome State Fault Refusal :=
  done (runOp n.val ⟨rWord 0x36 f, decide (f.fn.toNat < 2), 2, 2, f.g, true⟩
    (fun s =>
      let t := s.stall n.val
      let card := (t.reg f.d).toNat
      let loc := (t.reg f.a).toNat
      let len := (t.reg f.b).toNat
      if !localRange loc len 64 || decide (card % 64 ≠ 0) || decide (len % 64 ≠ 0) || decide (len < 64) ||
          decide (65536 < len) then (.fault 2, s)
      else if !s.credit n.val then (.wait, s)
      else if f.fn = 0 then
        (.next, startMove n.val (.toCard loc card (s.peekLocal n.val loc len)) (waited n.val s))
      else
        let s := startMove n.val (.fromCard loc card len) (waited n.val s)
        (.next, s.modStall n.val fun t => { t with undef := (loc, len) :: t.undef })) s)

/-- Bytes of a source when its Porter reads it: a byte stored into since the instruction is the old or the new one, and one that
fails its check then fails the whole source (R237). -/
def sourceBytes (n a : Nat) (snap : List (Option Byte)) (s : State) : Option (List Byte) × State :=
  let (now_, s) := loadLocal n a snap.length s
  let new := match now_ with
    | some bs => bs.map some
    | none => s.peekLocal n a snap.length
  if new = snap then (now_, s) else
  let (k, s) := s.take
  let read := (snap.zip new).zipIdx.map fun p => if bit (Config.freeByte k p.2) 0 then p.1.1 else p.1.2
  (read.mapM id, s)

/-- Where an emit is staged: the output area of the Stall's running Lot (R194, Table 12-4). Which of the Stall's two areas a Lot
takes goes by the parity of its number (DESIGN CHOICE, notes/assumptions/82.md). -/
def outputArea (n lot : Nat) (used : Nat) : Nat := 0x0002F8000000 + n * 0x200000 + lot % 2 * 0x100000 + used

/-- An emit lands: its bytes are written into the output area, where a denied beat is an ACCESS fault, and the Lot holds it
until it retires (R193, R194). -/
def landEmit (r : RuleSet) (n lot rec_ out : Nat) (bytes : List Byte) (s : State) : State :=
  match s.lot lot with
  | none => s
  | some l =>
    let used := (l.emits.map fun e => e.bytes.length).foldl (· + ·) 0
    let (denied, s) := cardWriteIn r false (.stall n) (outputArea n lot used) bytes s
    if !denied then s.modLot lot fun l => { l with emits := l.emits ++ [⟨out, rec_, bytes⟩] } else porterFault n 2 s

/-- Words that come from the card into local memory; the beat of a word that fails its check is poisoned (R236). -/
def landWords (n loc card : Nat) (ws : List (Nat × Nat × Option W64)) (s : State) : State :=
  let badBeat : Nat → Bool := fun a => ws.any fun w => w.2.2.isNone && w.1 / 64 == a / 64
  let s := ws.foldl (fun s w =>
    let i := (loc + (w.1 - card)) / 8
    if badBeat w.1 then s.modStall n (Stall.poisonWrite i) else s.modStall n (Stall.writeWord false i (w.2.2.getD 0))) s
  if ws.any fun w => w.2.2.isNone then porterFault n 3 s else s

/-- PORTER_MOVE_COMPLETE (R193, R236, R237) of a move that has its Porter (R22): the credit is free again. Its beats are checked
under the set of its issue (R345). -/
def execPorterMoveComplete (n : Fin 64) (id : Nat) (s : State) : Host.Outcome State Fault Refusal :=
  let m := n.val
  done (match (s.stall m).moves.find? fun x => x.id == id with
  | none => s
  | some x =>
    if !s.operating || !s.moving (.stall m id) then s else
    let set := s.setOf x.epoch
    let s := s.modStall m fun t => { t with moves := t.moves.filter fun y => y.id != id }
    match x.kind with
    | .emitRecord lot rec_ out =>
      match (s.lot lot).bind fun l => l.recs[rec_]? with
      | some r => landEmit set m lot rec_ out r.bytes s
      | none => s
    | .emitMemory lot rec_ out addr snap =>
      match sourceBytes m addr snap s with
      | (none, s) => porterFault m 3 s
      | (some bs, s) =>
        match (s.lot lot).bind fun l => l.recs[rec_]? with
        | some r =>
          let b := patch bs 4 (leBytes 4 bs.length)
          landEmit set m lot rec_ out (stampRecord b (recStamp r.bytes) (recSeq r.bytes) (recArcs r.bytes)) s
        | none => s
    | .toCard loc card snap =>
      match sourceBytes m loc snap s with
      | (none, s) => porterFault m 3 s
      | (some bs, s) =>
        let (denied, s) := cardWriteIn set false (.stall m) card bs s
        if denied then porterFault m 2 s else s
    | .fromCard loc card len =>
      let (denied, ws, s) := cardReadIn set (.stall m) card len s
      let s := if denied then porterFault m 2 s else s
      landWords m loc card ws s)

/-- YIELD (R241): Normal sources are taken here by HANDLER_CLAIM. -/
def execYield (n : Fin 64) (f : BFmt) (s : State) : Host.Outcome State Fault Refusal :=
  done (runOp n.val ⟨bWord 0x38 f, f.z == 0 && f.off == 0, 1, 1, f.g, false⟩ (fun s => (.next, s)) s)

/-- BARRIER (R237): waits for every move and emit of this Stall. -/
def execBarrier (n : Fin 64) (f : BFmt) (s : State) : Host.Outcome State Fault Refusal :=
  done (runOp n.val ⟨bWord 0x39 f, f.z == 0 && f.off == 0, 1, 1, f.g, true⟩
    (fun s => if (s.stall n.val).moves.isEmpty then (.next, (waited n.val s).modStall n.val fun t => { t with undef := [] })
      else (.wait, s)) s)

/-- FAULT (R243): the code goes to MAILBOX_OUT, and the Stall faults. -/
def execFault (n : Fin 64) (f : BFmt) (s : State) : Host.Outcome State Fault Refusal :=
  done (runOp n.val ⟨bWord 0x3A f, f.z == 0, 1, 1, f.g, true⟩
    (fun s => (.fault 1, s.modStall n.val fun t => { t with mbOut := w32 f.off.toNat })) s)

/-- MBOX. -/
def execMbox (n : Fin 64) (f : RFmt) (s : State) : Host.Outcome State Fault Refusal :=
  done (runOp n.val ⟨rWord 0x3B f, f.d == 0 && f.b == 0 && f.fn == 0, 1, 1, f.g, true⟩
    (onStall n.val fun t => { t with mbOut := w32 (t.reg f.a).toNat }) s)

/-! Interrupt delivery (R215, R216, R218, R241, R242). -/

/-- Eligible sources: pending, unmasked, and not disabled. -/
def IntCtl.eligible (c : IntCtl) : List Nat := if c.disable then [] else setBits 27 (c.pending &&& ~~~c.mask).toNat

/-- The next instruction is a YIELD whose guard is true. -/
def State.atYield (s : State) (n : Nat) : Bool :=
  let t := s.stall n
  s.codeRuns n && t.handlers.isEmpty &&
    match (readWord true n (t.core.pc / 2) s).1 with
    | some v =>
      let w := if t.core.pc % 2 = 0 then v.toNat % 2 ^ 32 else v.toNat / 2 ^ 32
      (w / 2 ^ 26 == 0x38) && guardTrue (BitVec.ofNat 4 (w / 2 ^ 22)) t.core.p
    | none => false

/-- The source that is taken now, and its class. -/
def State.taken (s : State) (n : Nat) : Option (Nat × HandlerKind) :=
  let t := s.stall n
  let es := t.ic.eligible
  if t.ic.prio then
    let cur := (t.handlers[0]?).elim 0 HandlerFrame.level
    let ok := es.filter fun e => decide (t.ic.thresh < t.ic.level e) && decide (cur < t.ic.level e)
    if 15 ≤ t.handlers.length then none else
    (ok.foldl (fun best e => match best with
      | none => some e
      | some b => if t.ic.level b < t.ic.level e then some e else some b) none).map fun e => (e, .prio (t.ic.level e))
  else
    let fast := es.filter fun e => bit t.ic.fast e
    let slow := es.filter fun e => !bit t.ic.fast e
    let fastRuns := t.handlers.any fun h => h.kind == .fast
    match fast, fastRuns with
    | e :: _, false => some (e, .fast)
    | _, _ =>
      if t.handlers.isEmpty && (t.stage == .idle || s.atYield n) then (slow[0]?).map fun e => (e, .normal) else none

/-- The vector of a class, and the loader's worst case of its handler. -/
def Image.vector (i : Image) : HandlerKind → Option Nat × Nat
  | .normal => (i.vNormal, (i.ints[0]?).getD 0)
  | .fast => (i.vFast, (i.ints[1]?).getD 0)
  | .prio k => (i.vPrio.map fun v => v + 16 * k, (i.ints[1 + k]?).getD 0)

/-- HANDLER_CLAIM (R216): ACTIVE sets and PENDING clears; a class without a vector is an ILLEGAL fault. -/
def execHandlerClaim (n : Fin 64) (s : State) : Host.Outcome State Fault Refusal :=
  let m := n.val
  let t := s.stall m
  done (if !s.operating || s.pwr.watch = .asleep || t.state != .running then s else
    match s.taken m, t.image with
    | some (e, k), some im =>
      let (v, cost) := im.vector k
      let ic := { t.ic with pending := putBit t.ic.pending e false, active := putBit t.ic.active e true }
      match v with
      | none => stallFault m 1 (s.setStall m { t with ic := ic })
      | some pc =>
        let fr : HandlerFrame := ⟨e, k, t.core.pc, t.core.p, (List.range 8).map fun i => (t.core.g[8 + i]?).getD 0⟩
        s.setStall m { t.pass 2 with ic := ic, handlers := fr :: t.handlers, core := { t.core with pc := pc }
                                     budget := if t.lots.isEmpty then t.budget else t.budget + cost }
    | _, _ => s)

end Sys2Proof.Machine
end

