-- ==== Sys2Proof/Machine/AdminPipe.lean ====
section
/-! DEFINITION. Pipeline Configure (R248 to R255, R260, R271). -/

namespace Sys2Proof.Machine

def pipeOp (c : Cmd) : Nat := fld (c.dword 10) 11 8
def pipeNo (c : Cmd) : Nat := fld (c.dword 10) 7 0

/-- Reserved fields of Table 9-1, and the pipeline's number. -/
def pipeFields (c : Cmd) : Bool :=
  c.allZero [2, 3, 4, 5, 13, 14, 15] && fld (c.dword 10) 31 12 == 0 && fld (c.dword 11) 31 5 == 0 && fld (c.dword 12) 31 1 == 0 &&
    (pipeOp c == 4 || c.nsid == 0) && decide (pipeNo c < 32)

/-- The Pipeline Configure command of a row, its fields right. -/
def pipeRow (op h : Nat) (k : Cmd → State → State) (s : State) : State :=
  match s.admin h 0xC5 with
  | none => s
  | some c => if pipeOp c ≠ op then s else if !pipeFields c then invalidField h s else k c s

/-! SET (R252 to R254). -/

/-- The pipeline that a descriptor defines (Table 9-3). -/
def pipeOf (b : List Byte) : Pipe :=
  let f : Nat → Nat := u32At b
  { scan := u8At b 0 == 1, dropFault := Nat.testBit (u8At b 1) 0, source := f 4, stalls := w64 (u64At b 8), bare := u64At b 8 == 0
    gateMask := w32 (f 16), gateMode := u8At b 20, decN := u16At b 22, decSrc := u16At b 24, decMask := u16At b 26
    tallyBase := u16At b 28, tallyCount := u16At b 30
    outs := Vector.ofFn fun k => (u8At b (32 + 8 * k.val), f (36 + 8 * k.val)), maxRec := f 64, running := false
    dec := 0, tally := [], retired := 0, stops := [], full := false }

/-- Output NSIDs of a pipeline. -/
def Pipe.outNs (p : Pipe) : List Nat := (p.outs.toList.filter fun o => o.1 == 1).map fun o => o.2

/-- Reserved bytes are zero and every value is one of Table 9-3. -/
def descriptorOk (b : List Byte) (p : Pipe) : Bool :=
  let zero : Nat → Nat → Bool := fun off k => (slice b off k).all fun x => x == 0
  let out : Nat → Bool := fun k =>
    let kind := u8At b (32 + 8 * k)
    zero (33 + 8 * k) 3 && (kind == 0 || (kind == 1 && !p.scan) || (kind == 2 && p.scan)) && (kind == 1 || u32At b (36 + 8 * k) == 0)
  decide (u8At b 0 ≤ 1) && decide (u8At b 1 ≤ 1) && zero 2 2 && zero 21 1 && zero 68 60 && decide (p.gateMode ≤ 3) &&
    (List.range 4).all out && decide (p.tallyBase < 4096) && decide (p.tallyCount ≤ 4096) && decide (p.tallyBase + p.tallyCount ≤ 4096) &&
    (if p.scan then p.source == 0 && decide (32 ≤ p.maxRec) && decide (p.maxRec ≤ 1048576) else p.maxRec == 0)

/-- Two Tally allocations share a counter. -/
def Pipe.tallyClash (p q : Pipe) : Bool :=
  p.tallyCount != 0 && q.tallyCount != 0 && decide (p.tallyBase < q.tallyBase + q.tallyCount) &&
    decide (q.tallyBase < p.tallyBase + p.tallyCount)

/-- The namespace bindings of R248 and R253 hold beside the other pipelines: one ingest pipeline per source, one output per
namespace, and no ingest pipeline on a routed namespace. -/
def bindingsOk (p : Pipe) (others : List Pipe) : Bool :=
  let outs := p.outNs
  let sources := (others.filter fun q => !q.scan).map fun q => q.source
  let taken := others.flatMap Pipe.outNs
  let routed := outs.filter fun n => n != p.source
  decide outs.Nodup && outs.all (fun n => !taken.contains n) && routed.all (fun n => !sources.contains n) &&
    (p.scan || (!sources.contains p.source && !taken.contains p.source))

/-- The hash of a Stall's image. -/
def State.stallHash (s : State) (n : Nat) : Option (List Byte) := (s.stall n).image.map fun i => i.hash

/-- Namespaces that a pipeline names. -/
def Pipe.names (p : Pipe) : List Nat := (if p.scan then [] else [p.source]) ++ p.outNs

/-- Worlds of the objects that a pipeline names, with its queue's (R250). -/
def State.pipeWorlds (s : State) (c : Cmd) (p : Pipe) : List Bool :=
  c.secure :: ((setBits 64 p.stalls.toNat).map s.stallWorld ++ (p.names.filter fun n => (look s.ns n).isSome).map s.nsWorld)

/-- The worst output of one Lot (R254). -/
def State.worstOutput (s : State) (p : Pipe) : Nat :=
  let im := if p.bare then none else ((setBits 64 p.stalls.toNat)[0]?).bind fun n => (s.stall n).image
  let eRec := (im.map fun i => i.eRec).getD 0
  let eMul := if p.bare then 1 else (im.map fun i => i.eMul).getD 0
  let m := if p.scan then p.maxRec else (look s.ns p.source).elim 0 fun n => n.maxRec
  max (8192 * eRec + eMul * 262144) (eRec + eMul * m)

/-- The conditions of Invalid Field beyond the descriptor's own values. -/
def State.pipeFits (s : State) (c : Cmd) (p : Pipe) (others : List Pipe) : Bool :=
  let ns := setBits 64 p.stalls.toNat
  let worlds := s.pipeWorlds c p
  others.all (fun q => (q.stalls &&& p.stalls) == 0) && others.all (fun q => !p.tallyClash q) && bindingsOk p others &&
    worlds.all (fun w => w == c.secure) && (ns.filterMap s.stallHash).dedup.length ≤ 1

/-- A stream namespace. -/
def State.isStream (s : State) (n : Nat) : Bool := (look s.ns n).any fun x => x.stream

/-- A name that no pipeline has, or one that is STOPPED. -/
def State.pipeStopped (s : State) (k : Nat) : Bool := (s.pipe k).all fun p => !p.running && p.stops.isEmpty

/-- The open Lots of the namespaces that a new pipeline names close: their records were gathered without it (R249). -/
def closeNamed (p : Pipe) (s : State) : State := p.names.foldl (fun s n => closeLot n s) s

/-- PIPELINE_SET. -/
def execPipelineSet (h : Nat) (s : State) : Host.Outcome State Fault Refusal :=
  done (pipeRow 0 h (fun c s =>
    let b := slice c.sub.buf 0 128
    let p := pipeOf b
    let k := pipeNo c
    let others := (del s.pipes k).map fun x => x.2
    let ready : Nat → Bool := fun n => (s.stall n).state == .stopped || (s.stall n).state == .running
    if !descriptorOk b p || !s.pipeFits c p others then invalidField h s
    else if p.names.any fun n => !s.isStream n then invalidNs h s
    else if c.secure && !c.keeper then notKeeper h s
    else if !s.pipeStopped k || (setBits 64 p.stalls.toNat).any (fun n => !ready n) then seqError h s
    else if 1048576 < s.worstOutput p then complete h 7 0x88 (sat32 (s.worstOutput p)) 0 [] s
    else succeed h { closeNamed p s with pipes := put s.pipes k p }) s)

/-! START, STOP and DELETE. -/

/-- An operation on a pipeline: NOT_KEEPER for one of the Secure world, which is the admin queue's (R250), then its state. -/
def onPipe (c : Cmd) (ok : Pipe → Bool) (k : Pipe → State → State) (s : State) : State :=
  match s.pipe (pipeNo c) with
  | none => seqError c.h s
  | some p => if s.qWorld 0 && !c.keeper then notKeeper c.h s else if !ok p then seqError c.h s else k p s

/-- PIPELINE_START (R257). -/
def execPipelineStart (h : Nat) (s : State) : Host.Outcome State Fault Refusal :=
  done (pipeRow 1 h (fun c s => onPipe c (fun p => !p.running && p.stops.isEmpty) (fun _ s =>
    succeed h (s.modPipe (pipeNo c) fun p => { p with running := true, dec := 0 })) s) s)

/-- The records of a source that wait for a STOPPED pipeline: their commands end with STALL_FAULT (R249). -/
def endIngest (k : Nat) (p : Pipe) (s : State) : State :=
  let waiting := s.lots.filter fun l => l.pipe == some k && l.query.isNone && (p.gateOnly || l.state == .waiting)
  let s := waiting.foldl (fun s l => failLot l false s) s
  let opened := (look s.ns p.source).elim [] fun n => n.st.opened
  (opened.map fun r => r.cmd).dedup.foldl (fun s h => failAppend h 7 0x87 false s) s

/-- PIPELINE_STOP (R249, R263): it completes when no Lot of the pipeline is issued. -/
def execPipelineStop (h : Nat) (s : State) : Host.Outcome State Fault Refusal :=
  done (pipeRow 2 h (fun c s => onPipe c (fun p => p.running) (fun p s =>
    let k := pipeNo c
    let s := s.modPipe k fun p => { p with running := false, stops := [h] }
    let s := s.modCmd h fun x => { x with phase := .stalls }
    let s := if p.scan then (s.queries.filter fun q => q.pipe == some k).foldl (fun s q => endSoon 2 q.id s) s else endIngest k p s
    endPipeStop k s) s) s)

/-- PIPELINE_DELETE. -/
def execPipelineDelete (h : Nat) (s : State) : Host.Outcome State Fault Refusal :=
  done (pipeRow 3 h (fun c s => onPipe c (fun p => !p.running && p.stops.isEmpty) (fun _ s =>
    succeed h { s with pipes := del s.pipes (pipeNo c) }) s) s)

/-! INDEX and TALLY_READ. -/

/-- PIPELINE_INDEX (R260). -/
def execPipelineIndex (h : Nat) (s : State) : Host.Outcome State Fault Refusal :=
  done (pipeRow 4 h (fun c s =>
    match look s.ns c.nsid with
    | none => invalidNs h s
    | some n =>
      if !n.stream then invalidNs h s
      else if s.nsWorld c.nsid && !c.keeper then notKeeper h s
      else if !n.st.recs.isEmpty then seqError h s
      else succeed h (modNs c.nsid (fun n => { n with st := { n.st with bits := fld (c.dword 11) 4 0 } }) s)) s)

/-- The snapshot of TALLY_READ (R271). -/
def Pipe.tallyRead (p : Pipe) : List Byte :=
  leBytes 2 p.tallyCount ++ leBytes 2 p.tallyBase ++ leBytes 4 0 ++ leBytes 8 p.retired ++ p.tallySection

/-- TALLY_READ. -/
def execTallyRead (h : Nat) (s : State) : Host.Outcome State Fault Refusal :=
  done (pipeRow 5 h (fun c s => onPipe c (fun _ => true) (fun p s =>
    let s := if bit (c.dword 12) 0 then s.modPipe (pipeNo c) fun p => { p with tally := [] } else s
    complete h 0 0 0 0 p.tallyRead s) s) s)

end Sys2Proof.Machine
end

