-- ==== Sys2Proof/Machine/AdminSec.lean ====
section
/-! DEFINITION. Firmware update, Keeper Session, Attest and Harbour Mailbox (R326, R346 to R350, R353, R354, R356). -/

namespace Sys2Proof.Machine

/-! Firmware (R354). -/

/-- FIRMWARE_IMAGE_DOWNLOAD: a part of the image goes into DRAM. -/
def execFirmwareImageDownload (h : Nat) (s : State) : Host.Outcome State Fault Refusal :=
  done (match s.admin h 0x11 with
  | none => s
  | some c =>
    let len := 4 * ((c.dword 10).toNat + 1)
    let off := 4 * (c.dword 11).toNat
    if 8388608 < off + len then invalidField h s
    else succeed h { s with hb := { s.hb with download := s.hb.download ++ [(off, slice c.sub.buf 0 len)] } })

/-- The Firmware Commit of a row, once the session and the slot are right. -/
def fwCommit (action h : Nat) (k : Cmd → State → State) (s : State) : State :=
  match s.admin h 0x10 with
  | none => s
  | some c =>
    if fwAction c ≠ action then s
    else if !c.keeper then notKeeper h s
    else if fwSlot c ≠ 1 ∧ fwSlot c ≠ 2 then fail h 1 0x06 s
    else k c s

/-- Actions 000 and 001: the image is checked, the bank is erased, and the ROM writes it. With a worn sector in the bank the ROM takes no
erase, and the command ends with Internal Error (R321; notes/assumptions/93.md). -/
def fwReplace (h : Nat) (c : Cmd) (s : State) : State :=
  let b := fwSlot c == 2
  if s.hb.running = some b then fail h 1 0x06 s
  else if (fwValid s.rollback s.hb.downloaded).isNone then fail h 1 0x07 s
  else if s.hb.bankWorn b then fail h 0 0x06 s
  else (startFwCommit h b s).modCmd h fun x => { x with phase := .rom }

/-- FIRMWARE_COMMIT_REPLACE. -/
def execFirmwareCommitReplace (h : Nat) (s : State) : Host.Outcome State Fault Refusal := done (fwCommit 0 h (fwReplace h) s)

/-- FIRMWARE_COMMIT_REPLACE_ACTIVATE. -/
def execFirmwareCommitReplaceActivate (h : Nat) (s : State) : Host.Outcome State Fault Refusal := done (fwCommit 1 h (fwReplace h) s)

/-- FIRMWARE_COMMIT_ACTIVATE: the existing image of the bank is tried first. -/
def execFirmwareCommitActivate (h : Nat) (s : State) : Host.Outcome State Fault Refusal :=
  done (fwCommit 2 h (fun c s => succeed h { s with hb := { s.hb with firstB := fwSlot c == 2 } }) s)

/-! Keeper Session (R346 to R350, Table 12-10). -/

/-- The NSID must be 0 (Table 12-10); reserved fields are ignored (R7). -/
def keeperFields (c : Cmd) : Bool := c.dword 1 == 0

/-- The Keeper Session command of a row. -/
def keeperRow (op h : Nat) (k : Cmd → State → State) (s : State) : State :=
  match s.admin h 0xC9 with
  | none => s
  | some c =>
    if fld (c.dword 10) 3 0 ≠ op then s
    else if !keeperFields c then invalidField h s
    else k c s

/-- An operation that carries a counter and a MAC: otherwise NOT_KEEPER and no effect (R348). -/
def keeperAuth (op h : Nat) (k : Cmd → State → State) (s : State) : State :=
  keeperRow op h (fun c s => (nvmeAuth c.sub.dw c.sub.buf s).elim (notKeeper h s) fun s => k c s) s

/-- KEEPER_HELLO. -/
def execKeeperHello (h : Nat) (s : State) : Host.Outcome State Fault Refusal :=
  done (keeperRow 0 h (fun c s =>
    let n := slice c.sub.buf 0 384
    if !s.helloOk s.keeper.nvme n then notKeeper h s else
    let (nC, cipher, chan, s) := hello 0x00 s.keeper.nvme n (slice c.sub.buf 384 32) s
    let sigma := chan.hs.elim [] fun x => x.sigma
    complete h 0 0 0 0 (nC ++ cipher ++ slice sigma 0 384) { s with keeper := { s.keeper with nvme := chan } }) s)

/-- KEEPER_PROVE. -/
def execKeeperProve (h : Nat) (s : State) : Host.Outcome State Fault Refusal :=
  done (keeperRow 1 h (fun c s =>
    let (ok, chan) := s.keeper.nvme.prove (slice c.sub.buf 0 32)
    let s := { s with keeper := { s.keeper with nvme := chan } }
    if ok then succeed h s else notKeeper h s) s)

/-- KEEPER_CLOSE. -/
def execKeeperClose (h : Nat) (s : State) : Host.Outcome State Fault Refusal :=
  done (keeperAuth 2 h (fun _ s => succeed h (closeNvme s)) s)

/-- The entry that ARM stores. One whose CID differs from the CID armed can never be fetched, and is kept under a queue that does
not exist. -/
def armedOf (c : Cmd) : Armed :=
  let dw : Vector W32 16 := Vector.ofFn fun i => w32 (u32At c.sub.buf (40 + 4 * i.val))
  let q := fld (c.dword 11) 15 0
  ⟨if fld (c.dword 11) 31 16 = fld dw[0] 31 16 then q else 65536 + q, dw⟩

/-- KEEPER_ARM (R350). -/
def execKeeperArm (h : Nat) (s : State) : Host.Outcome State Fault Refusal :=
  done (keeperAuth 3 h (fun c s => succeed h (arm (armedOf c) s)) s)

/-- KEEPER_REGISTER: DW0 the value a read then returns, DW1 the STAT. What the ROM runs ends at its completion. -/
def execKeeperRegister (h : Nat) (s : State) : Host.Outcome State Fault Refusal :=
  done (keeperAuth 4 h (fun c s =>
    let d := c.dword 12
    let reg := fld d 15 0
    let (st, v, s) := serveReg s.now .queue reg (if bit d 31 then some (c.dword 13) else none) s
    if st = statBusy then s.modCmd h fun x => { x with phase := .rom } else complete h 0 0 v (w32 st) [] s) s)

/-- KEEPER_COMMIT_RULES; where a sector of the record is worn the set cannot be saved, and the command ends with Internal Error (R321;
notes/assumptions/93.md). -/
def execKeeperCommitRules (h : Nat) (s : State) : Host.Outcome State Fault Refusal :=
  done (keeperAuth 5 h (fun _ s => if s.hb.recWorn 1 then fail h 0 0x06 s
    else (startJob (.commitRules h) .keeper s).modCmd h fun x => { x with phase := .rom }) s)

/-! Attest (R356, Table 12-13). -/

/-- SHA-256 of a bank's image, zero when it does not verify. -/
def State.bankHash (s : State) (b : Option Bool) : List Byte :=
  slice ((b.bind s.bankOk).elim [] fun x => x.hash) 0 32

/-- SHA-256 of a Stall's image, zero when the Stall is OFF or EMPTY. -/
def State.imageHash (s : State) (n : Nat) : List Byte :=
  let t := s.stall n
  slice (if t.state == .off || t.state == .empty then [] else t.image.elim [] fun i => i.hash) 0 32

/-- The report, offset 0 to 0xCFF. -/
def State.attestReport (s : State) (nonce : List Byte) : List Byte :=
  let r := s.acc.active
  let reg : Nat → List Byte := fun k => leBytes 4 ((s.peek k).getD 0).toNat
  let head := leBytes 4 0x41545431 ++ leBytes 2 1 ++
    leBytes 2 (b2n s.keeper.nvme.session.isSome + 2 * b2n s.keeper.bus.session.isSome) ++ leBytes 4 3328 ++ leBytes 4 s.pwr.starts.toNat ++
    leBytes 8 s.uid ++ leBytes 8 s.rollback ++ reg 6 ++ reg 7 ++ leBytes 4 s.acc.epoch.toNat ++ reg 5
  let mid := slice nonce 0 32 ++ s.keyHash ++ s.bankHash s.hb.running ++ s.bankHash (s.hb.running.map fun b => !b) ++ sha256 r.encode ++
    leBytes 8 r.ns.toNat ++ leBytes 8 r.stall.toNat ++ leBytes 8 r.arc.toNat ++ leBytes 4 r.misc.toNat ++ leBytes 4 0 ++
    leBytes 32 r.q.toNat ++ leBytes 32 r.slot.toNat
  let body := slice (head ++ mid) 0 0x200 ++ ((List.range 64).flatMap s.imageHash) ++ slice Config.deviceModulus 0 384
  body ++ slice (deviceSign body) 0 384

/-- ATTEST. -/
def execAttest (h : Nat) (s : State) : Host.Outcome State Fault Refusal :=
  done (match s.admin h 0xCA with
  | none => s
  | some c =>
    let out := if bit (c.dword 10) 0 then Config.deviceCertificate.take 4096 else s.attestReport (slice c.sub.buf 0 32)
    complete h 0 0 (w32 out.length) 0 out s)

/-! Harbour Mailbox (R326, Table 11-14). -/

def mbxOp (c : Cmd) : Nat := fld (c.dword 10) 31 28
def mbxOff (c : Cmd) : Nat := fld (c.dword 11) 24 0
def mbxLen (c : Cmd) : Nat := (c.dword 12).toNat

/-- OP, OFFSET and LENGTH lie within Table 11-14, and reserved fields are zero. -/
def mbxFields (c : Cmd) : Bool :=
  let op := mbxOp c
  let off := mbxOff c
  let len := mbxLen c
  c.allZero [1, 2, 3, 4, 5, 13, 14, 15] && fld (c.dword 10) 27 0 == 0 && fld (c.dword 11) 31 25 == 0 &&
    (if op = 1 ∨ op = 4 then decide (8 ≤ len ∧ len ≤ 65536) && len % 8 == 0 && decide (off + len ≤ 0x2000000)
     else if op = 2 then decide (8 ≤ len ∧ len ≤ 65536) && len % 8 == 0 && off % 8 == 0 && off / 65536 == (off + len - 1) / 65536
     else if op = 3 then len == 0 && off % 65536 == 0 && c.allZero [6, 7, 8, 9]
     else if op = 5 then decide (4 ≤ len ∧ len ≤ 4096) && len % 4 == 0 && off % 4 == 0 && decide (off + len ≤ 4096)
     else if op = 6 then decide (4 ≤ len ∧ len ≤ 1024) && len % 4 == 0 && off % 4 == 0 && decide (0xC00 ≤ off ∧ off + len ≤ 4096)
     else false)

/-- The queue is no master of the group world where Table 11-13 asks for one: in the user area, and to read or check the image
store. A Keeper session reaches both worlds. -/
def State.mbxForeign (s : State) (c : Cmd) : Bool :=
  !c.keeper && s.groupWorld 7 != s.qWorld 0 && decide (mbxOp c ≤ 4) &&
    (sectorsOf (mbxOff c) (mbxLen c)).any fun x =>
      (areaOf x == 1 && (mbxOp c == 1 || mbxOp c == 4)) || areaOf x == 2

/-- A ROM operation that waits for its end. -/
def mbxStart (c : Cmd) (s : State) : State :=
  (startJob (.hostMailbox c.h) (if c.keeper then .keeper else .mgmt) s).modCmd c.h fun x => { x with phase := .rom }

/-- The outcome of a mailbox STAT: a refusal, or Successful Completion with DW0 and DW1. -/
def mbxAnswer (c : Cmd) (st bytes : Nat) (data : List Byte) (s : State) : State :=
  if st = statBadReg then invalidField c.h s
  else if st = statNotKeeper then notKeeper c.h s
  else if st = statDenied then regionDenied c.h s
  else complete c.h 0 0 (w32 st) (w32 bytes) data s

/-- HARBOUR_MAILBOX. -/
def execHarbourMailbox (h : Nat) (s : State) : Host.Outcome State Fault Refusal :=
  done (match s.admin h 0xCC with
  | none => s
  | some c =>
    let op := mbxOp c
    let off := mbxOff c
    let len := mbxLen c
    if !mbxFields c then invalidField h s
    else if s.mbxForeign c then regionDenied h s
    else if op = 1 then
      let st := readStat c.keeper false off len
      mbxAnswer c st len (if st = statOk then s.hb.bytes off len else []) s
    else if op = 4 then
      let st := readStat c.keeper false off len
      mbxAnswer c (if st = statOk && !s.hb.isBlank off len then statNotBlank else st) len [] s
    else if op = 2 then
      let st := programStat c.keeper off len s
      if st = statOk then mbxStart c s else mbxAnswer c st 0 [] s
    else if op = 3 then
      let st := eraseStat c.keeper off s
      if st = statOk then mbxStart c { s with hb := s.hb.beginErase (off / 65536) } else mbxAnswer c st 0 [] s
    else if op = 5 then mbxAnswer c statOk len (s.otpVisible off len) s
    else
      let st := otpStat c.keeper off len s
      if st = statOk then mbxAnswer c st len [] (programOtpBytes off (slice c.sub.buf 0 len) s) else mbxAnswer c st 0 [] s)

end Sys2Proof.Machine
end

