-- ==== Sys2Proof/Machine/Loader.lean ====
section
/-! DEFINITION. The loader of Stall images: the layout of Table 7-9, the checks of Table 8-12 in the order of R244, and the figures
of R245 and R247. -/

namespace Sys2Proof.Machine

/-! Words (Table 8-12, rows Encoding and Limits). -/

def opOf (w : W32) : Nat := fld w 31 26

/-- Bits of a word that its instruction does not use (R226). -/
def unusedBits (op : Nat) : Nat :=
  match op with
  | 0x06 => 0xFC0
  | 0x09 => 0x40
  | 0x0A => 0xC0
  | 0x0B => 0x3FC
  | 0x0C => 0x3F0
  | 0x0E => 0x3333F8
  | 0x0F => 0x3FC0
  | 0x10 => 0x7F
  | 0x11 => 0x3FF
  | 0x12 => 0x3FFFF8
  | 0x13 => 0x3C3FFF
  | 0x14 => 0x3FFFF
  | 0x15 => 0x3FFF0
  | 0x16 => 0x300000
  | 0x17 => 0xFFF
  | 0x20 => 0x3FC000
  | 0x22 => 0xFF
  | 0x23 => 0x3FC000
  | 0x24 => 0x3FFFFF
  | 0x25 => 0x3FFFFF
  | 0x26 => 0x3FFFFF
  | 0x27 => 0x3FFFFF
  | 0x28 => 0x3FFFFF
  | 0x29 => 0x3FFFF
  | 0x2C => 0x3FFFE
  | 0x2D => 0x3000
  | 0x2E => 0x3FFFE0
  | 0x2F => 0x3C03FC
  | 0x30 => 0x3FFF8
  | 0x31 => 0x3FFC0
  | 0x34 => 0x3FFFFC
  | 0x35 => 0x3C030C
  | 0x36 => 0x3FE
  | 0x38 => 0x3FFFFF
  | 0x39 => 0x3FFFFF
  | 0x3A => 0x3FC000
  | 0x3B => 0x3C3FFF
  | _ => 0

def isLoop (op : Nat) : Bool := op == 0x17 || op == 0x21 || op == 0x22

/-- Sub-fields hold values that the entry of Table 8-4 defines. -/
def fieldsDefined (w : W32) : Bool :=
  match opOf w with
  | 0x01 => decide (fld w 9 0 ≤ 20) || (decide (fld w 9 0 ≤ 23) && fld w 13 10 == 0)
  | 0x0C => decide (fld w 3 0 ≤ 11)
  | 0x0D => decide (fld w 13 10 ≤ 11)
  | 0x0E => decide (fld w 2 0 ≤ 6)
  | 0x15 => decide (fld w 3 0 ≤ 8)
  | 0x17 => decide (1 ≤ fld w 25 12)
  | 0x20 => decide (1 ≤ fld w 13 0)
  | 0x21 => decide (1 ≤ fld w 25 12)
  | 0x22 => decide (1 ≤ fld w 25 12)
  | 0x2E => decide (fld w 3 0 ≤ 5)
  | 0x30 => decide (fld w 2 0 ≤ 5)
  | _ => true

/-- Row Encoding. -/
def encodingOk (w : W32) : Bool :=
  let op := opOf w
  opListed op && (w.toNat &&& unusedBits op == 0) && (isLoop op || guardOk (BitVec.ofNat 4 (fld w 25 22))) && fieldsDefined w

/-- Row Limits. -/
def limitsOk (w : W32) : Bool :=
  match opOf w with
  | 0x09 => decide (fld w 13 8 + fld w 5 0 + 1 ≤ 64)
  | 0x0A => decide (fld w 13 8 + fld w 5 0 + 1 ≤ 64)
  | 0x10 => decide (fld w 17 11 + 2 ^ fld w 10 9 ≤ 128)
  | 0x12 => decide (1 ≤ fld w 2 0) && decide (fld w 2 0 ≤ 4)
  | 0x35 => decide (fld w 7 4 ≤ 14)
  | _ => true

/-- Cycles the loader charges, a B that is not taken (R245). -/
def wordCycles (w : W32) : Nat :=
  let op := opOf w
  if op = 0x01 then aluCycles (fld w 9 0)
  else if op = 0x2D then 1 + ceilDiv (8 * (fld w 11 0 + 1)) 32
  else if op = 0x2E ∨ op = 0x30 ∨ op = 0x31 then 4
  else if [0x13, 0x16, 0x17, 0x18, 0x19, 0x23, 0x24, 0x28, 0x2C, 0x34, 0x35, 0x36].contains op then 2
  else 1

/-! Checks that need no path (rows Targets, Structure and Units). A failure is a row of Table 8-12 and an instruction index. -/

def rowTargets : Nat := 0
def rowStructure : Nat := 1
def rowStageEnds : Nat := 2
def rowRegions : Nat := 3
def rowHandlers : Nat := 4
def rowUnits : Nat := 5

def wordAt (code : List W32) (i : Nat) : W32 := (code[i]?).getD 0

/-- The loops of the code: the loop instruction and the last index of its body. -/
def codeLoops (code : List W32) : List (Nat × Nat) :=
  (code.zipIdx.filter fun x => isLoop (opOf x.1)).map fun x => (x.2, x.2 + fld x.1 25 12)

def inBody (l : Nat × Nat) (i : Nat) : Bool := decide (l.1 < i) && decide (i ≤ l.2)

/-- Two loops, the first starting earlier, that do not nest: where that fails. -/
def overlapAt (a b : Nat × Nat) : Option Nat :=
  if a.1 < b.1 ∧ b.1 ≤ a.2 ∧ a.2 < b.2 then some (if b.1 < a.2 then b.1 + 1 else b.1) else none

/-- The units bit that a UCALL or TALLY needs. -/
def unitBit (w : W32) : Option Nat :=
  if opOf w = 0x2F then some 4
  else if opOf w = 0x2E then some ([0, 0, 1, 1, 2, 3].getD (fld w 3 0) 0)
  else none

def staticFails (code : List W32) (units : W32) : List (Nat × Nat) :=
  let n := code.length
  let loops := codeLoops code
  let target := loops.filterMap fun l => if n ≤ l.2 then some (rowTargets, l.1) else none
  let overlap := loops.flatMap fun a => loops.filterMap fun b => (overlapAt a b).map fun i => (rowStructure, i)
  let one : W32 × Nat → List (Nat × Nat) := fun x =>
    let (w, i) := x
    let op := opOf w
    let t := if op = 0x20 then i + fld w 13 0 else fld w 13 0
    (if (op = 0x20 ∨ op = 0x23) ∧ n ≤ t then [(rowTargets, i)] else []) ++
    (if op = 0x20 && loops.any fun l => inBody l t && !inBody l i then [(rowStructure, i)] else []) ++
    (if op = 0x34 && loops.any fun l => inBody l i then [(rowStructure, i)] else []) ++
    (if op = 0x17 && loops.any fun l => opOf (wordAt code l.1) == 0x17 && inBody l i then [(rowStructure, i)] else []) ++
    (match unitBit w with
    | some k => if bit units k then [] else [(rowUnits, i)]
    | none => [])
  target ++ overlap ++ code.zipIdx.flatMap one

/-! Paths (rows Structure, Stage ends, Regions and Handlers; R245, R247). -/

/-- What a path costs: cycles, bytes of EMITM, and emits of the record itself. -/
structure Fig where
  cyc  : Nat
  erec : Nat
  emul : Nat
deriving DecidableEq, Repr

def Fig.zero : Fig := ⟨0, 0, 0⟩
def Fig.add (a b : Fig) : Fig := ⟨a.cyc + b.cyc, a.erec + b.erec, a.emul + b.emul⟩
def Fig.times (k : Nat) (a : Fig) : Fig := ⟨k * a.cyc, k * a.erec, k * a.emul⟩
def Fig.max (a b : Fig) : Fig := ⟨Nat.max a.cyc b.cyc, Nat.max a.erec b.erec, Nat.max a.emul b.emul⟩
def Fig.cycles (k : Nat) : Fig := ⟨k, 0, 0⟩

/-- The largest of several paths. -/
def Fig.largest (xs : List Fig) : Fig := xs.foldl Fig.max .zero

/-- A path that reaches k costs at least v. -/
def reachAt (m : AMap Fig) (k : Nat) (v : Fig) : AMap Fig := put m k (((look m k).getD .zero).max v)

/-- What the paths of a region do: the ends they reach by opcode, the indexes past the region by index, the largest LOOPC body, the
checks that fail, the instructions reached without CALL, and the subroutines walked. -/
structure Walk where
  ends   : AMap Fig
  exits  : AMap Fig
  chunk  : Nat
  fails  : List (Nat × Nat)
  seen   : List Nat
  called : List Nat
deriving DecidableEq, Repr

def Walk.none : Walk := ⟨[], [], 0, [], [], []⟩
def Walk.failAt (w : Walk) (row i : Nat) : Walk := { w with fails := (row, i) :: w.fails }
def Walk.endAt (w : Walk) (op : Nat) (v : Fig) : Walk := { w with ends := reachAt w.ends op v }

inductive Region where
  | pred | xform | handler | sub
deriving DecidableEq, Repr

/-- Where a walk stands: the region, inside a handler, loops open, inside a LOOPC, and the subroutines being walked. -/
structure Walking where
  region  : Region
  handler : Bool
  depth   : Nat
  chunk   : Bool
  calls   : List Nat
deriving DecidableEq, Repr

/-- Instructions that end a path. -/
def endsPath (op : Nat) : Bool := decide (0x24 ≤ op ∧ op ≤ 0x28) || op == 0x3A

/-- An end allowed in a region (R233, R234, R242). -/
def Region.allows (r : Region) (op : Nat) : Bool :=
  op == 0x3A || match r with
  | .pred => op == 0x25 || op == 0x26
  | .xform => op == 0x27
  | .sub => op == 0x24
  | .handler => op == 0x28

/-- Instructions that R242 bars from handlers. -/
def barredInHandler (op : Nat) : Bool :=
  decide (0x10 ≤ op ∧ op ≤ 0x17) || decide (0x21 ≤ op ∧ op ≤ 0x27) || [0x2C, 0x2E, 0x2F, 0x34, 0x35, 0x38].contains op

/-- Walk the paths of a region from index i up to `stop` in rising order; control only moves forward, so `best` holds the largest
figures of every index reached. The index after a loop is reached where its body falls out of it, and where LOOPR or LOOPC can
run no iteration: such a loop that ends with the code is then the last instruction of a path that lacks its end. -/
def walk (code : List W32) : Nat → Walking → Nat → Nat → AMap Fig → Walk → Walk
  | 0, _, _, _, _, acc => acc
  | fuel + 1, c, stop, i, best, acc =>
    if stop ≤ i then { acc with exits := best.filter fun x => decide (stop ≤ x.1) } else
    match look best i with
    | none => walk code fuel c stop (i + 1) best acc
    | some v =>
      let w := wordAt code i
      let op := opOf w
      let guarded := bit w 25
      let acc := { acc with seen := i :: acc.seen }
      let acc := if c.handler && barredInHandler op then acc.failAt rowHandlers i else acc
      let onward : AMap Fig → Walk → Walk := fun b a => walk code fuel c stop (i + 1) b a
      let next : Nat → Fig → AMap Fig → AMap Fig := fun t x b => reachAt b t (v.add x)
      if isLoop op then
        let isC := op == 0x17
        if 4 ≤ c.depth || (isC && c.chunk) then onward (next (i + 1) (.cycles (wordCycles w)) best) (acc.failAt rowStructure i) else
        let last := min (i + fld w 25 12) (code.length - 1)
        let acc := if op ≠ 0x21 ∧ last + 1 = code.length then acc.failAt rowStageEnds i else acc
        let body := walk code fuel { c with depth := c.depth + 1, chunk := c.chunk || isC } (last + 1) (i + 1) [(i + 1, .zero)] .none
        let pass := Fig.largest (body.ends.map (fun x => x.2) ++ body.exits.map fun x => x.2)
        let times := if op = 0x21 then fld w 11 0 + 1 else 4096
        let charge := if isC then ⟨2, times * pass.erec, 0⟩ else (Fig.cycles 1).add (pass.times times)
        let b := body.exits.foldl (fun b x => next x.1 charge b) (if op = 0x21 then best else next (last + 1) charge best)
        let a := body.ends.foldl (fun a x => a.endAt x.1 (v.add charge)) acc
        onward b { a with chunk := max a.chunk (if isC then pass.cyc else body.chunk), fails := body.fails ++ a.fails,
                          seen := body.seen ++ a.seen, called := body.called ++ a.called }
      else if op = 0x20 then
        let b := next (i + fld w 13 0) (.cycles 2) best
        onward (if guarded then next (i + 1) (.cycles 1) b else b) acc
      else if op = 0x23 then
        let t := fld w 13 0
        let b := if guarded then next (i + 1) (.cycles 2) best else best
        if c.calls.contains t || 4 ≤ c.calls.length then onward (next (i + 1) (.cycles 2) b) (acc.failAt rowStructure i) else
        let sub := walk code fuel { c with region := .sub, calls := t :: c.calls } code.length t [(t, .zero)] .none
        let b := match look sub.ends 0x24 with
          | some x => next (i + 1) ((Fig.cycles 2).add x) b
          | none => b
        let a := (sub.ends.filter fun x => x.1 != 0x24).foldl (fun a x => a.endAt x.1 (v.add ((Fig.cycles 2).add x.2))) acc
        let a := if sub.exits.isEmpty then a else a.failAt rowStageEnds (code.length - 1)
        onward b { a with chunk := max a.chunk sub.chunk, fails := sub.fails ++ a.fails, called := t :: (sub.called ++ a.called) }
      else if endsPath op then
        let a := if c.region.allows op then acc.endAt op (v.add (.cycles (wordCycles w)))
          else acc.failAt (if c.region = .handler ∨ (op = 0x28 ∧ c.region ≠ .sub) then rowHandlers else rowStageEnds) i
        onward (if guarded then next (i + 1) (.cycles (if 0x25 ≤ op ∧ op ≤ 0x27 then 1 else wordCycles w)) best else best) a
      else if op = 0x34 then
        onward (next (i + 1) ⟨2, 0, 1⟩ best) (if 0 < c.depth then acc.failAt rowStructure i else acc)
      else
        onward (next (i + 1) ⟨wordCycles w, if op = 0x35 then 2 ^ (fld w 7 4 + 5) else 0, 0⟩ best) acc

/-- Walk a region from its entry; a path that runs past the last instruction fails there. -/
def walkFrom (code : List W32) (r : Region) (entry : Nat) : Walk :=
  let w := walk code (6 * code.length + 12) ⟨r, r == .handler, 0, false, []⟩ code.length entry [(entry, .zero)] .none
  if w.exits.isEmpty then w else w.failAt rowStageEnds (code.length - 1)

/-- Call cycles and call depths above 4 among subroutines that no path reaches: each is walked from its first CALL. -/
def unreachedCalls (code : List W32) (called : List Nat) : List (Nat × Nat) :=
  let calls := (code.filter fun w => opOf w == 0x23).map fun w => fld w 13 0
  (calls.foldl (fun (acc : List Nat × List (Nat × Nat)) t =>
    if acc.1.contains t then acc else
    let w := walk code (6 * code.length + 12) ⟨.sub, false, 0, false, [t]⟩ code.length t [(t, .zero)] .none
    (t :: (w.called ++ acc.1), (w.fails.filter fun x => x.1 == rowStructure && opOf (wordAt code x.2) == 0x23) ++ acc.2))
    (called, [])).2

/-- The largest path to any of these ends. -/
def Walk.to (w : Walk) (ops : List Nat) : Option Fig :=
  let xs := ops.filterMap (look w.ends)
  if xs.isEmpty then .none else some (Fig.largest xs)

/-- The lowest failure: by row, then by index. -/
def firstFail : List (Nat × Nat) → Option (Nat × Nat)
  | [] => none
  | x :: xs => match firstFail xs with
    | none => some x
    | some y => some (if x.1 < y.1 ∨ (x.1 = y.1 ∧ x.2 ≤ y.2) then x else y)

/-! The image (Table 7-9). -/

def noEntry : Nat := 0xFFFFFFFF

/-- Offset of the first byte after the code, which is padded to 8 bytes. -/
def codeLimit (words : Nat) : Nat := 0x40 + 8 * ceilDiv (4 * words) 8

/-- Where the segments end by their own lengths, while each lies in the image: the offset after the last, or the field that shows
they do not: SEG_COUNT where a segment's own header does not fit, nothing where its bytes do not (its length field then fails). -/
def segsEnd (b : List Byte) : Nat → Nat → Option (Nat ⊕ Nat)
  | 0, pos => some (.inr pos)
  | k + 1, pos =>
    if b.length < pos + 8 then some (.inl 0x28)
    else if b.length < pos + 8 + u32At b (pos + 4) then none
    else segsEnd b k (pos + 8 + u32At b (pos + 4))

/-- TOTAL_LEN is not the sum of the code, the segments and the signature block. -/
def totalWrong (b : List Byte) : Bool :=
  let words := u32At b 0x0C
  decide (1 ≤ words ∧ words ≤ 16384 ∧ u32At b 0x28 ≤ 64) &&
  match segsEnd b (u32At b 0x28) (codeLimit words) with
  | some (.inr pos) => pos + (if Nat.testBit (u16At b 6) 0 then 768 else 0) != b.length
  | _ => false

/-- Offset of the first header field that fails, in rising order (R244); TOTAL_LEN and SEG_COUNT are held to the image's own
segments here. -/
def headerFail (b : List Byte) : Option Nat :=
  let f := u32At b
  let words := f 0x0C
  let entry : Nat → Option Nat := fun off => if f off ≠ noEntry ∧ words ≤ f off then some off else none
  if f 0 ≠ 0x53544C31 then some 0
  else if u16At b 4 ≠ 1 then some 4
  else if f 8 % 8 ≠ 0 ∨ f 8 ≠ b.length ∨ totalWrong b then some 8
  else if words = 0 ∨ 16384 < words ∨ b.length < codeLimit words then some 0x0C
  else if words ≤ f 0x10 then some 0x10
  else ((entry 0x14).or (entry 0x18)).or ((entry 0x1C).or
    (if f 0x20 ≠ noEntry ∧ words ≤ f 0x20 + 255 then some 0x20 else if 64 < f 0x28 ∨ segsEnd b (f 0x28) (codeLimit words) = some (.inl 0x28) then some 0x28 else none))

/-- Read the segments from `pos`: the segments and the offset after them, or the offset that fails. -/
def readSegs (b : List Byte) : Nat → Nat → List (Nat × List Byte) → Nat ⊕ (List (Nat × List Byte) × Nat)
  | 0, pos, acc => .inr (acc.reverse, pos)
  | k + 1, pos, acc =>
    let off := u32At b pos
    let len := u32At b (pos + 4)
    if b.length < pos + 8 then .inl 0x28
    else if off % 8 ≠ 0 ∨ 524288 ≤ off then .inl pos
    else if len % 8 ≠ 0 ∨ 524288 < off + len ∨ b.length < pos + 8 + len then .inl (pos + 4)
    else if acc.any fun g => decide (off < g.1 + g.2.length) && decide (g.1 < off + len) then .inl pos
    else readSegs b k (pos + 8 + len) ((off, slice b (pos + 8) len) :: acc)

/-- The index of an entry or vector field. -/
def entryOf (v : Nat) : Option Nat := if v = noEntry then none else some v

/-- The handlers analysed: Normal, Fast and levels 1 to 15 of VEC_PRIO (R245). -/
def vectors (b : List Byte) : List (Option Nat) :=
  let prio := entryOf (u32At b 0x20)
  [entryOf (u32At b 0x18), entryOf (u32At b 0x1C)] ++ (List.range 15).map fun k => prio.map fun v => v + 16 * (k + 1)

/-- A handler's worst case (R245). -/
def handlerCycles (w : Walk) : Nat := match w.to [0x28, 0x3A] with
  | some x => 2 + x.cyc
  | none => 0

/-- The figures of both stages: C_REC, C64, E_REC and E_MUL (R245, R247). -/
def stageFigures (p : Walk) (x : Option Walk) : Nat × Nat × Nat × Nat :=
  let tail : Fig := match x with
    | some w => (Fig.cycles 2).add ((w.to [0x27, 0x3A]).getD .zero)
    | none => ⟨0, 0, 1⟩
  let start : Fig := .cycles 2
  let ways := ((p.to [0x26, 0x3A]).map fun v => start.add v).toList ++ ((p.to [0x25]).map fun v => (start.add v).add tail).toList
  let best := Fig.largest ways
  (best.cyc, p.chunk + (x.map fun w => w.chunk).getD 0, best.erec, best.emul)

/-- Instructions that more than one region reaches without CALL. -/
def sharedWords (rs : List (List Nat)) : List (Nat × Nat) :=
  match rs with
  | [a, b, c] =>
    let two : Nat → Bool := fun i => decide (1 < b2n (a.contains i) + b2n (b.contains i) + b2n (c.contains i))
    ((a ++ b ++ c).filter two).map fun i => (rowRegions, i)
  | _ => []

/-- Load an image: the offset of its first failing field, or the image. -/
def loadImage (b : List Byte) (keyHash : List Byte) : Nat ⊕ Image :=
  match headerFail b with
  | some off => .inl off
  | none =>
    let words := u32At b 0x0C
    let signed := Nat.testBit (u16At b 6) 0
    match readSegs b (u32At b 0x28) (codeLimit words) [] with
    | .inl off => .inl off
    | .inr (segs, pos) =>
      let code := (List.range words).map fun i => w32 (u32At b (0x40 + 4 * i))
      let at_ : Nat → Nat := fun i => 0x40 + 4 * i
      let bad : (W32 → Bool) → Option Nat := fun ok => (code.zipIdx.find? fun x => !ok x.1).map fun x => x.2
      match (bad encodingOk).or (bad limitsOk) with
      | some i => .inl (at_ i)
      | none =>
        let p := walkFrom code .pred (u32At b 0x10)
        let x := (entryOf (u32At b 0x14)).map (walkFrom code .xform)
        let hs := (vectors b).map fun v => v.map (walkFrom code .handler)
        let ws := p :: (x.toList ++ hs.filterMap id)
        let shared := sharedWords [p.seen, (x.map fun w => w.seen).getD [], (hs.filterMap id).flatMap fun w => w.seen]
        match firstFail (staticFails code (w32 (u32At b 0x2C)) ++ unreachedCalls code (ws.flatMap fun w => w.called) ++ shared ++
            ws.flatMap fun w => w.fails) with
        | some f => .inl (at_ f.2)
        | none =>
          let (cRec, c64, eRec, eMul) := stageFigures p x
          let ints := hs.map fun w => (w.map handlerCycles).getD 0
          let modulus := slice b pos 384
          .inr { words := words, pred := u32At b 0x10, xform := entryOf (u32At b 0x14), vNormal := entryOf (u32At b 0x18)
                 vFast := entryOf (u32At b 0x1C), vPrio := entryOf (u32At b 0x20), units := u32At b 0x2C % 32
                 version := u64At b 0x30, secure := Nat.testBit (u16At b 6) 1
                 signed := signed && rsaVerify modulus (b.take pos) (slice b (pos + 384) 384)
                 keyOk := sha256 modulus == keyHash, prio := Nat.testBit (u16At b 6) 2, segs := segs, cRec := cRec, c64 := c64
                 cInt := ints.foldl max 0, ints := ints, eRec := eRec, eMul := eMul
                 hash := sha256 ((b.take pos).drop 0x40) }

end Sys2Proof.Machine
end

