-- ==== Sys2Proof/Machine/AdminStall.lean ====
section
/-! DEFINITION. Stall Load and Stall Run/Stop (R204 to R210). -/

namespace Sys2Proof.Machine

/-- STALL_MASK. -/
def stallMask (c : Cmd) : List Nat := setBits 64 (c.q64 12)

/-- A Secure-world Stall is named outside a Keeper session (Tables 7-11 and 7-12). -/
def State.stallsKeeper (s : State) (c : Cmd) : Bool := !c.keeper && (stallMask c).any s.stallWorld

/-- A Stall leaves the set of its pipeline. -/
def leaveSets (n : Nat) (s : State) : State :=
  { s with pipes := s.pipes.map fun p => (p.1, { p.2 with stalls := putBit p.2.stalls n false }) }

/-! Stall Load (R206, R207). -/

/-- The image of entry k of the image store (R325). -/
def Harbour.storeImage (h : Harbour) (k : Nat) : Option (List Byte) :=
  let e := h.bytes (0x01000000 + 16 * k) 8
  let off := u32At e 0
  let len := u32At e 4
  if off = 0xFFFFFFFF ∨ off < 257 * 65536 ∨ 384 * 65536 < off + len then none else some (h.bytes off len)

/-- The image that a Stall Load names; none where a field of the command is wrong or the entry is empty. -/
def State.imageOf (s : State) (c : Cmd) : Option (List Byte) :=
  let d := c.dword 10
  let len := fld d 21 0
  if !c.allZero [1, 2, 3, 4, 5, 14, 15] || fld d 29 22 ≠ 0 || fld (c.dword 11) 31 8 ≠ 0 || (stallMask c).isEmpty then none
  else if fld d 31 30 = 0 then
    (if 72 ≤ len ∧ len ≤ 2097152 ∧ len % 8 = 0 then some (slice c.sub.buf 0 len) else none)
  else if fld d 31 30 = 1 ∧ len = 0 then s.hb.storeImage (fld (c.dword 11) 7 0)
  else none

/-- Program memory of an image: two instructions in each 8-byte word. The load takes no pending FLIP_PM mask, like the fill of local
memory (DESIGN CHOICE, notes/assumptions/82.md: R200 names only that fill). -/
def fillProgram (b : List Byte) (words : Nat) : AMap MemWord :=
  (List.range (ceilDiv words 2)).map fun i => (i, ⟨w64 (u64At b (0x40 + 8 * i)), 0⟩)

/-- What RESTART and Stall Load clear and fill. -/
def Stall.refill (segs : List (Nat × List Byte)) (t : Stall) : Stall :=
  { t with state := .stopped, core := .reset, dbgW := List.replicate 128 0, lm := fillLocal segs, handlers := [], stage := .idle
           rec_ := 0, cycles := 0, nsOuts := [], call := none, moves := [], undef := [], porterFault := none
           ic := { t.ic with active := 0 } }

/-- A Stall after a successful load (R207, R219). The Tally updates that a Stall's load drops are those of no Lot: a Lot that ended
on it and waits to retire keeps its own (DESIGN CHOICE, notes/assumptions/82.md). -/
def Stall.load (b : List Byte) (im : Image) (t : Stall) : Stall :=
  { t.refill im.segs with pm := fillProgram b im.words, image := some im, stats := .reset, corr := 0
                          ic := { t.ic with mask := 0xFFFFFFFF, pending := 0, active := 0, disable := false, thresh := 0
                                            prio := im.prio } }

/-- DW0 and DW1 of a load (R206). -/
def loadDw0 (im : Image) : W32 := sat32 im.cRec
def loadDw1 (im : Image) : W32 := w32 (min im.c64 0xFFFF * 65536 + min im.cInt 0xFFFF)

/-- PROGRAM_OVER_BUDGET (Table 7-11). -/
def overBudget (maxC64 : Nat) (im : Image) : Bool :=
  (maxC64 != 0 && decide (maxC64 < im.c64)) || decide (65535 < im.c64) || decide (262144 < im.cRec) || decide (4096 < im.cInt)

/-- STALL_LOAD. -/
def execStallLoad (h : Nat) (s : State) : Host.Outcome State Fault Refusal :=
  done (match s.admin h 0xC1 with
  | none => s
  | some c =>
    let ns := stallMask c
    match s.imageOf c with
    | none => invalidField h s
    | some b =>
      let flags := u16At b 6
      if Nat.testBit flags 1 && ns.any fun n => !s.stallWorld n then invalidField h s
      else if s.stallsKeeper c then notKeeper h s
      else if ns.any fun n => (s.stall n).state == .off || (s.stall n).state == .running then seqError h s
      else match loadImage b s.keyHash with
        | .inl off => complete h 1 0x07 (w32 off) 0 [] s
        | .inr im =>
          if (Nat.testBit flags 0 && !im.signed) || (ns.any s.stallWorld && !(im.signed && im.keyOk)) then
            complete h 1 0x07 0xFFFFFFFF 0 [] s
          else if overBudget (u32At b 0x24) im then complete h 7 0x88 (loadDw0 im) (loadDw1 im) [] s
          else complete h 0 0 (loadDw0 im) (loadDw1 im) []
            (ns.foldl (fun s n => leaveSets n (s.modStall n (Stall.load b im))) s))

/-! Stall Run/Stop (R208, R209). -/

/-- The Stall Run/Stop command of a row: its checks, where `err` are the states that give "error". -/
def stallRow (action h : Nat) (err : StallSt → Bool) (k : Cmd → State → State) (s : State) : State :=
  match s.admin h 0xC2 with
  | none => s
  | some c =>
    if fld (c.dword 10) 3 0 ≠ action then s
    else if (stallMask c).isEmpty || !c.allZero [1, 2, 3, 4, 5, 6, 7, 8, 9, 11, 14, 15] || fld (c.dword 10) 31 4 ≠ 0 then
      invalidField h s
    else if s.stallsKeeper c then notKeeper h s
    else if (stallMask c).any fun n => err (s.stall n).state then seqError h s
    else k c s

/-- STALL_STOP: source 15 pends in every Stall named (Table 7-17); one with a running Lot stops when it ends, and the command
completes then. -/
def execStallStop (h : Nat) (s : State) : Host.Outcome State Fault Refusal :=
  done (stallRow 0 h (fun _ => false) (fun c s =>
    let s := (stallMask c).foldl (fun s n =>
      let s := s.modStall n (Stall.pend 15)
      let t := s.stall n
      if t.state ≠ .running then s
      else if t.lots.isEmpty then s.modStall n fun t => { t with state := .stopped, slow := false }
      else (returnSecond n s).modStall n fun t => { t with slow := false, stops := t.stops ++ [h] }) s
    if (stallMask c).any fun n => (s.stall n).stops.contains h then s.modCmd h fun x => { x with phase := .stalls }
    else succeed h s) s)

/-- STALL_RUN. -/
def execStallRun (h : Nat) (s : State) : Host.Outcome State Fault Refusal :=
  done (stallRow 1 h (fun st => st != .stopped && st != .running) (fun c s =>
    succeed h ((stallMask c).foldl (fun s n =>
      if (s.stall n).state = .stopped then s.modStall n fun t => { t with state := .running, idleAt := s.now } else s) s)) s)

/-- The tiles of an action: each takes it, but one that fails its fill check takes an ECC fault (R209). -/
def fillTiles (h : Nat) (ns : List Nat) (bad : List (Fin 64)) (f : Nat → State → State) (s : State) : State :=
  let fails : Nat → Bool := fun n => bad.any fun b => b.val == n
  let s := ns.foldl (fun s n => if fails n then stallFault n 3 (f n s) else f n s) s
  if ns.any fails then fail h 7 0x87 s else succeed h s

/-- STALL_RESTART. -/
def execStallRestart (h : Nat) (bad : List (Fin 64)) (s : State) : Host.Outcome State Fault Refusal :=
  done (stallRow 2 h (fun st => st != .stopped && st != .faulted) (fun c s =>
    fillTiles h (stallMask c) bad (fun n s => s.modStall n fun t => t.refill ((t.image.map fun i => i.segs).getD [])) s) s)

/-- STALL_CLEAR_SLOW. -/
def execStallClearSlow (h : Nat) (s : State) : Host.Outcome State Fault Refusal :=
  done (stallRow 3 h (fun _ => false) (fun c s =>
    succeed h ((stallMask c).foldl (fun s n => s.modStall n fun t => { t with slow := false }) s)) s)

/-- STALL_POWER_OFF. -/
def execStallPowerOff (h : Nat) (s : State) : Host.Outcome State Fault Refusal :=
  done (stallRow 4 h (fun st => st == .running) (fun c s =>
    succeed h ((stallMask c).foldl (fun s n =>
      if (s.stall n).state = .off then s else leaveSets n (s.setStall n { Stall.reset with stats := (s.stall n).stats })) s)) s)

/-- STALL_POWER_ON: the tile is EMPTY, its control block at the values of tile power-on and its memory poisoned. -/
def execStallPowerOn (h : Nat) (bad : List (Fin 64)) (s : State) : Host.Outcome State Fault Refusal :=
  done (stallRow 5 h (fun _ => false) (fun c s =>
    let ns := (stallMask c).filter fun n => (s.stall n).state == .off
    fillTiles h ns bad (fun n s => s.setStall n { Stall.reset with state := .empty, stats := (s.stall n).stats }) s) s)

end Sys2Proof.Machine
end

