-- ==== Sys2Proof/Machine/Bar0.lean ====
section
/-! DEFINITION. The registers of BAR0 (R89, R90, R93, Tables 4-2 and 4-3), by dword: what a read returns, and what a write of the
host does. The layout of CC and CSTS, and that AQA, ASQ, ACQ and the MSI-X table read back what was written, are those of NVMe
and PCI (PRESUMED, notes/assumptions/6.md). -/

namespace Sys2Proof.Machine

/-- CAP (Table 4-3): CRWMS, CSS, TO, AMS, CQR and MQES; every other field is 0. -/
def capValue : W64 := w64 (2 ^ 59 + 0x01 * 2 ^ 37 + 80 * 2 ^ 24 + 1 * 2 ^ 17 + 1 * 2 ^ 16 + 0xFFFF)

/-- CC.EN as written: what waits counts. -/
def State.ccEn (s : State) : Bool := s.nv.late.foldl (fun e w => match w with
  | .enable .. => true
  | .reset => false
  | .flr => false
  | .shutdown _ => e) s.nv.en

/-- CC. -/
def State.ccWord (s : State) : W32 := s.nv.cc ||| w32 (b2n s.ccEn + s.nv.ams * 2 ^ 11 + s.nv.shn * 2 ^ 14)

/-- CSTS: RDY, CFS and SHST. -/
def State.csts (s : State) : W32 := w32 (b2n s.ready + 2 * b2n s.nv.cfs + 4 * s.nv.shst)

/-- Dword k of the MSI-X table: the fourth of an entry is its Vector Control, with the Mask bit. -/
def State.msixDword (s : State) (k : Nat) : W32 :=
  if k % 4 = 3 then w32 (b2n (bit s.ev.mask (k / 4))) else (look s.nv.msix k).getD 0

/-- The dword at an offset of BAR0. INTMS and INTMC, NSSR, the CMB and PMR registers, doorbells and reserved offsets read zero
(R89, R93). -/
def State.bar0 (s : State) (off : Nat) : W32 :=
  if off = 0x00 then w32 capValue.toNat
  else if off = 0x04 then w32 (capValue.toNat / 2 ^ 32)
  else if off = 0x08 then 0x00020000
  else if off = 0x14 then s.ccWord
  else if off = 0x1C then s.csts
  else if off = 0x24 then s.nv.aqa
  else if off = 0x28 then w32 s.nv.asq.toNat
  else if off = 0x2C then w32 (s.nv.asq.toNat / 2 ^ 32)
  else if off = 0x30 then w32 s.nv.acq.toNat
  else if off = 0x34 then w32 (s.nv.acq.toNat / 2 ^ 32)
  else if 0x2000 ≤ off ∧ off < 0x3000 then s.msixDword ((off - 0x2000) / 4)
  else if 0x3000 ≤ off ∧ off < 0x3020 then
    w32 (ofBits ((List.range 32).map fun i => s.pba (8 * (off - 0x3000) + i)))
  else 0

/-- What the spec states of the function's PCI configuration header, by dword (R88, Tables 4-1 and 16-2): the Device ID, the class
code, the 64-bit non-prefetchable pairs BAR0/BAR1 and BAR2/BAR3 with no address assigned, and no BAR4 or BAR5. -/
def State.pciWord (s : State) (off : Nat) : Option W32 :=
  if off = 0x00 then some (w32 ((if s.compat then 0x0508 else 0x0716) * 65536 + (Config.identifyByte 0x100 0).toNat +
    256 * (Config.identifyByte 0x100 1).toNat))
  else if off = 0x08 then some (w32 (0x01080200 + (Config.identifyByte 0x100 8).toNat))
  else if off = 0x10 ∨ off = 0x18 then some 4
  else if off = 0x14 ∨ off = 0x1C ∨ off = 0x20 ∨ off = 0x24 then some 0
  else none

/-- One half of a 64-bit register is written. -/
def half (x : W64) (hi : Bool) (v : W32) : W64 :=
  if hi then w64 (x.toNat % 2 ^ 32 + v.toNat * 2 ^ 32) else w64 (x.toNat / 2 ^ 32 * 2 ^ 32 + v.toNat)

/-- A write of CC: EN and SHN act as their rows do, and the other fields are stored. -/
def writeCc (v : W32) (s : State) : State :=
  let s := if bit v 0 && !s.ccEn then hostWrite (.enable (fld v 13 11) s.nv.aqa s.nv.asq s.nv.acq) s
    else if !bit v 0 && s.ccEn then hostWrite .reset s else s
  let s := if fld v 15 14 != s.nv.shn then hostWrite (.shutdown (fld v 15 14)) s else s
  { s with nv := { s.nv with cc := v &&& 0x00FF07F0 } }

/-- A write of a dword of BAR0 by the host: what is read-only, reserved or without effect discards it. A doorbell here brings entries
of zeros, the submissions being an operand of DOORBELL_WRITE. -/
def bar0Write (off : Nat) (v : W32) (s : State) : State :=
  if off = 0x14 then writeCc v s
  else if off = 0x24 then { s with nv := { s.nv with aqa := v &&& 0x0FFF0FFF } }
  else if off = 0x28 then { s with nv := { s.nv with asq := half s.nv.asq false (v &&& 0xFFFFF000) } }
  else if off = 0x2C then { s with nv := { s.nv with asq := half s.nv.asq true v } }
  else if off = 0x30 then { s with nv := { s.nv with acq := half s.nv.acq false (v &&& 0xFFFFF000) } }
  else if off = 0x34 then { s with nv := { s.nv with acq := half s.nv.acq true v } }
  else if 0x1000 ≤ off ∧ off < 0x1800 ∧ off % 4 = 0 then doorbell (decide (off % 8 = 4)) ((off - 0x1000) / 8) v [] s
  else if 0x2000 ≤ off ∧ off < 0x3000 ∧ off % 4 = 0 then
    let k := (off - 0x2000) / 4
    if k % 4 = 3 then { s with ev := { s.ev with mask := putBit s.ev.mask (k / 4) (bit v 0) } }
    else { s with nv := { s.nv with msix := put s.nv.msix k v } }
  else s

/-- The host writes a dword of BAR0: with the link up and the main domain on; in Watch it wakes the card (Table 14-4). -/
def hostRegister (off : Nat) (v : W32) (s : State) : State :=
  if !s.pwr.link || !s.pwr.mainOn then s
  else
    let s := bar0Write off v s
    if s.pwr.watch = .asleep then wake 1 s else s

end Sys2Proof.Machine
end

