-- ==== Sys2Proof/Machine/EventOps.lean ====
section
/-! DEFINITION. Commands on the event router, the journal and single registers (R8, R213, R311, R342, R358 to R366,
R377). -/

namespace Sys2Proof.Machine

/-- EVT_STATUS_READ (R362). -/
def execEvtStatusRead (a : Actor) (k : Fin 16) (s : State) : Host.Outcome State Fault Refusal :=
  done (if s.regReady (0x0602 + k.val) then (regRead s.now a (0x0602 + k.val) s).2.2 else s)

/-- PULSE_ACK (R362): a write of 1 to PULSE_k of frame 0x05's FAULT_STATUS. -/
def execPulseAck (a : Actor) (k : Fin 16) (s : State) : Host.Outcome State Fault Refusal :=
  done (access s.now a 0x0645 (w32 (2 ^ k.val)) s)

/-- EVT_ROUTE_WRITE (R359, R360). -/
def execEvtRouteWrite (a : Actor) (v : W32) (s : State) : Host.Outcome State Fault Refusal :=
  done (access s.now a 0x0601 v s)

/-- MSIX_MASK_WRITE (R361): the Mask bit of a vector, or the Function Mask; in Watch it takes the link out of L1.2, which wakes the card
(R379, Table 14-4). -/
def execMsixMaskWrite (vector : Option Byte) (masked : Bool) (s : State) : Host.Outcome State Fault Refusal :=
  done (if !s.running then s else
    let s := match vector with
      | some v => { s with ev := { s.ev with mask := putBit s.ev.mask v.toNat masked } }
      | none => { s with ev := { s.ev with fmask := masked } }
    if s.pwr.watch = .asleep && s.pwr.link then wake 1 s else s)

/-- VIOL_KIND_CLEAR (R342). -/
def execViolKindClear (a : Actor) (s : State) : Host.Outcome State Fault Refusal :=
  done (access s.now a 0x051A 0x80000000 s)

/-- PWR_CMD_WRITE (R377, R380, R395). -/
def execPwrCmdWrite (a : Actor) (v : W32) (s : State) : Host.Outcome State Fault Refusal :=
  done (access s.now a 0x0300 v s)

/-- STALL_VSET_WRITE (R213). -/
def execStallVsetWrite (a : Actor) (v : W32) (s : State) : Host.Outcome State Fault Refusal :=
  done (access s.now a 0x0342 v s)

/-- STALL_FSET_WRITE (R213). -/
def execStallFsetWrite (a : Actor) (v : W32) (s : State) : Host.Outcome State Fault Refusal :=
  done (access s.now a 0x0343 v s)

/-- FAULT_FORCE_MIRROR (R311, R369). -/
def execFaultForceMirror (a : Actor) (f : Fin 64) (v : W32) (s : State) : Host.Outcome State Fault Refusal :=
  done (access s.now a (0x0940 + f.val) v s)

/-- REGISTER_WRITE (R8): any register, by its type; for the host, one of BAR0 (R89). -/
def execRegisterWrite (a : Actor) (reg : W16) (v : W32) (s : State) : Host.Outcome State Fault Refusal :=
  done (if a = .host then hostRegister reg.toNat v s else access s.now a reg.toNat v s)

/-- JOURNAL_INTERVAL (R366): the limit starts again, and after an interval with drops the new one begins with a DROPPED record; where
the journal does not run the record waits for the first entry. -/
def execJournalInterval (s : State) : Host.Outcome State Fault Refusal :=
  let e := { s.ev with jcount := 0, jprev := s.ev.jprev + s.ev.jdrops, jdrops := 0 }
  done { s with ev := if e.jprev = 0 || s.pwr.recovery then e else { e.write s.now s.pwr.starts 4 0xFF 1 e.jprev with jprev := 0 } }

/-- DELIVERY_ERR (R361): the source is not sent again. -/
def execDeliveryErr (_ : Byte) (s : State) : Host.Outcome State Fault Refusal :=
  done (if s.running then raiseFault 5 17 s else s)

end Sys2Proof.Machine
end

