-- ==== Sys2Proof/Machine/Startup.lean ====
section
/-! DEFINITION. The rails and start-up: Table 6-10 and what surrounds it (R53, R59, R154, R173 to R182, R185, R313, R355, R417,
R418, R439, R440). -/

namespace Sys2Proof.Machine

/-! Rails. -/

/-- The aux domain resets (R59, R302, R388, R439); what the system records and the system pool hold stays. -/
def auxReset (s : State) : State :=
  let p : Power := { s.pwr with mode := .none, copied := false, lossArmed := false, lossHigh := true, cmd := 0, busCmd := 0, before := 0
                                wakeSrc := 0, wakeDue := false, watch := .awake, watchTimer := 0, hostPs4 := false }
  let e : Events := { s.ev with
    pulse := 0, level := 0, jcount := 0, jdrops := 0, jprev := 0
    status := vmapi s.ev.status fun f v => if f ≤ 2 then 0 else v
    enable := vmapi s.ev.enable fun f v => if f ≤ 2 then frameBits f else v }
  let h : Harbour := { s.hb with auxMode := 0, auxPref := 0, auxCfg := 0x00004000, auxCpc := 0x0000FFFF, auxWatch := 10 }
  { s with now := 0, pwr := p, ev := e, hb := h, bcn := s.bcn.auxReset, bus := .reset, therm := { Thermal.reset with shutSrc := s.therm.shutSrc }
           keeper := { s.keeper with bus := .reset } }

/-- Both rails are in their range: start-up runs its steps 1 and 2 (R182). -/
def startMain (s : State) : State :=
  let s := mainReset s
  { s with pwr := { s.pwr with mainOn := true, step := 2 } }

/-- Start-up begins when the aux domain is up and both rails are there; not in Watch, in thermal shutdown or in a flush. -/
def State.canStart (s : State) : Bool :=
  s.pwr.rail12 && s.pwr.railAux && s.pwr.auxOn && !s.pwr.mainOn && (s.pwr.watch != .asleep) && !s.therm.held &&
    s.pwr.flush != .running && s.pwr.flush != .railBack

/-- AUX_POWER_UP (R439): when the aux domain was down it resets and COMPAT is sampled (R4). -/
def execAuxPowerUp (compatLow : Bool) (s : State) : Host.Outcome State Fault Refusal :=
  let s := if s.pwr.auxOn then s else
    let s := auxReset s
    { s with pwr := { s.pwr with auxOn := true, compatLow := compatLow, step := 1 } }
  let s := { s with pwr := { s.pwr with railAux := true } }
  done (if s.canStart then startMain s else s)

/-- MAIN_RAIL_UP (R381, R439): in Watch the rail is there for a wake, and a wake that had not waited for it recharges the bank
without the stagger delay. A rail that comes back during a flush is a row of its own. -/
def execMainRailUp (s : State) : Host.Outcome State Fault Refusal :=
  done (if s.pwr.flush == .running || s.pwr.flush == .railBack then s
  else if s.pwr.watch == .asleep then
    { s with pwr := { s.pwr with rail12 := true, charging := s.pwr.charging || (!s.pwr.rail12 && !s.pwr.wakeDue) } }
  else
    let s := { s with pwr := { s.pwr with rail12 := true } }
    if s.canStart then startMain s else s)

/-- AUX_RAIL_FAIL (R154, R378, R440): the aux domain runs from the main domain; before step 3 has ended start-up begins again, and
in Watch what the main domain retains is lost. -/
def execAuxRailFail (s : State) : Host.Outcome State Fault Refusal :=
  let s := { s with pwr := { s.pwr with railAux := false } }
  done (if s.pwr.mainOn && (decide (s.pwr.step < 3) || s.pwr.watch == .asleep) then stopMain s else s)

/-- AUX_DOMAIN_RESET (R439): nothing supplies the aux domain, so the main domain is off or in Watch; what Watch retained is
lost (R378). -/
def execAuxDomainReset (s : State) : Host.Outcome State Fault Refusal :=
  done (if !s.pwr.auxOn || (s.pwr.mainOn && s.pwr.watch != .asleep) then s else
    let s := auxReset (stopMain s)
    { s with pwr := { s.pwr with auxOn := false, railAux := false, step := 0 } })

/-! Start-up step 3 (R59, R180, R185, R313, R353, R355). -/

/-- What the ROM finds in a bank (R353, R355): one that does not read back as it was programmed does not verify, and the image that bytes
placed by the mailbox spell is judged by R353. -/
def Harbour.found (h : Harbour) (rollback : Nat) (b reads : Bool) : Bank :=
  if !reads then .bad else
  match h.bank b with
  | .raw =>
    let base := bankBase b * 0x10000
    (fwValid rollback (h.bytes base (min bankBytes (u32At (h.bytes base 16) 8)))).elim .bad .image
  | x => x

/-- The ROM raises the rollback counter to v (R330). -/
def raiseRollback (v : Nat) (s : State) : State :=
  let j := s.rollbackSlots.getLast?.elim 0 fun j => j + 1
  if 128 ≤ j then raiseFault 3 4 s
  else programOtp (257 + 2 * j) (w32 (v / 2 ^ 32)) (programOtp (256 + 2 * j) (w32 v) s)

/-- Both banks verify and the lower of their ROLLBACK values exceeds the counter (R355). -/
def checkRollback (s : State) : State :=
  match s.bankOk false, s.bankOk true with
  | some x, some y =>
    let v := min x.rollback.toNat y.rollback.toNat
    if s.rollback < v then raiseRollback v s else s
  | _, _ => s

/-- The aux copies of R313, the mode of R4, and the Beacon's configuration (R59). A later step 3 of the same aux power-up
keeps them; an SSI card then resumes as at a wake (R60). -/
def auxCopy (s : State) : State :=
  if s.pwr.copied then
    (if s.bcn.mode == 2 then { s with bcn := { s.bcn with inp := { s.bcn.inp with resume := true } } } else s)
  else
    let h : Harbour := { s.hb with auxMode := s.persist 0, auxPref := s.persist 1, auxCfg := s.persist 2, auxCpc := s.persist 3
                                   auxWatch := s.persist 6 }
    let mode : Mode := if s.pwr.compatLow || bit h.auxMode 0 then .compat else .native
    { s with hb := h, pwr := { s.pwr with copied := true, mode := mode }, bcn := s.bcn.load h.auxCfg h.auxCpc }

/-- The stagger delay in ms (R180). -/
def State.staggerMs (s : State) : Nat :=
  let v := s.persist 9
  let pref := fld (s.persist 1) 7 0
  let slot := if 1 ≤ pref ∧ pref ≤ 250 then pref else s.uid % 256
  if bit v 31 then slot * max 1 (fld v 7 0) else 0

/-- A sensor that has thresholds reads at or above its shutdown threshold − 10 °C (R395). -/
def State.tooHot (s : State) : Bool :=
  classSensors.any fun i => ((s.therm.temp[i]?).getD .reset).valid &&
    (sensorClass i).any fun c => decide (s.limitOf c 3 - 160 ≤ s.reading i)

/-- The saved set of the system records is loaded: it is staged and active, at epoch 0 (R332); an access of M that it denies is
captured (R337). -/
def loadRules (s : State) : State :=
  checkM { s with acc := { s.acc with staged := s.acc.saved, active := s.acc.saved, epoch := 0, past := [] } }

/-- The first sensor in its shutdown state. -/
def State.hotSensor (s : State) : Option Nat := classSensors.find? fun i => decide ((s.therm.state[i]?).getD 0 = 3)

/-- The firmware of a bank runs: what step 3 leaves beside the aux copies (Table 6-10). -/
def runFirmware (b : Bool) (s : State) : State :=
  let p : Power := { s.pwr with step := 3, link := !s.pwr.perst, detect := !s.pwr.rearm, recovery := false }
  let s := { s with pwr := p, hb := { s.hb with running := some b }, hu := { s.hu with stagger := s.staggerMs } }
  let s := if s.pwr.wasFlush then raiseFault 0x38 3 { s with pwr := { s.pwr with wasFlush := false } } else s
  let s := match s.therm.shutSrc with
    | some x => recordShutdown x.1 x.2 { s with therm := { s.therm with shutSrc := none } }
    | none => s
  reselect (rebudget s)

/-- ACTIVE_BANK_VERIFIED (R185, R313, R315, R353, R395): the first bank tried that verifies runs; when neither does, the card stops after step
3. The operands say whether each bank reads back as it was programmed. A card that is too hot holds in thermal shutdown: one that
starts with the aux domain, and one whose sensor crossed its shutdown threshold while a start-up or a flush ran (R394). -/
def execActiveBankVerified (readsA readsB : Bool) (s : State) : Host.Outcome State Fault Refusal :=
  done (if !s.pwr.mainOn || s.pwr.step != 2 || s.therm.held then s
  else if !s.pwr.copied && s.tooHot then { s with therm := { s.therm with held := true } }
  else match (if s.pwr.copied then s.hotSensor else none) with
  | some i => { s with therm := { s.therm with held := true, shutSrc := some (i, ((s.therm.temp[i]?).getD .reset).value) } }
  | none =>
    let s := readStore s
    let s := { s with hb := { s.hb with bankA := s.hb.found s.rollback false readsA, bankB := s.hb.found s.rollback true readsB } }
    let first := s.hb.firstB
    let bad := (s.bankOk false).isNone || (s.bankOk true).isNone
    let s := loadRules (auxCopy (checkRollback { s with pwr := { s.pwr with starts := satInc s.pwr.starts } }))
    if (s.bankOk first).isSome || (s.bankOk (!first)).isSome then
      let s := runFirmware (if (s.bankOk first).isSome then first else !first) s
      if bad then raiseFault 3 2 s else s
    else
      raiseFault 3 2 { s with pwr := { s.pwr with recovery := true, step := 3, link := false } })

/-! Steps 4 to 6. -/

/-- STAGGER_DELAY_EXPIRY (R180, R381): the bank charges, unless no capacitor is left. -/
def execStaggerDelayExpiry (s : State) : Host.Outcome State Fault Refusal :=
  done (if !s.firmware || s.pwr.charging || s.pwr.flush != .idle || s.pwr.watch == .asleep then s else
    let s := { s with pwr := { s.pwr with charging := true, step := max 4 s.pwr.step } }
    if s.hu.capOk = 0 then evalWarn (raiseFault 0x38 2 { s with hu := { s.hu with state := 3 } })
    else { s with hu := { s.hu with state := 0, midCharge := decide (s.hu.bankMv ≤ 20000) } })

/-- A block named by an intent record is erased again, and its zero bits decide (R178). -/
def eraseAgain (zeros : Nat × Nat) (k : Nat) (s : State) : State :=
  match placeOf k with
  | none => s
  | some p =>
    if zeros.1 ≤ 8 ∧ zeros.2 ≤ 8 then { s with med := s.med.erased p (s.med.blk p).tlc }
    else
      let s := { s with med := { s.med with intents := s.med.intents.filter fun x => x != k } }
      retire p (mediaEvent 2 (blockDetail p) (raiseFault (chanFrame p.die.val) 4 s))

/-- The sectors that start-up step 5 erases: those without the erase-complete marker, and a standby sector of the persistent store with
entries and a line 0 that fails (R179, R317); a worn one takes no erase (R321). -/
def Harbour.toErase (h : Harbour) : List Nat :=
  let stale := (h.pairs.toList.filter h.staleStandby).map Pair.standby
  (List.range 512).filter fun k => !h.isWorn k && (!bit h.marked k || stale.contains k)

/-- One of them is erased again: verified and marked, or it fails its verify and is worn (R321), and in the persistent store a spare
replaces it (R317). -/
def eraseSector (fails : List Nat) (k : Nat) (s : State) : State :=
  let s := { s with hb := s.hb.beginErase k }
  if !fails.contains k then { s with hb := s.hb.endErase k } else
  let (xs, s) := freeBytes 0x10000 s
  let s := { s with hb := s.hb.store (k * 0x10000) xs }
  match (List.range 16).find? fun p => (s.hb.pairOf (16 * p)).standby = k with
  | some p => wearPair p k s
  | none => wearSector k s

/-- HALF_ERASE_RECOVERY (R178, R179, R317, R321). -/
def execHalfEraseRecovery (found : HalfErases) (s : State) : Host.Outcome State Fault Refusal :=
  done (if !s.firmware || s.pwr.flush != .idle || s.pwr.step < 3 || 4 < s.pwr.step then s else
    let s := s.med.intents.zipIdx.foldl (fun s x => eraseAgain ((found.zeros[x.2]?).getD (0, 0)) x.1 s) s
    let s := s.hb.toErase.foldl (fun s k => eraseSector found.fails k s) s
    evalWarn { s with pwr := { s.pwr with step := 5 } })

/-- A stored record is torn (R174, R176): a slot that it spans is missing, fails its checks (`given`) or is older than the slot
of its header, or the header fails its CRC-32C. Unless the rebuild is full, only what was written since the last checkpoint is
checked. -/
def State.torn (s : State) (given : List (Nat × Nat)) (full : Bool) (nsid : Nat) (r : Stored) : Bool :=
  let l0 := r.off / 4096
  let seqs : List (Option Nat) := (List.range ((r.off + r.len - 1) / 4096 + 1 - l0)).map fun i =>
    (look s.med.content (slotKey nsid (l0 + i))).map fun x => x.wseq
  let late := full || seqs.any fun x => x.all fun w => decide (s.med.ckptSeq ≤ w)
  let first : Nat := ((seqs[0]?).join).getD 0
  late && (given.contains (nsid, r.off) || (seqs.any fun x => x.any fun w => decide (w < first)) || seqs.contains none ||
    !headerOk (s.storedBytes nsid { r with len := 32 }))

/-- Extents of a namespace in which something was written since the last Scan checkpoint (R262). -/
def Media.sinceCkpt (m : Media) (nsid : Nat) : List Nat :=
  ((m.content.filter fun c => keyNs c.1 == nsid && decide (m.ckptSeq ≤ c.2.wseq)).map fun c => keyLba c.1 / 512).dedup

/-- The torn records of one namespace are discarded, and leave the index, which does not cover what was stored since the last
Scan checkpoint (R174, R176, R262). -/
def discardTorn (given : List (Nat × Nat)) (full : Bool) (nsid : Nat) (s : State) : State :=
  match look s.ns nsid with
  | none => s
  | some n =>
    if !n.stream then s else
    let offs := (n.st.recs.filter fun r => s.torn given full nsid r).map fun r => r.off
    let late := s.med.sinceCkpt nsid
    modNs nsid (fun n => { n with st := { n.st with unindexed := (n.st.unindexed ++ late).dedup } }) (discardStored nsid offs.contains s)

/-- Superblocks left open: one-bit ones are closed; TLC ones are erased, and their copies restart from the sources that R170
kept (R177). A clean shutdown treats them the same way (DESIGN CHOICE, notes/assumptions/67.md: R177 speaks of power loss only). -/
def closeOpen (held : Nat → Bool) (now_ : Nat) (m : Media) : Media :=
  (m.supers.filter fun x => !x.2.closed).foldl (fun m x =>
    if x.2.tlc then
      let m := x.2.members.foldl (fun m p => m.uncopy held now_ p) m
      { m with supers := del m.supers x.1, toErase := m.toErase ++ (x.2.members ++ x.2.parity).filter fun p => !(m.blk p).retired }
    else m.closeSuper x.1) m

/-- The rebuild path (R173): 0 clean, 1 unclean, 2 full. -/
def State.rebuildPath (s : State) (ckptOk heldMapOk : Bool) : Nat :=
  if s.med.clean then 0 else if ckptOk && heldMapOk && s.med.flushRec then 1 else 2

/-- REBUILD (R164, R173 to R177). -/
def execRebuild (ckptOk heldMapOk : Bool) (torn : List (Nat × Nat)) (s : State) : Host.Outcome State Fault Refusal :=
  done (if !s.firmware || s.pwr.flush != .idle || s.pwr.step != 5 || s.med.path.isSome then s else
    let path := s.rebuildPath ckptOk heldMapOk
    let s := journal 4 0xFF 2 path { s with med := { (closeOpen (fun k => !s.scanKey k) s.now s.med).startErases with path := some path } }
    let s := match s.pwr.short with
      | some n => journal 4 0xFF 4 n (raiseFault 0x38 1 s)
      | none => s
    if path = 0 then s else
    let s := { s with pwr := { s.pwr with unsafeOff := s.pwr.unsafeOff + 1 } }
    (s.ns.map fun x => x.1).foldl (fun s n => discardTorn torn (path == 2) n s) s)

/-- The one namespace that a card in Compat mode starts with when it has none (R417, R418). -/
def compatStart (s : State) : State :=
  if !s.compat || !s.ns.isEmpty then s else
  let (k, s) := newKey s
  setNsWorld 1 false { s with ns := [(1, { nsze := 3000000000, ncap := 3000000000, fmt := 0, ext := false, prot := 0, stream := false
                                           scan := false, ring := false, encrypt := true, maxRec := 0, attached := true, key := k
                                           st := .reset })] } |> recordKeys

/-- REBUILD_DONE (R32, R53, R173): the new checkpoint is written, the sequence and commit numbers are loaded, and the next
qualifying crossing commits. -/
def execRebuildDone (s : State) : Host.Outcome State Fault Refusal :=
  done (match s.med.path with
  | none => s
  | some path =>
    if !s.firmware || s.pwr.flush != .idle || s.pwr.step != 5 then s else
    let m := if path = 0 then s.med else { s.med.checkpoint s.scanKey s.now with flushRec := true }
    let num := (s.med.marks[0]?).elim 0 fun x => x.num
    let com : Commits := { s.bcn.com with num := w64 num, running := true, restart := true }
    let b : Bcn := { s.bcn with com := com, seq := s.bcn.seqLimit, seqLimit := s.bcn.seqLimit + 2 ^ 26 }
    runLate (compatStart { s with med := { m with path := none }, bcn := b, pwr := { s.pwr with step := 6, short := none } }))

/-! The charge (R151, R157, R398). -/

/-- BANK_REACHES_VB (R157): Held writes leave write-through. -/
def execBankReachesVb (s : State) : Host.Outcome State Fault Refusal :=
  done (if s.firmware && s.pwr.charging && s.hu.state == 0 && s.pwr.flush == .idle && s.pwr.watch != .asleep then
    { s with hu := { s.hu with bankMv := max s.hu.bankMv s.vb, reached := true } } else s)

/-- BANK_CHARGED (R151). -/
def execBankCharged (s : State) : Host.Outcome State Fault Refusal :=
  done (if s.firmware && s.pwr.charging && s.hu.state == 0 && s.pwr.flush == .idle && s.pwr.watch != .asleep then
    { s with hu := { s.hu with state := 1, bankMv := s.hu.vchg, midCharge := false
                               reached := s.hu.reached || decide (s.vb ≤ s.hu.vchg) } } else s)

end Sys2Proof.Machine
end

