-- ==== Sys2Proof/Machine/PowerLoss.lean ====
section
/-! DEFINITION. Power loss, the flush of Table 6-4, LOSS_DET and the hold-up bank (06_power_loss_and_rebuild.md, R397 to
R401). -/

namespace Sys2Proof.Machine

/-! The flush. -/

/-- Of the journal entries younger than 100 ms, those not yet programmed are lost with the power: a free number of the newest
(R365). -/
def loseJournal (s : State) : State :=
  let (k, s) := s.take
  let young := (s.ev.journal.takeWhile fun e => decide (s.now < e.ns + 100000000)).length
  { s with ev := { s.ev with journal := s.ev.journal.drop (Config.lostEntries k % (young + 1)) } }

/-- Steps 3 and 4 of Table 6-4: Stalls, Lots and queries are gated off, and of the pending marks
those stay whose records were all dropped or durable at detection (R162). -/
def gateOff (s : State) : State :=
  let keep := s.med.pendMarks.filter fun m => !s.pendingBelow m.bound
  let s := abandonJob s
  { s with med := { s.med with pendMarks := keep }, stalls := Vector.replicate 64 .reset, lots := [], queries := [], waitq := []
           opens := [], ns := s.ns.map fun x => (x.1, x.2.lost)
           hu := { s.hu with measuring := false, flushing := false }, keeper := { s.keeper with nvme := s.keeper.nvme.closed } }

/-- Steps 5 to 7: Held data into the reserve, the map-journal tail, the commit marks kept, and the flush-complete record. Before
start-up step 6 nothing is dirty, and the records of the previous shutdown stay in force (R173, R184). -/
def flushAll (s : State) : State :=
  let s := s.med.pendMarks.foldl (fun s m => programMark false m s) (flushHeld 4 s)
  { s with med := { s.med with pendMarks := [], flushRec := s.med.flushRec || decide (6 ≤ s.pwr.step) } }

/-- POWER_LOSS_DETECT (R153, R161, R162, R163, R184, R378, R440): no PCIe transaction follows the detection. Nothing is declared in
Watch, and before step 3 has ended or with detection not armed the card goes off with nothing dirty. A rail that came back
during a flush and falls again leaves the flush running to its end. -/
def execPowerLossDetect (s : State) : Host.Outcome State Fault Refusal :=
  done (if !s.pwr.rail12 || s.pwr.watch == .asleep then s
  else
    let s := { s with pwr := { s.pwr with rail12 := false }, bus := { s.bus with token := false } }
    if !s.pwr.mainOn then s
    else if s.pwr.flush == .railBack then { s with pwr := { s.pwr with flush := .running } }
    else if s.pwr.step < 3 || s.pwr.recovery || !s.pwr.detect then stopMain (loseJournal s)
    else if s.pwr.flush != .idle then s
    else
      let p : Power := { s.pwr with flush := .running, fatal := none, detect := false, early := false, watch := .awake, link := false, rearm := true }
      gateOff { s with pwr := p, nv := { s.nv with sqs := [], cqs := [] }, hu := { s.hu with state := 2 }, therm := { s.therm with shutting := false } })

/-- The main domain goes off after a flush, or starts again from step 3 when the rail is back, as an unclean start-up (R163);
before start-up step 6 the record of the previous shutdown stays in force (R173). -/
def afterFlush (back : Bool) (s : State) : State :=
  let s := { loseJournal s with pwr := { s.pwr with wasFlush := true } }
  if back then startMain { s with med := { s.med with clean := s.med.clean && decide (s.pwr.step < 6) } } else mainOff s

/-- FLUSH_COMPLETE_RECORD (Table 6-4 steps 6 to 8, R163): the bank is discharged to below 2 V, unless the rail is back. -/
def execFlushCompleteRecord (s : State) : Host.Outcome State Fault Refusal :=
  done (if s.pwr.flush != .running && s.pwr.flush != .railBack then s else
    let back := s.pwr.flush == .railBack
    let s := afterFlush back (flushAll s)
    let (k, s) := s.take
    let mv := if back then 8000 + Config.freeVoltage k % max 1 (s.hu.bankMv + 1 - 8000) else Config.freeVoltage k % 2000
    { s with hu := { s.hu with bankMv := mv } })

/-- BANK_CUTOFF (R164): only the oldest `programmed` Held slots are in NAND, and no flush-complete record exists; the journal is
lost, so what it describes shows its old content (R171, R175). Before start-up step 6 nothing was dirty. A part of a MiB counts as
a whole one (DESIGN CHOICE, notes/assumptions/25.md: R164 names no rounding). -/
def execBankCutoff (programmed : Nat) (s : State) : Host.Outcome State Fault Refusal :=
  done (if s.pwr.flush != .running && s.pwr.flush != .railBack then s else
    let back := s.pwr.flush == .railBack
    let s := dropSpoiled (s.med.heldOrder.take programmed) s
    let ks := s.med.heldOrder
    let n := min programmed ks.length
    let early := decide (s.pwr.step < 6)
    let m := s.med.progs.foldl (fun m p => m.endProg p [] s.now) s.med
    let m := { m.programHeld 4 (ks.take n) with flushRec := s.med.flushRec && early, pendMarks := [] }
    let s := setMedia (ceilDiv n 4) (s.heldRefresh m) s
    let s := if early then s else { s with pwr := { s.pwr with short := some (ceilDiv (ks.length - n) 256) } }
    let s := afterFlush back s
    let (k, s) := s.take
    { s with hu := { s.hu with bankMv := 7800 + Config.freeVoltage k % 401 } })

/-- RAIL_RETURN_DURING_FLUSH (R163): the flush still runs to its end. -/
def execRailReturnDuringFlush (s : State) : Host.Outcome State Fault Refusal :=
  done (if s.pwr.flush == .running then { s with pwr := { s.pwr with flush := .railBack, rail12 := true } } else s)

/-- DETECT_REARM (R153). -/
def execDetectRearm (s : State) : Host.Outcome State Fault Refusal :=
  done (if s.pwr.rail12 && s.firmware && s.pwr.flush == .idle && s.pwr.watch != .asleep then
    { s with pwr := { s.pwr with detect := true, rearm := false } } else s)

/-! LOSS_DET (R155). -/

/-- LOSS_DET_ARM: LOSS_DET reads low. -/
def execLossDetArm (s : State) : Host.Outcome State Fault Refusal :=
  done (if s.mainAwake then { s with pwr := { s.pwr with lossArmed := true, lossHigh := false } } else s)

/-- LOSS_DET: the event is raised, and the early flush starts. -/
def execLossDet (s : State) : Host.Outcome State Fault Refusal :=
  done (if !s.mainAwake || !s.pwr.lossArmed || s.pwr.lossHigh then s else
    let s := raisePulse 258 0 0 { s with pwr := { s.pwr with lossHigh := true } }
    if !s.operating || s.med.held.isEmpty then s else
    let s := { s with pwr := { s.pwr with early := true } }
    if s.windowClosed then s else programHeld s.med.unprogrammed s)

/-- EARLY_FLUSH_END: with Held data still dirty, LOSS_DET has read low for 500 ms. -/
def execEarlyFlushEnd (s : State) : Host.Outcome State Fault Refusal :=
  done (if s.pwr.early then
    { s with pwr := { s.pwr with early := false, lossHigh := s.pwr.lossHigh && s.med.held.isEmpty } } else s)

/-! The bank (R158, R397 to R401). -/

/-- The measured usable energy in µJ, of C in nF, ESR in µΩ and V_CHG in mV (R400). -/
def energyOf (cNf esr vchg : Nat) : Int :=
  fdivNat ((cNf : Int) * ((vchg * vchg : Nat) - 64000000) * 5120 - (esr : Int) * 549 * 2000000000) 10240000000000

/-- A measurement ends with C, ESR and V_CHG (R398, R400). -/
def endMeasure (cNf esr vchg : Nat) (s : State) : State :=
  newEnergy (energyOf cNf esr vchg) { s with hu := { s.hu with cNf := cNf, esr := esr, vchg := vchg, lowered := none, measuring := false
                                                               measHours := s.pwr.hours } }

/-- CAP_FAIL (R151, R158, R401): one capacitor is isolated; E loses its share, a running measurement is discarded and a new one
is due. -/
def execCapFail (n : Fin 6) (s : State) : Host.Outcome State Fault Refusal :=
  done (if !s.mainAwake || !bit s.hu.capOk n.val then s else
    let m := popcount 6 s.hu.capOk.toNat
    let s := raiseFault 0x38 0 { s with hu := { s.hu with capOk := putBit s.hu.capOk n.val false, measuring := false, due := true
                                                          lowered := none } }
    let s := newEnergy (s.hu.energy * (m - 1 : Nat) / (m : Int)) s
    if m = 1 ∧ s.pwr.charging then evalWarn (raiseFault 0x38 2 { s with hu := { s.hu with state := 3 } }) else s)

/-- CHARGE_MEASUREMENT (R398): the charge current, the time from 20 V to 30 V and the step at its start; a charge that started
above 20 V gives none. -/
def execChargeMeasurement (startMv iMa dtUs stepMv : Nat) (s : State) : Host.Outcome State Fault Refusal :=
  done (if !s.firmware || !s.pwr.charging || s.hu.state != 0 || !s.hu.midCharge || 20000 < startMv || iMa = 0 || s.pwr.flush != .idle ||
      s.pwr.watch == .asleep then s
  else
    endMeasure (iMa * dtUs / 10) (stepMv * 1000000 / iMa) s.hu.vchg
      { s with hu := { s.hu with bankMv := max s.hu.bankMv 30000, midCharge := false } })

/-- DISCHARGE_MEASUREMENT_DUE (R397, R401): in Watch it stays due. -/
def execDischargeMeasurementDue (s : State) : Host.Outcome State Fault Refusal :=
  done (if !s.firmware then s else
    let s := { s with hu := { s.hu with due := true } }
    if s.pwr.watch == .asleep then s else startMeasure s)

/-- HOLDUP_MEASURE (R399). -/
def execHoldupMeasure (a : Actor) (v : W32) (s : State) : Host.Outcome State Fault Refusal := done (access s.now a 0x0901 v s)

/-- MEASUREMENT_COMPLETE (R399, R400): the time of the fall ΔV under 0.2 A, ESR, and V_CHG. -/
def execMeasurementComplete (tUs dvMv esrUohm vchgMv : Nat) (s : State) : Host.Outcome State Fault Refusal :=
  done (if !s.firmware || !s.hu.measuring || dvMv = 0 then s else
    endMeasure (200000 * tUs / dvMv) esrUohm vchgMv { s with hu := { s.hu with bankMv := vchgMv } })

/-- BUDGET_FLUSH_DONE (R159, R401): what is dirty above the budget is in NAND, the Held writes
that waited for that complete (R68), and a measurement that waited for it starts. -/
def execBudgetFlushDone (s : State) : Host.Outcome State Fault Refusal :=
  done (if !s.firmware || !s.hu.flushing || s.pwr.flush != .idle then s else
    let n := s.med.held.length - s.budgetSlots
    let s := dropSpoiled (s.med.heldOrder.take n) s
    let n := s.med.held.length - s.budgetSlots
    let ks := s.med.heldOrder.take n
    let s := setMedia (ceilDiv ks.length 4) (s.heldRefresh (s.med.programHeld 0 ks)) { s with hu := { s.hu with flushing := false } }
    startLowered (settleWrites s))

end Sys2Proof.Machine
end

