-- ==== Sys2Proof/Machine/ThermalOps.lean ====
section
/-! DEFINITION. Temperatures, throttling, the write window and thermal shutdown (R386 to R396), and the ageing measurements that
run by time (R405, R406, R409). -/

namespace Sys2Proof.Machine

/-! Readings. -/

/-- A sensor reads a value in 1/16 °C: the register takes it, and a stuck or out-of-range reading sets SENSOR (R386). -/
def noteReading (i : Nat) (r : Reading) (s : State) : State :=
  let v := r.value
  let bad := r.stuck || decide (v < -960) || decide (2400 < v)
  let s := { s with therm := { s.therm with temp := vmod s.therm.temp i fun m => m.publish v, bad := vput s.therm.bad i bad } }
  if bad then raiseFault 2 4 s else s

/-- The thermal state of a reading: a level is entered at its threshold and left below threshold − 5 °C (R387). -/
def thermLevel (r : Int) (lim : Nat → Int) (st : Nat) : Nat :=
  ([1, 2, 3].filter fun l => decide (lim l ≤ r) || (decide (l ≤ st) && decide (lim l - 80 ≤ r))).foldl max 0

/-- A SMART/Health asynchronous event for the temperature, where Feature 0Bh enables it; in Watch it waits for the exit. -/
def tempEvent (s : State) : State :=
  if !bit s.nv.feat.async 1 || !s.running then s
  else if s.pwr.watch == .asleep then { s with nv := { s.nv with events := s.nv.events ++ [(1, 1, 2)] } }
  else asyncEvent 1 1 2 s

/-- A class enters a level (R387). -/
def enterLevel (cls level : Nat) (s : State) : State :=
  let s := raiseFault 2 (level - 1) { s with therm := { s.therm with sticky := putBit s.therm.sticky (3 * cls + level - 1) true } }
  tempEvent s

/-- The state of a sensor follows its reading; the answer is the level entered, 0 for none. -/
def followState (i : Nat) (s : State) : Nat × State :=
  match sensorClass i with
  | none => (0, s)
  | some c =>
    let old := (s.therm.state[i]?).getD 0
    let new := thermLevel (s.reading i) (s.limitOf c) old
    let s := { s with therm := { s.therm with state := vput s.therm.state i new } }
    let s := ([1, 2, 3].filter fun l => decide (old < l ∧ l ≤ new)).foldl (fun s l => enterLevel c l s) s
    (if old < new then new else 0, s)

/-- The write window (R391). -/
def followWindow (s : State) : State :=
  let rs := ((List.range 8).map fun k => k + 1).filterMap fun i =>
    if ((s.therm.temp[i]?).getD .reset).valid then some (s.reading i) else none
  let open_ := rs.all fun r => decide (-368 ≤ r) && decide (r ≤ 1376)
  let t := s.therm
  { s with therm := { t with winHot := !open_ && (t.winHot || rs.any fun r => decide (1408 < r))
                             winCold := !open_ && (t.winCold || rs.any fun r => decide (r < -400)) } }

/-- Temperature of a TMPSEL of Feature 04h: 0 the hottest NAND package, 1 controller, 2 DRAM, 3 hold-up bank. -/
def State.selTemp (s : State) (k : Nat) : Int :=
  let v : Nat → Int := fun i => ((s.therm.temp[i]?).getD .reset).value
  if k = 0 then [2, 3, 4, 5, 6, 7, 8].foldl (fun m i => max m (v i)) (v 1) else if k = 1 then v 0 else if k = 2 then v 9 else v 10

/-- Event temperatures that a reading crosses (R387). -/
def crossEvents (old s : State) : State :=
  let at_ : Option Int → Option Int := fun k => k.map fun x => (x - 273) * 16
  let hit : Nat → Bool := fun k =>
    ((at_ ((s.therm.evtOver[k]?).join)).any fun x => decide (old.selTemp k < x) && decide (x ≤ s.selTemp k)) ||
    ((at_ ((s.therm.evtUnder[k]?).join)).any fun x => decide (x < old.selTemp k) && decide (s.selTemp k ≤ x))
  if [0, 1, 2, 3].any hit then tempEvent s else s

/-! Throttling (R389, R390). -/

/-- The enforcement level changes; enforcement clears DIRECT (R213). -/
def setThrottle (n : Nat) (s : State) : State :=
  let s := if s.therm.cap < n then clearDirect s else s
  reselect { s with therm := { s.therm with cap := n } }

/-- Since when every sensor has been below its throttle threshold − hysteresis, after a reading (R390). -/
def State.cooling (s : State) : Option Nat := if s.allBelow 2 5 then some (s.therm.coolSince.getD s.now) else none

/-- The throttle request and the first level of enforcement, after a reading. -/
def followThrottle (entered : Nat) (s : State) : State :=
  let t := s.therm
  let cool := s.allBelow 2 5
  let s := { s with therm := { t with request := t.request || decide (2 ≤ entered), coolSince := s.cooling } }
  if !s.therm.request then s
  else if cool && s.therm.cap == 0 then { s with therm := { s.therm with request := false, graced := false } }
  else if s.therm.graced && s.therm.cap == 0 && s.anyAt 2 then setThrottle 1 s
  else s

/-! Thermal shutdown (R394, R395). -/

/-- The main domain goes off in thermal shutdown; SHUTDOWN_RECORD is written where the firmware runs, and from Watch when the main
domain next runs (R396). -/
def holdShutdown (s : State) : State :=
  let s := match s.therm.shutSrc with
    | some x => if s.firmware && s.mainAwake then recordShutdown x.1 x.2 { s with therm := { s.therm with shutSrc := none } } else s
    | none => s
  stopMain { s with therm := { s.therm with held := true, shutting := false } }

/-- Steps 3 to 7 of Table 14-14, once the begun commands have finished. -/
def endThermal (s : State) : State :=
  if !s.therm.shutting || s.nv.inflight.any Cmd.started then s else
  holdShutdown (cleanStop (flushHeld 0 s))

/-- An Index Lookup that has begun ends with MORE = 1 and RESUME (R394). -/
def cutLookups (s : State) : State :=
  (s.nv.inflight.filter fun c => c.qid != 0 && c.opc == 0x8A && c.begun).foldl (fun s c => complete c.h 0 0 0 0 (cutLookup c) s) s

/-- A sensor crosses its shutdown threshold outside Watch (R394). Before start-up step 3 ends the check of R395 stands for it. -/
def beginShutdown (i : Nat) (s : State) : State :=
  if !s.mainAwake || s.therm.held || s.therm.shutting || s.pwr.step < 3 || s.pwr.fatal.isSome || s.pwr.flush != .idle then s else
  let v := ((s.therm.temp[i]?).getD .reset).value
  let s := { s with therm := { s.therm with shutSrc := some (i, v) } }
  if s.pwr.step < 6 || s.pwr.recovery then holdShutdown s else
  let s := { s with therm := { s.therm with shutting := true }, pwr := { s.pwr with watch := .awake } }
  endThermal (cutLookups (s.queries.foldl (fun s q => endSoon 1 q.id s) s))

/-- SENSOR_UPDATE (R386, R387, R389, R391, R394). -/
def execSensorUpdate (sensor : Sensor) (value : Int) (stuck : Bool) (s : State) : Host.Outcome State Fault Refusal :=
  done (if !s.mainAwake || s.therm.held then s else
    let i := sensorIndex sensor
    let (entered, t) := followState i (noteReading i ⟨value, stuck⟩ s)
    let t := followThrottle entered (crossEvents s (followWindow t))
    if entered = 3 then beginShutdown i t else t)

/-- The grace has run: with a sensor at its throttle threshold enforcement begins (R389). -/
def enforceFirst (s : State) : State :=
  if s.therm.graced && s.therm.cap == 0 && s.anyAt 2 then setThrottle 1 s else s

/-- THROTTLE_GRACE_EXPIRY (R389): the grace runs in Watch too, and enforcement waits there for the exit. -/
def execThrottleGraceExpiry (s : State) : Host.Outcome State Fault Refusal :=
  done (if !s.pwr.mainOn || !s.therm.request || s.therm.graced then s else
    let s := { s with therm := { s.therm with graced := true } }
    if s.mainAwake then enforceFirst s else s)

/-- ENFORCEMENT_SECOND (R390): an instant 1 s after the last of enforcement, at which a sensor at its throttle threshold takes the
level down; or the end of a full second in which every sensor stayed cool, counted from when they became cool or from the last
step up, which takes it up (Table 14-13). -/
def execEnforcementSecond (s : State) : Host.Outcome State Fault Refusal :=
  done (if !s.mainAwake || s.therm.cap = 0 then s
  else if s.anyAt 2 then setThrottle (min 3 (s.therm.cap + 1)) { s with therm := { s.therm with coolSince := none } }
  else match s.therm.coolSince with
    | none => s
    | some t =>
      if s.now < t + 1000000000 || !s.allBelow 2 5 then s else
      let next := s.therm.cap - 1
      let s := setThrottle next { s with therm := { s.therm with coolSince := some (t + 1000000000) } }
      if next = 0 then { s with therm := { s.therm with request := false, graced := false } } else s)

/-- The readings of a sample: sensor index and value. -/
def sampleOf (ctrl : Reading) (nand : Vector Reading 8) (dram holdup : Reading) : List (Nat × Reading) :=
  (0, ctrl) :: (nand.toList.zipIdx.map fun x => (x.2 + 1, x.1)) ++ [(9, dram), (10, holdup)]

/-- A sample of every sensor: registers and states; the answer is the first sensor that entered shutdown. -/
def takeSample (xs : List (Nat × Reading)) (s : State) : Option Nat × State :=
  let s := xs.foldl (fun s x => noteReading x.1 x.2 s) s
  let r : Option Nat × State := xs.foldl (fun acc x =>
    let (e, s) := followState x.1 acc.2
    (if e = 3 ∧ acc.1.isNone then some x.1 else acc.1, s)) (none, s)
  (r.1, followWindow r.2)

/-- SHUTDOWN_SAMPLE (R394, R395): the steps of the shutdown end, or the aux domain samples; a card held at start-up step 3 goes
on once it has cooled. -/
def execShutdownSample (ctrl : Reading) (nand : Vector Reading 8) (dram holdup : Reading) (s : State) :
    Host.Outcome State Fault Refusal :=
  done (if s.therm.shutting then endThermal s
  else if !s.therm.held then s
  else
    let s := (takeSample (sampleOf ctrl nand dram holdup) s).2
    if s.pwr.mainOn && s.cooled then { s with therm := { s.therm with held := false } } else s)

/-! Ageing (R405, R406, R409). -/

/-- The guardband of a delay increase, in mV (R405). -/
def guardOf (delta : Nat) : Nat := min 30 (2 * ceilDiv delta 4)

/-- SILICON_DELAY_MEASURE (R397, R405, R406): at start-up, then every powered hour. -/
def execSiliconDelayMeasure (delta : Nat) (s : State) : Host.Outcome State Fault Refusal :=
  done (if !s.firmware || s.pwr.watch == .asleep then s else
    let hours := if s.health.delay.valid then s.pwr.hours + 1 else s.pwr.hours
    let o : OpPoint := { s.pwr.op with guard := s.pwr.op.guard.follow s.health.guardMax }
    let s := { s with med := if s.health.delay.valid then s.med.hourOlder else s.med
                      pwr := { s.pwr with hours := hours, op := o }
                      health := { s.health with delta := delta, delay := s.health.delay.publish (min delta 0xFFFF : Nat) } }
    let g := guardOf delta
    evalWarn (reselect (if s.health.guardMax < g then raiseGuard g s else s)))

/-- LIFE_RECOMPUTE (R409, R412): the life terms, and HOST_WRITTEN in units of 10^12 bytes. -/
def execLifeRecompute (s : State) : Host.Outcome State Fault Refusal :=
  done (if !s.firmware || s.pwr.watch == .asleep then s else
    lifeRecalc { s with health := { s.health with hostTb := s.health.hostTb.publish (s.health.hostBytes / 1000000000000 : Nat) } })

end Sys2Proof.Machine
end

