-- ==== Sys2Proof/Machine/WatchOps.lean ====
section
/-! DEFINITION. Entry to Watch, the sampler, wakes and exit (R377 to R385, R396). -/

namespace Sys2Proof.Machine

/-- The conditions of entry (R113, R377): no fetched I/O command and no issued Lot is left, and for Set Features the I/O
submission queues are empty. Held data must be flushed, which waits while the write window is closed (R392). Core-served operations
end first (R285). -/
def State.watchReady (s : State) : Bool :=
  (s.pwr.watch == .requested) && s.operating && s.hb.busy.isNone && s.bus.held.isNone && !s.therm.shutting &&
    (s.nv.inflight.all fun c => c.qid == 0) && (s.lots.all fun l => !l.onStall) &&
    (s.med.held.isEmpty || !s.windowClosed) && (!s.pwr.hostPs4 || s.nv.sqs.all fun q => q.1 == 0 || q.2.waiting.isEmpty)

/-- WATCH_ENTRY (R172, R213, R377, Table 14-2): Held data, the checkpoint and the clean-shutdown record are programmed, a Set
Features that waited completes, a boost token is lost (R300), and the card enters Watch; the state in force is the one that it
returns to (R380). -/
def execWatchEntry (s : State) : Host.Outcome State Fault Refusal :=
  done (if !s.watchReady then s else
    let s := { s with pwr := { s.pwr with before := s.opState } }
    let s := settle (cleanStop (setToken false (clearDirect (endWatchWaits (flushHeld 0 s)))))
    { s with pwr := { s.pwr with watch := .asleep, detect := false, hostPs4 := false, early := false }
             hu := { s.hu with measuring := false, due := s.hu.due || s.hu.measuring, lowered := none }
             therm := { s.therm with samp := { s.therm.samp with pos := s.bcn.pos } } })

/-- WATCH_EXIT (R60, R172, R380, R381, Table 14-5): a wake is recorded and the main rail is there. A link that was lost in Watch trains
again where PERST# is released (R109); the recharge of the bank is not measured (R398), and enforcement that waited begins (R389). -/
def execWatchExit (s : State) : Host.Outcome State Fault Refusal :=
  done (if s.pwr.watch != .asleep || !s.pwr.wakeDue || !s.pwr.rail12 then s else
    let p : Power := { s.pwr with watch := .awake, wakeDue := false, cmd := s.pwr.before, busCmd := s.pwr.before, detect := true
                                  rearm := false }
    let i : BcnIn := { s.bcn.inp with resume := s.bcn.inp.resume || s.bcn.mode == 2 }
    let c : Commits := { s.bcn.com with restart := true }
    let s := { s with pwr := p, bcn := { s.bcn with inp := i, com := c }, med := { s.med with clean := false }
                      hu := { s.hu with state := if s.hu.capOk = 0 then 3 else 0, midCharge := false } }
    let s := pumpEvents 16 (raisePulse 268 0 0 s)
    let s := if s.pwr.perst || !s.pwr.link then
        let s := linkLost s
        { s with pwr := { s.pwr with link := !s.pwr.perst } }
      else runLate s
    runFree (reselect (enforceFirst s)))

/-- A limit of the sampler is exceeded (Table 14-7). -/
def State.limitHit (s : State) (k : Nat) : Bool :=
  let v : Nat → Int := fun i => ((s.therm.temp[i]?).getD .reset).value
  let w := (s.therm.samp.lim[k]?).getD 0
  let nand := [1, 2, 3, 4, 5, 6, 7, 8]
  if k = 0 then decide (w.toInt ≤ v 0)
  else if k = 1 then nand.any fun i => decide (w.toInt ≤ v i)
  else if k = 2 then nand.any fun i => decide (v i < w.toInt)
  else if k = 3 then decide (w.toInt ≤ v 9)
  else if k = 4 then decide (w.toInt ≤ v 10)
  else if k = 5 then decide (s.hu.bankMv < w.toNat)
  else if k = 6 then w != 0 && decide (w.toNat ≤ (s.bcn.pos - s.therm.samp.pos).natAbs)
  else bit w 0 && s.native && s.bcn.inFault

/-- The enabled limits that a sample exceeds, as HIT bits. -/
def State.hits (s : State) : Nat := ofBits ((List.range 8).map fun k => bit s.therm.samp.en k && s.limitHit k)

/-- The throttle request follows a sample in Watch: in force from the sensor that enters throttle until every sensor has cooled;
enforcement waits for the exit (R389). -/
def watchRequest (old s : State) : State :=
  let into := classSensors.any fun i => decide ((old.therm.state[i]?).getD 0 < 2 ∧ 2 ≤ (s.therm.state[i]?).getD 0)
  let cool := s.allBelow 2 5
  let t := s.therm
  let keep := (t.request || into) && !(cool && t.cap == 0)
  { s with therm := { t with request := keep, graced := t.graced && keep, coolSince := s.cooling } }

/-- WATCH_SAMPLE (R383, R384, R389, R396). -/
def execWatchSample (ctrl : Reading) (nand : Vector Reading 8) (dram holdup : Reading) (bankMv : Nat) (s : State) :
    Host.Outcome State Fault Refusal :=
  done (if s.pwr.watch != .asleep then s else
    let s := { s with hu := { s.hu with bankMv := bankMv, mVolt := s.hu.mVolt.publish bankMv } }
    let (shut, t) := takeSample (sampleOf ctrl nand dram holdup) s
    let s := crossEvents s (watchRequest s t)
    let h := s.hits
    let p := s.therm.samp
    let s := { s with therm := { s.therm with samp := { p with hit := p.hit ||| b8 h, pos := s.bcn.pos } } }
    let s := if h = 0 then s else wake 3 (raiseFault 2 3 s)
    match shut with
    | some i => holdShutdown { s with therm := { s.therm with shutSrc := some (i, ((s.therm.temp[i]?).getD .reset).value) } }
    | none => s)

/-- WATCH_TIMER_EXPIRY (R380). -/
def execWatchTimerExpiry (s : State) : Host.Outcome State Fault Refusal :=
  done (if s.pwr.watch == .asleep && s.pwr.watchTimer != 0 then wake 4 s else s)

/-- MAIN_RAIL_REMOVAL_IN_WATCH (R378, R381): what Watch retains stays; the link is down. -/
def execMainRailRemovalInWatch (s : State) : Host.Outcome State Fault Refusal :=
  done (if s.pwr.watch == .asleep then { s with pwr := { s.pwr with rail12 := false, charging := false, link := false } } else s)

end Sys2Proof.Machine
end

