-- ==== Sys2Proof/Machine/Faults.lean ====
section
/-! DEFINITION. Faults that the card detects in itself, and the fatal path (R370 to R372). -/

namespace Sys2Proof.Machine

/-- The fatal path starts at a bit of a frame: the record, CSTS.CFS, and steps 3 and 4 of Table 6-4 (R372). -/
def startFatal (f b : Nat) (s : State) : State :=
  if !s.running || !s.mainAwake || s.pwr.fatal.isSome || s.pwr.flush != .idle then s else
  let s := journal 4 0xFF 5 (Config.fatalDetail f b) s
  gateOff { s with pwr := { s.pwr with fatal := some (32 * f + b), early := false, watch := .awake }, nv := { s.nv with cfs := true }
                   therm := { s.therm with shutting := false } }

/-- A fault of the cores or of the main clock: its bit sets, and the fatal path runs. -/
def coreFault (f b : Nat) (s : State) : State := startFatal f b (raiseFault f b s)

/-- The frame of a lockstep pair. -/
def pairFrame : CorePair → Nat
  | .translation _ => 0x20
  | .management => 0x21

/-- A pair of the flash translation cores that has a fault is excluded, and the others carry the flush (R372). -/
def excludePair (p : CorePair) (s : State) : State :=
  match p with
  | .translation k => { s with pwr := { s.pwr with pairsOut := putBit s.pwr.pairsOut k.val true } }
  | .management => s

/-- A fault of a lockstep pair. -/
def pairFault (p : CorePair) (b : Nat) (s : State) : State :=
  if s.running && s.mainAwake then coreFault (pairFrame p) b (excludePair p s) else s

/-- WATCHDOG_EXPIRY (R370, R373): no watchdog runs in the recovery state, and the one of the management cores pauses while the
ROM holds them. -/
def execWatchdogExpiry (p : CorePair) (s : State) : Host.Outcome State Fault Refusal :=
  done (if p = .management ∧ s.hb.busy.isSome then s else pairFault p 3 s)

/-- The ROM sequencer's operation is abandoned (R322, R370). Whoever waits for it is told that it did not run. -/
def abandonOp (s : State) : State :=
  match s.hb.busy with
  | none => s
  | some (j, _) =>
    let s := abandonJob s
    let s := match j with
      | .mailbox _ => (hbResult statNotReady s).2
      | .fwCommit h _ => fail h 0 0x06 s
      | .hostMailbox h => fail h 0 0x06 s
      | .commitRules h => fail h 0 0x06 s
      | _ => s
    serveHeld (endRegister statNotReady (endHeld statNotReady s))

/-- The card holds data of a command: it is on its way, and none of it has been stored. -/
def State.holdsData (s : State) (c : Cmd) : Bool :=
  c.moves && (match c.phase with
  | .ready => s.carried c
  | .room => true
  | .landing => true
  | .programs _ => s.stillWaits c
  | .query => (s.query c.h).any fun q => q.direct
  | _ => false)

/-- A command whose data is lost completes with Internal Error and no effect (Table 13-9). -/
def internalError (c : Cmd) (s : State) : State :=
  if c.opc = 0x81 ∧ c.qid ≠ 0 then failAppend c.h 0 0x06 false s
  else fail c.h 0 0x06 (dropQuery c.h (forget c.h { s with med := { s.med with queue := s.med.queue.filter fun x => !c.owns x } }))

/-- What an uncorrectable word in a memory of the main domain means (Table 13-9): the word is never used. -/
def eccResponse (f : Nat) (hit : Hit) (s : State) : State :=
  match hit with
  | .unused => s
  | .command h => (s.cmd h).elim s fun c => if s.holdsData c then internalError c s else s
  | .held nsid lba => loseHeld (slotKey nsid lba) s
  | .lot n => if (s.stall n.val).state == .running then stallFault n.val 3 s else s
  | .core => startFatal f 1 s

/-- What a CRC mismatch means (Table 13-9): a read is retried once from media, and when it fails again it completes with Unrecovered
Read Error, without marking the LBA; a write completes with Internal Error; Held data is found bad when it is programmed. -/
def crcResponse (hit : Hit) (again : Bool) (s : State) : State :=
  match hit with
  | .command h =>
    (s.cmd h).elim s fun c =>
      if !s.holdsData c then s
      else if c.qid ≠ 0 ∧ lockShared c.opc then (if again then fail h 2 0x81 s else s)
      else internalError c s
  | .held nsid lba => { s with med := s.med.spoilHeld (slotKey nsid lba) }
  | _ => s

/-- The bit of a frame that SECDED or a CRC check sets (Table 13-4). -/
def eccBit (f b : Nat) : Option Nat :=
  if b = 2 ∧ f = 0x22 then none
  else if f = 0x08 ∨ f = 0x09 ∨ (0x10 ≤ f ∧ f ≤ 0x1F) ∨ (0x20 ≤ f ∧ f ≤ 0x25) ∨ (0x28 ≤ f ∧ f ≤ 0x36) then
    (if b < 2 ∨ f = 0x08 ∨ f = 0x24 ∨ (0x10 ≤ f ∧ f ≤ 0x1F) then some b else none)
  else none

/-- A memory or data-path fault of a frame: its bit sets, and the card answers it. A frame without such a bit has none. -/
def memoryFault (f b : Nat) (k : State → State) (s : State) : State :=
  match eccBit f b with
  | some b => if s.mainAwake then k (raiseFault f b s) else s
  | none => s

/-- LOCKSTEP_MISMATCH (Table 13-9): a fault that a duplicate, SECDED or a CRC check finds. Cores run the fatal path, the ROM sequencer
abandons its operation, the checker denies the access; a unit's call ends by a row of its own. -/
def execLockstepMismatch (c : Comparator) (s : State) : Host.Outcome State Fault Refusal :=
  done (match c with
  | .cores p => pairFault p 2 s
  | .romSequencer => if s.mainAwake then abandonOp (raiseFault 3 3 s) else s
  | .checker => if s.mainAwake then raiseFault 4 2 { s with acc := { s.acc with mismatch := true } } else s
  | .beaconAux => raiseFault 0 8 s
  | .samplerAux => raiseFault 2 7 s
  | .unit f => if s.mainAwake && decide (0x28 ≤ f.val ∧ f.val ≤ 0x36) then raiseFault f.val 2 s else s
  | .eccCorr f => memoryFault f.val 0 id s
  | .eccUncorr f hit => memoryFault f.val 1 (eccResponse f.val hit) s
  | .e2eCrc f hit again => memoryFault f.val 2 (crcResponse hit again) s
  | .training => if s.mainAwake then raiseFault 0x22 2 s else s)

/-- FATAL_FLUSH_DONE (R372, Table 13-10): the link drops, and start-up runs from step 3, unclean. -/
def execFatalFlushDone (s : State) : Host.Outcome State Fault Refusal :=
  done (if s.pwr.fatal.isNone then s else
    let s := flushAll s
    startMain { s with med := { s.med with clean := false } })

/-- CLOCK_LOSS (Table 13-9). -/
def execClockLoss (c : Clock) (s : State) : Host.Outcome State Fault Refusal :=
  done (match c with
  | .main => if s.running && s.mainAwake then coreFault 2 5 s else s
  | .aux =>
    let s := raiseFault 2 6 s
    if s.beaconOn then bcnApply (s.bcn.enterFault 6, []) s else s
  | .refclk =>
    if s.mainAwake && s.pwr.rail12 && s.pwr.link && s.pwr.fatal.isNone && s.pwr.flush == .idle then linkLost (raiseFault 8 3 s) else s)

end Sys2Proof.Machine
end

