-- ==== Sys2Proof/Machine/Position.lean ====
section
/-! DEFINITION. The position commands (02_beacon.md): what arrives at the Beacon's inputs, and the accesses of its
registers. A command whose event cannot occur in the state leaves it as it is (notes/assumptions/2.md). -/

namespace Sys2Proof.Machine

/-- The Beacon counts in an input mode. -/
def State.inMode (s : State) (m : Nat) : Bool := s.beaconOn && s.bcn.mode == m

/-- COUNT_CHANGE (R36). -/
def execCountChange (t : Nat) (q : QuadStep) (s : State) : Host.Outcome State Fault Refusal :=
  let s := s.at_ t
  done (if s.inMode 1 then bcnApply (s.bcn.quadChange s.now s.commitOk q) s else s)

/-- INDEX_EVENT (R37, R58). -/
def execIndexEvent (t : Nat) (s : State) : Host.Outcome State Fault Refusal :=
  let s := s.at_ t
  done (if s.inMode 1 then bcnApply (s.bcn.index s.now s.commitOk) s else s)

/-- SSI words arrive: not in Watch, and not without the main rail (R60). -/
def State.ssiOn (s : State) : Bool := s.inMode 2 && s.pwr.mainOn && s.pwr.watch != .asleep

/-- SSI_FRAME_START (R38). -/
def execSsiFrameStart (t : Nat) (s : State) : Host.Outcome State Fault Refusal :=
  let s := s.at_ t
  done (if s.ssiOn && s.bcn.master then { s with bcn := { s.bcn with inp := { s.bcn.inp with frame := true } } } else s)

/-- SSI_WORD (R38, R39): with MASTER = 1 a word comes in a frame that this card started. -/
def execSsiWord (t : Nat) (word : W32) (check : BitVec 6) (s : State) : Host.Outcome State Fault Refusal :=
  let s := s.at_ t
  done (if s.ssiOn && (!s.bcn.master || s.bcn.inp.frame) then bcnApply (s.bcn.ssiIn s.now s.commitOk word check) s else s)

/-- One generated count, at which a rate that was written takes effect (R35, R42). -/
def Bcn.internal (b : Bcn) (t : Nat) (ok : Bool) : Bcn × List BcnEvent :=
  let b := { b with inp := { b.inp with lastEdge := some t, edgeRev := b.invert, rate := b.regs.intRate } }
  let (net, count) := b.stepped b.invert
  b.move t ok net count

/-- INTERNAL_COUNT (R42): a rate of 0 in effect holds the count. -/
def execInternalCount (t : Nat) (s : State) : Host.Outcome State Fault Refusal :=
  let s := s.at_ t
  done (if s.inMode 0 && s.bcn.inp.rate != 0 then bcnApply (s.bcn.internal s.now s.commitOk) s else s)

/-- EXTRAPOLATION_STOP (R34): the position moves to where extrapolation ends, and holds. -/
def execExtrapolationStop (t : Nat) (s : State) : Host.Outcome State Fault Refusal :=
  let s := s.at_ t
  if s.inMode 2 || s.inMode 3 then
    let s := bcnApply (s.bcn.advance s.now s.commitOk) s
    done { s with bcn := { s.bcn with inp := { s.bcn.inp with extrap := false } } }
  else done s

/-- STILL_ENTRY (R43): STILL_TIME = 0 disables it. -/
def execStillEntry (s : State) : Host.Outcome State Fault Refusal :=
  done (if s.beaconOn && s.bcn.stillTime != 0 then { s with bcn := { s.bcn with still := true } } else s)

/-- LINE (R55): a pair that the mode uses. -/
def execLine (pair : BcnPair) (s : State) : Host.Outcome State Fault Refusal :=
  done (if s.beaconOn && s.bcn.pairUsed pair then bcnApply (s.bcn.enterFault 1, []) s else s)

/-- SEQUENCE_RESERVATION (R32): half of the reserved span is used, and the reservation rises by 2^26. -/
def execSequenceReservation (s : State) : Host.Outcome State Fault Refusal :=
  done (if s.operating && decide (s.bcn.seqLimit ≤ s.bcn.seq + 2 ^ 25) then
    { s with bcn := { s.bcn with seqLimit := s.bcn.seqLimit + 2 ^ 26 } } else s)

/-- BCN_FEED (R40). -/
def execBcnFeed (t : Nat) (a : Actor) (v : W32) (s : State) : Host.Outcome State Fault Refusal :=
  let s := s.at_ t
  done (access s.now a 0x0206 v s)

/-- RESUME (R55): BCN_CTL [0]. -/
def execResume (a : Actor) (s : State) : Host.Outcome State Fault Refusal := done (access s.now a 0x0207 1 s)

/-- ZERO_NOW (R58): BCN_CTL [1]. -/
def execZeroNow (a : Actor) (s : State) : Host.Outcome State Fault Refusal := done (access s.now a 0x0207 2 s)

/-- ZERO_ARM (R58): BCN_CTL [2]. -/
def execZeroArm (a : Actor) (s : State) : Host.Outcome State Fault Refusal := done (access s.now a 0x0207 4 s)

/-- BCN_CONFIG_WRITE (R45): BCN_CPC or BCN_CFG. -/
def execBcnConfigWrite (a : Actor) (cpc : Bool) (v : W32) (s : State) : Host.Outcome State Fault Refusal :=
  done (access s.now a (if cpc then 0x0201 else 0x0200) v s)

/-- BCN_INT_RATE_WRITE (R42). -/
def execBcnIntRateWrite (a : Actor) (v : W32) (s : State) : Host.Outcome State Fault Refusal :=
  done (access s.now a 0x0205 v s)

/-- ARC_REGISTER_WRITE (R44, R49): the Arc registers only. -/
def execArcRegisterWrite (a : Actor) (reg : W16) (v : W32) (s : State) : Host.Outcome State Fault Refusal :=
  let r := reg.toNat
  done (if 0x0240 ≤ r ∧ r ≤ 0x02FF then access s.now a r v s else s)

/-- BCN_COMMIT_CTL_WRITE (R51). -/
def execBcnCommitCtlWrite (a : Actor) (v : W32) (s : State) : Host.Outcome State Fault Refusal :=
  done (access s.now a 0x0211 v s)

/-- BCN_STAMP_LO_READ (R44): the read latches the whole stamp. -/
def execBcnStampLoRead (t : Nat) (a : Actor) (s : State) : Host.Outcome State Fault Refusal :=
  let s := s.at_ t
  done (if s.regReady 0x0209 then (regRead s.now a 0x0209 s).2.2 else s)

end Sys2Proof.Machine
end

