-- ==== Sys2Proof/Machine/Dispatch.lean ====
section
/-! DEFINITION. The meaning of each command: one arm per constructor of Instr. -/

namespace Sys2Proof.Machine

def exec (i : Instr) (s : State) : Host.Outcome State Fault Refusal :=
  match i with
  | .auxPowerUp compatLow => Sys2Proof.Machine.execAuxPowerUp compatLow s
  | .mainRailUp => Sys2Proof.Machine.execMainRailUp s
  | .auxRailFail => Sys2Proof.Machine.execAuxRailFail s
  | .activeBankVerified probeA probeB => Sys2Proof.Machine.execActiveBankVerified probeA probeB s
  | .staggerDelayExpiry => Sys2Proof.Machine.execStaggerDelayExpiry s
  | .halfEraseRecovery zeros => Sys2Proof.Machine.execHalfEraseRecovery zeros s
  | .rebuild ckptOk heldMapOk torn => Sys2Proof.Machine.execRebuild ckptOk heldMapOk torn s
  | .rebuildDone => Sys2Proof.Machine.execRebuildDone s
  | .perstAssert => Sys2Proof.Machine.execPerstAssert s
  | .linkDown => Sys2Proof.Machine.execLinkDown s
  | .perstRelease => Sys2Proof.Machine.execPerstRelease s
  | .controllerEnable ams aqa asq acq => Sys2Proof.Machine.execControllerEnable ams aqa asq acq s
  | .controllerReset => Sys2Proof.Machine.execControllerReset s
  | .functionLevelReset => Sys2Proof.Machine.execFunctionLevelReset s
  | .shutdownNotification shn => Sys2Proof.Machine.execShutdownNotification shn s
  | .powerLossDetect => Sys2Proof.Machine.execPowerLossDetect s
  | .flushCompleteRecord => Sys2Proof.Machine.execFlushCompleteRecord s
  | .bankCutoff programmed => Sys2Proof.Machine.execBankCutoff programmed s
  | .railReturnDuringFlush => Sys2Proof.Machine.execRailReturnDuringFlush s
  | .detectRearm => Sys2Proof.Machine.execDetectRearm s
  | .lossDetArm => Sys2Proof.Machine.execLossDetArm s
  | .lossDet => Sys2Proof.Machine.execLossDet s
  | .earlyFlushEnd => Sys2Proof.Machine.execEarlyFlushEnd s
  | .capFail n => Sys2Proof.Machine.execCapFail n s
  | .chargeMeasurement startMv iMa dtUs stepMv => Sys2Proof.Machine.execChargeMeasurement startMv iMa dtUs stepMv s
  | .dischargeMeasurementDue => Sys2Proof.Machine.execDischargeMeasurementDue s
  | .holdupMeasure a v => Sys2Proof.Machine.execHoldupMeasure a v s
  | .measurementComplete tUs dvMv esrUohm vchgMv => Sys2Proof.Machine.execMeasurementComplete tUs dvMv esrUohm vchgMv s
  | .budgetFlushDone => Sys2Proof.Machine.execBudgetFlushDone s
  | .bankReachesVb => Sys2Proof.Machine.execBankReachesVb s
  | .doorbellWrite head y value entries => Sys2Proof.Machine.execDoorbellWrite head y value entries s
  | .commandFetch => Sys2Proof.Machine.execCommandFetch s
  | .rangeLockGrant h => Sys2Proof.Machine.execRangeLockGrant h s
  | .createIoSq h => Sys2Proof.Machine.execCreateIoSq h s
  | .deleteIoSq h => Sys2Proof.Machine.execDeleteIoSq h s
  | .createIoCq h => Sys2Proof.Machine.execCreateIoCq h s
  | .deleteIoCq h => Sys2Proof.Machine.execDeleteIoCq h s
  | .getLogPage h => Sys2Proof.Machine.execGetLogPage h s
  | .identify h => Sys2Proof.Machine.execIdentify h s
  | .abort h => Sys2Proof.Machine.execAbort h s
  | .setFeaturesArbitration h => Sys2Proof.Machine.execSetFeaturesArbitration h s
  | .setFeaturesPowerManagement h => Sys2Proof.Machine.execSetFeaturesPowerManagement h s
  | .setFeaturesTemperatureThreshold h => Sys2Proof.Machine.execSetFeaturesTemperatureThreshold h s
  | .setFeaturesErrorRecovery h => Sys2Proof.Machine.execSetFeaturesErrorRecovery h s
  | .setFeaturesVolatileWriteCache h => Sys2Proof.Machine.execSetFeaturesVolatileWriteCache h s
  | .setFeaturesNumberOfQueues h => Sys2Proof.Machine.execSetFeaturesNumberOfQueues h s
  | .setFeaturesInterruptCoalescing h => Sys2Proof.Machine.execSetFeaturesInterruptCoalescing h s
  | .setFeaturesInterruptVectorConfig h => Sys2Proof.Machine.execSetFeaturesInterruptVectorConfig h s
  | .setFeaturesWriteAtomicity h => Sys2Proof.Machine.execSetFeaturesWriteAtomicity h s
  | .setFeaturesAsyncEventConfig h => Sys2Proof.Machine.execSetFeaturesAsyncEventConfig h s
  | .getFeatures h => Sys2Proof.Machine.execGetFeatures h s
  | .asynchronousEventRequest h => Sys2Proof.Machine.execAsynchronousEventRequest h s
  | .namespaceCreate h => Sys2Proof.Machine.execNamespaceCreate h s
  | .namespaceDelete h => Sys2Proof.Machine.execNamespaceDelete h s
  | .namespaceAttachment h => Sys2Proof.Machine.execNamespaceAttachment h s
  | .firmwareImageDownload h => Sys2Proof.Machine.execFirmwareImageDownload h s
  | .firmwareCommitReplace h => Sys2Proof.Machine.execFirmwareCommitReplace h s
  | .firmwareCommitReplaceActivate h => Sys2Proof.Machine.execFirmwareCommitReplaceActivate h s
  | .firmwareCommitActivate h => Sys2Proof.Machine.execFirmwareCommitActivate h s
  | .formatNvm h => Sys2Proof.Machine.execFormatNvm h s
  | .sanitizeBlockErase h => Sys2Proof.Machine.execSanitizeBlockErase h s
  | .sanitizeCryptoErase h => Sys2Proof.Machine.execSanitizeCryptoErase h s
  | .deviceSelfTest h => Sys2Proof.Machine.execDeviceSelfTest h s
  | .stallLoad h => Sys2Proof.Machine.execStallLoad h s
  | .stallStop h => Sys2Proof.Machine.execStallStop h s
  | .stallRun h => Sys2Proof.Machine.execStallRun h s
  | .stallRestart h bad => Sys2Proof.Machine.execStallRestart h bad s
  | .stallClearSlow h => Sys2Proof.Machine.execStallClearSlow h s
  | .stallPowerOff h => Sys2Proof.Machine.execStallPowerOff h s
  | .stallPowerOn h bad => Sys2Proof.Machine.execStallPowerOn h bad s
  | .pipelineSet h => Sys2Proof.Machine.execPipelineSet h s
  | .pipelineStart h => Sys2Proof.Machine.execPipelineStart h s
  | .pipelineStop h => Sys2Proof.Machine.execPipelineStop h s
  | .pipelineDelete h => Sys2Proof.Machine.execPipelineDelete h s
  | .pipelineIndex h => Sys2Proof.Machine.execPipelineIndex h s
  | .tallyRead h => Sys2Proof.Machine.execTallyRead h s
  | .keeperHello h => Sys2Proof.Machine.execKeeperHello h s
  | .keeperProve h => Sys2Proof.Machine.execKeeperProve h s
  | .keeperClose h => Sys2Proof.Machine.execKeeperClose h s
  | .keeperArm h => Sys2Proof.Machine.execKeeperArm h s
  | .keeperRegister h => Sys2Proof.Machine.execKeeperRegister h s
  | .keeperCommitRules h => Sys2Proof.Machine.execKeeperCommitRules h s
  | .attest h => Sys2Proof.Machine.execAttest h s
  | .harbourMailbox h => Sys2Proof.Machine.execHarbourMailbox h s
  | .read h => Sys2Proof.Machine.execRead h s
  | .write h => Sys2Proof.Machine.execWrite h s
  | .compare h => Sys2Proof.Machine.execCompare h s
  | .verify h => Sys2Proof.Machine.execVerify h s
  | .writeZeroes h => Sys2Proof.Machine.execWriteZeroes h s
  | .datasetManagement h => Sys2Proof.Machine.execDatasetManagement h s
  | .flush h => Sys2Proof.Machine.execFlush h s
  | .recordAppend h => Sys2Proof.Machine.execRecordAppend h s
  | .arcQuery h => Sys2Proof.Machine.execArcQuery h s
  | .fetchResult h => Sys2Proof.Machine.execFetchResult h s
  | .releaseResult h => Sys2Proof.Machine.execReleaseResult h s
  | .cycleCommit h => Sys2Proof.Machine.execCycleCommit h s
  | .indexLookup h => Sys2Proof.Machine.execIndexLookup h s
  | .heldAdmit => Sys2Proof.Machine.execHeldAdmit s
  | .flushCompletion h => Sys2Proof.Machine.execFlushCompletion h s
  | .heldProgramTrigger => Sys2Proof.Machine.execHeldProgramTrigger s
  | .oneBitProgramComplete id die row timeUs fails => Sys2Proof.Machine.execOneBitProgramComplete id die row timeUs fails s
  | .verifyReadComplete sb fails => Sys2Proof.Machine.execVerifyReadComplete sb fails s
  | .nandEraseComplete place tlc ok => Sys2Proof.Machine.execNandEraseComplete place tlc ok s
  | .dieStatusTimeout die => Sys2Proof.Machine.execDieStatusTimeout die s
  | .mediaReadComplete place slot dec ok around => Sys2Proof.Machine.execMediaReadComplete place slot dec ok around s
  | .readDisturbRefresh place => Sys2Proof.Machine.execReadDisturbRefresh place s
  | .foldStart grp => Sys2Proof.Machine.execFoldStart grp s
  | .writeIdleTimeout => Sys2Proof.Machine.execWriteIdleTimeout s
  | .gcStart grp => Sys2Proof.Machine.execGcStart grp s
  | .copyComplete nsid lba src die timeUs ok => Sys2Proof.Machine.execCopyComplete nsid lba src die timeUs ok s
  | .patrolRead place page dec weak shiftMv days => Sys2Proof.Machine.execPatrolRead place page dec weak shiftMv days s
  | .mapPageFill nsid page => Sys2Proof.Machine.execMapPageFill nsid page s
  | .mapJournalProgram => Sys2Proof.Machine.execMapJournalProgram s
  | .scanCheckpoint => Sys2Proof.Machine.execScanCheckpoint s
  | .countChange at_ step => Sys2Proof.Machine.execCountChange at_ step s
  | .indexEvent at_ => Sys2Proof.Machine.execIndexEvent at_ s
  | .ssiFrameStart at_ => Sys2Proof.Machine.execSsiFrameStart at_ s
  | .ssiWord at_ word check => Sys2Proof.Machine.execSsiWord at_ word check s
  | .internalCount at_ => Sys2Proof.Machine.execInternalCount at_ s
  | .extrapolationStop at_ => Sys2Proof.Machine.execExtrapolationStop at_ s
  | .stillEntry => Sys2Proof.Machine.execStillEntry s
  | .line pair => Sys2Proof.Machine.execLine pair s
  | .recordHeaderLands at_ h => Sys2Proof.Machine.execRecordHeaderLands at_ h s
  | .sequenceReservation => Sys2Proof.Machine.execSequenceReservation s
  | .commitMarkDurable late => Sys2Proof.Machine.execCommitMarkDurable late s
  | .bcnFeed at_ a v => Sys2Proof.Machine.execBcnFeed at_ a v s
  | .resume a => Sys2Proof.Machine.execResume a s
  | .zeroNow a => Sys2Proof.Machine.execZeroNow a s
  | .zeroArm a => Sys2Proof.Machine.execZeroArm a s
  | .bcnConfigWrite a cpc v => Sys2Proof.Machine.execBcnConfigWrite a cpc v s
  | .bcnIntRateWrite a v => Sys2Proof.Machine.execBcnIntRateWrite a v s
  | .arcRegisterWrite a reg v => Sys2Proof.Machine.execArcRegisterWrite a reg v s
  | .bcnCommitCtlWrite a v => Sys2Proof.Machine.execBcnCommitCtlWrite a v s
  | .bcnStampLoRead at_ a => Sys2Proof.Machine.execBcnStampLoRead at_ a s
  | .lotCloseIdle nsid => Sys2Proof.Machine.execLotCloseIdle nsid s
  | .lotIssue lot => Sys2Proof.Machine.execLotIssue lot s
  | .recordStageStart n => Sys2Proof.Machine.execRecordStageStart n s
  | .lotEnd n => Sys2Proof.Machine.execLotEnd n s
  | .lotRetire lot => Sys2Proof.Machine.execLotRetire lot s
  | .slow n => Sys2Proof.Machine.execSlow n s
  | .budget n => Sys2Proof.Machine.execBudget n s
  | .handlerClaim n => Sys2Proof.Machine.execHandlerClaim n s
  | .unitCallComplete n hwError => Sys2Proof.Machine.execUnitCallComplete n hwError s
  | .porterMoveComplete n id => Sys2Proof.Machine.execPorterMoveComplete n id s
  | .opTransitionEnd => Sys2Proof.Machine.execOpTransitionEnd s
  | .queryStart pipe => Sys2Proof.Machine.execQueryStart pipe s
  | .mailboxInWrite n m v => Sys2Proof.Machine.execMailboxInWrite n m v s
  | .maskSet n m v => Sys2Proof.Machine.execMaskSet n m v s
  | .maskClr n m v => Sys2Proof.Machine.execMaskClr n m v s
  | .pendSet n m v => Sys2Proof.Machine.execPendSet n m v s
  | .pendClr n m v => Sys2Proof.Machine.execPendClr n m v s
  | .disableWrite n m v => Sys2Proof.Machine.execDisableWrite n m v s
  | .faultForce n m v => Sys2Proof.Machine.execFaultForce n m v s
  | .flipMaskWrite n m r v => Sys2Proof.Machine.execFlipMaskWrite n m r v s
  | .bar2Write off bytes => Sys2Proof.Machine.execBar2Write off bytes s
  | .bar2Read off len => Sys2Proof.Machine.execBar2Read off len s
  | .alu n f => Sys2Proof.Machine.execAlu n f s
  | .addi n f => Sys2Proof.Machine.execAddi n f s
  | .andi n f => Sys2Proof.Machine.execAndi n f s
  | .ori n f => Sys2Proof.Machine.execOri n f s
  | .xori n f => Sys2Proof.Machine.execXori n f s
  | .shi n f => Sys2Proof.Machine.execShi n f s
  | .movz n f => Sys2Proof.Machine.execMovz n f s
  | .movk n f => Sys2Proof.Machine.execMovk n f s
  | .ext n f => Sys2Proof.Machine.execExt n f s
  | .ins n f => Sys2Proof.Machine.execIns n f s
  | .sel n f => Sys2Proof.Machine.execSel n f s
  | .cmp n f => Sys2Proof.Machine.execCmp n f s
  | .cmpi n f => Sys2Proof.Machine.execCmpi n f s
  | .pset n f => Sys2Proof.Machine.execPset n f s
  | .tstb n f => Sys2Proof.Machine.execTstb n f s
  | .xf n f => Sys2Proof.Machine.execXf n f s
  | .xfr n f => Sys2Proof.Machine.execXfr n f s
  | .wadv n f => Sys2Proof.Machine.execWadv n f s
  | .wseek n f => Sys2Proof.Machine.execWseek n f s
  | .wpos n f => Sys2Proof.Machine.execWpos n f s
  | .rhdr n f => Sys2Proof.Machine.execRhdr n f s
  | .wst n f => Sys2Proof.Machine.execWst n f s
  | .loopc n f => Sys2Proof.Machine.execLoopc n f s
  | .ld n f => Sys2Proof.Machine.execLd n f s
  | .lds n f => Sys2Proof.Machine.execLds n f s
  | .st n f => Sys2Proof.Machine.execSt n f s
  | .b n f => Sys2Proof.Machine.execB n f s
  | .loop n f => Sys2Proof.Machine.execLoop n f s
  | .loopr n f => Sys2Proof.Machine.execLoopr n f s
  | .call n f => Sys2Proof.Machine.execCall n f s
  | .ret n f => Sys2Proof.Machine.execRet n f s
  | .keep n f => Sys2Proof.Machine.execKeep n f s
  | .drop n f => Sys2Proof.Machine.execDrop n f s
  | .done n f => Sys2Proof.Machine.execDone n f s
  | .iret n f => Sys2Proof.Machine.execIret n f s
  | .irqsrc n f => Sys2Proof.Machine.execIrqsrc n f s
  | .crcw n f => Sys2Proof.Machine.execCrcw n f s
  | .crcm n f => Sys2Proof.Machine.execCrcm n f s
  | .ucall n f => Sys2Proof.Machine.execUcall n f s
  | .tally n f => Sys2Proof.Machine.execTally n f s
  | .bcn n f => Sys2Proof.Machine.execBcn n f s
  | .arct n f => Sys2Proof.Machine.execArct n f s
  | .emitr n f => Sys2Proof.Machine.execEmitr n f s
  | .emitm n f => Sys2Proof.Machine.execEmitm n f s
  | .pmov n f => Sys2Proof.Machine.execPmov n f s
  | .yield n f => Sys2Proof.Machine.execYield n f s
  | .barrier n f => Sys2Proof.Machine.execBarrier n f s
  | .fault n f => Sys2Proof.Machine.execFault n f s
  | .mbox n f => Sys2Proof.Machine.execMbox n f s
  | .busRead f lost => Sys2Proof.Machine.execBusRead f lost s
  | .busWrite f lost => Sys2Proof.Machine.execBusWrite f lost s
  | .poll f lost => Sys2Proof.Machine.execPoll f lost s
  | .moor f others => Sys2Proof.Machine.execMoor f others s
  | .moorResume f => Sys2Proof.Machine.execMoorResume f s
  | .moorCheck f others => Sys2Proof.Machine.execMoorCheck f others s
  | .unmoor f lost => Sys2Proof.Machine.execUnmoor f lost s
  | .alertWho f others => Sys2Proof.Machine.execAlertWho f others s
  | .beaconZero f => Sys2Proof.Machine.execBeaconZero f s
  | .token f => Sys2Proof.Machine.execToken f s
  | .tokenLapse => Sys2Proof.Machine.execTokenLapse s
  | .wake f lost => Sys2Proof.Machine.execWake f lost s
  | .sessionTimeout nvme => Sys2Proof.Machine.execSessionTimeout nvme s
  | .helloRefusalExpiry nvme => Sys2Proof.Machine.execHelloRefusalExpiry nvme s
  | .kxHello a => Sys2Proof.Machine.execKxHello a s
  | .kxSignature a => Sys2Proof.Machine.execKxSignature a s
  | .kxProve a => Sys2Proof.Machine.execKxProve a s
  | .kxClose a => Sys2Proof.Machine.execKxClose a s
  | .persistentWrite a n v => Sys2Proof.Machine.execPersistentWrite a n v s
  | .harbourOpComplete ok => Sys2Proof.Machine.execHarbourOpComplete ok s
  | .hbRead a v => Sys2Proof.Machine.execHbRead a v s
  | .hbProgram a v => Sys2Proof.Machine.execHbProgram a v s
  | .hbErase a v => Sys2Proof.Machine.execHbErase a v s
  | .hbBlankCheck a v => Sys2Proof.Machine.execHbBlankCheck a v s
  | .hbOtpRead a v => Sys2Proof.Machine.execHbOtpRead a v s
  | .hbOtpProgram a v => Sys2Proof.Machine.execHbOtpProgram a v s
  | .hbReboot a v => Sys2Proof.Machine.execHbReboot a v s
  | .ruleEpochWrite a v => Sys2Proof.Machine.execRuleEpochWrite a v s
  | .ruleSave a v => Sys2Proof.Machine.execRuleSave a v s
  | .evtStatusRead a k => Sys2Proof.Machine.execEvtStatusRead a k s
  | .pulseAck a k => Sys2Proof.Machine.execPulseAck a k s
  | .evtRouteWrite a v => Sys2Proof.Machine.execEvtRouteWrite a v s
  | .msixMaskWrite vector masked => Sys2Proof.Machine.execMsixMaskWrite vector masked s
  | .violKindClear a => Sys2Proof.Machine.execViolKindClear a s
  | .pwrCmdWrite a v => Sys2Proof.Machine.execPwrCmdWrite a v s
  | .stallVsetWrite a v => Sys2Proof.Machine.execStallVsetWrite a v s
  | .stallFsetWrite a v => Sys2Proof.Machine.execStallFsetWrite a v s
  | .faultForceMirror a f v => Sys2Proof.Machine.execFaultForceMirror a f v s
  | .registerWrite a reg v => Sys2Proof.Machine.execRegisterWrite a reg v s
  | .journalInterval => Sys2Proof.Machine.execJournalInterval s
  | .watchdogExpiry management => Sys2Proof.Machine.execWatchdogExpiry management s
  | .lockstepMismatch c => Sys2Proof.Machine.execLockstepMismatch c s
  | .fatalFlushDone => Sys2Proof.Machine.execFatalFlushDone s
  | .watchEntry => Sys2Proof.Machine.execWatchEntry s
  | .watchExit => Sys2Proof.Machine.execWatchExit s
  | .watchSample ctrl nand dram holdup bankMv => Sys2Proof.Machine.execWatchSample ctrl nand dram holdup bankMv s
  | .watchTimerExpiry => Sys2Proof.Machine.execWatchTimerExpiry s
  | .sensorUpdate sensor value stuck => Sys2Proof.Machine.execSensorUpdate sensor value stuck s
  | .throttleGraceExpiry => Sys2Proof.Machine.execThrottleGraceExpiry s
  | .enforcementSecond => Sys2Proof.Machine.execEnforcementSecond s
  | .writeHoldTimeout h => Sys2Proof.Machine.execWriteHoldTimeout h s
  | .shutdownSample ctrl nand dram holdup => Sys2Proof.Machine.execShutdownSample ctrl nand dram holdup s
  | .siliconDelayMeasure delta => Sys2Proof.Machine.execSiliconDelayMeasure delta s
  | .lifeRecompute => Sys2Proof.Machine.execLifeRecompute s
  | .auxDomainReset => Sys2Proof.Machine.execAuxDomainReset s
  | .mainRailRemovalInWatch => Sys2Proof.Machine.execMainRailRemovalInWatch s
  | .bankCharged => Sys2Proof.Machine.execBankCharged s
  | .clockLoss c => Sys2Proof.Machine.execClockLoss c s
  | .busIdleDetect truncated => Sys2Proof.Machine.execBusIdleDetect truncated s
  | .coalescingTimeExpiry y => Sys2Proof.Machine.execCoalescingTimeExpiry y s
  | .indexRebuildDone => Sys2Proof.Machine.execIndexRebuildDone s
  | .deliveryErr vector => Sys2Proof.Machine.execDeliveryErr vector s

end Sys2Proof.Machine
end

