-- ==== Sys2Proof/Safety.lean ====
section
/-! DEFINITION. What a safe run is and the properties of states that the statements speak of. -/

namespace Sys2Proof

open Machine

/-- The step at s answers a next state. -/
def Completes (s : State) : Prop := ∃ t, step s = .next t

/-- Normal operation: start-up is complete, nothing has stopped the card, and it is awake (R182, R372, R378, R394). -/
structure Up (s : State) : Prop where
  main   : s.pwr.mainOn = true
  step   : 6 ≤ s.pwr.step
  alive  : s.pwr.recovery = false
  fatal  : s.pwr.fatal = none
  flush  : s.pwr.flush = .idle
  watch  : s.pwr.watch = .awake

/-- The event router runs (R373). -/
def RouterOn (s : State) : Prop := (s.running && s.pwr.watch != .asleep) = true

/-- While the event router runs, no vector that can be delivered has a pending source or completion queue (R361). -/
def NoDeliverable (s : State) : Prop := RouterOn s → ∀ v, s.pba v = true → s.deliverable v = false

/-- While the event router runs, HOLDUP_VOLTAGE and HELD_DIRTY are valid and show the bank voltage in mV and the dirty amount
in KiB (Table 6-5). -/
def HoldupShown (s : State) : Prop :=
  RouterOn s → s.hu.mVolt.valid = true ∧ s.hu.mVolt.value = s.hu.bankMv ∧
    s.hu.mDirty.valid = true ∧ s.hu.mDirty.value = 4 * (s.med.held.length : Int)

/-- The Held data in DRAM passes its CRC32C (R371). -/
abbrev HeldSound (s : State) : Prop := ∀ x ∈ s.med.held, x.2.err = 0

/-- What the media hold of a slot besides DRAM: in NAND, on its way there, and of Held writes not programmed whole. -/
def Machine.Media.copies (m : Media) (k : Nat) : List Slot4k :=
  ((m.content ++ (m.chunks.flatMap fun c => c.slots) ++ m.partials.flatMap fun x => x.2).filter fun x => x.1 == k).map fun x => x.2

/-- A register can be written now: what serves it runs, it is listed, the actor may reach it, and no rule denies it
(R283, R286, R295, R340). -/
structure CanWrite (a : Actor) (reg : Nat) (s : State) : Prop where
  ready : s.regReady reg = true
  stat  : regStat a 2 reg s = (statOk, s)

/-- A frame is acted on: the card listens, the frame is of its protocol, its CRC holds, and DEST, FAST and KEY are as
Table 10-3 allows (R275, R276, R279, R282, R421). -/
structure FrameTaken (f : Frame) (s : State) : Prop where
  aux     : s.pwr.auxOn = true
  seen    : s.bus.idleSeen = true
  listens : s.bus.ignoring = false
  proto   : f.sync = s.compat
  crc     : frameCrcOk f = true
  allowed : frameAllowed f = true
  fast    : frameFast f = true → s.mine f = true

/-- Nothing is touched but what a change of position reaches: the Beacon, the open Lots it closes, the Stall interrupts, the
decimation counters, card events, pending commit marks and wakes (R46 to R51, R214, R257, R380). -/
def OnlyPosition (s u : State) : Prop :=
  u = { s with now := u.now, bcn := u.bcn, ns := u.ns, lots := u.lots, nextLot := u.nextLot, opens := u.opens, stalls := u.stalls
               pipes := u.pipes, ev := u.ev, med := u.med, pwr := u.pwr } ∧
  u.med = { s.med with pendMarks := u.med.pendMarks } ∧
  u.pwr = { s.pwr with wakeSrc := u.pwr.wakeSrc, wakeDue := u.pwr.wakeDue } ∧
  (∀ n, (look u.ns n).map (fun x => { x with st := { x.st with opened := [] } }) =
        (look s.ns n).map (fun x => { x with st := { x.st with opened := [] } }))

/-- Stall n fetches the word w, without a correction, while nothing else holds its Stall Code (R198, R237, R240, R241). -/
structure Fetches (s : State) (n : Nat) (w : W32) : Prop where
  code  : s.codeRuns n = true
  quiet : (s.stall n).porterFault = none
  word  : ∃ v, readWord true n ((s.stall n).core.pc / 2) s = (some v, s) ∧
    w = if (s.stall n).core.pc % 2 = 0 then w32 (v.toNat % 2 ^ 32) else w32 (v.toNat / 2 ^ 32)

/-- Stall n executes the instruction of word w next: it fetches it, its guard is legal and true, outside handlers the record can
pay k cycles, and the window stays within its 21 bits (R189, R190, R220, R225). -/
structure Runs (s : State) (n : Nat) (w : W32) (guard : BitVec 4) (k : Nat) : Prop extends Fetches s n w where
  guardOk   : Machine.guardOk guard = true
  guardTrue : Machine.guardTrue guard (s.stall n).core.p = true
  paid      : (s.stall n).handlers = [] → (s.stall n).cycles + k ≤ s.curTerm n
  room      : (CoreRegs.onward (!(s.stall n).handlers.isEmpty) (s.stall n).core.pc (s.stall n).core).wp < 2 ^ 21

/-- Stall n after an instruction of k cycles that does f to it and goes on in order (R190, R231). -/
def Machine.State.ran (s : State) (n k : Nat) (f : Stall → Stall) : State :=
  s.modStall n fun t => ((f t).charge k).modCore (CoreRegs.onward (!t.handlers.isEmpty) t.core.pc)

/-- Stall n after an instruction of k cycles that does f to it and to its PC. -/
def Machine.State.ranTo (s : State) (n k : Nat) (f : Stall → Stall) : State := s.modStall n fun t => (f t).charge k

/-- A master reaches the control block of Stall n: its own code while it runs, others when they are on, the checker lets the
write through, and the tile has power (R26, R223, R337). -/
def CtlReach (s : State) (n : Nat) (m : CbMaster) (off : Nat) : Prop :=
  let lets : Master → Prop := fun x => (memAccess x 2 (0x04000000 + n * 0x1000 + off) 4 s).1 = [] ∧ (s.stall n).state ≠ .off
  match m with
  | .own => s.running = true ∧ (s.stall n).state = .running
  | .bar2 => s.bar2On = true ∧ lets (.queue 0)
  | .porter k => s.running = true ∧ lets (.stall k.val)
  | .mgmt => s.running = true ∧ lets .mgmt

end Sys2Proof
end

