-- ==== Sys2Proof/Certificates/Slice0/Obligations.lean ====
section
/-! DEFINITION. The statements for the provers. A conclusion `exec c s = .next (settle u)` says that the command answers a next
state, the one that the event router's update (SettleFrame) makes of u; `t = { s with f := t.f }` says that nothing but
the fields named changes. -/

open Sys2Proof Sys2Proof.Machine

/-- A step takes the command at the front of the queue and runs it on the state with the queue's rest.
With nothing waiting, a step advances the housekeeping counter of R12 by 1 ns, and the position follows its extrapolation
(R34): nothing changes but what a change of position reaches, and without extrapolation only the time does. Then the event router
runs. The size of the step is the model's choice (notes/assumptions/12.md). -/
def Obligations.StepRunsFront : Prop :=
  (∀ (s : State) (c : Instr) (rest : List Instr), s.pending = c :: rest → step s = exec c { s with pending := rest }) ∧
  (∀ s : State, s.pending = [] → ∃ t, step s = .next (settle t) ∧ t.now = s.now + 1 ∧ OnlyPosition s t ∧
    (s.bcn.extrapolates = false → t = { s with now := s.now + 1 }))

/-- What the end of a command brings (R22, R195, R358 to R361): free Porters and unit instances go to what waits for them, and
the event router runs. The router does not run with the main domain off, in Watch or in the recovery state, and else it changes
completions, the shutdown that has come to its end, the measurement registers that follow the bank and the dirty amount, and its
own registers; the flush at the end of a shutdown journals the Held data that it finds bad (R371), and a measurement that waited for
it starts (R401). -/
def Obligations.SettleFrame : Prop :=
  (∀ s : State, (s.running && s.pwr.watch != .asleep) = false → ∃ t, settle s = t ∧ t = { s with porters := t.porters, units := t.units }) ∧
  (∀ s : State, s.running = false → (settle s).porters = [] ∧ (settle s).units = []) ∧
  (∀ s : State, ∃ t, settle s = t ∧
    t = { s with hu := t.hu, health := t.health, ev := t.ev, nv := t.nv, med := t.med, porters := t.porters, units := t.units } ∧
    t.hu = { s.hu with flushing := t.hu.flushing, measuring := t.hu.measuring, due := t.hu.due, mVolt := t.hu.mVolt
                       mDirty := t.hu.mDirty } ∧
    t.health = { s.health with nandBytes := t.health.nandBytes, unrecEver := t.health.unrecEver } ∧
    t.ev = { s.ev with level := t.ev.level, due := t.ev.due, pulse := t.ev.pulse, sent := t.ev.sent, journal := t.ev.journal
                       jnext := t.ev.jnext, jcount := t.ev.jcount, jdrops := t.ev.jdrops, jprev := t.ev.jprev
                       dropped := t.ev.dropped, status := t.ev.status }) ∧
  (∀ s : State, HeldSound s ∨ s.nv.shst ≠ 1 → ∃ t, settle s = t ∧ t.health = { s.health with nandBytes := t.health.nandBytes } ∧
    t.ev = { s.ev with level := t.ev.level, due := t.ev.due, pulse := t.ev.pulse, sent := t.ev.sent }) ∧
  (∀ s : State, s.nv.shst ≠ 1 → (settle s).med = s.med ∧ (settle s).health = s.health ∧
    (settle s).hu = { s.hu with mVolt := (settle s).hu.mVolt, mDirty := (settle s).hu.mDirty } ∧
    (settle s).nv.shst = s.nv.shst ∧ (settle s).nv.wtHold = s.nv.wtHold)

/-- What reset leaves, where the spec gives the value: nothing waits, every Arc is disabled with the modulus 1 of Table 2-10,
the Beacon is UNREFERENCED (R59), the card is unmoored without the boost token (R302), every object is Normal and no rule is
enabled (R332), no session is open, every Stall is OFF, no Lot, query or slot exists, and every plane has its 84 spare blocks
(R149). -/
def Obligations.ResetState : Prop :=
  State.reset.pending = [] ∧ (∀ k : Fin 64, State.reset.bcn.arcs[k] = ⟨0, 0, 0x00010000, 0, 0, 0x00010000, none⟩) ∧
  State.reset.bcn.code = 6 ∧ State.reset.bcn.regs.cpc = 0xFFFF ∧ State.reset.bcn.regs.intRate = 65536 ∧
  State.reset.bus.moor = .unmoored ∧ State.reset.bus.addr = 0 ∧ State.reset.bus.token = false ∧
  State.reset.bus.lease = 1000 ∧ State.reset.acc.active = ⟨0, 0, 0, 0, 0, 0, []⟩ ∧
  State.reset.keeper.nvme.session = none ∧ State.reset.keeper.bus.session = none ∧
  (∀ k : Fin 64, State.reset.stalls[k].state = .off) ∧ State.reset.lots = [] ∧ State.reset.queries = [] ∧
  State.reset.slots = [] ∧ (∀ k : Fin 256, State.reset.med.spares[k] = 84)

/-- R361: a message goes out as soon as it can. In every state that a step leaves from a state with the property, no
vector that the link, the function mask and its own mask let through has a pending source or completion queue; it holds while
the event router runs. -/
def Obligations.NoDeliverableWaits : Prop :=
  ∀ s t : State, NoDeliverable s → step s = .next t → NoDeliverable t

/-- Reset has the property of NoDeliverableWaits. -/
def Obligations.ResetNoDeliverable : Prop := NoDeliverable State.reset

/-- HOLDUP_VOLTAGE and HELD_DIRTY show the bank voltage and the dirty amount (Table 6-5) in every state that a step leaves
from a state where they do, while the event router runs. -/
def Obligations.HoldupRegistersFollow : Prop :=
  ∀ s t : State, HoldupShown s → step s = .next t → HoldupShown t

/-- The rails and the aux domain (R59, R302, R439, R440).
Start-up step 3 (R185, R332, R353): the saved rules are in force at epoch 0, and the bank tried first runs when it verifies, with
the link able to train; a bank that does not read back as it was programmed does not verify, and when no bank does, CODE_ECC_BANK's bit
sets and the card stops in the recovery state after step 3. A sensor in its shutdown state holds the card (R394, R395).
Start-up steps 4 and 5 (R157, R173, R178 to R180): the stagger delay ends and the bank charges; every block and sector
whose erase was cut is erased again, and the warnings are evaluated (R411); the bank reaches V_B and its full charge.
Completes, under the hypotheses on state and operands that its clauses name: auxPowerUp, activeBankVerified, halfEraseRecovery, mainRailUp, auxRailFail, staggerDelayExpiry, bankReachesVb, auxDomainReset, bankCharged. -/
def Obligations.RailAndBankRows : Prop :=
  ((∀ (s : State) (low : Bool), s.pwr.auxOn = false → s.pwr.mainOn = false → s.pwr.rail12 = false →
    ∃ t, exec (.auxPowerUp low) s = .next (settle t) ∧
      t = { s with now := 0, pwr := t.pwr, ev := t.ev, bcn := t.bcn, bus := t.bus, therm := t.therm, keeper := t.keeper
                   hb := { s.hb with auxMode := 0, auxPref := 0, auxCfg := 0x4000, auxCpc := 0xFFFF, auxWatch := 10 } } ∧
      t.pwr.auxOn = true ∧ t.pwr.railAux = true ∧ t.pwr.compatLow = low ∧ t.pwr.step = 1 ∧ t.pwr.mode = .none ∧
      t.bcn.code = 6 ∧ t.bcn.loaded = false ∧ t.bcn.seqLimit = s.bcn.seqLimit ∧ t.bcn.era = s.bcn.era ∧
      t.bus.moor = .unmoored ∧ t.bus.lease = 1000 ∧ t.bus.crcErr = 0 ∧ t.bus.macErr = 0 ∧ t.bus.stored = none ∧
      t.keeper.bus.session = none ∧ t.keeper.nvme = s.keeper.nvme) ∧
  (∀ s : State, s.canStart = false → s.pwr.rail12 = false → s.pwr.flush ≠ .running → s.pwr.flush ≠ .railBack →
    s.pwr.watch ≠ .asleep → s.pwr.auxOn = true → s.pwr.mainOn = false → s.pwr.railAux = true → s.therm.held = false →
    ∃ t, exec .mainRailUp s = .next (settle t) ∧ t.pwr.rail12 = true ∧ t.pwr.mainOn = true ∧ t.pwr.step = 2 ∧
      t.pwr.auxOn = true ∧ t.pwr.mode = s.pwr.mode ∧ t.bcn.net = s.bcn.net ∧ t.bcn.count = s.bcn.count ∧
      t.bcn.arcs = s.bcn.arcs ∧ t.bus = { s.bus with held := none } ∧ t.acc.saved = s.acc.saved ∧
      (s.med.shadow = [] → t.med.content = s.med.content) ∧ t.med.marks = s.med.marks ∧ t.hb.flash = s.hb.flash ∧ t.hb.otp = s.hb.otp ∧
      t.hb.values = s.hb.values ∧ t.stalls = Vector.replicate 64 .reset ∧ t.nv.en = false) ∧
  (∀ s : State, (s.pwr.mainOn && (decide (s.pwr.step < 3) || s.pwr.watch == .asleep)) = false →
    exec .auxRailFail s = .next (settle { s with pwr := { s.pwr with railAux := false } })) ∧
  (∀ s : State, s.pwr.mainOn = true → s.pwr.step < 3 ∨ s.pwr.watch = .asleep →
    ∃ t, exec .auxRailFail s = .next (settle t) ∧ t.pwr.mainOn = false ∧ t.pwr.railAux = false ∧ t.ram = []) ∧
  (∀ s : State, s.pwr.auxOn = true → (s.pwr.mainOn = false ∨ s.pwr.watch = .asleep) → s.hb.busy = none →
    ∃ t, exec .auxDomainReset s = .next (settle t) ∧ t.pwr.auxOn = false ∧ t.pwr.railAux = false ∧ t.pwr.mainOn = false ∧
      t.bcn.code = 6 ∧ t.bcn.seqLimit = s.bcn.seqLimit ∧ t.bus = .reset ∧ t.keeper.bus.session = none ∧
      (s.med.shadow = [] → t.med.content = s.med.content) ∧ t.hb.flash = s.hb.flash ∧ t.hb.values = s.hb.values ∧ t.hb.otp = s.hb.otp)) ∧
  ((∀ (s : State) (h : FwHeader), s.pwr.mainOn = true → s.pwr.step = 2 → s.therm.held = false → s.pwr.copied = true →
    s.hotSensor = none → s.hb.firstB = false → s.hb.bankA = .image h → (s.bankOk false).isSome = true → s.therm.shutSrc = none →
    s.stalls = Vector.replicate 64 .reset → ∀ b : Bool,
    ∃ t, exec (.activeBankVerified true b) s = .next (settle t) ∧ t.pwr.step = 3 ∧ t.hb.running = some false ∧
      t.pwr.recovery = false ∧ t.pwr.starts = satInc s.pwr.starts ∧ t.pwr.link = !s.pwr.perst ∧ t.pwr.detect = !s.pwr.rearm ∧
      t.pwr.wasFlush = false ∧ t.acc.staged = s.acc.saved ∧ t.acc.active = s.acc.saved ∧ t.acc.epoch = 0 ∧
      t.ram = s.ram ∧ t.ns = s.ns ∧ t.bus = s.bus ∧ t.keeper = s.keeper ∧ t.stalls = s.stalls) ∧
  (∀ (s : State) (a b : Bool), s.pwr.mainOn = true → s.pwr.step = 2 → s.therm.held = false → s.pwr.copied = true →
    s.hotSensor = none → (a = false ∨ s.hb.bankA = .bad) → (b = false ∨ s.hb.bankB = .bad) →
    ∃ t, exec (.activeBankVerified a b) s = .next (settle t) ∧ t.pwr.recovery = true ∧ t.pwr.step = 3 ∧ t.pwr.link = false ∧
      bit (t.frameStatus 3) 2 = true ∧ t.hb.running = s.hb.running ∧ t.hb.bankA = .bad ∧ t.hb.bankB = .bad ∧
      t.acc.staged = s.acc.saved ∧ t.acc.active = s.acc.saved ∧ t.acc.epoch = 0 ∧ t.ram = s.ram ∧ t.ns = s.ns) ∧
  (∀ (s : State) (a b : Bool) (i : Nat), s.pwr.mainOn = true → s.pwr.step = 2 → s.therm.held = false → s.pwr.copied = true →
    s.hotSensor = some i →
    ∃ t, exec (.activeBankVerified a b) s = .next (settle t) ∧ t = { s with therm := t.therm } ∧ t.therm.held = true)) ∧
  ((∀ s : State, s.firmware = true → s.pwr.charging = false → s.pwr.flush = .idle → s.pwr.watch ≠ .asleep → s.hu.capOk ≠ 0 →
    exec .staggerDelayExpiry s = .next (settle { s with pwr := { s.pwr with charging := true, step := max 4 s.pwr.step }
                                                        hu := { s.hu with state := 0, midCharge := decide (s.hu.bankMv ≤ 20000) } })) ∧
  (∀ s : State, s.firmware = true → s.pwr.flush = .idle → 3 ≤ s.pwr.step → s.pwr.step ≤ 4 → s.med.intents = [] → s.hb.toErase = [] →
    exec (.halfEraseRecovery ⟨[], []⟩) s = .next (settle (evalWarn { s with pwr := { s.pwr with step := 5 } }))) ∧
  (∀ (s : State) (k : Nat), s.firmware = true → s.pwr.flush = .idle → 3 ≤ s.pwr.step → s.pwr.step ≤ 4 → s.med.intents = [] →
    s.hb.toErase = [k] →
    exec (.halfEraseRecovery ⟨[], []⟩) s =
      .next (settle (evalWarn { s with pwr := { s.pwr with step := 5 }, hb := (s.hb.beginErase k).endErase k }))) ∧
  (∀ (s : State) (k : Nat) (p : Place), s.firmware = true → s.pwr.flush = .idle → 3 ≤ s.pwr.step → s.pwr.step ≤ 4 →
    s.med.intents = [k] → placeOf k = some p → s.hb.toErase = [] →
    exec (.halfEraseRecovery ⟨[(8, 8)], []⟩) s = .next (settle (evalWarn
      { s with pwr := { s.pwr with step := 5 }, med := s.med.erased p (s.med.blk p).tlc }))) ∧
  (∀ s : State, s.firmware = true → s.pwr.charging = true → s.hu.state = 0 → s.pwr.flush = .idle → s.pwr.watch ≠ .asleep →
    exec .bankReachesVb s = .next (settle { s with hu := { s.hu with bankMv := max s.hu.bankMv s.vb, reached := true } }) ∧
    exec .bankCharged s = .next (settle { s with hu := { s.hu with
      state := 1, bankMv := s.hu.vchg, midCharge := false, reached := s.hu.reached || decide (s.vb ≤ s.hu.vchg) } })))

/-- Start-up steps 5 and 6 (R32, R53, R173): the path is the clean one after a clean shutdown, and is journalled; when
the rebuild is done the sequence numbers go on from the durable reservation, which rises by 2^26, commits number on from the
newest mark, and the next qualifying crossing commits.
Completes, under the hypotheses on state and operands that its clauses name: rebuild, rebuildDone. -/
def Obligations.RebuildRows : Prop :=
  (∀ (s : State) (c m : Bool) (torn : List (Nat × Nat)), s.firmware = true → s.pwr.flush = .idle → s.pwr.step = 5 →
    s.med.path = none → s.med.clean = true → s.pwr.short = none →
    exec (.rebuild c m torn) s =
      .next (settle (journal 4 0xFF 2 0 { s with med := { (closeOpen (fun k => !s.scanKey k) s.now s.med).startErases with
        path := some 0 } }))) ∧
  (∀ (s : State) (c m : Bool), s.firmware = true → s.pwr.flush = .idle → s.pwr.step = 5 → s.med.path = none →
    s.med.clean = false → s.pwr.short = none → s.ns = [] →
    ∃ u, exec (.rebuild c m []) s = .next (settle u) ∧
      u.med = { (closeOpen (fun k => !s.scanKey k) s.now s.med).startErases with path := some (if c && m && s.med.flushRec then 1 else 2) } ∧
      u.pwr = { s.pwr with unsafeOff := s.pwr.unsafeOff + 1 }) ∧
  (∀ (s : State) (path : Nat), s.firmware = true → s.pwr.flush = .idle → s.pwr.step = 5 → s.med.path = some path → s.compat = false →
    s.nv.late = [] →
    ∃ u, exec .rebuildDone s = .next (settle u) ∧ u = { s with med := u.med, bcn := u.bcn, pwr := u.pwr } ∧
      u.pwr = { s.pwr with step := 6, short := none } ∧ u.med.path = none ∧ u.med.content = s.med.content ∧
      u.bcn.seq = s.bcn.seqLimit ∧ u.bcn.seqLimit = s.bcn.seqLimit + 2 ^ 26 ∧ u.bcn.com.running = true ∧
      u.bcn.com.restart = true ∧ (∀ x ∈ s.med.marks[0]?, u.bcn.com.num = w64 x.num) ∧ u.bcn.net = s.bcn.net ∧
      (path ≠ 0 → u.med.ckptSeq = s.med.wseq))

/-- Held data is never lost to a complete flush (R161): for every slot that sound Held data occupies, NAND holds its bytes and
its write sequence when the flush-complete record is programmed. The premises are those of the stores: the data passes its CRC32C
(R371), the keys of Held data rise, and what DRAM holds of a slot is the newest of it (R166).
Completes, under the hypotheses on state and operands that its clauses name: flushCompleteRecord. -/
def Obligations.FlushKeepsHeld : Prop :=
  ∀ (s : State) (k : Nat) (x : HeldSlot), s.pwr.flush = .running → (k, x) ∈ s.med.held → x.err = 0 →
    (s.med.held.map fun p => p.1).Pairwise (· < ·) →
    (∀ y ∈ s.med.copies k, y.wseq ≤ x.wseq ∧ (y.wseq = x.wseq → y.data = x.data ∧ y.pi = x.pi)) →
    ∃ t, exec .flushCompleteRecord s = .next (settle t) ∧ ∃ y, look t.med.content k = some y ∧ y.data = x.data ∧ y.pi = x.pi ∧ y.wseq = x.wseq

/-- Power loss (R153, R161): with detection armed the detection stops the link, the queues, the Stalls and the Lots, keeps
every byte of Held data for the flush, and leaves NAND as it is; a second loss during the flush leaves it running to its end.
The flush and its end (R161, R163, R164, R173): its record is programmed once start-up has ended step 6, before which the
record of the last shutdown stays in force.
LOSS_DET (R155).
Completes, under the hypotheses on state and operands that its clauses name: bankCutoff, powerLossDetect, flushCompleteRecord, railReturnDuringFlush, detectRearm, lossDetArm, lossDet, earlyFlushEnd. -/
def Obligations.PowerLossRows : Prop :=
  ((∀ s : State, s.pwr.rail12 = true → s.pwr.watch ≠ .asleep → s.pwr.mainOn = true → 3 ≤ s.pwr.step → s.pwr.recovery = false →
    s.pwr.detect = true → s.pwr.flush = .idle → s.hb.busy = none →
    ∃ u, exec .powerLossDetect s = .next (settle u) ∧
      u.pwr = { s.pwr with rail12 := false, flush := .running, fatal := none, detect := false, early := false, watch := .awake
                           link := false, rearm := true } ∧
      u.hu = { s.hu with state := 2, measuring := false, flushing := false } ∧ u.nv.sqs = [] ∧ u.nv.cqs = [] ∧
      u.stalls = Vector.replicate 64 .reset ∧ u.lots = [] ∧ u.queries = [] ∧ u.waitq = [] ∧
      u.med = { s.med with pendMarks := u.med.pendMarks } ∧ u.bcn = s.bcn ∧ u.hb = s.hb ∧ u.acc = s.acc ∧
      u.bus = { s.bus with token := false } ∧ u.ram = s.ram ∧ u.keeper.nvme.session = none ∧ u.keeper.bus = s.keeper.bus) ∧
  (∀ s : State, s.pwr.watch = .asleep → exec .powerLossDetect s = .next (settle s)) ∧
  (∀ s : State, s.pwr.rail12 = true → s.pwr.watch ≠ .asleep → s.pwr.mainOn = true →
    (s.pwr.step < 3 ∨ s.pwr.recovery = true ∨ s.pwr.detect = false) → s.pwr.flush ≠ .railBack →
    ∃ t, exec .powerLossDetect s = .next (settle t) ∧ t.pwr.mainOn = false ∧ t.pwr.rail12 = false ∧
      (s.med.shadow = [] → t.med.content = s.med.content)) ∧
  (∀ s : State, s.pwr.rail12 = true → s.pwr.watch ≠ .asleep → s.pwr.mainOn = true → s.pwr.flush = .railBack →
    exec .powerLossDetect s = .next (settle { s with pwr := { s.pwr with rail12 := false, flush := .running }
                                                     bus := { s.bus with token := false } }))) ∧
  ((∀ s : State, s.pwr.flush = .running →
    ∃ t, exec .flushCompleteRecord s = .next (settle t) ∧ t.pwr.mainOn = false ∧ t.pwr.wasFlush = true ∧
      t.med.flushRec = (s.med.flushRec || decide (6 ≤ s.pwr.step)) ∧
      t.med.held = [] ∧ t.med.pendMarks = [] ∧ t.hu.bankMv < 2000 ∧ t.hb.flash = s.hb.flash ∧ t.acc.saved = s.acc.saved) ∧
  (∀ s : State, s.pwr.flush = .railBack → 6 ≤ s.pwr.step →
    ∃ t, exec .flushCompleteRecord s = .next (settle t) ∧ t.pwr.mainOn = true ∧ t.pwr.step = 2 ∧ t.med.clean = false ∧
      t.med.flushRec = true ∧ t.med.held = []) ∧
  (∀ (s : State) (k : Nat), s.pwr.flush = .running → 6 ≤ s.pwr.step → HeldSound s →
    ∃ t, exec (.bankCutoff k) s = .next (settle t) ∧ t.pwr.mainOn = false ∧ t.med.flushRec = false ∧ t.med.held = [] ∧
      t.pwr.short = some (ceilDiv (s.med.heldOrder.length - min k s.med.heldOrder.length) 256) ∧
      7800 ≤ t.hu.bankMv ∧ t.hu.bankMv ≤ 8200) ∧
  (∀ s : State, s.pwr.flush = .running →
    exec .railReturnDuringFlush s = .next (settle { s with pwr := { s.pwr with flush := .railBack, rail12 := true } })) ∧
  (∀ s : State, s.pwr.rail12 = true → s.firmware = true → s.pwr.flush = .idle → s.pwr.watch ≠ .asleep →
    exec .detectRearm s = .next (settle { s with pwr := { s.pwr with detect := true, rearm := false } }))) ∧
  ((∀ s : State, s.mainAwake = true →
    exec .lossDetArm s = .next (settle { s with pwr := { s.pwr with lossArmed := true, lossHigh := false } })) ∧
  (∀ s : State, s.mainAwake = true → s.pwr.lossArmed = true → s.pwr.lossHigh = false → s.med.held = [] →
    exec .lossDet s = .next (settle (raisePulse 258 0 0 { s with pwr := { s.pwr with lossHigh := true } }))) ∧
  (∀ s : State, s.operating = true → s.mainAwake = true → s.pwr.lossArmed = true → s.pwr.lossHigh = false → s.med.held ≠ [] →
    HeldSound s →
    ∃ u, exec .lossDet s = .next (settle u) ∧ u.pwr = { s.pwr with lossHigh := true, early := true } ∧
      u = { s with pwr := u.pwr, ev := u.ev, med := u.med } ∧ u.med.held = s.med.held ∧ u.med.content = s.med.content) ∧
  (∀ s : State, s.pwr.early = true →
    exec .earlyFlushEnd s = .next (settle { s with pwr := { s.pwr with
      early := false, lossHigh := s.pwr.lossHigh && s.med.held.isEmpty } })))

/-- A reading of a sensor that has thresholds and does not reach shutdown (R386, R387): the register takes it with a new
sequence number, the other sensors keep theirs, and the sensor's state follows the thresholds with their hysteresis.
Thermal enforcement (R389, R390, Table 14-12).
Thermal shutdown (R394, R395): its steps end with a clean shutdown and the main domain off, and a card held at start-up
step 3 goes on once it has cooled.
Completes, under the hypotheses on state and operands that its clauses name: sensorUpdate, shutdownSample, throttleGraceExpiry, enforcementSecond. -/
def Obligations.ThermalRows : Prop :=
  ((∀ (s : State) (k : Sensor) (v : Int) (c : Nat), s.mainAwake = true → s.therm.held = false → sensorClass (sensorIndex k) = some c →
    -960 ≤ v → v ≤ 2400 → v < s.limitOf c 3 →
    ∃ u, exec (.sensorUpdate k v false) s = .next (settle u) ∧
      u.therm.temp[sensorIndex k]? = s.therm.temp[sensorIndex k]?.map (fun m => m.publish v) ∧
      u.therm.bad[sensorIndex k]? = some false ∧
      u.therm.state[sensorIndex k]? = s.therm.state[sensorIndex k]?.map (fun st => thermLevel v (s.limitOf c) st) ∧
      (∀ j, j ≠ sensorIndex k → u.therm.temp[j]? = s.therm.temp[j]? ∧ u.therm.state[j]? = s.therm.state[j]?) ∧
      u.med = s.med ∧ u.ns = s.ns ∧ u.ram = s.ram ∧ u.bcn.net = s.bcn.net ∧ u.hb = s.hb) ∧
  (∀ (lim : Nat → Int) (r : Int), lim 1 ≤ lim 2 → lim 2 ≤ lim 3 → ∀ st, st ≤ 3 →
    (lim 3 ≤ r → thermLevel r lim st = 3) ∧ (r < lim 1 - 80 → thermLevel r lim st = 0) ∧
    (st = 2 → lim 2 - 80 ≤ r → r < lim 3 → thermLevel r lim st = 2) ∧
    (st = 0 → lim 1 ≤ r → r < lim 2 → thermLevel r lim st = 1))) ∧
  ((∀ s : State, s.mainAwake = true → s.therm.request = true → s.therm.graced = false →
    (s.anyAt 2 = false → exec .throttleGraceExpiry s = .next (settle { s with therm := { s.therm with graced := true } })) ∧
    (s.anyAt 2 = true → s.therm.cap = 0 →
      ∃ u, exec .throttleGraceExpiry s = .next (settle u) ∧ u.therm = { s.therm with graced := true, cap := 1 } ∧
        u.pwr.op.direct = false ∧ u = { s with therm := u.therm, pwr := u.pwr, stalls := u.stalls } ∧
        u.pwr = { s.pwr with op := u.pwr.op })) ∧
  (∀ s : State, s.mainAwake = true → s.therm.cap ≠ 0 → s.therm.cap ≤ 3 →
    ∃ u, exec .enforcementSecond s = .next (settle u) ∧
      u.therm.cap = (if s.anyAt 2 then min 3 (s.therm.cap + 1)
        else if (s.therm.coolSince.any fun t => decide (t + 1000000000 ≤ s.now)) && s.allBelow 2 5 then s.therm.cap - 1
        else s.therm.cap) ∧
      (s.anyAt 2 = true → u.therm.coolSince = none) ∧
      (∀ t ∈ s.therm.coolSince, u.therm.cap < s.therm.cap → u.therm.coolSince = some (t + 1000000000)) ∧
      (u.therm.cap = 0 → u.therm.request = false ∧ u.therm.graced = false) ∧
      (u.therm.cap ≠ 0 → u.therm.request = s.therm.request) ∧ u.therm.temp = s.therm.temp ∧ u.therm.state = s.therm.state ∧
      u = { s with therm := u.therm, pwr := u.pwr, stalls := u.stalls } ∧ u.pwr = { s.pwr with op := u.pwr.op })) ∧
  ((∀ s : State, s.therm.shutting = true → s.nv.inflight = [] → s.hb.busy = none → ∀ (c : Reading) (n : Vector Reading 8) (d h : Reading),
    ∃ u, exec (.shutdownSample c n d h) s = .next (settle u) ∧ u.pwr.mainOn = false ∧ u.therm.held = true ∧
      u.therm.shutting = false ∧ u.med.clean = true ∧ u.med.ckptSeq = s.med.wseq ∧ u.med.marks = s.med.marks ∧
      u.bcn.net = s.bcn.net ∧ u.acc.saved = s.acc.saved) ∧
  (∀ s : State, s.therm.shutting = false → s.therm.held = true → ∀ (c : Reading) (n : Vector Reading 8) (d h : Reading),
    exec (.shutdownSample c n d h) s =
      (let t := (takeSample (sampleOf c n d h) s).2
       if t.pwr.mainOn && t.cooled then .next (settle { t with therm := { t.therm with held := false } }) else .next (settle t))))

/-- The measurements of the bank (R158, R398 to R401). The energy of R400 is E = C (V_CHG² − 8.0²) / 2 less the loss of
the series resistance: with C in nF, ESR in µΩ and V_CHG in mV it is stored in µJ.
Ageing (R405, R409): each measurement of Δ publishes it and G never falls below min(30, 2 × ceil(Δ ÷ 4)) mV, and the
life terms are recomputed in one step, Life as the least of the three.
Completes, under the hypotheses on state and operands that its clauses name: capFail, chargeMeasurement, measurementComplete, siliconDelayMeasure, dischargeMeasurementDue, budgetFlushDone, lifeRecompute. -/
def Obligations.MeasurementRows : Prop :=
  ((∀ s : State, s.firmware = true → s.hu.measuring = true → ∀ tUs dv esr vchg : Nat, dv ≠ 0 →
    ∃ u, exec (.measurementComplete tUs dv esr vchg) s = .next (settle u) ∧ u.hu.cNf = 200000 * tUs / dv ∧ u.hu.esr = esr ∧
      u.hu.vchg = vchg ∧ u.hu.energy = energyOf (200000 * tUs / dv) esr vchg ∧ u.hu.measuring = false ∧
      u.hu.mEnergy = ⟨true, s.hu.mEnergy.seq + 1, u.hu.energy⟩ ∧ u.hu.budget = u.budgetNow ∧ u.hu.measHours = s.pwr.hours ∧
      u.hu.bankMv = vchg ∧ u = { s with hu := u.hu, health := u.health, ev := u.ev, med := u.med } ∧ u.med.content = s.med.content) ∧
  (∀ s : State, s.firmware = true → s.pwr.charging = true → s.hu.state = 0 → s.hu.midCharge = true → s.pwr.flush = .idle →
    s.pwr.watch ≠ .asleep → ∀ sv i t dv : Nat, sv ≤ 20000 → i ≠ 0 →
    ∃ u, exec (.chargeMeasurement sv i t dv) s = .next (settle u) ∧ u.hu.cNf = i * t / 10 ∧ u.hu.esr = dv * 1000000 / i ∧
      u.hu.vchg = s.hu.vchg ∧ u.hu.energy = energyOf (i * t / 10) (dv * 1000000 / i) s.hu.vchg ∧ u.hu.midCharge = false ∧
      u = { s with hu := u.hu, health := u.health, ev := u.ev, med := u.med } ∧ u.med.content = s.med.content) ∧
  (∀ s : State, s.firmware = true → s.hu.flushing = true → s.pwr.flush = .idle → HeldSound s →
    ∃ u, exec .budgetFlushDone s = .next (settle (startLowered (settleWrites u))) ∧ u.hu = { s.hu with flushing := false } ∧
      u.med = s.heldRefresh (s.med.programHeld 0 (s.med.heldOrder.take (s.med.held.length - s.budgetSlots))) ∧
      u = { s with hu := u.hu, med := u.med, health := u.health }) ∧
  (∀ s : State, s.firmware = true → s.pwr.watch = .asleep →
    exec .dischargeMeasurementDue s = .next (settle { s with hu := { s.hu with due := true } })) ∧
  (∀ s : State, s.firmware = true → s.pwr.watch ≠ .asleep → s.hu.state = 1 → s.hu.measuring = false → s.hu.lowered = none →
    s.pwr.flush = .idle → s.vb + 1500 ≤ s.hu.vchg →
    exec .dischargeMeasurementDue s = .next (settle { s with hu := { s.hu with measuring := true, due := false } })) ∧
  (∀ s : State, s.firmware = true → s.pwr.watch ≠ .asleep → s.hu.state ≠ 1 →
    exec .dischargeMeasurementDue s = .next (settle { s with hu := { s.hu with due := true } })) ∧
  (∀ (s : State) (n : Fin 6), s.mainAwake = true → bit s.hu.capOk n.val = true →
    ∃ u, exec (.capFail n) s = .next (settle u) ∧ bit u.hu.capOk n.val = false ∧
      u.hu.energy = s.hu.energy * (popcount 6 s.hu.capOk.toNat - 1 : Nat) / (popcount 6 s.hu.capOk.toNat : Int) ∧
      u.hu.measuring = false ∧ u.hu.due = true ∧ u.med.content = s.med.content ∧ u.ns = s.ns ∧ u.bcn = s.bcn)) ∧
  ((∀ (s : State) (d : Nat), s.firmware = true → s.pwr.watch ≠ .asleep →
    ∃ u, exec (.siliconDelayMeasure d) s = .next (settle u) ∧ u.health.delta = d ∧
      u.health.guardMax = max s.health.guardMax (min 30 (2 * ((d + 3) / 4))) ∧
      u.health.delay = s.health.delay.publish (min d 0xFFFF : Nat) ∧
      u.pwr.hours = (if s.health.delay.valid then s.pwr.hours + 1 else s.pwr.hours) ∧
      u.med = (if s.health.delay.valid then s.med.hourOlder else s.med) ∧
      u = { s with pwr := u.pwr, health := u.health, stalls := u.stalls, med := u.med }) ∧
  (∀ s : State, s.firmware = true → s.pwr.watch ≠ .asleep →
    ∃ u, exec .lifeRecompute s = .next (settle u) ∧ u = { s with health := u.health } ∧
      u.health.life = s.health.life.publish (min s.med.remaining (min s.med.sparesPct s.hu.remaining) : Nat) ∧
      u.health.media = s.health.media.publish s.med.remaining ∧ u.health.spares = s.health.spares.publish s.med.sparesPct ∧
      u.health.holdup = s.health.holdup.publish s.hu.remaining ∧
      u.health.hostTb = s.health.hostTb.publish (s.health.hostBytes / 1000000000000 : Nat) ∧
      s.health.warn &&& u.health.warn = s.health.warn))

/-- Entry to Watch and exit (R60, R172, R300, R377 to R381): nothing dirty is left at entry, a boost token is lost, the Beacon and
the Arcs go on as they were, exit brings back the state in force at entry, and after exit the next qualifying crossing commits.
Completes, under the hypotheses on state and operands that its clauses name: watchSample, watchEntry, watchExit, watchTimerExpiry, mainRailRemovalInWatch. -/
def Obligations.WatchRows : Prop :=
  (∀ s : State, s.watchReady = true →
    ∃ u, exec .watchEntry s = .next (settle u) ∧ u.pwr.watch = .asleep ∧ u.pwr.detect = false ∧ u.med.clean = true ∧
      u.pwr.before = s.opState ∧ u.bus = { s.bus with token := false } ∧ u.med.held = [] ∧ u.bcn = s.bcn ∧ u.ram = s.ram ∧ u.ns = s.ns ∧ u.acc = s.acc ∧ u.hb = s.hb ∧ u.lots = s.lots ∧
      u.pipes = s.pipes ∧ u.slots = s.slots ∧ (s.bus.token = false → u.stalls = s.stalls)) ∧
  (∀ s : State, s.pwr.watch = .asleep → s.pwr.wakeDue = true → s.pwr.rail12 = true → s.pwr.perst = false → s.pwr.link = true →
    s.nv.late = [] → s.queries = [] → ∃ u, exec .watchExit s = .next (settle u) ∧ u.pwr.watch = .awake ∧ u.pwr.wakeDue = false ∧ u.pwr.cmd = s.pwr.before ∧
      u.pwr.detect = true ∧ u.med.clean = false ∧ u.bcn.com.restart = true ∧ u.bcn.net = s.bcn.net ∧
      u.bcn.count = s.bcn.count ∧ u.bcn.arcs = s.bcn.arcs ∧ u.ram = s.ram ∧ u.ns = s.ns ∧ u.med.content = s.med.content) ∧
  (∀ (s : State) (c : Reading) (n : Vector Reading 8) (d h : Reading) (mv : Nat), s.pwr.watch = .asleep →
    (takeSample (sampleOf c n d h) { s with hu := { s.hu with bankMv := mv, mVolt := s.hu.mVolt.publish mv } }).1 = none →
    ∃ u, exec (.watchSample c n d h mv) s = .next (settle u) ∧ u.hu = { s.hu with bankMv := mv, mVolt := s.hu.mVolt.publish mv } ∧
      u.therm.samp.pos = s.bcn.pos ∧ u.therm.samp.hit &&& s.therm.samp.hit = s.therm.samp.hit ∧
      u.therm.samp.en = s.therm.samp.en ∧ u.therm.samp.lim = s.therm.samp.lim ∧ u.med = s.med ∧ u.ram = s.ram ∧ u.ns = s.ns) ∧
  (∀ s : State, s.pwr.watch = .asleep → s.pwr.watchTimer ≠ 0 → s.therm.held = false →
    exec .watchTimerExpiry s = .next (settle { s with pwr := { s.pwr with wakeSrc := putBit s.pwr.wakeSrc 4 true, wakeDue := true } })) ∧
  (∀ s : State, s.pwr.watch = .asleep →
    exec .mainRailRemovalInWatch s = .next (settle { s with pwr := { s.pwr with rail12 := false, charging := false, link := false } }))

/-- The fatal path (R370 to R372): a watchdog, a lockstep mismatch of the cores or the loss of the main clock sets its bit,
or an uncorrectable word of the map cache or the firmware area sets its bit and CSTS.CFS, a faulted pair of the flash translation
cores is excluded, and the Stalls, Lots and queries stop; Held data stays for the flush, after which start-up runs from step 3 as an
unclean start.
Faults that the card survives (Table 13-9): a mismatch of the ROM sequencer with nothing running, of an aux comparator or of
a unit sets its bit and nothing else; that of the checker also denies the access, which in the model is the next one that is
checked (the model's choice, notes/assumptions/89.md); a word that SECDED corrects and a failed training set their bits; Held data
in DRAM that is uncorrectable is lost and its LBA marked, and Held data that fails its CRC32C is found bad when it is programmed; the
loss of the aux clock also stops the Beacon in its fault state.
Completes, under the hypotheses on state and operands that its clauses name: watchdogExpiry, lockstepMismatch, clockLoss, fatalFlushDone. -/
def Obligations.SelfDetectedFaults : Prop :=
  ((∀ (s : State) (i : Instr) (f b : Nat) (k : Fin 4) (out : BitVec 4), (i, f, b, out) ∈ [
      (Instr.watchdogExpiry (.translation k), 0x20, 3, putBit s.pwr.pairsOut k.val true),
      (.watchdogExpiry .management, 0x21, 3, s.pwr.pairsOut),
      (.lockstepMismatch (.cores (.translation k)), 0x20, 2, putBit s.pwr.pairsOut k.val true),
      (.lockstepMismatch (.cores .management), 0x21, 2, s.pwr.pairsOut),
      (.lockstepMismatch (.eccUncorr 0x20 .core), 0x20, 1, s.pwr.pairsOut), (.clockLoss .main, 2, 5, s.pwr.pairsOut)] →
    s.pwr.mainOn = true → s.pwr.auxOn = true → s.pwr.recovery = false → s.pwr.watch ≠ .asleep → s.pwr.fatal = none →
    s.pwr.flush = .idle → s.hb.busy = none →
    ∃ u, exec i s = .next (settle u) ∧ u.pwr = { s.pwr with fatal := some (32 * f + b), early := false, watch := .awake, pairsOut := out } ∧
      bit (u.frameStatus f) b = true ∧ u.nv = { s.nv with cfs := true } ∧ u.stalls = Vector.replicate 64 .reset ∧
      u.lots = [] ∧ u.queries = [] ∧ u.med = { s.med with pendMarks := u.med.pendMarks } ∧ u.bcn = s.bcn ∧ u.hb = s.hb ∧
      u.ram = s.ram ∧ u.bus = s.bus) ∧
  (∀ s : State, s.pwr.fatal ≠ none → 6 ≤ s.pwr.step →
    ∃ u, exec .fatalFlushDone s = .next (settle u) ∧ u.pwr.fatal = none ∧ u.pwr.mainOn = true ∧ u.pwr.step = 2 ∧
      u.pwr.link = false ∧ u.med.clean = false ∧ u.med.flushRec = true ∧ u.hb.flash = s.hb.flash ∧ u.bcn.net = s.bcn.net)) ∧
  ((∀ s : State, s.mainAwake = true → s.hb.busy = none → s.bus.held = none →
    exec (.lockstepMismatch .romSequencer) s = .next (settle (raiseFault 3 3 s))) ∧
  (∀ s : State, s.mainAwake = true →
    exec (.lockstepMismatch .checker) s = .next (settle (raiseFault 4 2 { s with acc := { s.acc with mismatch := true } }))) ∧
  (∀ (s : State) (m : Master) (nsid lo hi : Nat) (needs : List Nat), s.acc.mismatch = true →
    mediaAccess m nsid needs lo hi s = (false, { s with acc := { s.acc with mismatch := false } })) ∧
  (∀ s : State, exec (.lockstepMismatch .beaconAux) s = .next (settle (raiseFault 0 8 s)) ∧
    exec (.lockstepMismatch .samplerAux) s = .next (settle (raiseFault 2 7 s))) ∧
  (∀ (s : State) (f : Fin 64), s.mainAwake = true → 0x28 ≤ f.val → f.val ≤ 0x36 →
    exec (.lockstepMismatch (.unit f)) s = .next (settle (raiseFault f.val 2 s))) ∧
  (∀ (s : State) (f : Fin 64) (b : Nat), s.mainAwake = true → eccBit f.val 0 = some b →
    exec (.lockstepMismatch (.eccCorr f)) s = .next (settle (raiseFault f.val b s))) ∧
  (∀ s : State, s.mainAwake = true → exec (.lockstepMismatch .training) s = .next (settle (raiseFault 0x22 2 s))) ∧
  (∀ (s : State) (f : Fin 64) (nsid lba b : Nat) (x : HeldSlot), s.mainAwake = true → look s.med.held (slotKey nsid lba) = some x →
    (eccBit f.val 1 = some b →
      ∃ u, exec (.lockstepMismatch (.eccUncorr f (.held nsid lba))) s = .next (settle u) ∧
        look u.med.held (slotKey nsid lba) = none ∧ slotKey nsid lba ∈ u.med.unrec ∧ u.med.content = s.med.content ∧ u.ns = s.ns ∧
        u.nv = s.nv) ∧
    (eccBit f.val 2 = some b → ∀ again : Bool,
      ∃ u, exec (.lockstepMismatch (.e2eCrc f (.held nsid lba) again)) s = .next (settle u) ∧
        look u.med.held (slotKey nsid lba) = some { x with err := 1 } ∧ u.med.content = s.med.content ∧ u.med.unrec = s.med.unrec ∧
        u.ns = s.ns ∧ u.nv = s.nv)) ∧
  (∀ s : State, s.beaconOn = true → s.bcn.code = 0 →
    ∃ u, exec (.clockLoss .aux) s = .next (settle u) ∧ u.bcn.code = 6 ∧ bit (u.frameStatus 2) 6 = true ∧
      u.bcn.net = s.bcn.net ∧ u.bcn.count = s.bcn.count ∧ u.med = s.med ∧ u.ns = s.ns) ∧
  (∀ (s : State) (f b : Nat), s.frameOn f = true → bit (frameBits f) b = true → b < 32 → f < 64 → bit ((raiseFault f b s).frameStatus f) b = true))

/-- PERST#, the link and resets (R108, R109, R380): in Watch PERST# wakes the card; else the loss of the link or a reset ends
the controller, deletes its queues and puts its features back, and leaves the media, the records, the Beacon and the rules as
they are when no command is in flight and no query waits for its Lots.
Completes, under the hypotheses on state and operands that its clauses name: perstAssert, linkDown, perstRelease, controllerReset, functionLevelReset. -/
def Obligations.LinkAndResetRows : Prop :=
  (∀ s : State, s.pwr.watch = .asleep → s.therm.held = false →
    exec .perstAssert s = .next (settle { s with pwr := { s.pwr with
      perst := true, link := false, wakeSrc := putBit s.pwr.wakeSrc 1 true, wakeDue := true } })) ∧
  (∀ s : State, s.firmware = true → s.pwr.watch ≠ .asleep → s.pwr.flush = .idle →
    exec .perstRelease s = .next (settle { s with pwr := { s.pwr with perst := false, link := true } })) ∧
  (∀ (s : State) (i : Instr), i = .perstAssert ∨ i = .linkDown → s.pwr.mainOn = true → s.pwr.rail12 = true →
    s.pwr.watch ≠ .asleep → s.pwr.fatal = none → s.pwr.flush = .idle → (i = .linkDown → s.pwr.link = true) → s.nv.inflight = [] →
    (∀ q ∈ s.queries, q.pipe = none → q.state ≠ .waiting) →
    ∃ u, exec i s = .next (settle u) ∧ u.pwr.link = false ∧ u.nv.en = false ∧ u.nv.rdy = false ∧ u.nv.sqs = [] ∧ u.nv.cqs = [] ∧
      u.nv.feat = .reset ∧ u.pwr.cmd = 0 ∧ u.keeper.nvme.session = none ∧ u.keeper.bus = s.keeper.bus ∧
      (i = .linkDown → bit (u.frameStatus 8) 4 = true) ∧ u.med = s.med ∧ u.ns = s.ns ∧ u.slots = s.slots ∧ u.pipes = s.pipes ∧
      u.lots = s.lots ∧ u.ram = s.ram ∧ u.acc = s.acc ∧ u.bcn = s.bcn) ∧
  (∀ (s : State) (i : Instr), i = .controllerReset ∨ i = .functionLevelReset → Up s → s.pwr.link = true → s.nv.en = true →
    s.nv.inflight = [] →
    ∃ u, exec i s = .next (settle u) ∧ u = { s with nv := u.nv, therm := u.therm, keeper := u.keeper, pwr := u.pwr, stalls := u.stalls } ∧
      u.nv.en = false ∧ u.nv.rdy = false ∧ u.nv.cfs = false ∧ u.nv.sqs = [] ∧ u.nv.cqs = [] ∧ u.nv.feat = .reset ∧
      u.nv.shst = 0 ∧ u.pwr.cmd = 0 ∧ u.pwr.link = true ∧ u.therm.temp = s.therm.temp ∧
      u.therm.warnSet = Vector.replicate 3 none ∧ u.keeper.nvme.session = none ∧ u.keeper.armed = [] ∧ u.keeper.bus = s.keeper.bus)

/-- Enabling (R97, Table 4-7) and shutdown (R110): AMS 000 and 001 enable with an empty admin queue pair of the sizes of AQA,
any other AMS sets CFS, which a reset then ends; a shutdown begins, whatever CC.EN is, and with no command to wait for it ends at once with a clean shutdown. Before start-up
step 6 has ended, and in Watch, which it wakes, what the host writes waits (R113, R183).
Completes, under the hypotheses on state and operands that its clauses name: controllerEnable, shutdownNotification. -/
def Obligations.EnableAndShutdownRows : Prop :=
  (∀ (s : State) (ams : BitVec 3) (aqa : W32) (asq acq : W64), Up s → s.pwr.link = true → s.nv.en = false → s.ready = false →
    ams.toNat ≤ 1 →
    ∃ u, exec (.controllerEnable ams aqa asq acq) s = .next (settle u) ∧ u = { s with nv := u.nv } ∧ u.nv.en = true ∧
      u.nv.rdy = true ∧ u.nv.cfs = false ∧ u.nv.shst = 0 ∧ u.nv.ams = ams.toNat ∧ u.nv.aqa = aqa ∧ u.nv.asq = asq ∧ u.nv.acq = acq ∧
      (∃ q, look u.nv.sqs 0 = some q ∧ q.size = fld aqa 11 0 + 1 ∧ q.cq = 0 ∧ q.tail = 0 ∧ q.waiting = []) ∧
      (∃ q, look u.nv.cqs 0 = some q ∧ q.size = fld aqa 27 16 + 1 ∧ q.vector = 0 ∧ q.posted = [] ∧ q.head = 0) ∧
      u.nv.feat = s.nv.feat) ∧
  (∀ (s : State) (ams : BitVec 3) (aqa : W32) (asq acq : W64), Up s → s.pwr.link = true → s.nv.en = false → s.ready = false →
    1 < ams.toNat →
    exec (.controllerEnable ams aqa asq acq) s =
      .next (settle { s with nv := { s.nv with en := true, cfs := true, ams := ams.toNat } })) ∧
  (∀ (s : State) (shn : BitVec 2), Up s → s.pwr.link = true → s.nv.shst = 0 → shn = 1 ∨ shn = 2 →
    exec (.shutdownNotification shn) s = .next (settle { s with nv := { s.nv with shst := 1, shn := shn.toNat } })) ∧
  (∀ (s : State) (i : Instr) (w : HostWrite), (i, w) ∈ [(.controllerReset, .reset), (.functionLevelReset, .flr)] ∨
      (∃ ams aqa asq acq, i = .controllerEnable ams aqa asq acq ∧ w = .enable ams.toNat aqa asq acq) ∨
      (∃ shn, i = .shutdownNotification shn ∧ w = .shutdown shn.toNat) → s.pwr.link = true →
    (s.firmware = true → s.pwr.step < 6 → s.pwr.flush = .idle → s.pwr.watch ≠ .asleep →
      exec i s = .next (settle { s with nv := { s.nv with late := s.nv.late ++ [w] } })) ∧
    (s.pwr.mainOn = true → s.pwr.watch = .asleep → s.therm.held = false →
      exec i s = .next (settle { s with nv := { s.nv with late := s.nv.late ++ [w] }
                                        pwr := { s.pwr with wakeSrc := putBit s.pwr.wakeSrc 1 true, wakeDue := true } }))) ∧
  (∀ (s : State) (shn : BitVec 2), Up s → s.pwr.link = true → s.nv.shst = 0 → shn = 1 ∨ shn = 2 → s.nv.inflight = [] →
    ∃ t, exec (.shutdownNotification shn) s = .next t ∧ t.nv.shst = 2 ∧ t.nv.wtHold = true ∧ t.med.clean = true ∧ t.med.held = [] ∧
      t.med.ckptSeq = s.med.wseq)

/-- Doorbells (R89, R113, Table 13-4): a tail brings the entries between the old tail and the new; a head frees the entries
read; a doorbell of a queue that does not exist sets its bit; in Watch a doorbell is stored and wakes the card.
Fetching (R98 to R103): the admin queue goes first; the command at the head of the queue picked enters with its locks in
the fetch order, and leaves the queue; a command whose locks do not fit the table waits, and its queue keeps the turn.
Completes, under the hypotheses on state and operands that its clauses name: doorbellWrite, coalescingTimeExpiry, commandFetch. -/
def Obligations.FetchRows : Prop :=
  ((∀ (s : State) (y : Byte) (v : W32) (es : List Submission) (q : SubQueue), s.pwr.mainOn = true → s.pwr.watch ≠ .asleep →
    s.pwr.link = true → look s.nv.sqs y.toNat = some q → s.deleting y.toNat = false → fld v 15 0 < q.size →
    es.length = (fld v 15 0 + q.size - q.tail) % q.size →
    exec (.doorbellWrite false y v es) s = .next (settle { s with nv := { s.nv with
      sqs := put s.nv.sqs y.toNat { q with tail := fld v 15 0, waiting := q.waiting ++ es } } })) ∧
  (∀ (s : State) (y : Byte) (v : W32) (es : List Submission) (q : CompQueue), s.pwr.mainOn = true → s.pwr.watch ≠ .asleep →
    s.pwr.link = true → look s.nv.cqs y.toNat = some q → fld v 15 0 < q.size →
    (fld v 15 0 + q.size - q.head) % q.size ≤ q.posted.length →
    exec (.doorbellWrite true y v es) s = .next (settle { s with nv := { s.nv with
      cqs := put s.nv.cqs y.toNat { q with head := fld v 15 0, posted := q.posted.drop ((fld v 15 0 + q.size - q.head) % q.size) } } })) ∧
  (∀ (s : State) (y : Byte) (v : W32) (es : List Submission), s.pwr.mainOn = true → s.pwr.watch ≠ .asleep → s.pwr.link = true →
    look s.nv.sqs y.toNat = none →
    ∃ u, exec (.doorbellWrite false y v es) s = .next (settle u) ∧ bit (u.frameStatus 8) 5 = true ∧ u.nv.sqs = s.nv.sqs ∧
      u.ns = s.ns ∧ u.med = s.med) ∧
  (∀ (s : State) (y : Byte) (v : W32) (es : List Submission) (q : SubQueue), s.pwr.mainOn = true → s.pwr.watch = .asleep →
    s.pwr.link = true → s.therm.held = false → look s.nv.sqs y.toNat = some q → s.deleting y.toNat = false → fld v 15 0 < q.size →
    es.length = (fld v 15 0 + q.size - q.tail) % q.size →
    exec (.doorbellWrite false y v es) s = .next (settle { s with
      nv := { s.nv with sqs := put s.nv.sqs y.toNat { q with tail := fld v 15 0, waiting := q.waiting ++ es } }
      pwr := { s.pwr with wakeSrc := putBit s.pwr.wakeSrc 1 true, wakeDue := true } })) ∧
  (∀ (s : State) (y : Byte), exec (.coalescingTimeExpiry y) s = .next (settle { s with nv := { s.nv with
    cqs := adjust s.nv.cqs y.toNat fun q => if q.irqs && decide (q.unsent ≠ 0) then { q with irq := true } else q } }))) ∧
  ((∀ s : State, s.fetchable 0 = true → pickQueue s = some (0, s.nv.arb)) ∧
  (∀ (s : State) (q : Nat) (arb : Arbiter) (c : Cmd), s.fetching = true → pickQueue s = some (q, arb) → (q ≠ 0 → s.fetchingIo = true) →
    headCmd s q = some c → 1024 < s.locksUsed + (locksOf s c).length →
    exec .commandFetch s = .next (settle { s with nv := { s.nv with arb := { s.nv.arb with stuck := some q } } })) ∧
  (∀ (s : State) (arb : Arbiter) (c : Cmd), s.fetching = true → pickQueue s = some (0, arb) → headCmd s 0 = some c →
    s.locksUsed ≤ 1024 → s.keeper.armed = [] → checkAdmin c s = none → (∀ x ∈ s.nv.inflight, x.h < s.nv.next) →
    ∃ u, exec .commandFetch s = .next (settle u) ∧ u = { s with nv := u.nv } ∧ u.nv.next = s.nv.next + 1 ∧
      u.nv.inflight = s.nv.inflight ++ [{ c with locks := [], keeper := false, granted := true }] ∧
      u.nv.sqs = adjust s.nv.sqs 0 (fun x => { x with waiting := x.waiting.drop 1 }) ∧ u.nv.cqs = s.nv.cqs) ∧
  (∀ (s : State) (q : Nat) (arb : Arbiter) (c c' : Cmd) (u : State), s.fetching = true → pickQueue s = some (q, arb) → q ≠ 0 →
    s.fetchingIo = true → headCmd s q = some c → s.locksUsed + (locksOf s c).length ≤ 1024 → s.keeper.armed = [] →
    c' = { c with locks := locksOf s c, granted := s.lockFree { c with locks := locksOf s c } } →
    u = { s with nv := { s.nv with arb := { arb with stuck := none }, next := s.nv.next + 1, inflight := s.nv.inflight ++ [c']
                                   sqs := adjust s.nv.sqs q fun x => { x with waiting := x.waiting.drop 1 } } } →
    (∀ v, checkIo c' u = (none, v) → exec .commandFetch s = .next (settle v)) ∧
    (∀ v sct sc, checkIo c' u = (some (sct, sc), v) → exec .commandFetch s = .next (settle (fail c.h sct sc v)))) ∧
  (∀ (s : State) (q : Nat) (c : Cmd), headCmd s q = some c → c.h = s.nv.next ∧ c.qid = q ∧ c.bound = s.bcn.seq ∧ c.net = s.bcn.net ∧
    c.begun = false ∧ c.phase = .ready ∧ c.epoch = s.acc.epoch))

/-- Range locks (R101, R102): two locks overlap when they are in the same namespace, their ranges share an LBA, and one of
them is exclusive; a command is granted once none of its locks overlaps one of a command fetched before it.
Completes, under the hypotheses on state and operands that its clauses name: rangeLockGrant. -/
def Obligations.RangeLocks : Prop :=
  (∀ x y : Lock, x.lo ≤ x.hi → y.lo ≤ y.hi →
    (x.overlaps y = true ↔ x.nsid = y.nsid ∧ (∃ l, x.lo ≤ l ∧ l ≤ x.hi ∧ y.lo ≤ l ∧ l ≤ y.hi) ∧ (x.excl = true ∨ y.excl = true))) ∧
  (∀ (s : State) (h : Nat) (c : Cmd), s.cmd h = some c → s.lockFree c = true →
    exec (.rangeLockGrant h) s = .next (settle (s.modCmd h fun c => { c with granted := true }))) ∧
  (∀ (s : State) (h : Nat) (c x : Cmd) (l m : Lock), s.cmd h = some c → x ∈ s.nv.inflight → x.h < c.h → l ∈ x.locks → m ∈ c.locks →
    l.overlaps m = true → exec (.rangeLockGrant h) s = .next (settle s)) ∧
  (∀ (s : State) (c : Cmd) (n : Ns), c.qid ≠ 0 → s.active c.nsid = some n → n.stream = false → c.opc = 0x01 ∨ c.opc = 0x02 →
    locksOf s c = [⟨c.nsid, c.slba, c.slba + c.blocks - 1, c.opc == 0x01⟩]) ∧
  (∀ (s : State) (c : Cmd) (n : Ns), s.active c.nsid = some n → n.stream = true → locksOf s c = [])

/-- A completion: the command leaves the card, the entry is the newest of its completion queue, with the status, DW0, DW1
and the data, and nothing outside the controller changes (R99, R102, R115). -/
def Obligations.CompletionPosts : Prop :=
  ∀ (s : State) (h sct sc : Nat) (d0 d1 : W32) (data : List Byte) (c : Cmd) (sq : SubQueue) (q : CompQueue), s.cmd h = some c →
    s.pwr.fatal = none → look s.nv.sqs c.qid = some sq → look s.nv.cqs sq.cq = some q → (∀ x ∈ s.nv.inflight, x.phase ≠ .deleting) →
    complete h sct sc d0 d1 data s = { s with nv := (complete h sct sc d0 d1 data s).nv } ∧
    (complete h sct sc d0 d1 data s).nv.inflight = s.nv.inflight.filter (fun x => x.h != h) ∧
    (complete h sct sc d0 d1 data s).nv.sqs = s.nv.sqs ∧
    ∃ q', look (complete h sct sc d0 d1 data s).nv.cqs sq.cq = some q' ∧
      q'.posted = q.posted ++ [⟨c.qid, c.cid, sct, sc, dnrOf sct sc, d0, d1, data⟩] ∧ q'.size = q.size ∧ q'.head = q.head

/-- Creating and deleting I/O queues (R97, R107), and Abort, which finds nothing to abort (R95).
Log pages, Identify, asynchronous event requests and the self-test (R94, R114). The journal page and Identify Controller
are named; the other pages and structures complete in the same form. With RAE = 0 a read of a page unmasks its event.
Completes, under the hypotheses on state and operands that its clauses name: createIoSq, deleteIoSq, createIoCq, deleteIoCq, getLogPage, identify, abort, asynchronousEventRequest, deviceSelfTest. -/
def Obligations.QueueAndReportRows : Prop :=
  ((∀ (s : State) (h : Nat) (c : Cmd), s.admin h 0x05 = some c → 1 ≤ c.queueId → c.queueId ≤ 255 → look s.nv.cqs c.queueId = none →
    2 ≤ c.queueSize → bit (c.dword 11) 0 = true → fld (c.dword 11) 31 16 ≤ 255 →
    exec (.createIoCq h) s = .next (settle (succeed h { s with nv := { s.nv with
      cqs := put s.nv.cqs c.queueId ⟨c.queueSize, fld (c.dword 11) 31 16, bit (c.dword 11) 1, 0, [], 0, false⟩ } }))) ∧
  (∀ (s : State) (h : Nat) (c : Cmd), s.admin h 0x01 = some c → 1 ≤ c.queueId → c.queueId ≤ 255 → look s.nv.sqs c.queueId = none →
    1 ≤ fld (c.dword 11) 31 16 → fld (c.dword 11) 31 16 ≤ 255 → (look s.nv.cqs (fld (c.dword 11) 31 16)).isSome = true →
    2 ≤ c.queueSize → bit (c.dword 11) 0 = true →
    exec (.createIoSq h) s = .next (settle (succeed h { s with nv := { s.nv with
      sqs := put s.nv.sqs c.queueId ⟨c.queueSize, fld (c.dword 11) 31 16, fld (c.dword 11) 2 1, 0, [], none⟩ } }))) ∧
  (∀ (s : State) (h : Nat) (c : Cmd), s.admin h 0x04 = some c → c.queueId ≠ 0 → (look s.nv.cqs c.queueId).isSome = true →
    (∀ x ∈ s.nv.sqs, x.2.cq ≠ c.queueId) →
    exec (.deleteIoCq h) s = .next (settle (succeed h { s with nv := { s.nv with cqs := del s.nv.cqs c.queueId } }))) ∧
  (∀ (s : State) (h : Nat) (c : Cmd) (q : SubQueue), s.admin h 0x00 = some c → c.queueId ≠ 0 → look s.nv.sqs c.queueId = some q →
    s.deleting c.queueId = false → (∀ x ∈ s.nv.inflight, x.qid ≠ c.queueId ∧ x.phase ≠ .deleting) →
    ∃ u, exec (.deleteIoSq h) s = .next (settle u) ∧ u = { s with nv := u.nv } ∧ look u.nv.sqs c.queueId = none ∧
      (∀ k, k ≠ c.queueId → look u.nv.sqs k = look s.nv.sqs k) ∧ (∀ x ∈ u.nv.inflight, x.h ≠ h)) ∧
  (∀ (s : State) (h : Nat) (c : Cmd), s.admin h 0x08 = some c → exec (.abort h) s = .next (settle (complete h 0 0 1 0 [] s)))) ∧
  ((∀ (s : State) (h : Nat) (c : Cmd), s.admin h 0x02 = some c → fld (c.dword 10) 7 0 = 0xC4 →
    ∃ u, u = complete h 0 0 0 0
      (s.journalPage (c.q64 12) (4 * (fld (c.dword 10) 31 16 + fld (c.dword 11) 15 0 * 65536 + 1))) s ∧
    exec (.getLogPage h) s = .next (settle (if bit (c.dword 10) 15 then u else pageRead 0xC4 u))) ∧
  (∀ (s t : State) (h : Nat) (c : Cmd) (page : List Byte), s.admin h 0x02 = some c → fld (c.dword 10) 7 0 ≠ 0xC4 →
    s.logPage (fld (c.dword 10) 7 0) c.keeper = some (page, t) → (fld (c.dword 10) 7 0 = 2 → c.nsid = 0 ∨ c.nsid = 0xFFFFFFFF) →
    c.q64 12 ≤ page.length →
    ∃ u, u = complete h 0 0 0 0
      ((page.drop (c.q64 12)).take (4 * (fld (c.dword 10) 31 16 + fld (c.dword 11) 15 0 * 65536 + 1))) t ∧
    exec (.getLogPage h) s = .next (settle (if bit (c.dword 10) 15 then u else pageRead (fld (c.dword 10) 7 0) u))) ∧
  (∀ (s : State) (h : Nat) (c : Cmd), s.admin h 0x06 = some c →
    (fld (c.dword 10) 7 0 = 0x01 → exec (.identify h) s = .next (settle (complete h 0 0 0 0 s.identifyController s))) ∧
    (∀ n, fld (c.dword 10) 7 0 = 0x00 → s.compat = false → 1 ≤ c.nsid → c.nsid ≤ 64 → s.active c.nsid = some n →
      exec (.identify h) s = .next (settle (complete h 0 0 0 0 (s.identifyNs c.nsid n) s))) ∧
    (fld (c.dword 10) 7 0 = 0x00 → s.compat = false → 1 ≤ c.nsid → c.nsid ≤ 64 → s.active c.nsid = none →
      exec (.identify h) s = .next (settle (complete h 0 0 0 0 (List.replicate 4096 0) s))) ∧
    (fld (c.dword 10) 7 0 = 0x02 → s.compat = false → c.nsid < 0xFFFFFFFE →
      exec (.identify h) s = .next (settle (complete h 0 0 0 0
        (nsList ((s.ns.map fun x => x.1).filter fun x => (s.active x).isSome) c.nsid) s)))) ∧
  (∀ (s : State) (h : Nat) (c : Cmd), s.admin h 0x0C = some c → (s.nv.inflight.filter fun x => x.phase == .event).length < 16 →
    s.nv.events = [] →
    exec (.asynchronousEventRequest h) s = .next (settle (s.modCmd h fun x => { x with phase := .event }))) ∧
  (∀ (s : State) (h : Nat) (c : Cmd), s.admin h 0x14 = some c →
    ∃ u r, exec (.deviceSelfTest h) s = .next (settle (succeed h u)) ∧ u = { s with nv := u.nv } ∧
      u.nv = { s.nv with tests := u.nv.tests } ∧ u.nv.tests[0]? = some (r, s.pwr.hours)))

/-- Features (R93, R94, R96, R112, R387, R412, Table 4-6): each Set Features stores its field and nothing else, and Get
Features returns it.
Completes, under the hypotheses on state and operands that its clauses name: setFeaturesArbitration, setFeaturesPowerManagement, setFeaturesTemperatureThreshold, setFeaturesErrorRecovery, setFeaturesVolatileWriteCache, setFeaturesNumberOfQueues, setFeaturesInterruptCoalescing, setFeaturesInterruptVectorConfig, setFeaturesWriteAtomicity, setFeaturesAsyncEventConfig, getFeatures. -/
def Obligations.FeatureRows : Prop :=
  (∀ (s : State) (h : Nat) (c : Cmd),
    (s.feature h 0x01 = some c → exec (.setFeaturesArbitration h) s = .next (settle (succeed h { s with nv := { s.nv with
      feat := { s.nv.feat with arb := c.dword 11 &&& 0xFFFFFF07 } } }))) ∧
    (s.feature h 0x05 = some c → exec (.setFeaturesErrorRecovery h) s = .next (settle (succeed h { s with nv := { s.nv with
      feat := { s.nv.feat with errRec := c.dword 11 } } }))) ∧
    (s.feature h 0x06 = some c → bit (c.dword 11) 0 = true →
      exec (.setFeaturesVolatileWriteCache h) s = .next (settle (succeed h s))) ∧
    (s.feature h 0x06 = some c → bit (c.dword 11) 0 = false →
      exec (.setFeaturesVolatileWriteCache h) s = .next (settle (invalidField h s))) ∧
    (s.feature h 0x07 = some c → exec (.setFeaturesNumberOfQueues h) s = .next (settle (complete h 0 0 0x00FE00FE 0 [] s))) ∧
    (s.feature h 0x08 = some c → exec (.setFeaturesInterruptCoalescing h) s = .next (settle (succeed h { s with nv := { s.nv with
      feat := { s.nv.feat with coal := c.dword 11 &&& 0xFFFF } } }))) ∧
    (s.feature h 0x09 = some c → fld (c.dword 11) 15 0 ≤ 255 →
      exec (.setFeaturesInterruptVectorConfig h) s = .next (settle (succeed h { s with nv := { s.nv with
        feat := { s.nv.feat with vecOff := putBit s.nv.feat.vecOff (fld (c.dword 11) 15 0) (bit (c.dword 11) 16) } } }))) ∧
    (s.feature h 0x0A = some c → exec (.setFeaturesWriteAtomicity h) s = .next (settle (succeed h { s with nv := { s.nv with
      feat := { s.nv.feat with atomic := c.dword 11 &&& 1 } } }))) ∧
    (s.feature h 0x0B = some c → exec (.setFeaturesAsyncEventConfig h) s = .next (settle (succeed h { s with nv := { s.nv with
      feat := { s.nv.feat with async := c.dword 11 } } })))) ∧
  (∀ (s : State) (h : Nat) (c : Cmd), s.feature h 0x02 = some c → fld (c.dword 11) 4 0 ≤ 3 → fld (c.dword 11) 7 5 = 0 →
    ∃ u, exec (.setFeaturesPowerManagement h) s = .next (settle u) ∧ u.pwr.cmd = fld (c.dword 11) 4 0 ∧ u.pwr.watch = .awake ∧
      u.pwr.hostPs4 = false ∧ u = { s with pwr := u.pwr, nv := u.nv, stalls := u.stalls } ∧ (∀ x ∈ u.nv.inflight, x.h ≠ h)) ∧
  (∀ (s : State) (h : Nat) (c : Cmd), s.feature h 0x02 = some c → fld (c.dword 11) 4 0 = 4 → fld (c.dword 11) 7 5 = 0 →
    exec (.setFeaturesPowerManagement h) s = .next (settle ({ s with pwr := { s.pwr with
      before := if s.pwr.cmd = 4 then s.pwr.before else s.pwr.cmd, cmd := 4, watch := .requested, hostPs4 := true } }.modCmd h fun x => { x with phase := .watch }))) ∧
  (∀ (s : State) (h : Nat) (c : Cmd) (sel cls : Nat), s.feature h 0x04 = some c → fld (c.dword 11) 19 16 = sel →
    fld (c.dword 11) 21 20 = 0 → (sel, cls) ∈ [(0, 1), (1, 0), (3, 2)] →
    (((fld (c.dword 11) 15 0 : Nat) : Int) ≤ s.warnDefault cls + 273 →
      exec (.setFeaturesTemperatureThreshold h) s = .next (settle (succeed h { s with therm := { s.therm with
        warnSet := vput s.therm.warnSet (warnIndex cls) (some ((fld (c.dword 11) 15 0 : Nat) : Int)) } }))) ∧
    (s.warnDefault cls + 273 < ((fld (c.dword 11) 15 0 : Nat) : Int) →
      exec (.setFeaturesTemperatureThreshold h) s = .next (settle (invalidField h s)))) ∧
  (∀ (s : State) (h : Nat) (c : Cmd), s.feature h 0x04 = some c → fld (c.dword 11) 19 16 ≤ 3 → fld (c.dword 11) 21 20 = 1 →
    exec (.setFeaturesTemperatureThreshold h) s = .next (settle (succeed h { s with therm := { s.therm with
      evtUnder := vput s.therm.evtUnder (fld (c.dword 11) 19 16) (some ((fld (c.dword 11) 15 0 : Nat) : Int)) } }))) ∧
  (∀ (s : State) (h : Nat) (c : Cmd), s.admin h 0x0A = some c →
    (fld (c.dword 10) 7 0 = 0x01 → exec (.getFeatures h) s = .next (settle (complete h 0 0 s.nv.feat.arb 0 [] s))) ∧
    (fld (c.dword 10) 7 0 = 0x02 → exec (.getFeatures h) s = .next (settle (complete h 0 0 (w32 s.pwr.cmd) 0 [] s))) ∧
    (fld (c.dword 10) 7 0 = 0x06 → exec (.getFeatures h) s = .next (settle (complete h 0 0 1 0 [] s))) ∧
    (fld (c.dword 10) 7 0 = 0x0B → exec (.getFeatures h) s = .next (settle (complete h 0 0 s.nv.feat.async 0 [] s))) ∧
    (∀ v, s.featureValue (fld (c.dword 10) 7 0) (c.dword 11) = some v →
      exec (.getFeatures h) s = .next (settle (complete h 0 0 v 0 [] s))) ∧
    (0x0C ≤ fld (c.dword 10) 7 0 → exec (.getFeatures h) s = .next (settle (invalidField h s))))

/-- Namespace Management and Attachment (R64, R65, R357): a create makes the namespace of the buffer under the lowest free
NSID with its world bit in every set; a delete takes the namespace away and cuts the outputs that name it; attachment changes
only its own bit.
Completes, under the hypotheses on state and operands that its clauses name: namespaceCreate, namespaceDelete, namespaceAttachment. -/
def Obligations.NamespaceRows : Prop :=
  (∀ (s : State) (h n : Nat) (c : Cmd), s.admin h 0x0D = some c → fld (c.dword 10) 3 0 = 0 → nsFieldsOk c.sub.buf = true →
    u8At c.sub.buf 29 % 8 ≠ 2 → (Nat.testBit (u8At c.sub.buf 3842) 2 = true → c.keeper = true) → s.med.eol = false →
    s.freeNsid = some n → s.ncapSum + u64At c.sub.buf 8 ≤ 3000000000 →
    ∃ u, exec (.namespaceCreate h) s = .next (settle (complete h 0 0 (w32 n) 0 [] u)) ∧
      u = { s with ns := put s.ns n (nsOfBuffer c.sub.buf (newKey s).1), acc := u.acc, fresh := s.fresh + 1
                   hb := (s.hb.writeRec 1 u.acc.saved.encode).writeRec 0 u.keyRecord } ∧
      u.nsWorld n = Nat.testBit (u8At c.sub.buf 3842) 2 ∧ u.acc.active.rules = s.acc.active.rules ∧
      (∀ k, 1 ≤ k → k ≤ 64 → k ≠ n → u.nsWorld k = s.nsWorld k)) ∧
  (∀ (s : State) (h : Nat) (c : Cmd), s.admin h 0x0D = some c → fld (c.dword 10) 3 0 = 0 → nsFieldsOk c.sub.buf = true →
    u8At c.sub.buf 29 % 8 ≠ 2 → Nat.testBit (u8At c.sub.buf 3842) 2 = true → c.keeper = false →
    exec (.namespaceCreate h) s = .next (settle (notKeeper h s))) ∧
  (∀ (s : State) (h : Nat) (c : Cmd) (n : Ns), s.admin h 0x0D = some c → fld (c.dword 10) 3 0 = 1 → c.nsid ≠ 0xFFFFFFFF →
    look s.ns c.nsid = some n → (s.nsWorld c.nsid = true → c.keeper = true) → s.nsBusy c.nsid = false →
    ∃ u, exec (.namespaceDelete h) s = .next (settle (succeed h u)) ∧ look u.ns c.nsid = none ∧
      (∀ k, k ≠ c.nsid → look u.ns k = look s.ns k) ∧ (∀ x ∈ u.med.content, keyNs x.1 ≠ c.nsid) ∧
      (∀ x ∈ u.med.held, keyNs x.1 ≠ c.nsid) ∧ (∀ x ∈ u.pipes, x.2.scan = false → x.2.source ≠ c.nsid) ∧
      u = { s with med := u.med, ns := u.ns, pipes := u.pipes, opens := u.opens, hb := s.hb.writeRec 0 u.keyRecord }) ∧
  (∀ (s : State) (h : Nat) (c : Cmd) (n : Ns), s.admin h 0x15 = some c → look s.ns c.nsid = some n →
    n.attached ≠ (fld (c.dword 10) 3 0 == 0) →
    exec (.namespaceAttachment h) s = .next (settle (succeed h { s with
      ns := adjust s.ns c.nsid fun n => { n with attached := fld (c.dword 10) 3 0 == 0 } })))

/-- Format NVM and Sanitize (R65, R94, R357): the namespaces named lose all data, records and index and take the format, and with SES 010b a
new key;
every namespace and every result slot is emptied by a Sanitize, which needs a Keeper session.
Firmware update (R354): the parts of an image go into DRAM; a commit needs a Keeper session; a replacement erases the
bank of its slot, never the running one, and waits for the ROM; an activation makes the bank the first tried.
Completes, under the hypotheses on state and operands that its clauses name: firmwareImageDownload, firmwareCommitReplace, firmwareCommitReplaceActivate, firmwareCommitActivate, formatNvm, sanitizeBlockErase, sanitizeCryptoErase. -/
def Obligations.EraseAndFirmwareRows : Prop :=
  ((∀ (s : State) (h : Nat) (c : Cmd) (n : Ns), s.admin h 0x80 = some c → s.compat = false → fmtSes c ≤ 2 → c.nsid ≠ 0xFFFFFFFF →
    look s.ns c.nsid = some n → (fmtSes c = 2 → n.encrypt = true) → formatOk c s [c.nsid] = true → (s.nsWorld c.nsid = true → c.keeper = true) → s.nsBusy c.nsid = false →
    ∃ u, exec (.formatNvm h) s = .next (settle (succeed h u)) ∧
      u = { s with med := u.med, ns := u.ns, opens := u.opens, fresh := s.fresh + 1, hb := s.hb.writeRec 0 u.keyRecord } ∧
      (∀ x ∈ u.med.content, keyNs x.1 ≠ c.nsid) ∧ (∀ x ∈ u.med.held, keyNs x.1 ≠ c.nsid) ∧
      (∃ n', look u.ns c.nsid = some n' ∧ n'.fmt = fmtLbaf c ∧ n'.ext = fmtExt c ∧ n'.prot = fmtPi c ∧ n'.st.recs = [] ∧
        n'.st.next = 0 ∧ n'.key = (if fmtSes c = 2 then (newKey s).1 else n.key) ∧ n'.nsze = n.nsze ∧ n'.attached = n.attached) ∧
      (∀ k, k ≠ c.nsid → look u.ns k = look s.ns k)) ∧
  (∀ (s : State) (h act : Nat) (i : Instr) (c : Cmd), (act, i) ∈ [(2, Instr.sanitizeBlockErase h), (4, .sanitizeCryptoErase h)] →
    s.admin h 0x84 = some c → fld (c.dword 10) 2 0 = act → (act = 4 → ∀ x ∈ s.ns, x.2.encrypt = true) →
    (c.keeper = false → exec i s = .next (settle (notKeeper h s))) ∧
    (c.keeper = true → (∀ x ∈ s.nv.inflight, x.qid = 0) → s.queries = [] →
      ∃ u, exec i s = .next (settle (succeed h u)) ∧ (∀ x ∈ u.slots, x.2.state = .free ∧ x.2.answer = []) ∧
        (∀ x ∈ u.ns, x.2.st.recs = [] ∧ x.2.st.next = 0) ∧ u.nv.sanitize = 1 ∧ u.hb = s.hb.writeRec 0 u.keyRecord ∧ u.acc = s.acc ∧ u.bcn = s.bcn ∧
        u.stalls = s.stalls))) ∧
  ((∀ (s : State) (h : Nat) (c : Cmd), s.admin h 0x11 = some c → 4 * (c.dword 11).toNat + 4 * ((c.dword 10).toNat + 1) ≤ 8388608 →
    exec (.firmwareImageDownload h) s = .next (settle (succeed h { s with hb := { s.hb with
      download := s.hb.download ++ [(4 * (c.dword 11).toNat, slice c.sub.buf 0 (4 * ((c.dword 10).toNat + 1)))] } }))) ∧
  (∀ (s : State) (h a : Nat) (i : Instr) (c : Cmd), (a, i) ∈ [(0, Instr.firmwareCommitReplace h), (1, .firmwareCommitReplaceActivate h),
      (2, .firmwareCommitActivate h)] → s.admin h 0x10 = some c → fwAction c = a →
    (c.keeper = false → exec i s = .next (settle (notKeeper h s))) ∧
    (a ≤ 1 → c.keeper = true → fwSlot c = 1 ∨ fwSlot c = 2 → s.hb.running ≠ some (fwSlot c == 2) →
      (fwValid s.rollback s.hb.downloaded).isSome = true → s.hb.bankWorn (fwSlot c == 2) = false →
      exec i s = .next (settle ((startFwCommit h (fwSlot c == 2) s).modCmd h fun x => { x with phase := .rom }))) ∧
    (a ≤ 1 → c.keeper = true → fwSlot c = 1 ∨ fwSlot c = 2 → s.hb.running = some (fwSlot c == 2) →
      exec i s = .next (settle (fail h 1 0x06 s))) ∧
    (a = 2 → c.keeper = true → fwSlot c = 1 ∨ fwSlot c = 2 →
      exec i s = .next (settle (succeed h { s with hb := { s.hb with firstB := fwSlot c == 2 } })))))

/-- Keeper sessions over the admin queue (R346 to R350): HELLO is accepted for the Keeper's key with no session open and
starts a handshake; PROVE opens the session only with the proof of that handshake, and a failure discards it and refuses HELLO;
an operation whose counter or MAC is wrong changes nothing but its completion; CLOSE erases the session and the armed entries,
ARM stores an entry, REGISTER accesses a register with Keeper authority, COMMIT_RULES starts the ROM.
Completes, under the hypotheses on state and operands that its clauses name: keeperHello, keeperProve, keeperClose, keeperArm, keeperRegister, keeperCommitRules. -/
def Obligations.KeeperRows : Prop :=
  (∀ (s : State) (h : Nat) (c : Cmd), s.admin h 0xC9 = some c → fld (c.dword 10) 3 0 = 0 → keeperFields c = true →
    (s.helloOk s.keeper.nvme (slice c.sub.buf 0 384) = true →
      ∃ u d, exec (.keeperHello h) s = .next (settle (complete h 0 0 0 0 d u)) ∧ u.keeper.nvme.hs.isSome = true ∧
        u.keeper.nvme.session = none ∧ u = { s with keeper := u.keeper, fresh := s.fresh + 3 } ∧ u.keeper.bus = s.keeper.bus ∧
        u.keeper.armed = s.keeper.armed) ∧
    (s.helloOk s.keeper.nvme (slice c.sub.buf 0 384) = false → exec (.keeperHello h) s = .next (settle (notKeeper h s)))) ∧
  (∀ (s : State) (h : Nat) (c : Cmd) (x : Handshake), s.admin h 0xC9 = some c → fld (c.dword 10) 3 0 = 1 → keeperFields c = true →
    s.keeper.nvme.hs = some x →
    (slice c.sub.buf 0 32 = x.proof → exec (.keeperProve h) s = .next (settle (succeed h { s with keeper := { s.keeper with
      nvme := { s.keeper.nvme with session := some (x.ks, 0), hs := none, fails := 0, refusing := false
                                   serial := s.keeper.nvme.serial + 1 } } }))) ∧
    (slice c.sub.buf 0 32 ≠ x.proof → exec (.keeperProve h) s = .next (settle (notKeeper h { s with keeper := { s.keeper with
      nvme := { s.keeper.nvme with hs := none, fails := s.keeper.nvme.fails + 1, refusing := true } } })))) ∧
  (∀ (s : State) (h op : Nat) (i : Instr) (c : Cmd), (op, i) ∈ [(2, Instr.keeperClose h), (3, .keeperArm h), (4, .keeperRegister h),
      (5, .keeperCommitRules h)] → s.admin h 0xC9 = some c → fld (c.dword 10) 3 0 = op → keeperFields c = true →
    nvmeAuth c.sub.dw c.sub.buf s = none → exec i s = .next (settle (notKeeper h s))) ∧
  (∀ (s t : State) (h : Nat) (c : Cmd), s.admin h 0xC9 = some c → nvmeAuth c.sub.dw c.sub.buf s = some t →
    (fld (c.dword 10) 3 0 = 2 → keeperFields c = true → ∃ u, exec (.keeperClose h) s = .next (settle (succeed h u)) ∧
      u.keeper.nvme.session = none ∧ u.keeper.armed = [] ∧ u = { s with keeper := u.keeper } ∧ u.keeper.bus = s.keeper.bus) ∧
    (fld (c.dword 10) 3 0 = 3 → keeperFields c = true → ∃ u, exec (.keeperArm h) s = .next (settle (succeed h u)) ∧
      u.keeper.armed = (s.keeper.armed ++ [armedOf c]).drop (s.keeper.armed.length - 7) ∧ u = { s with keeper := u.keeper } ∧
      u.keeper.bus = s.keeper.bus) ∧
    (fld (c.dword 10) 3 0 = 4 → keeperFields c = true → ∀ st v t', st ≠ statBusy →
      serveReg t.now .queue (fld (c.dword 12) 15 0) (if bit (c.dword 12) 31 then some (c.dword 13) else none) t = (st, v, t') →
      exec (.keeperRegister h) s = .next (settle (complete h 0 0 v (w32 st) [] t'))) ∧
    (fld (c.dword 10) 3 0 = 4 → keeperFields c = true → ∀ v t',
      serveReg t.now .queue (fld (c.dword 12) 15 0) (if bit (c.dword 12) 31 then some (c.dword 13) else none) t = (statBusy, v, t') →
      exec (.keeperRegister h) s = .next (settle (t'.modCmd h fun x => { x with phase := .rom }))) ∧
    (fld (c.dword 10) 3 0 = 5 → keeperFields c = true → s.hb.recWorn 1 = false →
      ∃ u, exec (.keeperCommitRules h) s = .next (settle u) ∧ u.hb.busy = some (.commitRules h, .keeper) ∧
        (∀ x ∈ u.nv.inflight, x.h = h → x.phase = .rom))) ∧
  (∀ s : State, (s.keeper.nvme.session = none → ∀ dw buf, nvmeAuth dw buf s = none) ∧
    (∀ ks last dw buf t, s.keeper.nvme.session = some (ks, last) → nvmeAuth dw buf s = some t →
      last < ofBe (slice buf 0 8) ∧ slice buf 8 32 = nvmeMac ks (ofBe (slice buf 0 8)) dw buf ∧
      t = { s with keeper := { s.keeper with nvme := { s.keeper.nvme with session := some (ks, ofBe (slice buf 0 8)) } } }))

/-- Attest and Harbour Mailbox (R326, R356, Table 11-14).
Completes, under the hypotheses on state and operands that its clauses name: attest, harbourMailbox. -/
def Obligations.AttestAndMailboxRows : Prop :=
  (∀ (s : State) (h : Nat) (c : Cmd), s.admin h 0xCA = some c →
    (bit (c.dword 10) 0 = false → exec (.attest h) s = .next (settle (complete h 0 0
      (w32 (s.attestReport (slice c.sub.buf 0 32)).length) 0 (s.attestReport (slice c.sub.buf 0 32)) s))) ∧
    (bit (c.dword 10) 0 = true → exec (.attest h) s = .next (settle (complete h 0 0
      (w32 (Config.deviceCertificate.take 4096).length) 0 (Config.deviceCertificate.take 4096) s)))) ∧
  (∀ (s : State) (nonce : List Byte), slice (s.attestReport nonce) 0 8 = [0x31, 0x54, 0x54, 0x41, 0x01, 0x00,
      b8 (b2n s.keeper.nvme.session.isSome + 2 * b2n s.keeper.bus.session.isSome), 0x00]) ∧
  (∀ (s : State) (h : Nat) (c : Cmd), s.admin h 0xCC = some c → mbxFields c = true → s.mbxForeign c = false →
    (mbxOp c = 1 → readStat c.keeper false (mbxOff c) (mbxLen c) = statOk →
      exec (.harbourMailbox h) s = .next (settle (complete h 0 0 0 (w32 (mbxLen c)) (s.hb.bytes (mbxOff c) (mbxLen c)) s))) ∧
    (mbxOp c = 2 → programStat c.keeper (mbxOff c) (mbxLen c) s = statOk →
      exec (.harbourMailbox h) s = .next (settle (mbxStart c s))) ∧
    (mbxOp c = 3 → eraseStat c.keeper (mbxOff c) s = statOk →
      exec (.harbourMailbox h) s = .next (settle (mbxStart c { s with hb := s.hb.beginErase (mbxOff c / 65536) }))) ∧
    (mbxOp c = 4 → readStat c.keeper false (mbxOff c) (mbxLen c) = statOk → exec (.harbourMailbox h) s = .next (settle (complete h 0 0
      (if s.hb.isBlank (mbxOff c) (mbxLen c) then 0 else 8) (w32 (mbxLen c)) [] s))) ∧
    (mbxOp c = 5 → exec (.harbourMailbox h) s =
      .next (settle (complete h 0 0 0 (w32 (mbxLen c)) (s.otpVisible (mbxOff c) (mbxLen c)) s))) ∧
    (mbxOp c = 6 → otpStat c.keeper (mbxOff c) (mbxLen c) s = statOk → exec (.harbourMailbox h) s = .next (settle (complete h 0 0 0
      (w32 (mbxLen c)) [] (programOtpBytes (mbxOff c) (slice c.sub.buf 0 (mbxLen c)) s))))) ∧
  (∀ (s : State) (h : Nat) (c : Cmd), s.admin h 0xCC = some c → mbxFields c = true → s.mbxForeign c = true →
    exec (.harbourMailbox h) s = .next (settle (regionDenied h s)))

/-- Stall Load (R206, R207): every Stall named holds the image, STOPPED with cleared registers, its segments in local
memory, its interrupts masked (R207) and its counters cleared (R219), and the completion carries the loader's budget figures.
Stall Run/Stop (R208, R209): what each action makes of every Stall of STALL_MASK, and that it touches no other; a tile
whose fill check fails takes an ECC fault, and the command ends with STALL_FAULT.
Completes, under the hypotheses on state and operands that its clauses name: stallLoad, stallStop, stallRun, stallRestart, stallClearSlow, stallPowerOff, stallPowerOn. -/
def Obligations.StallLoadRunRows : Prop :=
  ((∀ (s : State) (h : Nat) (c : Cmd) (b : List Byte) (im : Image), s.admin h 0xC1 = some c → s.imageOf c = some b →
    (Nat.testBit (u16At b 6) 1 = true → ∀ n ∈ stallMask c, s.stallWorld n = true) → s.stallsKeeper c = false →
    (∀ n ∈ stallMask c, (s.stall n).state ≠ .off ∧ (s.stall n).state ≠ .running) → loadImage b s.keyHash = .inr im →
    (Nat.testBit (u16At b 6) 0 = true → im.signed = true) → ((stallMask c).any s.stallWorld = true → im.signed = true ∧ im.keyOk = true) →
    overBudget (u32At b 0x24) im = false →
    ∃ u, exec (.stallLoad h) s = .next (settle (complete h 0 0 (loadDw0 im) (loadDw1 im) [] u)) ∧
      u = { s with stalls := u.stalls, pipes := u.pipes } ∧
      (∀ n ∈ stallMask c, u.stall n = (s.stall n).load b im) ∧ (∀ n, n ∉ stallMask c → u.stall n = s.stall n)) ∧
  (∀ (t : Stall) (b : List Byte) (im : Image), (t.load b im).state = .stopped ∧ (t.load b im).core = .reset ∧
    (t.load b im).image = some im ∧ (t.load b im).lm = fillLocal im.segs ∧ (t.load b im).ic.mask = 0xFFFFFFFF ∧
    (t.load b im).ic.pending = 0 ∧ (t.load b im).ic.disable = false ∧ (t.load b im).slow = t.slow ∧
    (t.load b im).mbIn = t.mbIn ∧ (t.load b im).corr = 0) ∧
  (∀ (s : State) (h : Nat) (c : Cmd) (b : List Byte), s.admin h 0xC1 = some c → s.imageOf c = some b →
    (Nat.testBit (u16At b 6) 1 = true → ∀ n ∈ stallMask c, s.stallWorld n = true) → s.stallsKeeper c = false →
    (∃ n ∈ stallMask c, (s.stall n).state = .off ∨ (s.stall n).state = .running) →
    exec (.stallLoad h) s = .next (settle (seqError h s)))) ∧
  ((∀ (s : State) (h : Nat) (c : Cmd), s.admin h 0xC2 = some c → stallMask c ≠ [] → c.allZero [1, 2, 3, 4, 5, 6, 7, 8, 9, 11, 14, 15] = true →
    fld (c.dword 10) 31 4 = 0 → s.stallsKeeper c = false →
    (fld (c.dword 10) 3 0 = 0 → (∀ n ∈ stallMask c, (s.stall n).lots = [] ∧ h ∉ (s.stall n).stops) →
      ∃ u, exec (.stallStop h) s = .next (settle (succeed h u)) ∧ u = { s with stalls := u.stalls } ∧
        ∀ n, u.stall n = if n ∈ stallMask c then (if (s.stall n).state = .running then { s.stall n with state := .stopped, slow := false }
          else s.stall n).pend 15 else s.stall n) ∧
    (fld (c.dword 10) 3 0 = 1 → (∀ n ∈ stallMask c, (s.stall n).state = .stopped ∨ (s.stall n).state = .running) →
      ∃ u, exec (.stallRun h) s = .next (settle (succeed h u)) ∧ u = { s with stalls := u.stalls } ∧
        ∀ n, u.stall n = if n ∈ stallMask c ∧ (s.stall n).state = .stopped then { s.stall n with state := .running, idleAt := s.now } else s.stall n) ∧
    (fld (c.dword 10) 3 0 = 1 → (∃ n ∈ stallMask c, (s.stall n).state ≠ .stopped ∧ (s.stall n).state ≠ .running) →
      exec (.stallRun h) s = .next (settle (seqError h s))) ∧
    (fld (c.dword 10) 3 0 = 2 → (∀ n ∈ stallMask c, (s.stall n).state = .stopped ∨ (s.stall n).state = .faulted) →
      ∃ u, exec (.stallRestart h []) s = .next (settle (succeed h u)) ∧ u = { s with stalls := u.stalls } ∧
        ∀ n, u.stall n = if n ∈ stallMask c then (s.stall n).refill (((s.stall n).image.map fun i => i.segs).getD []) else s.stall n) ∧
    (∀ bad : List (Fin 64), fld (c.dword 10) 3 0 = 2 → (∀ n ∈ stallMask c, (s.stall n).state = .stopped ∨ (s.stall n).state = .faulted) →
      (∀ n ∈ stallMask c, (s.stall n).lots = [] ∧ (s.stall n).stops = []) → (∃ n ∈ stallMask c, ∃ b ∈ bad, b.val = n) →
      ∃ u, exec (.stallRestart h bad) s = .next (settle (fail h 7 0x87 u)) ∧ ∀ n ∈ stallMask c, ∀ b ∈ bad, b.val = n →
        (u.stall n).state = .faulted ∧ (u.stall n).cause = 3) ∧
    (fld (c.dword 10) 3 0 = 3 →
      ∃ u, exec (.stallClearSlow h) s = .next (settle (succeed h u)) ∧ u = { s with stalls := u.stalls } ∧
        ∀ n, u.stall n = if n ∈ stallMask c then { s.stall n with slow := false } else s.stall n) ∧
    (fld (c.dword 10) 3 0 = 4 → (∀ n ∈ stallMask c, (s.stall n).state ≠ .running) →
      ∃ u, exec (.stallPowerOff h) s = .next (settle (succeed h u)) ∧ u = { s with stalls := u.stalls, pipes := u.pipes } ∧
        ∀ n, n ∈ stallMask c → (u.stall n).state = .off ∧ (u.stall n).lm = [] ∧ (u.stall n).pm = [] ∨ (s.stall n).state = .off ∧ u.stall n = s.stall n) ∧
    (fld (c.dword 10) 3 0 = 5 →
      ∃ u, exec (.stallPowerOn h []) s = .next (settle (succeed h u)) ∧ u = { s with stalls := u.stalls } ∧
        ∀ n, u.stall n = if n ∈ stallMask c ∧ (s.stall n).state = .off
          then { Stall.reset with state := .empty, stats := (s.stall n).stats } else s.stall n) ∧
    (∀ bad : List (Fin 64), fld (c.dword 10) 3 0 = 5 → (∃ n ∈ stallMask c, (s.stall n).state = .off ∧ ∃ b ∈ bad, b.val = n) →
      ∃ u, exec (.stallPowerOn h bad) s = .next (settle (fail h 7 0x87 u)) ∧ ∀ n ∈ stallMask c, (s.stall n).state = .off → ∀ b ∈ bad,
        b.val = n → (u.stall n).state = .faulted ∧ (u.stall n).cause = 3)))

/-- Pipeline Configure (R248 to R255, R260, R271).
Completes, under the hypotheses on state and operands that its clauses name: pipelineSet, pipelineStart, pipelineStop, pipelineDelete, pipelineIndex, tallyRead. -/
def Obligations.PipelineRows : Prop :=
  (∀ (s : State) (h : Nat) (c : Cmd), s.admin h 0xC5 = some c → pipeFields c = true →
    (pipeOp c = 0 → descriptorOk (slice c.sub.buf 0 128) (pipeOf (slice c.sub.buf 0 128)) = true →
      s.pipeFits c (pipeOf (slice c.sub.buf 0 128)) ((del s.pipes (pipeNo c)).map fun x => x.2) = true →
      (∀ n ∈ (pipeOf (slice c.sub.buf 0 128)).names, s.isStream n = true) → (c.secure = true → c.keeper = true) →
      s.pipeStopped (pipeNo c) = true → (∀ n ∈ setBits 64 (pipeOf (slice c.sub.buf 0 128)).stalls.toNat,
        (s.stall n).state = .stopped ∨ (s.stall n).state = .running) → s.worstOutput (pipeOf (slice c.sub.buf 0 128)) ≤ 1048576 →
      exec (.pipelineSet h) s = .next (settle (succeed h { closeNamed (pipeOf (slice c.sub.buf 0 128)) s with
        pipes := put s.pipes (pipeNo c) (pipeOf (slice c.sub.buf 0 128)) }))) ∧
    (pipeOp c = 0 → descriptorOk (slice c.sub.buf 0 128) (pipeOf (slice c.sub.buf 0 128)) = false →
      exec (.pipelineSet h) s = .next (settle (invalidField h s)))) ∧
  (∀ (s : State) (c : Cmd) (p : Pipe), s.admin c.h 0xC5 = some c → pipeFields c = true → s.pipe (pipeNo c) = some p →
    (s.qWorld 0 = true → c.keeper = true) →
    (pipeOp c = 1 → p.running = false → p.stops = [] →
      exec (.pipelineStart c.h) s = .next (settle (succeed c.h (s.modPipe (pipeNo c) fun p => { p with running := true, dec := 0 })))) ∧
    (pipeOp c = 1 → p.running = true → exec (.pipelineStart c.h) s = .next (settle (seqError c.h s))) ∧
    (pipeOp c = 2 → p.running = true → s.lots = [] → (p.scan = true → s.queries = []) →
      (p.scan = false → ∀ n, look s.ns p.source = some n → n.st.opened = []) →
      ∃ u, exec (.pipelineStop c.h) s = .next (settle u) ∧ u = { s with pipes := u.pipes, nv := u.nv } ∧
        ∀ q, u.pipe (pipeNo c) = some q → q.running = false) ∧
    (pipeOp c = 3 → p.running = false → p.stops = [] →
      exec (.pipelineDelete c.h) s = .next (settle (succeed c.h { s with pipes := del s.pipes (pipeNo c) }))) ∧
    (pipeOp c = 5 → bit (c.dword 12) 0 = false →
      exec (.tallyRead c.h) s = .next (settle (complete c.h 0 0 0 0 p.tallyRead s))) ∧
    (pipeOp c = 5 → bit (c.dword 12) 0 = true →
      exec (.tallyRead c.h) s = .next (settle (complete c.h 0 0 0 0 p.tallyRead
        (s.modPipe (pipeNo c) fun p => { p with tally := [] }))))) ∧
  (∀ (s : State) (h : Nat) (c : Cmd) (n : Ns), s.admin h 0xC5 = some c → pipeFields c = true → pipeOp c = 4 → look s.ns c.nsid = some n →
    n.stream = true → (s.nsWorld c.nsid = true → c.keeper = true) →
    (n.st.recs = [] → exec (.pipelineIndex h) s = .next (settle (succeed h { s with
      ns := adjust s.ns c.nsid fun n => { n with st := { n.st with bits := fld (c.dword 11) 4 0 } } }))) ∧
    (n.st.recs ≠ [] → exec (.pipelineIndex h) s = .next (settle (seqError h s))))

/-- Register writes by their type (R8, R304, R306, R311, R388): a write that can be made stores its field with reserved
bits dropped and the limits of its table, and changes nothing else; an actor that may not reach a register changes nothing in
it, and group 0x0500 is the Keeper's alone; an unlisted address changes nothing. The host's registers are those of BAR0 (R89, R90):
CAP as Table 4-3 has it, what is read-only discards a write, and nothing is reached with the link down.
Completes, under the hypotheses on state and operands that its clauses name: registerWrite. -/
def Obligations.RegisterWriteRow : Prop :=
  (∀ (s : State) (a : Actor) (v : W32),
    (CanWrite a 0x0106 s → exec (.registerWrite a 0x0106 v) s = .next (settle { s with bus := { s.bus with lease := v &&& 0xFFFF } })) ∧
    (CanWrite a 0x0302 s → exec (.registerWrite a 0x0302 v) s = .next (settle { s with pwr := { s.pwr with
      wakeSrc := s.pwr.wakeSrc &&& ~~~ BitVec.ofNat 5 (fld v 4 0) } })) ∧
    (CanWrite a 0x0303 s → exec (.registerWrite a 0x0303 v) s = .next (settle { s with pwr := { s.pwr with watchTimer := v } })) ∧
    (CanWrite a 0x0321 s → exec (.registerWrite a 0x0321 v) s = .next (settle { s with therm := { s.therm with
      grace := w32 (max 500 (min 30000 (fld v 15 0))) } })) ∧
    (CanWrite a 0x0530 s → exec (.registerWrite a 0x0530 v) s = .next (settle { s with acc := { s.acc with sel := min 191 (fld v 7 0) } })) ∧
    (CanWrite a 0x0531 s → exec (.registerWrite a 0x0531 v) s = .next (settle { s with acc := { s.acc with
      staged := s.acc.staged.putRule s.acc.sel 0 v } })) ∧
    (CanWrite a 0x0600 s → exec (.registerWrite a 0x0600 v) s = .next (settle { s with ev := { s.ev with sel := fld v 8 0 } })) ∧
    (CanWrite a 0x0701 s → s.hb.busy = none →
      exec (.registerWrite a 0x0701 v) s = .next (settle { s with hb := { s.hb with addr := v &&& 0x1FFFFFF } })) ∧
    (CanWrite a 0x0900 s → exec (.registerWrite a 0x0900 v) s = .next (settle { s with ev := { s.ev with inject := bit v 0 } }))) ∧
  (∀ (s : State) (a : Actor) (reg : W16) (v : W32), a ≠ .host → s.regAllowed a reg.toNat ≠ statOk →
    exec (.registerWrite a reg v) s = .next (settle s)) ∧
  (∀ (s : State) (reg : Nat), reg / 256 = 5 → s.regAllowed .bus reg = statNotKeeper ∧
    s.regAllowed .mgmt reg = statNotKeeper ∧ s.regAllowed .keeper reg = statOk) ∧
  (∀ (s : State) (a : Actor) (reg : W16) (v : W32), a ≠ .host → s.peek reg.toNat = none → reg ≠ 0x0209 →
    exec (.registerWrite a reg v) s = .next (settle s)) ∧
  (∀ (s : State) (a : Actor) (reg : W16) (v : W32), a ≠ .host → s.regReady reg.toNat = false →
    exec (.registerWrite a reg v) s = .next (settle s)) ∧
  (∀ (s : State) (v : W32), s.pwr.link = true → s.pwr.mainOn = true → s.pwr.watch ≠ .asleep →
    (∀ off : W16, off.toNat < 0x14 ∨ off = 0x1C → exec (.registerWrite .host off v) s = .next (settle s)) ∧
    exec (.registerWrite .host 0x24 v) s = .next (settle { s with nv := { s.nv with aqa := v &&& 0x0FFF0FFF } })) ∧
  (∀ (s : State) (off : W16) (v : W32), s.pwr.link = false → exec (.registerWrite .host off v) s = .next (settle s)) ∧
  (∀ s : State, fld (s.bar0 0) 15 0 = 0xFFFF ∧ fld (s.bar0 0) 16 16 = 1 ∧ fld (s.bar0 0) 18 17 = 1 ∧ fld (s.bar0 0) 31 24 = 80 ∧
    fld (s.bar0 4) 12 5 = 1 ∧ bit (s.bar0 4) 27 = true ∧ s.bar0 8 = 0x00020000 ∧ bit (s.bar0 0x1C) 0 = s.ready)

/-- The rules (R342, R344, R349): RULE_EPOCH takes only the next epoch, and then the staged set becomes the active one in
one step, unless it has a fault, which leaves the active set and the epoch as they were; RULE_SAVE starts the ROM, whose end
saves the active set; bit 31 of VIOL_KIND frees the capture for the next violation.
Completes, under the hypotheses on state and operands that its clauses name: harbourOpComplete, ruleEpochWrite, ruleSave, violKindClear. -/
def Obligations.RuleRows : Prop :=
  (∀ (s : State) (a : Actor) (v : W32), CanWrite a 0x0510 s → s.bus.held = none →
    (v = s.acc.epoch + 1 → s.stagedFault = none →
      ∃ u, exec (.ruleEpochWrite a v) s = .next (settle u) ∧ u.acc.active = s.acc.staged ∧ u.acc.epoch = v ∧
        u.acc.staged = s.acc.staged ∧ u.acc.saved = s.acc.saved ∧ u = { s with acc := u.acc, stalls := u.stalls, ev := u.ev }) ∧
    (v = s.acc.epoch + 1 → ∀ d, s.stagedFault = some d →
      ∃ u, exec (.ruleEpochWrite a v) s = .next (settle u) ∧ u.acc = s.acc ∧ bit (u.frameStatus 4) 1 = true) ∧
    (v ≠ s.acc.epoch + 1 → exec (.ruleEpochWrite a v) s = .next (settle s))) ∧
  (∀ (s : State) (a : Actor) (v : W32), CanWrite a 0x0512 s → bit v 0 = true → s.hb.busy = none → s.hb.recWorn 1 = false →
    exec (.ruleSave a v) s = .next (settle (startJob .saveRules a s))) ∧
  (∀ (s : State) (a : Actor), s.hb.busy = some (.saveRules, a) → s.bus.held = none →
    (∀ c ∈ s.nv.inflight, c.phase ≠ .rom) →
    exec (.harbourOpComplete .ok) s = .next (settle (evalWarn { s with acc := { s.acc with saved := s.acc.active }
                                                                       hb := (Harbour.beginRec { s.hb with busy := none } 1
                                                                         s.acc.active.encode).endErase (s.hb.recSector 1) }))) ∧
  (∀ (s : State) (a : Actor), CanWrite a 0x051A s →
    exec (.violKindClear a) s = .next (settle { s with acc := { s.acc with violKind := s.acc.violKind &&& 0x3FFFFFFF } }))

/-- Power commands and direct operating points (R213, R377, R380): PWR_CMD 0 to 3 commands an operational state and ends a
request for Watch, 4 requests Watch, in Watch the bus wakes the card; with DIRECT set a voltage below that of the present
frequency or above 880 mV, or a frequency above the present voltage, only sets ORDER_ERR, and OP3 without a token TOKEN_ERR; a
request made during a transition waits for its end, and a new frequency pends OP_CHANGE (R214). While the card is hot in thermal
shutdown a command of 0 to 3 has no effect (R395), and a 4 is stored (R8); what the 4 means there is the model's choice
(notes/assumptions/80.md).
The persistent store (R312 to R314): a write starts the ROM with the defined bits of the value; its end makes the value
durable and counts the write; a worn register is not written; register 8 is the hardware's own.
Completes, under the hypotheses on state and operands that its clauses name: persistentWrite, harbourOpComplete, pwrCmdWrite, stallVsetWrite, stallFsetWrite, opTransitionEnd. -/
def Obligations.PowerAndPersistRows : Prop :=
  ((∀ (s : State) (a : Actor) (v : W32), CanWrite a 0x0300 s → s.therm.held = false → s.pwr.watch ≠ .asleep → fld v 2 0 ≤ 3 →
    ∃ u, exec (.pwrCmdWrite a v) s = .next (settle u) ∧ u = { s with pwr := u.pwr, nv := u.nv, stalls := u.stalls } ∧
      u.pwr.cmd = fld v 2 0 ∧ u.pwr.busCmd = fld v 2 0 ∧ u.pwr.watch = .awake ∧ u.pwr.hostPs4 = false ∧ u.pwr.wakeDue = false) ∧
  (∀ (s : State) (a : Actor) (v : W32), CanWrite a 0x0300 s → s.therm.held = false → s.pwr.watch ≠ .asleep → 4 ≤ fld v 2 0 →
    s.pwr.cmd ≠ 4 →
    exec (.pwrCmdWrite a v) s = .next (settle { s with pwr := { s.pwr with
      before := s.cmdState, cmd := 4, busCmd := 4, watch := .requested } })) ∧
  (∀ (s : State) (a : Actor) (v : W32), CanWrite a 0x0300 s → s.therm.held = false → s.pwr.watch = .asleep → fld v 2 0 ≤ 3 →
    exec (.pwrCmdWrite a v) s = .next (settle { s with pwr := { s.pwr with
      before := fld v 2 0, cmd := fld v 2 0, busCmd := fld v 2 0, wakeSrc := putBit s.pwr.wakeSrc 0 true, wakeDue := true } })) ∧
  (∀ (s : State) (a : Actor) (v : W32), CanWrite a 0x0300 s → s.therm.held = true → s.cooled = false →
    (fld v 2 0 ≤ 3 → exec (.pwrCmdWrite a v) s = .next (settle s)) ∧
    (4 ≤ fld v 2 0 → exec (.pwrCmdWrite a v) s = .next (settle { s with pwr := { s.pwr with before := s.cmdState, cmd := 4, busCmd := 4 } }))) ∧
  (∀ (s : State) (a : Actor) (v : W32), s.pwr.op.direct = true → s.pwr.op.moving = true →
    (CanWrite a 0x0342 s → exec (.stallVsetWrite a v) s = .next (settle { s with pwr := { s.pwr with op := { s.pwr.op with
      reqs := s.pwr.op.reqs ++ [(false, fld v 9 0)] } } })) ∧
    (CanWrite a 0x0343 s → exec (.stallFsetWrite a v) s = .next (settle { s with pwr := { s.pwr with op := { s.pwr.op with
      reqs := s.pwr.op.reqs ++ [(true, fld v 1 0)] } } }))) ∧
  (∀ (s : State) (a : Actor) (v : W32), CanWrite a 0x0342 s → s.pwr.op.direct = true → s.pwr.op.moving = false → s.pwr.op.reqs = [] →
    (fld v 9 0 < nominal s.pwr.op.point + s.guardMv ∨ 880 < fld v 9 0 →
      exec (.stallVsetWrite a v) s = .next (settle { s with pwr := { s.pwr with op := { s.pwr.op with orderErr := true } } })) ∧
    (nominal s.pwr.op.point + s.guardMv ≤ fld v 9 0 → fld v 9 0 ≤ 880 →
      exec (.stallVsetWrite a v) s = .next (settle { s with pwr := { s.pwr with op := { s.pwr.op with
        vset := fld v 9 0, railTo := fld v 9 0, target := s.pwr.op.point
        moving := fld v 9 0 != s.pwr.op.railMv } } }))) ∧
  (∀ (s : State) (a : Actor) (v : W32), CanWrite a 0x0343 s → s.pwr.op.direct = true → s.pwr.op.moving = false → s.pwr.op.reqs = [] →
    (fld v 1 0 = 3 → s.boostAllowed = false →
      exec (.stallFsetWrite a v) s = .next (settle { s with pwr := { s.pwr with op := { s.pwr.op with
        tokenErr := true
        orderErr := s.pwr.op.orderErr || decide (s.pwr.op.railMv < nominal 3 + s.guardMv) || decide (60 < s.health.delta) } } })) ∧
    (fld v 1 0 = 3 → s.boostAllowed = true → s.pwr.op.railMv < nominal 3 + s.guardMv ∨ 60 < s.health.delta →
      exec (.stallFsetWrite a v) s = .next (settle { s with pwr := { s.pwr with op := { s.pwr.op with orderErr := true } } })) ∧
    (fld v 1 0 < 3 → s.pwr.op.railMv < nominal (fld v 1 0) + s.guardMv →
      exec (.stallFsetWrite a v) s = .next (settle { s with pwr := { s.pwr with op := { s.pwr.op with orderErr := true } } })) ∧
    (nominal (fld v 1 0) + s.guardMv ≤ s.pwr.op.railMv → (fld v 1 0 = 3 → s.boostAllowed = true ∧ s.health.delta ≤ 60) →
      ∃ u, exec (.stallFsetWrite a v) s = .next (settle u) ∧ u = { s with pwr := u.pwr, stalls := u.stalls } ∧
        u.pwr = { s.pwr with op := { s.pwr.op with fset := fld v 1 0, point := fld v 1 0, target := fld v 1 0 } } ∧
        (fld v 1 0 = s.pwr.op.point → u.stalls = s.stalls) ∧
        (fld v 1 0 ≠ s.pwr.op.point → ∀ n, n < 64 → (s.stall n).state ≠ .off → bit (u.stall n).ic.pending 14 = true))) ∧
  (∀ s : State, s.running = true → s.pwr.op.moving = true → s.pwr.op.reqs = [] →
    ∃ u, exec .opTransitionEnd s = .next (settle u) ∧ u = { s with pwr := u.pwr, stalls := u.stalls } ∧
      (s.pwr.op.direct = true → u.pwr.op = { s.pwr.op with moving := false, point := s.pwr.op.target, railMv := s.pwr.op.railTo }) ∧
      ∀ n, (s.stall n).state ≠ .off → n < 64 → bit (u.stall n).ic.pending 14 = true)) ∧
  ((∀ (s : State) (a : Actor) (n : Fin 256) (v : W32), CanWrite a (0x0800 + n.val) s → s.hb.busy = none → n.val ≠ 8 →
    s.persistWorn n.val = false →
    exec (.persistentWrite a n v) s = .next (settle (startJob (.persist n.val (v &&& persistMask n.val)) a s))) ∧
  (∀ (s : State) (a : Actor) (v : W32), CanWrite a 0x0808 s → s.hb.busy = none → exec (.persistentWrite a 8 v) s = .next (settle s)) ∧
  (∀ (s : State) (a : Actor) (n : Nat) (v : W32), s.hb.busy = some (.persist n v, a) → s.bus.held = none →
    (∀ c ∈ s.nv.inflight, c.phase ≠ .rom) →
    ∃ u, exec (.harbourOpComplete .ok) s = .next (settle u) ∧ u.persist n = v ∧ u.persistWear n = s.persistWear n + 1 ∧
      u.hb.busy = none ∧ (∀ m, m ≠ n → u.persist m = s.persist m) ∧ u.acc = s.acc ∧ u.ns = s.ns ∧ u.ram = s.ram) ∧
  (∀ n v, persistMask n &&& (v &&& persistMask n) = v &&& persistMask n))

/-- The mailbox (R319 to R329, Tables 11-12 and 11-13): READ brings the bytes into the buffer, BLANK_CHECK answers, OTP_READ
reads with the hidden fields zero, OTP_PROGRAM sets words and their used bits for good, PROGRAM and ERASE start the ROM when
nothing refuses them and leave HB_RESULT's code when something does, REBOOT runs start-up again from step 3, and the end of a program
stores the buffer.
The Keeper window of the bus (R351): its operations leave HB's STAT code, HELLO needs the Keeper's key, PROVE the proof
of the handshake, SIGNATURE a handshake, CLOSE a frame with KEY = 1.
Completes, under the hypotheses on state and operands that its clauses name: kxHello, kxSignature, kxProve, kxClose, harbourOpComplete, hbRead, hbProgram, hbErase, hbBlankCheck, hbOtpRead, hbOtpProgram, hbReboot. -/
def Obligations.WindowRows : Prop :=
  ((∀ (s : State) (a : Actor) (v : W32), CanWrite a 0x0700 s → s.hb.busy = none →
    (fld v 31 28 = 1 → lenOk 1 (fld v 8 0) = true → readStat (byKeeper a) s.pwr.recovery s.hb.addr.toNat (fld v 8 0) = statOk →
      exec (.hbRead a v) s = .next (settle { s with hb := { s.hb.putBuf (s.hb.bytes s.hb.addr.toNat (fld v 8 0)) with stat := 0 } })) ∧
    (fld v 31 28 = 1 → lenOk 1 (fld v 8 0) = true → readStat (byKeeper a) s.pwr.recovery s.hb.addr.toNat (fld v 8 0) ≠ statOk →
      exec (.hbRead a v) s = .next (settle { s with hb := { s.hb with
        stat := b8 (readStat (byKeeper a) s.pwr.recovery s.hb.addr.toNat (fld v 8 0)) } })) ∧
    (fld v 31 28 = 4 → lenOk 4 (fld v 8 0) = true → readStat (byKeeper a) s.pwr.recovery s.hb.addr.toNat (fld v 8 0) = statOk →
      exec (.hbBlankCheck a v) s = .next (settle { s with hb := { s.hb with
        stat := if s.hb.isBlank s.hb.addr.toNat (fld v 8 0) then 0 else 8 } })) ∧
    (fld v 31 28 = 2 → lenOk 2 (fld v 8 0) = true → s.hb.addr.toNat % 256 + fld v 8 0 ≤ 256 →
      programStat (byKeeper a) s.hb.addr.toNat (fld v 8 0) s = statOk →
      exec (.hbProgram a v) s = .next (settle (startJob (.mailbox v) a s))) ∧
    (fld v 31 28 = 3 → eraseStat (byKeeper a) s.hb.addr.toNat s = statOk →
      exec (.hbErase a v) s = .next (settle (startJob (.mailbox v) a { s with
        hb := (s.hb.beginErase (s.hb.addr.toNat / 0x10000)).touch s.hb.addr.toNat }))) ∧
    (fld v 31 28 = 3 → eraseStat (byKeeper a) s.hb.addr.toNat s ≠ statOk →
      exec (.hbErase a v) s = .next (settle { s with hb := { s.hb with stat := b8 (eraseStat (byKeeper a) s.hb.addr.toNat s) } })) ∧
    (fld v 31 28 = 5 → lenOk 5 (fld v 8 0) = true → s.hb.addr.toNat % 4 = 0 → s.hb.addr.toNat + fld v 8 0 ≤ 0x1000 →
      exec (.hbOtpRead a v) s = .next (settle { s with
        hb := { s.hb.putBuf (s.otpVisible s.hb.addr.toNat (fld v 8 0)) with stat := 0 } })) ∧
    (fld v 31 28 = 6 → fld v 8 0 = 4 → otpStat (byKeeper a) s.hb.addr.toNat 4 s = statOk →
      exec (.hbOtpProgram a v) s = .next (settle { s with hb := { s.hb with
        otp := put s.hb.otp (s.hb.addr.toNat / 4) (w32 (u32At (s.hb.buf.toList.take 4) 0))
        used := putBit s.hb.used (s.hb.addr.toNat / 4) true, stat := 0 } })) ∧
    (fld v 31 28 = 7 →
      ∃ u, exec (.hbReboot a v) s = .next (settle u) ∧ u.pwr.step ≤ 2 ∧ u.pwr.link = false ∧ u.nv.en = false ∧ u.med.held = [] ∧
        u.bcn.net = s.bcn.net ∧ u.bus = { s.bus with held := none } ∧ u.hb.flash = s.hb.flash ∧ u.hb.otp = s.hb.otp)) ∧
  (∀ (s : State) (a : Actor) (v : W32), s.hb.busy = some (.mailbox v, a) → fld v 31 28 ≠ 3 → s.bus.held = none →
    (∀ c ∈ s.nv.inflight, c.phase ≠ .rom) →
    ∃ u, exec (.harbourOpComplete .ok) s = .next (settle u) ∧ u.hb.busy = none ∧ u.hb.stat = 0 ∧
      u.hb.flash = Memory.writeBytes s.hb.blank s.hb.flash s.hb.addr.toNat (s.hb.buf.toList.take (fld v 8 0)) ∧
      u.acc = s.acc ∧ u.med = s.med ∧ u.ns = s.ns) ∧
  (∀ (keeper : Bool) (off len : Nat) (s : State) (k : Nat), otpStat keeper off len s = statOk → k < len / 4 →
    bit s.hb.used (off / 4 + k) = false)) ∧
  ((∀ (s : State) (a : Actor), CanWrite a 0x07FF s → s.hb.busy = none → s.pwr.recovery = false →
    (s.helloOk s.keeper.bus (s.keeper.kxBytes 0 384) = true →
      ∃ u, exec (.kxHello a) s = .next (settle u) ∧ u = { s with keeper := u.keeper, fresh := s.fresh + 3 } ∧
        u.keeper.kxStat = 0 ∧ u.keeper.bus.hs.isSome = true ∧ u.keeper.bus.session = none ∧ u.keeper.nvme = s.keeper.nvme) ∧
    (s.helloOk s.keeper.bus (s.keeper.kxBytes 0 384) = false →
      exec (.kxHello a) s = .next (settle { s with keeper := { s.keeper with kxStat := 6 } })) ∧
    (∀ x, s.keeper.bus.hs = some x → exec (.kxSignature a) s = .next (settle { s with keeper := { s.keeper.kxPut (slice x.sigma 0 384) with
      kxStat := 0 } })) ∧
    (s.keeper.bus.hs = none → exec (.kxSignature a) s = .next (settle { s with keeper := { s.keeper with kxStat := 6 } })) ∧
    (∀ x, s.keeper.bus.hs = some x →
      ∃ u, exec (.kxProve a) s = .next (settle u) ∧ u = { s with keeper := u.keeper } ∧ u.keeper.bus.hs = none ∧
        (u.keeper.bus.session = if x.proof = s.keeper.kxBytes 0 32 then some (x.ks, 0) else s.keeper.bus.session) ∧
        (u.keeper.kxStat = if x.proof = s.keeper.kxBytes 0 32 then 0 else 6)) ∧
    (a = .keeper → exec (.kxClose a) s = .next (settle { s with keeper := { s.keeper with
      bus := { s.keeper.bus with session := none }, kxStat := 0 } })) ∧
    (a ≠ .keeper → exec (.kxClose a) s = .next (settle { s with keeper := { s.keeper with kxStat := 6 } }))))

/-- Card events (R358 to R366): a read of EVT_STATUS records the pulses it shows, an acknowledgement clears only what was
recorded, the route of the selected source is stored with the aux copy of its low sources, the masks are stored, forced faults
set only defined bits, and the journal's interval starts again, with a DROPPED record where entries were dropped.
Completes, under the hypotheses on state and operands that its clauses name: holdupMeasure, evtStatusRead, pulseAck, evtRouteWrite, msixMaskWrite, faultForceMirror, deliveryErr, journalInterval. -/
def Obligations.EventRows : Prop :=
  (∀ (s : State) (a : Actor) (k : Fin 16), s.regReady (0x0602 + k.val) = true → s.regAllowed a (0x0602 + k.val) = statOk →
    ∃ u, exec (.evtStatusRead a k) s = .next (settle u) ∧ u = { s with ev := { s.ev with recorded := u.ev.recorded } } ∧
      (∀ i, i < 512 → bit u.ev.recorded i = if 32 * k.val ≤ i ∧ i < 32 * k.val + 32 then bit s.ev.pulse i else bit s.ev.recorded i)) ∧
  (∀ (s : State) (a : Actor) (k : Fin 16), CanWrite a 0x0645 s → s.pwr.mainOn = true →
    ∃ u, exec (.pulseAck a k) s = .next (settle u) ∧
      (∀ i, i < 512 → bit u.ev.pulse i = (bit s.ev.pulse i && !(bit s.ev.recorded i && decide (32 * k.val ≤ i ∧ i < 32 * k.val + 32)))) ∧
      u.ns = s.ns ∧ u.med = s.med ∧ u.bcn = s.bcn) ∧
  (∀ (s : State) (a : Actor) (v : W32), CanWrite a 0x0601 s → s.ev.sel < 512 →
    ∃ u, exec (.evtRouteWrite a v) s = .next (settle u) ∧ u = { s with ev := u.ev } ∧ bit u.ev.en s.ev.sel = bit v 31 ∧
      bit u.ev.alert s.ev.sel = bit v 30 ∧ u.ev.vec s.ev.sel = fld v 7 0 ∧ u.ev.pulse = s.ev.pulse ∧
      (∀ i, i ≠ s.ev.sel → bit u.ev.en i = bit s.ev.en i ∧ bit u.ev.alert i = bit s.ev.alert i) ∧
      (s.ev.sel < 128 ∨ 192 ≤ s.ev.sel ∧ s.ev.sel ≤ 194 → bit u.ev.auxEn s.ev.sel = bit v 31 ∧ bit u.ev.auxAlert s.ev.sel = bit v 30)) ∧
  (∀ (s : State) (m : Bool), s.running = true → s.pwr.watch ≠ .asleep →
    (∀ v, exec (.msixMaskWrite (some v) m) s = .next (settle { s with ev := { s.ev with mask := putBit s.ev.mask v.toNat m } })) ∧
    exec (.msixMaskWrite none m) s = .next (settle { s with ev := { s.ev with fmask := m } })) ∧
  (∀ (s : State) (v : Byte) (m : Bool), s.running = true → s.pwr.watch = .asleep → s.pwr.link = true → s.therm.held = false →
    exec (.msixMaskWrite (some v) m) s = .next (settle { s with ev := { s.ev with mask := putBit s.ev.mask v.toNat m }
                                                                pwr := { s.pwr with wakeSrc := putBit s.pwr.wakeSrc 1 true, wakeDue := true } })) ∧
  (∀ (s : State) (a : Actor) (f : Fin 64) (v : W32), CanWrite a (0x0940 + f.val) s → s.ev.inject = true ∨ a = .mgmt →
    exec (.faultForceMirror a f v) s = .next (settle (forceFaults f.val v (reachFrame f.val s)))) ∧
  (∀ s : State, s.ev.jprev + s.ev.jdrops = 0 ∨ s.pwr.recovery = true →
    exec .journalInterval s = .next (settle { s with ev := { s.ev with jcount := 0, jprev := s.ev.jprev + s.ev.jdrops, jdrops := 0 } })) ∧
  (∀ s : State, 0 < s.ev.jprev + s.ev.jdrops → s.pwr.recovery = false →
    exec .journalInterval s = .next (settle { s with ev := { s.ev with
      jcount := 0, jprev := 0, jdrops := 0, jnext := s.ev.jnext + 1
      journal := ⟨s.ev.jnext, s.now, s.pwr.starts, 4, 0xFF, 1, s.ev.jprev + s.ev.jdrops⟩ :: s.ev.journal } })) ∧
  (∀ (s : State) (v : Byte), s.running = true → exec (.deliveryErr v) s = .next (settle (raiseFault 5 17 s))) ∧
  (∀ (s : State) (a : Actor) (v : W32), CanWrite a 0x0901 s → bit v 0 = true →
    exec (.holdupMeasure a v) s = .next (settle (startMeasure s)))

/-- Reading, writing and polling (R281 to R286): an aux-served register is read and written in the frame, and the answer
is stored for POLL, and so is a core-served one while the cores serve; in Watch it wakes the card and answers NOT_READY; a session
frame whose MAC fails is counted and answered with NOT_KEEPER (R296).
A frame with a wrong CRC (R276, R302): the card it was for counts it, sets CRC_ERR and answers with ACK = 0 and STAT CRC;
any other card stays silent; no register is changed by it. A card whose 1 in that answer is lost stops driving, sets COLLISION and
becomes unmoored (R274, R279); a MOOR_CHECK, which has no response fields, is not answered (R277). In the answer to a frame with KEY = 1 the MAC field holds zero, which
is the model's reading (notes/assumptions/87.md).
Completes, under the hypotheses on state and operands that its clauses name: busRead, busWrite, poll, moorCheck. -/
def Obligations.BusAccessRows : Prop :=
  ((∀ (s : State) (f : Frame) (reg : Nat), FrameTaken f s → frameCode f = 1 → frameKey f = false → s.mine f = true → frameReg f = some reg →
    auxServed reg = true → s.regAllowed .bus reg = statOk → reg ≠ 0x0209 → (s.peek reg).isSome = true →
    ∃ u, exec (.busRead f none) s = .next (settle u) ∧ u = { s with bus := u.bus } ∧
      u.bus.stored = (if isUnicast f then some ⟨0, ((silent s).peek reg).getD 0, none⟩ else s.bus.stored) ∧
      (∃ crc, u.bus.out = .response true 0 (((silent s).peek reg).getD 0) none crc) ∧ u.bus.addr = s.bus.addr) ∧
  (∀ (s : State) (f : Frame), FrameTaken f s → frameCode f = 2 → frameKey f = false → s.mine f = true → isBroadcast f = false →
    frameReg f = some 0x0106 → s.regAllowed .bus 0x0106 = statOk →
    ∃ u, exec (.busWrite f none) s = .next (settle u) ∧ u = { s with bus := u.bus } ∧ u.bus.lease = f.data &&& 0xFFFF ∧
      u.bus.moor = s.bus.moor ∧ u.bus.addr = s.bus.addr ∧ u.bus.token = s.bus.token) ∧
  (∀ (s : State) (f : Frame) (r : Response), FrameTaken f s → frameCode f = 3 → frameKey f = false → s.mine f = true →
    s.bus.held = none → s.bus.stored = some r → r.session = none →
    ∃ u, exec (.poll f none) s = .next (settle u) ∧ u = { s with bus := { s.bus with out := u.bus.out } } ∧
      ∃ crc, u.bus.out = .response true (b8 r.stat.toNat) r.data none crc) ∧
  (∀ (s : State) (f : Frame), FrameTaken f s → frameCode f = 3 → frameKey f = false → s.mine f = true →
    (∃ h, s.bus.held = some h ∧ h.dropped = false) →
    ∃ u, exec (.poll f none) s = .next (settle u) ∧ u = { s with bus := { s.bus with out := u.bus.out } } ∧
      ∃ crc, u.bus.out = .response true 1 0 none crc) ∧
  (∀ (s : State) (f : Frame) (reg : Nat), FrameTaken f s → frameCode f = 1 → frameKey f = false → s.mine f = true → frameReg f = some reg →
    auxServed reg = false → s.pwr.watch = .asleep → s.therm.held = false →
    ∃ u, exec (.busRead f none) s = .next (settle u) ∧ u.pwr = { s.pwr with wakeSrc := putBit s.pwr.wakeSrc 0 true, wakeDue := true } ∧
      ∃ crc, u.bus.out = .response true 2 0 none crc) ∧
  (∀ (s : State) (f : Frame) (reg : Nat), FrameTaken f s → frameCode f = 1 → frameKey f = false → s.mine f = true → frameReg f = some reg →
    auxServed reg = false → s.coresServe = true → s.therm.held = false → s.bus.held = none → s.regAllowed .bus reg = statOk → (s.peek reg).isSome = true →
    mirrorOf reg = none →
    ∃ u, exec (.busRead f none) s = .next (settle u) ∧ u = { s with bus := u.bus, ev := { s.ev with recorded := u.ev.recorded } } ∧
      u.bus.stored = (if isUnicast f then some ⟨0, ((silent s).peek reg).getD 0, none⟩ else s.bus.stored) ∧
      ∃ crc, u.bus.out = .response true 0 (((silent s).peek reg).getD 0) none crc) ∧
  (∀ (s t : State) (f : Frame) (i : Instr), FrameTaken f s → (frameCode f, i) ∈ [(1, .busRead f none), (2, .busWrite f none), (3, .poll f none)] →
    frameKey f = true → isBroadcast f = false → s.mine f = true → (frameReg f).isSome = true → s.sessionServed = true →
    acceptMac f (silent s) = (none, t) →
    ∃ u, exec i s = .next (settle u) ∧ u.bus.macErr = satInc s.bus.macErr ∧ bit (u.frameStatus 1) 5 = true ∧
      (∃ crc, u.bus.out = .response true 6 0 (some 0) crc) ∧ u.acc = s.acc ∧ u.hb = s.hb ∧ u.pwr = s.pwr ∧ u.keeper = s.keeper)) ∧
  ((∀ (s : State) (f : Frame), s.pwr.auxOn = true → s.bus.idleSeen = true → s.bus.ignoring = false → f.sync = s.compat →
    frameCrcOk f = false → frameCode f = 2 → s.mine f = true →
    (∃ u, exec (.busWrite f none) s = .next (settle u) ∧ u.bus.crcErr = satInc s.bus.crcErr ∧ bit (u.frameStatus 1) 6 = true ∧
      (∃ crc, u.bus.out = .response false 3 0 (blankMac f) crc) ∧ u.pwr = s.pwr ∧ u.acc = s.acc ∧ u.therm = s.therm ∧ u.hb = s.hb ∧
      u.bus.stored = s.bus.stored ∧ u.bus.moor = s.bus.moor) ∧
    (∀ k, k = 6 ∨ k = 7 → s.bus.moor ≠ .unmoored → 
      ∃ u, exec (.busWrite f (some k)) s = .next (settle u) ∧ u.bus.crcErr = satInc s.bus.crcErr ∧ bit (u.frameStatus 1) 7 = true ∧
        u.bus.out = .cut false ((msbBits 8 3).take (k + 1)) ∧ u.bus.moor = .unmoored ∧ u.bus.addr = 0 ∧ u.bus.stored = none)) ∧
  (∀ (s : State) (f : Frame) (lost : Option Nat), s.pwr.auxOn = true → s.bus.idleSeen = true → s.bus.ignoring = false → f.sync = s.compat →
    frameCrcOk f = false → frameCode f = 2 → s.mine f = false → frameFast f = false →
    exec (.busWrite f lost) s = .next (settle { s with bus := { s.bus with out := .silent } })) ∧
  (∀ (s : State) (f : Frame) (others : List W64), s.pwr.auxOn = true → s.bus.idleSeen = true → s.bus.ignoring = false → f.sync = s.compat →
    frameCrcOk f = false → frameCode f = 10 → s.mine f = true →
    ∃ u, exec (.moorCheck f others) s = .next (settle u) ∧ u.bus = { s.bus with crcErr := satInc s.bus.crcErr, out := .silent, sticky := u.bus.sticky }))

/-- Mooring (R287 to R293): of the unmoored cards the one with the lowest UID takes the address; a provisional card keeps its
address when it wins both phases of the check, and becomes unmoored when it loses one; a card that drives ALERT# sends its
address.
Broadcasts, WAKE, the token and the sessions (R58, R276, R285, R299, R300, R346, R347).
Completes, under the hypotheses on state and operands that its clauses name: moor, moorResume, moorCheck, unmoor, alertWho, beaconZero, token, wake, sessionTimeout, helloRefusalExpiry, busIdleDetect, tokenLapse. -/
def Obligations.MooringRows : Prop :=
  ((∀ (s : State) (f : Frame) (others : List W64), FrameTaken f s → frameCode f = 8 → s.bus.moor = .unmoored →
    1 ≤ f.reg.toNat % 256 → f.reg.toNat % 256 ≤ 250 →
    ((∀ x ∈ others, s.uid ≤ x.toNat) → ∃ u, exec (.moor f others) s = .next (settle u) ∧ u = { s with bus := { s.bus with
      moor := .moored, addr := f.reg.toNat % 256, out := u.bus.out } }) ∧
    ((∃ x ∈ others, x.toNat < s.uid) → ∃ u, exec (.moor f others) s = .next (settle u) ∧ u = { s with bus := { s.bus with
      out := u.bus.out } })) ∧
  (∀ (s : State) (f : Frame), FrameTaken f s → frameCode f = 9 → s.pwr.copied = true → s.bus.moor = .unmoored → 1 ≤ fld s.hb.auxPref 7 0 →
    fld s.hb.auxPref 7 0 ≤ 250 →
    exec (.moorResume f) s = .next (settle { s with bus := { s.bus with moor := .provisional, addr := fld s.hb.auxPref 7 0, out := .silent } })) ∧
  (∀ (s : State) (f : Frame) (others : List W64), FrameTaken f s → frameCode f = 10 → s.bus.moor ≠ .unmoored → s.mine f = true →
    ((∀ x ∈ others, x.toNat = s.uid) → ∃ u, exec (.moorCheck f others) s = .next (settle u) ∧ u = { s with bus := { s.bus with
      moor := .moored, out := u.bus.out } }) ∧
    (s.uid < 2 ^ 64 → (∃ x ∈ others, x.toNat ≠ s.uid) → ∃ u, exec (.moorCheck f others) s = .next (settle u) ∧ u.bus.moor = .unmoored ∧
      u.bus.addr = 0 ∧ u.bus.stored = none ∧ u.keeper.bus.session = none ∧ u.bus.token = false)) ∧
  (∀ (s : State) (f : Frame) (lost : Option Nat), FrameTaken f s → frameCode f = 11 → isBroadcast f = true ∨ s.mine f = true →
    ∃ u, exec (.unmoor f lost) s = .next (settle u) ∧ u.bus.moor = .unmoored ∧ u.bus.addr = 0 ∧ u.bus.stored = none ∧
      u.bus.token = false ∧ u.keeper.bus.session = none ∧ u.keeper.nvme = s.keeper.nvme ∧ u.med = s.med ∧ u.ns = s.ns) ∧
  (∀ (s : State) (f : Frame) (others : List Byte), FrameTaken f s → frameCode f = 12 → (silent s).alertLow = true →
    ∃ u, exec (.alertWho f others) s = .next (settle u) ∧ u = { s with bus := { s.bus with out := u.bus.out } } ∧
      ∃ b, u.bus.out = .slots b)) ∧
  ((∀ (s : State) (f : Frame), FrameTaken f s → frameCode f = 16 →
    (s.groupWorld 2 = false → exec (.beaconZero f) s = .next (settle (bcnZeroArm (fld f.data 23 0) (silent s)))) ∧
    (s.groupWorld 2 = true → exec (.beaconZero f) s = .next (settle (raiseFault 1 3 (silent s))))) ∧
  (∀ (s : State) (f : Frame), FrameTaken f s → frameCode f = 17 → s.bus.moor = .moored → 1 ≤ fld f.reg 15 8 → fld f.reg 15 8 ≤ 250 →
    fld f.reg 15 8 ≤ s.bus.addr → s.bus.addr ≤ fld f.reg 15 8 + 31 →
    ∃ u, exec (.token f) s = .next (settle u) ∧ u.bus.token = bit f.data (s.bus.addr - fld f.reg 15 8) ∧
      u = { s with bus := u.bus, pwr := u.pwr, stalls := u.stalls }) ∧
  (∀ s : State, fld s.bus.lease 15 0 ≠ 0 →
    ∃ u, exec .tokenLapse s = .next (settle u) ∧ u.bus = { s.bus with token := false } ∧ u = { s with bus := u.bus, pwr := u.pwr, stalls := u.stalls }) ∧
  (∀ s : State, fld s.bus.lease 15 0 = 0 → exec .tokenLapse s = .next (settle s)) ∧
  (∀ (s : State) (f : Frame) (lost : Option Nat), FrameTaken f s → frameCode f = 18 → isBroadcast f = true → s.pwr.watch = .asleep →
    s.therm.held = false →
    exec (.wake f lost) s = .next (settle { s with bus := { s.bus with out := .silent }
                                                   pwr := { s.pwr with wakeSrc := putBit s.pwr.wakeSrc 0 true, wakeDue := true } })) ∧
  (∀ s : State, s.pwr.auxOn = true →
    exec (.busIdleDetect false) s = .next (settle { s with bus := { s.bus with idleSeen := true, ignoring := false, out := .silent } })) ∧
  (∀ s : State,
    exec (.sessionTimeout true) s = .next (settle { s with keeper := { s.keeper with
      nvme := { s.keeper.nvme with session := none }, armed := [] } }) ∧
    exec (.sessionTimeout false) s = .next (settle { s with keeper := { s.keeper with bus := { s.keeper.bus with session := none } } }) ∧
    exec (.helloRefusalExpiry true) s = .next (settle { s with keeper := { s.keeper with nvme := { s.keeper.nvme with refusing := false } } }) ∧
    exec (.helloRefusalExpiry false) s = .next (settle { s with keeper := { s.keeper with bus := { s.keeper.bus with refusing := false } } })))

/-- Counting (R28, R35, R36, R42, R43): each count moves the net position by one, in the sense of DIR_INVERT, whatever the
cycle length; two lines at once, or a count sooner than 25 ns after the last, is the MISS fault and moves nothing; the position stays
split as net cycle and count, with the count below CPC.
Completes, under the hypotheses on state and operands that its clauses name: countChange, internalCount, extrapolationStop, stillEntry, sequenceReservation. -/
def Obligations.CountRows : Prop :=
  (∀ (s : State) (t : Nat) (q : QuadStep), s.inMode 1 = true → q ≠ .both → (∀ l ∈ s.bcn.inp.lastCounted, l + 25 ≤ max s.now t) →
    ∃ u, exec (.countChange t q) s = .next (settle u) ∧ OnlyPosition s u ∧ u.now = max s.now t ∧
      u.bcn.pos = s.bcn.pos + (if (q == .reverse) != s.bcn.invert then -1 else 1) ∧ u.bcn.count < u.bcn.cpc ∧ u.bcn.regs = s.bcn.regs ∧
      u.bcn.code = s.bcn.code ∧ u.bcn.seq = s.bcn.seq ∧ u.bcn.still = false) ∧
  (∀ (s : State) (t : Nat) (q : QuadStep), s.inMode 1 = true → q = .both ∨ (∃ l ∈ s.bcn.inp.lastCounted, max s.now t < l + 25) →
    ∃ u, exec (.countChange t q) s = .next (settle u) ∧ OnlyPosition s u ∧ u.bcn.pos = s.bcn.pos ∧
      u.bcn.code = (if s.bcn.code = 0 then 2 else s.bcn.code) ∧ bit u.bcn.sticky 6 = true) ∧
  (∀ (s : State) (t : Nat), s.inMode 0 = true →
    (s.bcn.inp.rate ≠ 0 → ∃ u, exec (.internalCount t) s = .next (settle u) ∧ OnlyPosition s u ∧
      u.bcn.pos = s.bcn.pos + (if s.bcn.invert then -1 else 1) ∧ u.bcn.count < u.bcn.cpc ∧ u.bcn.code = s.bcn.code ∧
      u.bcn.inp.rate = s.bcn.regs.intRate ∧ u.bcn.still = false) ∧
    (s.bcn.inp.rate = 0 → exec (.internalCount t) s = .next (settle { s with now := max s.now t }))) ∧
  (∀ s : State, s.beaconOn = true → s.bcn.stillTime ≠ 0 →
    exec .stillEntry s = .next (settle { s with bcn := { s.bcn with still := true } })) ∧
  (∀ (s : State) (t : Nat), s.inMode 2 = true ∨ s.inMode 3 = true →
    ∃ u, exec (.extrapolationStop t) s = .next (settle u) ∧ OnlyPosition s u ∧ u.bcn.inp.extrap = false ∧
      (s.bcn.extrapolates = false → u.bcn.pos = s.bcn.pos)) ∧
  (∀ s : State, s.operating = true → s.bcn.seqLimit ≤ s.bcn.seq + 2 ^ 25 →
    exec .sequenceReservation s = .next (settle { s with bcn := { s.bcn with seqLimit := s.bcn.seqLimit + 2 ^ 26 } }))

/-- Samples and faults (R37 to R41, R55, R56): the first good word of an UNREFERENCED SSI Beacon places the count and ends
the fault; a bad word is counted, and the limit of them is the SSI fault; a fed count beyond BCN_JUMP is the JUMP fault and moves
nothing; a line fault of a pair in use is the LINE fault; the index event checks or re-references the count; RESUME ends
a fault.
Completes, under the hypotheses on state and operands that its clauses name: indexEvent, ssiFrameStart, ssiWord, line, bcnFeed, resume. -/
def Obligations.SampleRows : Prop :=
  (∀ s : State, s.ssiOn = true → s.bcn.master = true → ∀ t,
    (s.bcn.extrapolates = false →
      exec (.ssiFrameStart t) s = .next (settle { s with now := max s.now t, bcn := { s.bcn with inp := { s.bcn.inp with frame := true } } })) ∧
    ∃ u, exec (.ssiFrameStart t) s = .next (settle u) ∧ OnlyPosition s u ∧ u.now = max s.now t ∧ u.bcn.inp.frame = true) ∧
  (∀ (s : State) (t : Nat) (w : W32) (c : BitVec 6), s.ssiOn = true → (s.bcn.master = true → s.bcn.inp.frame = true) →
    (s.bcn.wordGood w c = true → s.bcn.code = 6 → s.bcn.inp.reref = false →
      ∃ u, exec (.ssiWord t w c) s = .next (settle u) ∧ OnlyPosition s u ∧ u.bcn.code = 0 ∧ u.bcn.count = s.bcn.sense (s.bcn.wordValue w) ∧
        u.bcn.net = s.bcn.net ∧ u.bcn.inp.frame = false ∧ u.bcn.com.restart = true) ∧
    (s.bcn.wordGood w c = false → s.bcn.inp.errRun + 1 < s.bcn.errLimit →
      ∃ u, exec (.ssiWord t w c) s = .next (settle u) ∧ OnlyPosition s u ∧ (s.bcn.extrapolates = false → u.bcn.pos = s.bcn.pos) ∧
        u.bcn.code = s.bcn.code ∧
        u.bcn.inp.errRun = s.bcn.inp.errRun + 1 ∧ bit u.bcn.sticky 4 = true) ∧
    (s.bcn.wordGood w c = false → s.bcn.errLimit ≤ s.bcn.inp.errRun + 1 →
      ∃ u, exec (.ssiWord t w c) s = .next (settle u) ∧ OnlyPosition s u ∧ (s.bcn.extrapolates = false → u.bcn.pos = s.bcn.pos) ∧
        u.bcn.code = (if s.bcn.code = 0 then 4 else s.bcn.code))) ∧
  (∀ (s : State) (t : Nat) (a : Actor) (v : W32), CanWrite a 0x0206 (s.at_ t) → s.beaconOn = true → s.bcn.mode = 3 →
    (s.bcn.code = 6 → s.bcn.inp.reref = false →
      ∃ u, exec (.bcnFeed t a v) s = .next (settle u) ∧ OnlyPosition s u ∧ u.bcn.code = 0 ∧ u.bcn.count = s.bcn.sense v.toNat) ∧
    (s.bcn.code = 0 → s.bcn.extrapolates = false → s.bcn.inp.resume = false →
      s.bcn.within (shortest s.bcn.cpc (fmodNat s.bcn.anchor s.bcn.cpc) (s.bcn.sense v.toNat)) = false →
      ∃ u, exec (.bcnFeed t a v) s = .next (settle u) ∧ OnlyPosition s u ∧ u.bcn.code = 5 ∧ u.bcn.pos = s.bcn.pos ∧
        bit u.bcn.sticky 3 = true)) ∧
  (∀ (s : State) (p : BcnPair), s.beaconOn = true → s.bcn.pairUsed p = true →
    ∃ u, exec (.line p) s = .next (settle u) ∧ OnlyPosition s u ∧ u.bcn.pos = s.bcn.pos ∧
      u.bcn.code = (if s.bcn.code = 0 then 1 else s.bcn.code) ∧ bit u.bcn.sticky 7 = true) ∧
  (∀ (s : State) (t : Nat), s.inMode 1 = true → s.bcn.armed = false →
    (s.bcn.indexMode = 1 → s.bcn.offZero ≤ s.bcn.indexTol → exec (.indexEvent t) s = .next (settle { s with now := max s.now t })) ∧
    (s.bcn.indexMode = 1 → s.bcn.indexTol < s.bcn.offZero → s.bcn.code = 0 →
      ∃ u, exec (.indexEvent t) s = .next (settle u) ∧ OnlyPosition s u ∧ u.bcn.code = 3 ∧ u.bcn.pos = s.bcn.pos) ∧
    (s.bcn.indexMode = 2 →
      ∃ u, exec (.indexEvent t) s = .next (settle u) ∧ OnlyPosition s u ∧ u.bcn.count = 0 ∧ u.bcn.code = 0)) ∧
  (∀ (s : State) (a : Actor), CanWrite a 0x0207 s → s.native = true → s.beaconOn = true → s.bcn.code ≠ 0 →
    ∃ u, exec (.resume a) s = .next (settle u) ∧ OnlyPosition s u ∧ u.bcn.code = 0 ∧ u.bcn.pos = s.bcn.pos ∧ u.bcn.com.restart = true) ∧
  (∀ (b : Bcn) (c : Nat), b.code ≠ 0 → (b.enterFault c).code = b.code ∧ (b.enterFault c).entered = b.entered) ∧
  (∀ b : Bcn, b.code ≠ 0 → ∀ t free, b.stamp t free = mkStamp 0xFFFFFF b.valid b.code)

/-- Beacon Zero (R58): ZERO_NOW loads the cycle of BCN_ZERO_CYC in the current era, clears the count in the quadrature and
Internal modes and keeps it in the others, ends a fault, restarts the commit count, and leaves an armed Zero armed; ZERO_ARM in quadrature mode waits for the
index, which then applies it.
Beacon registers (R28, R42, R44, R45, R49, R51): a change of MODE, FILT, DIR_INVERT or INDEX_MODE, or of CPC, is the
RECONFIG fault; other bits of BCN_CFG are stored in silence; CPC below 16 is stored as 16 and the count is taken modulo it; BCN_INT_RATE is stored, and
a running count keeps its rate up to the next count; an Arc's registers are stored and take effect at the next count change; a read of BCN_STAMP_LO latches the whole stamp.
Completes, under the hypotheses on state and operands that its clauses name: indexEvent, zeroNow, zeroArm, bcnConfigWrite, bcnIntRateWrite, arcRegisterWrite, bcnCommitCtlWrite, bcnStampLoRead. -/
def Obligations.BeaconRegisterRows : Prop :=
  ((∀ (s : State) (a : Actor), CanWrite a 0x0207 s → s.native = true → s.beaconOn = true →
    ∃ u, exec (.zeroNow a) s = .next (settle u) ∧ OnlyPosition s u ∧
      u.bcn.net = s.bcn.curEra * 16777215 + (min s.bcn.regs.zeroCyc.toNat 0xFFFFFE : Nat) ∧
      u.bcn.count = (if s.bcn.mode = 0 ∨ s.bcn.mode = 1 then 0 else s.bcn.count) ∧ u.bcn.code = 0 ∧ u.bcn.armed = s.bcn.armed ∧
      u.bcn.com.restart = true ∧ u.bcn.com.lastCycle = none ∧ u.bcn.com.counted = []) ∧
  (∀ (s : State) (a : Actor), CanWrite a 0x0207 s → s.native = true → s.beaconOn = true → s.bcn.mode = 1 →
    ∃ u, exec (.zeroArm a) s = .next (settle u) ∧ OnlyPosition s u ∧ u.bcn = { s.bcn with armed := true, armVal := min s.bcn.regs.zeroCyc.toNat 0xFFFFFE }) ∧
  (∀ (s : State) (t : Nat), s.inMode 1 = true → s.bcn.armed = true →
    ∃ u, exec (.indexEvent t) s = .next (settle u) ∧ OnlyPosition s u ∧ u.bcn.armed = false ∧ u.bcn.count = 0 ∧
      u.bcn.net = s.bcn.curEra * 16777215 + (min s.bcn.armVal 0xFFFFFE : Nat))) ∧
  ((∀ (s : State) (a : Actor) (v : W32), CanWrite a 0x0200 s → s.native = true →
    ((v ^^^ s.bcn.regs.cfg) &&& 0xFF000000 = 0 →
      ∃ u, exec (.bcnConfigWrite a false v) s = .next (settle u) ∧ OnlyPosition s u ∧
        u.bcn = { s.bcn with regs := { s.bcn.regs with cfg := v &&& 0xFFFFC000 } }) ∧
    ((v ^^^ s.bcn.regs.cfg) &&& 0xFF000000 ≠ 0 → s.bcn.code = 0 →
      ∃ u, exec (.bcnConfigWrite a false v) s = .next (settle u) ∧ OnlyPosition s u ∧ u.bcn.code = 7 ∧
        u.bcn.regs.cfg = v &&& 0xFFFFC000 ∧ u.bcn.net = s.bcn.net ∧ u.bcn.count = s.bcn.count)) ∧
  (∀ (s : State) (a : Actor) (v : W32), CanWrite a 0x0201 s → s.native = true → s.bcn.code = 0 →
    (if v.toNat < 15 then 15 else v.toNat) ≠ s.bcn.regs.cpc.toNat →
    ∃ u, exec (.bcnConfigWrite a true v) s = .next (settle u) ∧ OnlyPosition s u ∧ u.bcn.code = 7 ∧ u.bcn.cpc = max 16 (v.toNat + 1) ∧
      u.bcn.count = s.bcn.count % u.bcn.cpc ∧ u.bcn.net = s.bcn.net) ∧
  (∀ (s : State) (a : Actor) (v : W32), CanWrite a 0x0205 s →
    ∃ u, exec (.bcnIntRateWrite a v) s = .next (settle u) ∧ u = { s with bcn := u.bcn } ∧
      u.bcn = { s.bcn with regs := u.bcn.regs, inp := u.bcn.inp } ∧
      u.bcn.regs = { s.bcn.regs with intRate := if 40000000 < v.toNat then 40000000#32 else v } ∧
      (s.compat = true ∨ (s.bcn.mode = 0 ∧ s.bcn.loaded = true ∧ s.bcn.inp.rate ≠ 0) → u.bcn.inp = s.bcn.inp)) ∧
  (∀ (s : State) (a : Actor) (n : Fin 64) (v : W32), CanWrite a (0x0240 + n.val) s →
    ∃ u, exec (.arcRegisterWrite a (BitVec.ofNat 16 (0x0240 + n.val)) v) s = .next (settle u) ∧ u = { s with bcn := { s.bcn with arcs := u.bcn.arcs } } ∧
      u.bcn.arcs[n] = { s.bcn.arcs[n] with start := v } ∧ ∀ m : Fin 64, m ≠ n → u.bcn.arcs[m] = s.bcn.arcs[m]) ∧
  (∀ (s : State) (a : Actor) (v : W32), CanWrite a 0x0211 s → s.native = true →
    ∃ u, exec (.bcnCommitCtlWrite a v) s = .next (settle u) ∧ u = { s with bcn := u.bcn } ∧ u.bcn.regs.commitCtl = v &&& 0x8000FFFF ∧
      u.bcn.com = { s.bcn.com with restart := s.bcn.com.restart || (bit v 31 && !s.bcn.commitEn) }) ∧
  (∀ (s : State) (a : Actor) (t : Nat), s.regReady 0x0209 = true → s.regAllowed a 0x0209 = statOk → s.bcn.code ≠ 0 →
    exec (.bcnStampLoRead t a) s = .next (settle { s with
      now := max s.now t, fresh := s.fresh + 1, bcn := { s.bcn with latch := mkStamp 0xFFFFFF s.bcn.valid s.bcn.code } })))

/-- Commits (R51, R53, R77): a crossing commits only in a cycle above that of the last commit made from a crossing, only
once in a cycle, with commits enabled, and at least 250 µs after the commit before; the oldest pending mark becomes durable once
no record below its boundary is open, and takes the next number; not in Watch.
Completes, under the hypotheses on state and operands that its clauses name: commitMarkDurable. -/
def Obligations.CommitRows : Prop :=
  (∀ (m m' : Commits) (en : Bool) (every t : Nat) (ok : Bool) (c : Int) (f : Nat), m.cross en every t ok c = (m', some f) →
    en = true ∧ ok = true ∧ m.running = true ∧ (∀ l ∈ m.lastCycle, l < c) ∧ c ∉ m.counted ∧ (∀ l ∈ m.lastNs, l + 250000 ≤ t) ∧
    (m.restart = true ∨ every ≤ m.count + 1) ∧ m'.lastCycle = some c ∧ m'.lastNs = some t ∧ m'.count = 0 ∧ m'.restart = false ∧
    m'.num = m.num) ∧
  (∀ (m : Commits) (en : Bool) (every t : Nat) (ok : Bool) (c : Int), (∃ l ∈ m.lastCycle, c ≤ l) ∨ c ∈ m.counted ∨ en = false →
    m.cross en every t ok c = (m, none)) ∧
  (∀ (s : State) (late : Bool) (m : PendingMark) (rest : List PendingMark), s.med.pendMarks = m :: rest → s.operating = true →
    s.pwr.watch ≠ .asleep → s.windowClosed = false → s.pendingBelow m.bound = false → m.cmd = none →
    ∃ u k, exec (.commitMarkDurable late) s = .next (settle u) ∧ u.bcn.com.num = s.bcn.com.num + 1 ∧ u.med.pendMarks = rest ∧
      u.med.marks[0]? = some k ∧ k.num = (s.bcn.com.num + 1).toNat ∧ k.stamp = m.stamp ∧ k.bound = m.bound ∧
      k.entries = s.markEntries m.bound ∧ u.med.content = s.med.content ∧ u.bcn.pos = s.bcn.pos ∧ u.ram = s.ram ∧
      u.nv = s.nv ∧ u.lots = s.lots) ∧
  (∀ (s : State) (late : Bool) (m : PendingMark) (rest : List PendingMark), s.med.pendMarks = m :: rest →
    s.pendingBelow m.bound = true ∨ s.pwr.watch = .asleep → exec (.commitMarkDurable late) s = .next (settle s))

/-- Landing and Lots (R16, R30 to R32, R73): the header of the next record takes the next sequence number, which lies below the
durable reservation; a record that passes the checks (its command is still there) joins the open Lot of its namespace, which may close
with it; and a Lot that has been idle closes.
Completes, under the hypotheses on state and operands that its clauses name: recordHeaderLands, lotCloseIdle. -/
def Obligations.LandingRows : Prop :=
  (∀ (s : State) (t h : Nat) (c : Cmd) (n : Ns), s.cmd h = some c → look s.ns c.nsid = some n → (s.at_ t).canLand c = true →
    ∃ u, exec (.recordHeaderLands t h) s = .next (settle u) ∧ u.bcn.seq = s.bcn.seq + 1 ∧ s.bcn.seq < s.bcn.seqLimit ∧
      u.bcn.seqLimit = s.bcn.seqLimit ∧ u.now = max s.now t ∧
      ((u.cmd h).isSome = true → u.acc = s.acc ∧ u.hb = s.hb ∧ u.ram = s.ram ∧ u.med.content = s.med.content ∧ u.med.held = s.med.held ∧
        ∃ r : LotRec, r.nsid = c.nsid ∧ r.cmd = h ∧ r.seq = s.bcn.seq ∧
          ((∃ x, look u.ns c.nsid = some x ∧ r ∈ x.st.opened) ∨ ∃ l ∈ u.lots, r ∈ l.recs))) ∧
  (∀ (s : State) (n : Nat) (x : Ns), s.operating = true → look s.ns n = some x → x.st.opened ≠ [] →
    ∃ u, exec (.lotCloseIdle n) s = .next (settle u) ∧ (∃ l ∈ u.lots, l.nsid = n ∧ l.recs = x.st.opened ∧ l.state = .waiting ∧ l.id = s.nextLot) ∧
      (∀ y, look u.ns n = some y → y.st.opened = []) ∧ u.nextLot = s.nextLot + 1 ∧
      u = { s with ns := u.ns, lots := u.lots, nextLot := u.nextLot, opens := u.opens })

/-- The course of one instruction (R190, R199, R220, R225, R226, R242, R243): a word that cannot be read is an ECC fault, and an
index past the 14 bits of PC, by the model's choice (log 20), ILLEGAL; an illegal field, guard or, in a handler, instruction is an
ILLEGAL fault, and so is one whose own cause is ILLEGAL, before its cycles count (R243); an instruction that the record can no longer pay is a BUDGET fault;
one whose guard is false takes its cycles and does nothing else. -/
def Obligations.InstructionCourse : Prop :=
  ∀ (s : State) (n : Fin 64) (o : Op) (body : State → Flow × State),
    (s.codeRuns n.val = true → (s.stall n.val).porterFault = none →
      ∀ u, readWord true n.val ((s.stall n.val).core.pc / 2) s = (none, u) →
        runOp n.val o body s = stallFault n.val (if 2 ^ 14 ≤ (s.stall n.val).core.pc then 1 else 3) u) ∧
    (Fetches s n.val o.word →
      (o.legal = false ∨ guardOk o.guard = false ∨ ((s.stall n.val).handlers ≠ [] ∧ o.handler = false ∧
          guardTrue o.guard (s.stall n.val).core.p = true) →
        runOp n.val o body s = stallFault n.val 1 s) ∧
      (o.legal = true → guardOk o.guard = true → ((s.stall n.val).handlers = [] ∨ o.handler = true) →
        guardTrue o.guard (s.stall n.val).core.p = true → (body s).1 = .fault 1 →
        runOp n.val o body s = stallFault n.val 1 (body s).2) ∧
      (o.legal = true → guardOk o.guard = true → (s.stall n.val).handlers = [] →
        (guardTrue o.guard (s.stall n.val).core.p = true → (body s).1 ≠ .fault 1) →
        s.curTerm n.val < (s.stall n.val).cycles + (if guardTrue o.guard (s.stall n.val).core.p then o.cost else o.skip) →
        runOp n.val o body s = stallFault n.val 4 s) ∧
      (o.legal = true → guardOk o.guard = true →
        guardTrue o.guard (s.stall n.val).core.p = false →
        ((s.stall n.val).handlers = [] → (s.stall n.val).cycles + o.skip ≤ s.curTerm n.val) →
        (CoreRegs.onward (!(s.stall n.val).handlers.isEmpty) (s.stall n.val).core.pc (s.stall n.val).core).wp < 2 ^ 21 →
        runOp n.val o body s = s.ran n.val o.skip id))

/-- Register instructions (R220, R224, R228, Table 8-4): each writes its one register or predicate, pays its cycles and goes
on; every other register, memory and Stall is unchanged.
Completes, under the hypotheses on state and operands that its clauses name: addi, andi, ori, xori, shi, movz, movk, ext, ins, sel, cmp, cmpi, pset, tstb, irqsrc, bcn, arct, mbox. -/
def Obligations.ComputeRows : Prop :=
  ∀ (s : State) (n : Fin 64),
    (∀ f : IFmt, Runs s n.val (iWord 0x02 f) f.g 1 →
      exec (.addi n f) s = .next (settle (s.ran n.val 1 fun t => t.setReg f.d (t.reg f.a + f.imm.signExtend 64)))) ∧
    (∀ f : IFmt, Runs s n.val (iWord 0x03 f) f.g 1 →
      exec (.andi n f) s = .next (settle (s.ran n.val 1 fun t => t.setReg f.d (t.reg f.a &&& f.imm.setWidth 64)))) ∧
    (∀ f : IFmt, Runs s n.val (iWord 0x04 f) f.g 1 →
      exec (.ori n f) s = .next (settle (s.ran n.val 1 fun t => t.setReg f.d (t.reg f.a ||| f.imm.setWidth 64)))) ∧
    (∀ f : IFmt, Runs s n.val (iWord 0x05 f) f.g 1 →
      exec (.xori n f) s = .next (settle (s.ran n.val 1 fun t => t.setReg f.d (t.reg f.a ^^^ f.imm.setWidth 64)))) ∧
    (∀ f : IFmt, Runs s n.val (iWord 0x06 f) f.g 1 → fld f.imm 11 6 = 0 →
      exec (.shi n f) s = .next (settle (s.ran n.val 1 fun t => t.setReg f.d (shiftKind (fld f.imm 13 12) (fld f.imm 5 0) (t.reg f.a))))) ∧
    (∀ f : WFmt, Runs s n.val (wWord 0x07 f) f.g 1 →
      exec (.movz n f) s = .next (settle (s.ran n.val 1 fun t => t.setReg f.d (f.imm.setWidth 64 <<< (16 * f.lane.toNat))))) ∧
    (∀ f : WFmt, Runs s n.val (wWord 0x08 f) f.g 1 →
      exec (.movk n f) s = .next (settle (s.ran n.val 1 fun t => t.setReg f.d
        (putFld (t.reg f.d) (16 * f.lane.toNat + 15) (16 * f.lane.toNat) f.imm.toNat)))) ∧
    (∀ f : IFmt, Runs s n.val (iWord 0x09 f) f.g 1 → bit f.imm 6 = false → fld f.imm 13 8 + (fld f.imm 5 0 + 1) ≤ 64 →
      exec (.ext n f) s = .next (settle (s.ran n.val 1 fun t => t.setReg f.d
        (extField (t.reg f.a) (fld f.imm 13 8) (fld f.imm 5 0 + 1) (bit f.imm 7))))) ∧
    (∀ f : IFmt, Runs s n.val (iWord 0x0A f) f.g 1 → fld f.imm 7 6 = 0 → fld f.imm 13 8 + (fld f.imm 5 0 + 1) ≤ 64 →
      exec (.ins n f) s = .next (settle (s.ran n.val 1 fun t => t.setReg f.d
        (insField (t.reg f.d) (t.reg f.a) (fld f.imm 13 8) (fld f.imm 5 0 + 1))))) ∧
    (∀ f : RFmt, Runs s n.val (rWord 0x0B f) f.g 1 → f.fn.toNat < 4 →
      exec (.sel n f) s = .next (settle (s.ran n.val 1 fun t => t.setReg f.d
        (if bit t.core.p f.fn.toNat then t.reg f.a else t.reg f.b)))) ∧
    (∀ f : RFmt, Runs s n.val (rWord 0x0C f) f.g 1 → f.fn.toNat < 12 →
      exec (.cmp n f) s = .next (settle (s.ran n.val 1 fun t => t.setPred f.d (cond f.fn.toNat (t.reg f.a) (t.reg f.b))))) ∧
    (∀ f : IFmt, Runs s n.val (iWord 0x0D f) f.g 1 → fld f.imm 13 10 < 12 →
      exec (.cmpi n f) s = .next (settle (s.ran n.val 1 fun t => t.setPred f.d
        (cond (fld f.imm 13 10) (t.reg f.a) ((f.imm.setWidth 10).signExtend 64))))) ∧
    (∀ f : RFmt, Runs s n.val (rWord 0x0E f) f.g 1 → f.d.toNat < 4 → f.a.toNat < 4 → f.b.toNat < 4 → f.fn.toNat ≤ 6 →
      exec (.pset n f) s = .next (settle (s.ran n.val 1 fun t => { t with core := { t.core with
        p := putBit t.core.p f.d.toNat (psetOp f.fn.toNat (bit t.core.p f.a.toNat) (bit t.core.p f.b.toNat)) } }))) ∧
    (∀ f : IFmt, Runs s n.val (iWord 0x0F f) f.g 1 → fld f.imm 13 6 = 0 →
      exec (.tstb n f) s = .next (settle (s.ran n.val 1 fun t => t.setPred f.d (bit (t.reg f.a) (fld f.imm 5 0))))) ∧
    (∀ f : RFmt, Runs s n.val (rWord 0x30 f) f.g 4 → f.a = 0 → f.b = 0 → 1 ≤ f.fn.toNat → f.fn.toNat ≤ 5 →
      exec (.bcn n f) s = .next (settle (s.ran n.val 4 fun t => t.setReg f.d
        (if f.fn = 1 then (s.bcn.status s.compat).setWidth 64 else if f.fn = 2 then w64 (s.stallArcs n.val)
         else if f.fn = 3 then s.bcn.regs.cpc.setWidth 64 else if f.fn = 4 then s.bcn.com.num else w64 s.bcn.seq)))) ∧
    (∀ f : RFmt, Runs s n.val (rWord 0x30 f) f.g 4 → f.a = 0 → f.b = 0 → f.fn = 0 →
      exec (.bcn n f) s = .next (settle ((stampNow s.now s).2.ran n.val 4 fun t => t.setReg f.d (stampNow s.now s).1))) ∧
    (∀ f : IFmt, Runs s n.val (iWord 0x31 f) f.g 4 → f.a = 0 → fld f.imm 13 6 = 0 →
      exec (.arct n f) s = .next (settle (s.ran n.val 4 fun t => t.setPred f.d (Nat.testBit (s.stallArcs n.val) (fld f.imm 5 0))))) ∧
    (∀ f : RFmt, Runs s n.val (rWord 0x29 f) f.g 1 → f.a = 0 → f.b = 0 → f.fn = 0 →
      (∀ h hs, (s.stall n.val).handlers = h :: hs →
        exec (.irqsrc n f) s = .next (settle (s.ran n.val 1 fun t => t.setReg f.d (w64 h.src)))) ∧
      ((s.stall n.val).handlers = [] →
        ∃ v, exec (.irqsrc n f) s = .next (settle ({ s with fresh := s.fresh + 1 }.ran n.val 1 fun t => t.setReg f.d v)))) ∧
    (∀ f : RFmt, Runs s n.val (rWord 0x3B f) f.g 1 → f.d = 0 → f.b = 0 → f.fn = 0 →
      exec (.mbox n f) s = .next (settle (s.ran n.val 1 fun t => { t with mbOut := (t.reg f.a).setWidth 32 })))

/-- ALU functions (R228): the instruction writes the result of its function and pays its cycles, and nothing else changes; the
results are those of Table 8-5, shifts modulo 64, divisions rounding toward zero, with the values of a division by zero and of the most
negative number by all ones, none of which is a fault.
Completes, under the hypotheses on state and operands that its clauses name: alu. -/
def Obligations.AluFunctions : Prop :=
  (∀ (s : State) (n : Fin 64) (f : RFmt), Runs s n.val (rWord 0x01 f) f.g (aluCycles f.fn.toNat) → f.fn.toNat < 24 →
    (f.fn.toNat < 21 ∨ f.b = 0) →
    exec (.alu n f) s = .next (settle (s.ran n.val (aluCycles f.fn.toNat) fun t => t.setReg f.d (alu f.fn.toNat (t.reg f.a) (t.reg f.b))))) ∧
  (∀ (s : State) (n : Fin 64) (f : RFmt), Fetches s n.val (rWord 0x01 f) → 24 ≤ f.fn.toNat ∨ (21 ≤ f.fn.toNat ∧ f.b ≠ 0) →
    exec (.alu n f) s = .next (settle (stallFault n.val 1 s))) ∧
  (aluCycles 14 = 3 ∧ aluCycles 15 = 4 ∧ aluCycles 16 = 4 ∧ (∀ k, 17 ≤ k → k ≤ 20 → aluCycles k = 20) ∧
    ∀ k, k < 14 ∨ 20 < k → aluCycles k = 1) ∧
  ∀ a b : W64,
    alu 0 a b = a + b ∧ alu 1 a b = a - b ∧ alu 2 a b = a &&& b ∧ alu 3 a b = a ||| b ∧ alu 4 a b = a ^^^ b ∧
    alu 5 a b = a &&& ~~~b ∧ alu 6 a b = a <<< (b.toNat % 64) ∧ alu 7 a b = a >>> (b.toNat % 64) ∧
    (alu 8 a b).toInt = a.toInt / 2 ^ (b.toNat % 64) ∧
    (∀ i, i < 64 → (alu 9 a b).getLsbD i = a.getLsbD ((i + b.toNat % 64) % 64)) ∧
    (alu 10 a b).toNat = min a.toNat b.toNat ∧ (alu 11 a b).toNat = max a.toNat b.toNat ∧
    (alu 12 a b).toInt = min a.toInt b.toInt ∧ (alu 13 a b).toInt = max a.toInt b.toInt ∧
    alu 14 a b = a * b ∧ (alu 15 a b).toNat = a.toNat * b.toNat / 2 ^ 64 ∧ (alu 16 a b).toInt = a.toInt * b.toInt / 2 ^ 64 ∧
    (b ≠ 0 → (alu 17 a b).toNat = a.toNat / b.toNat ∧ (alu 18 a b).toNat = a.toNat % b.toNat ∧
      (alu 20 a b).toInt = Int.tmod a.toInt b.toInt ∧
      (¬(a = BitVec.intMin 64 ∧ b = BitVec.allOnes 64) → (alu 19 a b).toInt = Int.tdiv a.toInt b.toInt)) ∧
    alu 17 a 0 = BitVec.allOnes 64 ∧ alu 18 a 0 = a ∧ alu 19 a 0 = BitVec.allOnes 64 ∧ alu 20 a 0 = a ∧
    alu 19 (BitVec.intMin 64) (BitVec.allOnes 64) = BitVec.intMin 64 ∧ alu 20 (BitVec.intMin 64) (BitVec.allOnes 64) = 0 ∧
    (alu 21 a b).toNat = ((List.range 64).filter fun i => a.getLsbD i).length ∧
    (a = 0 → alu 22 a b = 64) ∧ (a ≠ 0 → (alu 22 a b).toNat < 64 ∧ a.getLsbD (63 - (alu 22 a b).toNat) = true ∧
      ∀ i, 63 - (alu 22 a b).toNat < i → a.getLsbD i = false) ∧
    (∀ k, k < 8 → (alu 23 a b).extractLsb' (8 * k) 8 = a.extractLsb' (8 * (7 - k)) 8)

/-- The window, the header and memory (R221, R223, R229, R236, R237, Table 8-4): a field of the window or the header, the CRC of
a part of the window; WADV and WSEEK move the window forward; loads and stores reach local memory at their natural alignment and the
Stall's own control block in words, and any other address is an ACCESS fault.
Completes, under the hypotheses on state and operands that its clauses name: xf, xfr, wadv, wseek, wpos, rhdr, wst, ld, lds, st, crcw, crcm. -/
def Obligations.AccessRows : Prop :=
  ∀ (s : State) (n : Fin 64),
    (∀ f : XFmt, Runs s n.val (xWord 0x10 f) f.g 1 → (s.stall n.val).handlers = [] → f.z = 0 → f.off.toNat + 2 ^ f.wid.toNat ≤ 128 →
      exec (.xf n f) s = .next (settle (s.ran n.val 1 fun t => t.setReg f.d
        (byteField (s.window n.val f.off.toNat (2 ^ f.wid.toNat)) (f.s == 1) (f.be == 1))))) ∧
    (∀ f : IFmt, Runs s n.val (iWord 0x11 f) f.g 1 → (s.stall n.val).handlers = [] → fld f.imm 9 0 = 0 →
      exec (.xfr n f) s = .next (settle (s.ran n.val 1 fun t => t.setReg f.d
        (byteField (s.window n.val (t.reg f.a).toNat (2 ^ fld f.imm 13 12)) (bit f.imm 11) (bit f.imm 10))))) ∧
    (∀ f : IFmt, Runs s n.val (iWord 0x12 f) f.g 1 → (s.stall n.val).handlers = [] → f.d = 0 → f.a = 0 → 1 ≤ f.imm.toNat → f.imm.toNat ≤ 4 →
      ({ (s.stall n.val).core with wp := (s.stall n.val).core.wp + 32 * f.imm.toNat }.advance (s.stall n.val).core.pc).wp < 2 ^ 21 →
      exec (.wadv n f) s = .next (settle (s.ran n.val 1 fun t => t.modCore fun c => { c with wp := c.wp + 32 * f.imm.toNat }))) ∧
    (∀ f : RFmt, Runs s n.val (rWord 0x13 f) f.g 2 → (s.stall n.val).handlers = [] → f.d = 0 → f.b = 0 → f.fn = 0 →
      ({ (s.stall n.val).core with wp := max (s.stall n.val).core.wp (((s.stall n.val).reg f.a).toNat / 32 * 32) }.advance
        (s.stall n.val).core.pc).wp < 2 ^ 21 →
      exec (.wseek n f) s = .next (settle (s.ran n.val 2 fun t => t.modCore fun c => { c with wp := max c.wp ((t.reg f.a).toNat / 32 * 32) }))) ∧
    (∀ f : RFmt, Runs s n.val (rWord 0x14 f) f.g 1 → (s.stall n.val).handlers = [] → f.a = 0 → f.b = 0 → f.fn = 0 →
      exec (.wpos n f) s = .next (settle (s.ran n.val 1 fun t => t.setReg f.d (w64 t.core.wp)))) ∧
    (∀ f : RFmt, Runs s n.val (rWord 0x15 f) f.g 1 → (s.stall n.val).handlers = [] → f.a = 0 → f.b = 0 → f.fn.toNat ≤ 8 →
      exec (.rhdr n f) s = .next (settle (s.ran n.val 1 fun t => t.setReg f.d (w64 (s.headerField n.val f.fn.toNat))))) ∧
    (∀ f : RFmt, Runs s n.val (rWord 0x2C f) f.g 2 → (s.stall n.val).handlers = [] → f.a = 0 → f.b = 0 → f.fn.toNat < 2 →
      exec (.crcw n f) s = .next (settle (s.ran n.val 2 fun t => t.setReg f.d
        (w64 (crcState (fld (t.reg f.d) 31 0) (s.window n.val (64 * f.fn.toNat) 64)))))) ∧
    (∀ (f : IFmt) (bs : List Byte), Runs s n.val (iWord 0x2D f) f.g (1 + ceilDiv (8 * (fld f.imm 11 0 + 1)) 32) → fld f.imm 13 12 = 0 →
      localRange ((s.stall n.val).reg f.a).toNat (8 * (fld f.imm 11 0 + 1)) 8 = true →
      loadLocal n.val ((s.stall n.val).reg f.a).toNat (8 * (fld f.imm 11 0 + 1)) s = (some bs, s) →
      exec (.crcm n f) s = .next (settle (s.ran n.val (1 + ceilDiv (8 * (fld f.imm 11 0 + 1)) 32) fun t =>
        t.setReg f.d (w64 (crcState (fld (t.reg f.d) 31 0) bs))))) ∧
    (∀ f : IFmt, Runs s n.val (iWord 0x16 f) f.g 2 → (s.stall n.val).handlers = [] → f.d.toNat < 4 →
      (localRange ((s.stall n.val).reg f.a + w64 (8 * f.imm.toNat)).toNat 32 8 = true →
        exec (.wst n f) s = .next (settle (s.ran n.val 2
          (Stall.writeBytes ((s.stall n.val).reg f.a + w64 (8 * f.imm.toNat)).toNat (s.window n.val (32 * f.d.toNat) 32))))) ∧
      (localRange ((s.stall n.val).reg f.a + w64 (8 * f.imm.toNat)).toNat 32 8 = false →
        exec (.wst n f) s = .next (settle (stallFault n.val 2 s)))) ∧
    (∀ (f : IFmt) (k a : Nat), k = 2 ^ fld f.imm 13 12 → a = ((s.stall n.val).reg f.a + w64 (fld f.imm 11 0 * k)).toNat →
      (∀ bs, localRange a k k = true → loadLocal n.val a k s = (some bs, s) →
        (Runs s n.val (iWord 0x18 f) f.g 2 → exec (.ld n f) s = .next (settle (s.ran n.val 2 fun t => t.setReg f.d (w64 (ofLe bs))))) ∧
        (Runs s n.val (iWord 0x19 f) f.g 2 → exec (.lds n f) s = .next (settle (s.ran n.val 2 fun t => t.setReg f.d
          (sext64 (8 * bs.length) (ofLe bs)))))) ∧
      (0x80000 ≤ a → a < 0x81000 → k = 4 → a % 4 = 0 →
        (Runs s n.val (iWord 0x18 f) f.g 2 → exec (.ld n f) s = .next (settle (s.ran n.val 2 fun t => t.setReg f.d
          (w64 (s.ctlRead n.val (a - 0x80000)).toNat)))) ∧
        (Runs s n.val (iWord 0x1A f) f.g 1 → exec (.st n f) s = .next (settle ((ctlWrite n.val (a - 0x80000)
          (w32 ((s.stall n.val).reg f.d).toNat) s).ran n.val 1 id)))) ∧
      (localRange a k k = false → ¬(0x80000 ≤ a ∧ a < 0x81000 ∧ k = 4 ∧ a % 4 = 0) →
        (Runs s n.val (iWord 0x18 f) f.g 2 → exec (.ld n f) s = .next (settle (stallFault n.val 2 s))) ∧
        (Runs s n.val (iWord 0x19 f) f.g 2 → exec (.lds n f) s = .next (settle (stallFault n.val 2 s))) ∧
        (Runs s n.val (iWord 0x1A f) f.g 1 → exec (.st n f) s = .next (settle (stallFault n.val 2 s)))) ∧
      (localRange a k k = true → Runs s n.val (iWord 0x1A f) f.g 1 →
        (k = 8 → exec (.st n f) s = .next (settle (s.ran n.val 1 fun t => t.writeWord false (a / 8) (t.reg f.d)))) ∧
        (∀ v, k ≠ 8 → readWord false n.val (a / 8) s = (some v, s) → exec (.st n f) s = .next (settle (s.ran n.val 1 fun t =>
          t.writeWord false (a / 8) (w64 (ofLe (patch (leBytes 8 v.toNat) (a % 8) (leBytes k (t.reg f.d).toNat))))))) ∧
        (∀ u, k ≠ 8 → readWord false n.val (a / 8) s = (none, u) → exec (.st n f) s = .next (settle (stallFault n.val 3 u)))))

/-- Control flow (R225, R231 to R234, R242, Table 8-4): branches, loops, calls and returns with their stacks; the ends of a
stage; the return from a handler; FAULT.
Completes, under the hypotheses on state and operands that its clauses name: loopc, b, loop, loopr, call, ret, keep, drop, done, iret, yield, fault. -/
def Obligations.FlowRows : Prop :=
  ∀ (s : State) (n : Fin 64),
    (∀ f : BFmt, Runs s n.val (bWord 0x20 f) f.g 2 → f.z = 0 → 1 ≤ f.off.toNat →
      exec (.b n f) s = .next (settle (s.ranTo n.val 2 fun t => t.modCore fun c =>
        c.branchTo (!t.handlers.isEmpty) (c.pc + f.off.toNat)))) ∧
    (∀ f : LFmt, Runs s n.val (lWord 0x21 f) 0 1 → (s.stall n.val).handlers = [] → 1 ≤ f.stop.toNat →
      ((s.stall n.val).core.loops.length < 4 →
        exec (.loop n f) s = .next (settle (s.ranTo n.val 1 fun t => t.modCore fun c => { c with
          pc := c.pc + 1, loops := ⟨c.pc + 1, c.pc + f.stop.toNat, f.cnt.toNat, false, c.calls.length⟩ :: c.loops }))) ∧
      (4 ≤ (s.stall n.val).core.loops.length → exec (.loop n f) s = .next (settle (stallFault n.val 1 s)))) ∧
    (∀ (f : LFmt) (k : Nat), Runs s n.val (lWord 0x22 f) 0 1 → (s.stall n.val).handlers = [] → fld f.cnt 7 0 = 0 → 1 ≤ f.stop.toNat →
      k = min 4096 ((s.stall n.val).reg (BitVec.ofNat 4 (fld f.cnt 11 8))).toNat →
      (k ≠ 0 → (s.stall n.val).core.loops.length < 4 →
        exec (.loopr n f) s = .next (settle (s.ranTo n.val 1 fun t => t.modCore fun c => { c with
          pc := c.pc + 1, loops := ⟨c.pc + 1, c.pc + f.stop.toNat, k - 1, false, c.calls.length⟩ :: c.loops }))) ∧
      (k = 0 → ((s.stall n.val).core.advance ((s.stall n.val).core.pc + f.stop.toNat)).wp < 2 ^ 21 →
        exec (.loopr n f) s = .next (settle (s.ranTo n.val 1 fun t => t.modCore fun c => c.advance (c.pc + f.stop.toNat))))) ∧
    (∀ (f : LFmt) (k : Nat), Runs s n.val (lWord 0x17 f) 0 2 → (s.stall n.val).handlers = [] → f.cnt = 0 → 1 ≤ f.stop.toNat →
      k = min 4096 (((s.curRecord n.val).length - (s.stall n.val).core.wp + 63) / 64) →
      (k ≠ 0 → (s.stall n.val).core.loops.length < 4 →
        exec (.loopc n f) s = .next (settle (s.ranTo n.val 2 fun t => t.modCore fun c => { c with
          pc := c.pc + 1, loops := ⟨c.pc + 1, c.pc + f.stop.toNat, k - 1, true, c.calls.length⟩ :: c.loops }))) ∧
      (k = 0 → ((s.stall n.val).core.advance ((s.stall n.val).core.pc + f.stop.toNat)).wp < 2 ^ 21 →
        exec (.loopc n f) s = .next (settle (s.ranTo n.val 2 fun t => t.modCore fun c => c.advance (c.pc + f.stop.toNat))))) ∧
    (∀ f : BFmt, Runs s n.val (bWord 0x23 f) f.g 2 → (s.stall n.val).handlers = [] → f.z = 0 →
      ((s.stall n.val).core.calls.length < 4 →
        exec (.call n f) s = .next (settle (s.ranTo n.val 2 fun t => t.modCore fun c => { c with
          calls := (c.pc + 1) :: c.calls, pc := f.off.toNat }))) ∧
      (4 ≤ (s.stall n.val).core.calls.length → exec (.call n f) s = .next (settle (stallFault n.val 1 s)))) ∧
    (∀ f : BFmt, Runs s n.val (bWord 0x24 f) f.g 2 → (s.stall n.val).handlers = [] → f.z = 0 → f.off = 0 →
      ((s.stall n.val).core.calls = [] → exec (.ret n f) s = .next (settle (stallFault n.val 1 s))) ∧
      (∀ r rest c, (s.stall n.val).core.calls = r :: rest →
        c = ({ (s.stall n.val).core with
          calls := rest, loops := (s.stall n.val).core.loops.dropWhile fun l => decide (rest.length < l.depth) } : CoreRegs) →
        (c.advance (r - 1)).wp < 2 ^ 21 →
        exec (.ret n f) s = .next (settle (s.ranTo n.val 2 fun t => { t with core := c.advance (r - 1) })))) ∧
    (∀ f : BFmt, Runs s n.val (bWord 0x25 f) f.g 1 → (s.stall n.val).handlers = [] → f.z = 0 → f.off = 0 →
      (s.stageIs n.val .pred = false → exec (.keep n f) s = .next (settle (stallFault n.val 1 s))) ∧
      (s.stageIs n.val .pred = true → ∀ im, (s.stall n.val).image = some im →
        (∀ x, im.xform = some x → exec (.keep n f) s = .next (settle (s.ranTo n.val 1 fun t => { t with stage := .kept }))) ∧
        (im.xform = none → (s.lotPipe n.val).any (fun p => p.defines 0) = false →
          exec (.keep n f) s = .next (settle ((endRecord n.val s).ranTo n.val 1 id))) ∧
        (∀ p, im.xform = none → s.lotPipe n.val = some p → p.defines 0 = true →
          (s.emitOk n.val 0 = false → exec (.keep n f) s = .next (settle (stallFault n.val 2 s))) ∧
          (s.emitOk n.val 0 = true → s.credit n.val = true →
            exec (.keep n f) s = .next (settle ((endRecord n.val (emitRecord n.val 0 (waited n.val s))).ranTo n.val 1 id))) ∧
          (s.emitOk n.val 0 = true → s.credit n.val = false → exec (.keep n f) s = .next (settle s))))) ∧
    (∀ f : BFmt, Runs s n.val (bWord 0x26 f) f.g 1 → (s.stall n.val).handlers = [] → f.z = 0 → f.off = 0 →
      (s.stageIs n.val .pred = true → exec (.drop n f) s = .next (settle ((endRecord n.val (withdraw n.val s)).ranTo n.val 1 id))) ∧
      (s.stageIs n.val .pred = false → exec (.drop n f) s = .next (settle (stallFault n.val 1 s)))) ∧
    (∀ f : BFmt, Runs s n.val (bWord 0x27 f) f.g 1 → (s.stall n.val).handlers = [] → f.z = 0 → f.off = 0 →
      (s.stageIs n.val .xform = true → exec (.done n f) s = .next (settle ((endRecord n.val s).ranTo n.val 1 id))) ∧
      (s.stageIs n.val .xform = false → exec (.done n f) s = .next (settle (stallFault n.val 1 s)))) ∧
    (∀ f : BFmt, Runs s n.val (bWord 0x28 f) f.g 2 → f.z = 0 → f.off = 0 →
      ((s.stall n.val).handlers = [] → exec (.iret n f) s = .next (settle (stallFault n.val 1 s))) ∧
      (∀ h hs, (s.stall n.val).handlers = h :: hs → 2 ≤ (s.stall n.val).cycles →
        ∃ u, exec (.iret n f) s = .next (settle u) ∧ u = { s with stalls := u.stalls } ∧ (∀ m, m ≠ n.val → u.stall m = s.stall m) ∧
          (u.stall n.val).handlers = hs ∧ (u.stall n.val).core.pc = h.pc ∧ (u.stall n.val).core.p = h.p ∧
          (u.stall n.val).core.wp = (s.stall n.val).core.wp ∧ (u.stall n.val).cycles = (s.stall n.val).cycles ∧
          (u.stall n.val).elapsed = (s.stall n.val).elapsed + (if (s.stall n.val).lots = [] then 0 else 2) ∧
          (∀ k : Fin 16, k.val < 8 → (u.stall n.val).core.g[k] = (s.stall n.val).core.g[k]))) ∧
    (∀ f : BFmt, Runs s n.val (bWord 0x3A f) f.g 1 → f.z = 0 →
      exec (.fault n f) s = .next (settle (stallFault n.val 1 (s.modStall n.val fun t => { t with mbOut := w32 f.off.toNat })))) ∧
    (∀ f : BFmt, Runs s n.val (bWord 0x38 f) f.g 1 → (s.stall n.val).handlers = [] → f.z = 0 → f.off = 0 →
      exec (.yield n f) s = .next (settle (s.ran n.val 1 id)))

/-- Emits, moves, ordering, Tally and units (R193, R235 to R238, R240): what each instruction starts, what it waits for, and
what is a fault.
Completes, under the hypotheses on state and operands that its clauses name: ucall, tally, emitr, emitm, pmov, barrier. -/
def Obligations.MoveRows : Prop :=
  ∀ (s : State) (n : Fin 64),
    (∀ f : RFmt, Runs s n.val (rWord 0x34 f) f.g 2 → (s.stall n.val).handlers = [] → f.d = 0 → f.a = 0 → f.b = 0 → f.fn.toNat < 4 →
      (s.emitOk n.val f.fn.toNat = false → exec (.emitr n f) s = .next (settle (stallFault n.val 2 s))) ∧
      (s.emitOk n.val f.fn.toNat = true → 8 ≤ (s.stall n.val).moves.length → exec (.emitr n f) s = .next (settle s)) ∧
      (s.emitOk n.val f.fn.toNat = true → (s.stall n.val).moves.length < 8 →
        exec (.emitr n f) s = .next (settle ((emitRecord n.val f.fn.toNat (waited n.val s)).ran n.val 2 id)))) ∧
    (∀ (f : RFmt) (out cls a len : Nat), Runs s n.val (rWord 0x35 f) f.g 2 → (s.stall n.val).handlers = [] → f.d = 0 → fld f.fn 3 2 = 0 →
      fld f.fn 9 8 = 0 → cls = fld f.fn 7 4 → cls ≤ 14 → out = fld f.fn 1 0 → a = ((s.stall n.val).reg f.a).toNat →
      len = ((s.stall n.val).reg f.b).toNat →
      (localRange a len 8 = false ∨ len < 32 ∨ 2 ^ (cls + 5) < len ∨ s.emitOk n.val out = false →
        exec (.emitm n f) s = .next (settle (stallFault n.val 2 s))) ∧
      (∀ h, localRange a len 8 = true → 32 ≤ len → len ≤ 2 ^ (cls + 5) → s.emitOk n.val out = true → loadLocal n.val a 8 s = (h, s) →
        (h.any (fun b => recVersion b != 1 || recType b == 0) = true → exec (.emitm n f) s = .next (settle (stallFault n.val 2 s))) ∧
        (h.any (fun b => recVersion b != 1 || recType b == 0) = false →
          (8 ≤ (s.stall n.val).moves.length → exec (.emitm n f) s = .next (settle s)) ∧
          ((s.stall n.val).moves.length < 8 → exec (.emitm n f) s = .next (settle ((startMove n.val
            (.emitMemory (((s.stall n.val).lots[0]?).getD 0) (s.stall n.val).rec_ out a (s.peekLocal n.val a len)) (waited n.val s)).ran
              n.val 2 fun t => { t with nsOuts := out :: t.nsOuts })))))) ∧
    (∀ (f : RFmt) (card loc len : Nat), Runs s n.val (rWord 0x36 f) f.g 2 → card = ((s.stall n.val).reg f.d).toNat →
      loc = ((s.stall n.val).reg f.a).toNat → len = ((s.stall n.val).reg f.b).toNat → f.fn.toNat < 2 →
      (localRange loc len 64 = false ∨ card % 64 ≠ 0 ∨ len % 64 ≠ 0 ∨ len < 64 ∨ 65536 < len →
        exec (.pmov n f) s = .next (settle (stallFault n.val 2 s))) ∧
      (localRange loc len 64 = true → card % 64 = 0 → len % 64 = 0 → 64 ≤ len → len ≤ 65536 → (s.stall n.val).moves.length < 8 →
        (f.fn = 0 → exec (.pmov n f) s = .next (settle ((startMove n.val (.toCard loc card (s.peekLocal n.val loc len)) (waited n.val s)).ran
          n.val 2 id))) ∧
        (f.fn = 1 → exec (.pmov n f) s = .next (settle ((startMove n.val (.fromCard loc card len) (waited n.val s)).ran n.val 2 fun t =>
          { t with undef := (loc, len) :: t.undef }))))) ∧
    (∀ f : BFmt, Runs s n.val (bWord 0x39 f) f.g 1 → f.z = 0 → f.off = 0 →
      ((s.stall n.val).moves = [] → exec (.barrier n f) s = .next (settle ((waited n.val s).ran n.val 1 fun t => { t with undef := [] }))) ∧
      ((s.stall n.val).moves ≠ [] → exec (.barrier n f) s = .next (settle s))) ∧
    (∀ (f : RFmt) (l : Lot) (p : Pipe) (i : Nat), Runs s n.val (rWord 0x2F f) f.g 1 → (s.stall n.val).handlers = [] → f.d = 0 →
      f.fn.toNat < 4 → s.curLot n.val = some l → s.lotPipe n.val = some p → i = ((s.stall n.val).reg f.b).toNat →
      (p.tallyCount ≤ i → exec (.tally n f) s = .next (settle (stallFault n.val 2 s))) ∧
      (i < p.tallyCount → look l.tally i = none →
        exec (.tally n f) s = .next (settle ((s.modLot l.id fun l => { l with
          tally := put l.tally i (f.fn.toNat, (s.stall n.val).reg f.a) }).ran n.val 1 id))) ∧
      (∀ old, i < p.tallyCount → look l.tally i = some (f.fn.toNat, old) →
        exec (.tally n f) s = .next (settle ((s.modLot l.id fun l => { l with
          tally := put l.tally i (f.fn.toNat, tallyOp f.fn.toNat old ((s.stall n.val).reg f.a)) }).ran n.val 1 id))) ∧
      (∀ o old, i < p.tallyCount → look l.tally i = some (o, old) → o ≠ f.fn.toNat →
        exec (.tally n f) s = .next (settle (stallFault n.val 5 s)))) ∧
    (∀ f : RFmt, Runs s n.val (rWord 0x2E f) f.g 4 → (s.stall n.val).handlers = [] → f.d = 0 → f.a = 0 → f.b = 0 → f.fn.toNat < 32 →
      (fld f.fn 3 0 = 5 →
        exec (.ucall n f) s = .next (settle ({ s with nextCall := s.nextCall + 1 }.ranTo n.val 4 fun t => { t with
          call := some ⟨5, fld f.fn 4 4, Vector.ofFn fun i => t.reg (BitVec.ofNat 4 (i.val + 1)), s.nextCall, s.bcn.curEra⟩ }))) ∧
      (fld f.fn 3 0 = 4 → fld f.fn 4 4 = 0 → ((s.stall n.val).reg 1).toNat + ((s.stall n.val).reg 2).toNat ≤ 0x80000 →
        localRange ((s.stall n.val).reg 3).toNat 32 8 = true →
        exec (.ucall n f) s = .next (settle ({ s with nextCall := s.nextCall + 1 }.ranTo n.val 4 fun t => { t with
          call := some ⟨4, 0, Vector.ofFn fun i => t.reg (BitVec.ofNat 4 (i.val + 1)), s.nextCall, s.bcn.curEra⟩ }))) ∧
      (fld f.fn 3 0 < 4 → s.compressOn = false →
        (fld f.fn 4 4 = 1 ∨ (s.peekLocal n.val ((s.stall n.val).reg 1).toNat ((s.stall n.val).reg 2).toNat).any Option.isNone = false) → exec (.ucall n f) s = .next (settle (stallFault n.val 5 s))))

/-- Events of a running Stall (R22, R190 to R195, R215 to R218, R222, R241, R243): a record enters a stage; a unit call and
a Porter move complete; a source is claimed; a budget or a slow Lot is dealt with; a Lot ends; and a fault stops that Stall and no
other, with its Lot given back or abandoned.
Completes, under the hypotheses on state and operands that its clauses name: recordStageStart, lotEnd, slow, budget, handlerClaim, unitCallComplete, porterMoveComplete. -/
def Obligations.StallEventRows : Prop :=
  (∀ (s : State) (n : Fin 64) (cause : Nat),
    (∀ id l, (s.stall n.val).lots = [id] → s.lot id = some l → l.query = none → (l.pipe.bind s.pipe).any (fun p => !p.running) = false →
      (l.issues < 2 → (stallFault n.val cause s).med = s.med ∧ (stallFault n.val cause s).lot id = some (l.back (some n.val))) ∧
      (2 ≤ l.issues → (stallFault n.val cause s).lot id = none)) ∧
    (stallFault n.val cause s).ram = s.ram ∧
    (∀ m, m ≠ n.val → (stallFault n.val cause s).stall m = s.stall m) ∧
    ((stallFault n.val cause s).stall n.val).state = .faulted ∧ ((stallFault n.val cause s).stall n.val).cause = cause ∧
    ((stallFault n.val cause s).stall n.val).faultPc = (s.stall n.val).core.pc ∧
    ((stallFault n.val cause s).stall n.val).lots = [] ∧ ((stallFault n.val cause s).stall n.val).core = (s.stall n.val).core ∧
    ((stallFault n.val cause s).stall n.val).lm = (s.stall n.val).lm ∧
    (1 ≤ cause → cause ≤ 5 → bit ((stallFault n.val cause s).stall n.val).fstat (cause - 1) = true)) ∧
  (∀ (s : State) (n : Fin 64), s.operating = true → (s.stall n.val).state = .running →
    (s.stall n.val).stage = .pred ∨ (s.stall n.val).stage = .xform →
    exec (.budget n) s = .next (settle (stallFault n.val 4 s))) ∧
  (∀ (s : State) (n : Fin 64), s.operating = true → (s.stall n.val).state = .running → (s.stall n.val).lots ≠ [] →
    (s.stall n.val).slow = false →
    (∀ id ∈ (s.stall n.val).lots.drop 1, ∃ l, s.lot id = some l ∧ l.query = none ∧ (l.pipe.bind s.pipe).any (fun p => !p.running) = false) →
    ∃ u, exec (.slow n) s = .next (settle u) ∧ u = { s with stalls := u.stalls, lots := u.lots, ev := u.ev } ∧
      (∀ id ∈ (s.stall n.val).lots.drop 1, ∀ l, s.lot id = some l → u.lot id = some (l.back none)) ∧
      (u.stall n.val).slow = true ∧ (u.stall n.val).state = .running ∧ (u.stall n.val).lots = (s.stall n.val).lots.take 1 ∧
      bit (u.stall n.val).fstat 6 = true ∧ (∀ m, m ≠ n.val → u.stall m = s.stall m)) ∧
  (∀ (s : State) (n : Fin 64) (id : Nat) (rest : List Nat) (l : Lot) (im : Image), s.operating = true → s.pwr.watch ≠ .asleep →
    (s.stall n.val).state = .running → (s.stall n.val).handlers = [] → (s.stall n.val).lots = id :: rest → s.lot id = some l →
    (s.stall n.val).image = some im →
    (∀ x, (s.stall n.val).stage = .kept → im.xform = some x →
      exec (.recordStageStart n) s = .next (settle (s.setStall n.val ((s.stall n.val).enter .xform x (s.stall n.val).cycles)))) ∧
    (∀ r, (s.stall n.val).stage = .idle → ((l.recs.zipIdx.drop (s.stall n.val).rec_).filter fun r => r.1.parsed)[0]? = some r →
      exec (.recordStageStart n) s = .next (settle (s.setStall n.val
        ({ (s.stall n.val) with rec_ := r.2, nsOuts := [] }.enter .pred im.pred 0))))) ∧
  (∀ (s : State) (n : Fin 64) (c : UnitCall) (fr : Nat), s.operating = true → s.pwr.watch ≠ .asleep → (s.stall n.val).state = .running →
    (s.stall n.val).handlers = [] → (s.stall n.val).call = some c → s.unitOf c.order = some fr →
    (∀ bs, c.unit = 4 → c.src ≠ 1 → loadLocal n.val c.args[0].toNat c.args[1].toNat s = (some bs, s) →
      exec (.unitCallComplete n false) s = .next (settle (endCall n.val [0]
        (s.modStall n.val (Stall.writeBytes c.args[2].toNat (sha256 bs)))))) ∧
    (c.unit = 5 → look s.ns c.args[0].toNat = none →
      exec (.unitCallComplete n false) s = .next (settle (endCall n.val [4, 0] s))) ∧
    (c.unit = 5 → look s.ns c.args[0].toNat = none →
      exec (.unitCallComplete n true) s = .next (settle (stallFault n.val 5 (raiseFault fr 2 s))))) ∧
  (∀ (s : State) (n : Fin 64) (c : UnitCall), (s.stall n.val).call = some c → s.unitOf c.order = none → ∀ e,
    exec (.unitCallComplete n e) s = .next (settle s)) ∧
  (∀ (s s1 : State) (n : Fin 64) (x : Move), (s.stall n.val).moves.find? (fun y => y.id == x.id) = some x →
    s1 = s.modStall n.val (fun t => { t with moves := t.moves.filter fun y => y.id != x.id }) →
    (s.moving (.stall n.val x.id) = false → exec (.porterMoveComplete n x.id) s = .next (settle s)) ∧
    (s.operating = true → s.moving (.stall n.val x.id) = true →
      (∀ (l : Lot) (r : LotRec) (lot rec_ out : Nat) (w : Bool × State), x.kind = .emitRecord lot rec_ out → s.lot lot = some l →
        l.recs[rec_]? = some r →
        w = cardWriteIn (s.setOf x.epoch) false (.stall n.val) (outputArea n.val lot ((l.emits.map fun e => e.bytes.length).foldl (· + ·) 0)) r.bytes s1 →
        exec (.porterMoveComplete n x.id) s = .next (settle (if w.1 then porterFault n.val 2 w.2
          else w.2.modLot lot fun l => { l with emits := l.emits ++ [⟨out, rec_, r.bytes⟩] }))) ∧
      (∀ (loc card : Nat) (snap : List (Option Byte)) (bs : List Byte) (s2 : State) (w : Bool × State), x.kind = .toCard loc card snap →
        sourceBytes n.val loc snap s1 = (some bs, s2) → w = cardWriteIn (s.setOf x.epoch) false (.stall n.val) card bs s2 →
        exec (.porterMoveComplete n x.id) s = .next (settle (if w.1 then porterFault n.val 2 w.2 else w.2))) ∧
      (∀ (loc card : Nat) (snap : List (Option Byte)) (s2 : State), x.kind = .toCard loc card snap →
        sourceBytes n.val loc snap s1 = (none, s2) →
        exec (.porterMoveComplete n x.id) s = .next (settle (porterFault n.val 3 s2))))) ∧
  (∀ (s : State) (n : Fin 64) (e pc : Nat) (k : HandlerKind) (im : Image), s.operating = true → s.pwr.watch ≠ .asleep →
    (s.stall n.val).state = .running → s.taken n.val = some (e, k) → (s.stall n.val).image = some im → (im.vector k).1 = some pc →
    ∃ u, exec (.handlerClaim n) s = .next (settle u) ∧ u = { s with stalls := u.stalls } ∧ (∀ m, m ≠ n.val → u.stall m = s.stall m) ∧
      (u.stall n.val).core = { (s.stall n.val).core with pc := pc } ∧
      (u.stall n.val).ic.pending = putBit (s.stall n.val).ic.pending e false ∧
      (u.stall n.val).ic.active = putBit (s.stall n.val).ic.active e true ∧
      (∃ fr, (u.stall n.val).handlers = fr :: (s.stall n.val).handlers ∧ fr.src = e ∧ fr.kind = k ∧
        fr.pc = (s.stall n.val).core.pc ∧ fr.p = (s.stall n.val).core.p) ∧
      (u.stall n.val).elapsed = (s.stall n.val).elapsed + (if (s.stall n.val).lots = [] then 0 else 2)) ∧
  (∀ (s : State) (n : Fin 64) (id : Nat) (l : Lot), s.operating = true → (s.stall n.val).state = .running → (s.stall n.val).stage = .idle →
    (s.stall n.val).handlers = [] → (s.stall n.val).moves = [] → (s.stall n.val).porterFault = none → (s.stall n.val).stops = [] →
    (s.stall n.val).lots = [id] → s.lot id = some l → (l.recs.drop (s.stall n.val).rec_).any LotRec.parsed = false →
    ∃ u, exec (.lotEnd n) s = .next (settle u) ∧ u = { s with stalls := u.stalls, lots := u.lots, fresh := u.fresh, ev := u.ev } ∧ (u.stall n.val).lots = [] ∧
      ((s.stall n.val).slow = false → 4 * (s.stall n.val).budget < (s.stall n.val).elapsed → bit (u.stall n.val).fstat 6 = true) ∧
      (u.stall n.val).idleAt = s.now ∧ u.lot id = some { l with state := .done n.val } ∧ (∀ m, m ≠ n.val → u.stall m = s.stall m))

/-- The control block of a Stall (R26, R200, R203, R217): each row acts only on the bits written as 1 of its own register; a
mailbox write pends source 13; a flip mask is stored and taken by the next write of its memory; one flipped bit is corrected when it
is read and two are not; and a tile without power only notes TILE_OFF.
Completes, under the hypotheses on state and operands that its clauses name: mailboxInWrite, maskSet, maskClr, pendSet, pendClr, disableWrite, faultForce, flipMaskWrite. -/
def Obligations.ControlBlockRows : Prop :=
  (∀ (s : State) (n : Fin 64) (m : CbMaster) (v : W32),
    (CtlReach s n.val m 0x088 → exec (.maskSet n m v) s = .next (settle (s.modStall n.val fun t => { t with
      ic := { t.ic with mask := t.ic.mask ||| v } }))) ∧
    (CtlReach s n.val m 0x08C → exec (.maskClr n m v) s = .next (settle (s.modStall n.val fun t => { t with
      ic := { t.ic with mask := t.ic.mask &&& ~~~v } }))) ∧
    (CtlReach s n.val m 0x094 → exec (.pendSet n m v) s = .next (settle (s.modStall n.val fun t => { t with
      ic := { t.ic with pending := t.ic.pending ||| (v &&& 0x07FFFFFF) } }))) ∧
    (CtlReach s n.val m 0x098 → exec (.pendClr n m v) s = .next (settle (s.modStall n.val fun t => { t with
      ic := { t.ic with pending := t.ic.pending &&& ~~~v } }))) ∧
    (CtlReach s n.val m 0x084 → exec (.disableWrite n m v) s = .next (settle (s.modStall n.val fun t => { t with
      ic := { t.ic with disable := v.getLsbD 0 } }))) ∧
    (CtlReach s n.val m 0x100 → (s.stall n.val).state ≠ .off → exec (.mailboxInWrite n m v) s = .next (settle (s.modStall n.val fun t => { t with
      mbIn := v, ic := { t.ic with pending := putBit t.ic.pending 13 true } }))) ∧
    (CtlReach s n.val m 0x024 → ∃ u, exec (.faultForce n m v) s = .next (settle u) ∧ u = { s with stalls := u.stalls, ev := u.ev } ∧
      (u.stall n.val) = { (s.stall n.val) with fstat := (s.stall n.val).fstat ||| v.setWidth 8 } ∧
      (∀ k, k ≠ n.val → u.stall k = s.stall k)) ∧
    (∀ r, CtlReach s n.val m (flipOff r) → exec (.flipMaskWrite n m r v) s = .next (settle (s.modStall n.val (Stall.setFlip r v)))) ∧
    (s.running = true → (s.stall n.val).state = .off → (memAccess .mgmt 2 (0x04000000 + n.val * 0x1000 + 0x088) 4 s).1 = [] →
      exec (.maskSet n .mgmt v) s = .next (settle (raiseStall 0 n.val 7 s)))) ∧
  (∀ (t : Stall) (pm : Bool) (i : Nat) (v : W64),
    look ((t.writeWord pm i v).mem pm) i = some ⟨v, t.flip pm⟩ ∧ (t.writeWord pm i v).flip pm = 0 ∧
    (t.writeWord pm i v).flip (!pm) = t.flip (!pm) ∧ (t.writeWord pm i v).mem (!pm) = t.mem (!pm) ∧
    ∀ j, j ≠ i → look ((t.writeWord pm i v).mem pm) j = look (t.mem pm) j) ∧
  (∀ (s : State) (pm : Bool) (n : Fin 64) (i : Nat) (w : MemWord), look ((s.stall n.val).mem pm) i = some w →
    (popcount 72 w.flips.toNat = 0 → readWord pm n.val i s = (some w.data, s)) ∧
    (popcount 72 w.flips.toNat = 1 → (s.stall n.val).state ≠ .off →
      ∃ u, readWord pm n.val i s = (some w.data, u) ∧ u = { s with stalls := u.stalls, ev := u.ev } ∧
        look ((u.stall n.val).mem pm) i = some ⟨w.data, 0⟩ ∧ (u.stall n.val).corr = satInc (s.stall n.val).corr ∧
        bit (u.stall n.val).ic.pending 24 = true ∧ bit (u.stall n.val).fstat 5 = true) ∧
    (popcount 72 w.flips.toNat = 2 → readWord pm n.val i s = (none, s)))

/-- BAR2 (R91, R92, R236, R341): an aligned 8-byte write stores the word in the memory of the Stall that the window names, and
a read returns it; a word that fails its check reads all ones and sets ECC; reserved offsets read zero and take no write; a write
that the rules deny, for program memory also for want of L (R334), changes no memory; an access in Watch reads zero, is reported
and wakes the card (R26, R379).
RAM (R25, R237): bytes written at an address are read back there, no other byte changes, and the memory keeps its
canonical form.
Completes, under the hypotheses on state and operands that its clauses name: bar2Write, bar2Read. -/
def Obligations.Bar2Rows : Prop :=
  ((∀ (s : State) (off n x : Nat) (bs : List Byte), s.bar2On = true → bs.length = 8 → off < 0x02000000 → off = n * 0x80000 + x →
    x < 0x80000 → off % 8 = 0 → (s.stall n).state ≠ .off → (memAccess (.queue 0) 2 off 8 s).1 = [] →
    exec (.bar2Write off bs) s = .next (settle (s.modStall n fun t => t.writeWord false (x / 8) (w64 (ofLe bs))))) ∧
  (∀ (s : State) (off n x : Nat) (w : MemWord), s.bar2On = true → off < 0x02000000 → off = n * 0x80000 + x → x < 0x80000 →
    off % 8 = 0 → (s.stall n).state ≠ .off → (memAccess (.queue 0) 1 off 8 s).1 = [] → look (s.stall n).lm (x / 8) = some w →
    (w.flips = 0 → exec (.bar2Read off 8) s = .next (settle { s with dataOut := leBytes 8 w.data.toNat })) ∧
    (popcount 72 w.flips.toNat = 2 →
      ∃ u, exec (.bar2Read off 8) s = .next (settle u) ∧ u = { s with dataOut := List.replicate 8 0xFF, stalls := u.stalls, ev := u.ev } ∧
        bit (u.stall n).fstat 2 = true)) ∧
  (∀ (s : State) (off : Nat) (bs : List Byte) (len : Nat), bar2Addr off = none → s.bar2On = true →
    exec (.bar2Write off bs) s = .next (settle s) ∧
    exec (.bar2Read off len) s = .next (settle { s with dataOut := List.replicate len 0 })) ∧
  (∀ (s : State) (off : Nat) (bs : List Byte) (len : Nat), s.bar2On = false → s.pwr.watch ≠ .asleep →
    exec (.bar2Write off bs) s = .next (settle s) ∧ exec (.bar2Read off len) s = .next (settle s)) ∧
  (∀ (s : State) (off a : Nat) (bs : List Byte) (len : Nat), s.pwr.watch = .asleep → s.pwr.mainOn = true → s.pwr.link = true →
    s.native = true → s.therm.held = false → bar2Addr off = some a →
    exec (.bar2Write off bs) s = .next (settle { s with offReports := s.offReports + 1
                                                        pwr := { s.pwr with wakeSrc := putBit s.pwr.wakeSrc 1 true, wakeDue := true } }) ∧
    exec (.bar2Read off len) s = .next (settle { s with offReports := s.offReports + 1, dataOut := List.replicate len 0
                                                        pwr := { s.pwr with wakeSrc := putBit s.pwr.wakeSrc 1 true, wakeDue := true } })) ∧
  (∀ (s : State) (off a : Nat) (bs : List Byte), s.bar2On = true → bar2Addr off = some a →
    (∀ p ∈ wordParts (bs.length / 8 + 2) a bs.length, p.1 / 64 * 64 ∈ (memAccess (.queue 0) (writeNeed a) a bs.length s).1) →
    ∃ u, exec (.bar2Write off bs) s = .next (settle u) ∧ u.stalls = s.stalls ∧ u.ram = s.ram ∧ u.med = s.med)) ∧
  (∀ (m : List Host.Cell) (a : Nat) (bs : List Byte), Memory.wf ramByte m →
    Memory.wf ramByte (Memory.writeBytes ramByte m a bs) ∧
    Memory.readBytes ramByte (Memory.writeBytes ramByte m a bs) a bs.length = bs ∧
    (∀ x, x < a ∨ a + bs.length ≤ x → Memory.read ramByte (Memory.writeBytes ramByte m a bs) x = Memory.read ramByte m x))

/-- Reading (R66, R101, R102, R125, R140): blocks whose map pages are cached move to the host, or only pass their checks, with the
namespace data unchanged; a page that the cache lacks is wanted first; an LBA that is unrecovered, or whose data fails its CRC32C, ends the command there with
Unrecovered Read Error and marks nothing; Compare fails where the data differ.
Completes, under the hypotheses on state and operands that its clauses name: read, compare, verify. -/
def Obligations.ReadRows : Prop :=
  ∀ (s : State) (h : Nat) (c : Cmd),
    (∀ move : Bool, s.io h (if move then 0x02 else 0x0C) = some c → s.mapped c.nsid c.slba c.blocks = false →
      exec (if move then .read h else .verify h) s = .next (settle (wantPages c.nsid c.slba c.blocks s))) ∧
    (∀ move : Bool, s.io h (if move then 0x02 else 0x0C) = some c → s.mapped c.nsid c.slba c.blocks = true →
      s.firstBad c.nsid c.slba c.blocks = none → s.firstPi c (s.nsOf c) c.blocks = none →
      ∃ u, exec (if move then .read h else .verify h) s = .next (settle (complete c.h 0 0 0 0
          (if move then ((List.range c.blocks).flatMap fun i => readBlock s c (s.nsOf c) i) ++ readMeta s c (s.nsOf c) c.blocks else []) u)) ∧
        u = { s with nv := u.nv, med := u.med, health := u.health } ∧
        u.med = { s.med with cache := u.med.cache, wants := u.med.wants, stale := u.med.stale } ∧
        u.health = { s.health with readBytes := s.health.readBytes + 4096 * c.blocks }) ∧
    (∀ (move : Bool) (i : Nat), s.io h (if move then 0x02 else 0x0C) = some c → s.mapped c.nsid c.slba c.blocks = true →
      s.firstBad c.nsid c.slba c.blocks = some i → s.firstPi c (s.nsOf c) i = none →
      ∃ u data, exec (if move then .read h else .verify h) s = .next (settle (complete c.h 2 0x81 0 0 data u)) ∧
        (move = false → data = []) ∧ u.med.content = s.med.content ∧ u.med.held = s.med.held ∧ u.med.unrec = s.med.unrec ∧
        u.nv.errCount = s.nv.errCount + 1 ∧ u.health.readBytes = s.health.readBytes + 4096 * i) ∧
    (s.io h 0x05 = some c → s.mapped c.nsid c.slba c.blocks = true → s.firstBad c.nsid c.slba c.blocks = none →
      (s.nsOf c).fmt = 0 →
      ∃ u, exec (.compare h) s = .next (settle (if ∀ i < c.blocks, (hostBlock c (s.nsOf c) i).1 = s.med.data (slotKey c.nsid (c.slba + i))
          then succeed h u else fail h 2 0x85 u)) ∧
        u = { s with nv := u.nv, med := u.med, health := u.health } ∧
        u.med = { s.med with cache := u.med.cache, wants := u.med.wants, stale := u.med.stale })

/-- Writing (R67 to R69, R79, R80, R86, R104, R119, R159, R166, R392): a Held write that finds room is in DRAM when it
completes, each block reads as the host gave it, and no other block changes; a Scan or FUA write starts programs and completes with
the last; at end of life every write is refused; Write Zeroes and Deallocate leave zeros in their range and every other block as it
was.
Completes, under the hypotheses on state and operands that its clauses name: write, writeZeroes, datasetManagement. -/
def Obligations.WriteRows : Prop :=
  (∀ (s : State) (h : Nat) (c : Cmd), s.io h 0x01 = some c →
    (s.med.eol = true → exec (.write h) s = .next (settle (fail h 7 0x89 s))) ∧
    (s.med.eol = false → (hostBlocks c (s.nsOf c)).2 = none → s.overCap c (s.nsOf c) = false →
      (s.programFirst c (s.nsOf c) = false → s.waitq = [] → s.room (s.newSlots c) = true →
        ∃ u, exec (.write h) s = .next (settle (succeed c.h u)) ∧ u = { s with med := u.med, health := u.health } ∧
          u.health = { s.health with hostBytes := s.health.hostBytes + 4096 * c.blocks } ∧ u.med.content = s.med.content ∧
          (∀ i, i < c.blocks → u.med.slot (slotKey c.nsid (c.slba + i)) = some (hostBlock c (s.nsOf c) i)) ∧
          (∀ k, (∀ i, i < c.blocks → k ≠ slotKey c.nsid (c.slba + i)) → u.med.slot k = s.med.slot k)) ∧
      (s.programFirst c (s.nsOf c) = false → s.waitq ≠ [] ∨ s.room (s.newSlots c) = false →
        exec (.write h) s = .next (settle { s.modCmd c.h fun x => { x with phase := .room } with waitq := insertWrite c.h s.waitq })) ∧
      (s.programFirst c (s.nsOf c) = true → s.writesOpen = false → exec (.write h) s = .next (settle s)) ∧
      (s.programFirst c (s.nsOf c) = true → s.writesOpen = true →
        ∃ u, exec (.write h) s = .next (settle u) ∧ u.med.content = s.med.content ∧ u.med.held = s.med.held ∧
          u.med.wseq = s.med.wseq + c.blocks ∧ u.nv.inflight = s.nv.inflight.map (fun x => if x.h = c.h then { x with
            begun := true, phase := .programs ((List.range c.blocks).map fun i => s.med.wseq + i), wt := !(s.nsOf c).scan && !bit (c.dword 12) 30 && s.native } else x))) ∧
    (s.med.eol = false → ∀ a b, (hostBlocks c (s.nsOf c)).2 = some (a, b) → exec (.write h) s = .next (settle (fail c.h a b s)))) ∧
  (∀ (s : State) (h : Nat) (c : Cmd), s.io h 0x08 = some c → s.med.eol = false → s.windowClosed = false →
    ∃ u, exec (.writeZeroes h) s = .next (settle (succeed h u)) ∧ u = { s with med := u.med } ∧
      (∀ k, inRange c.nsid c.slba c.blocks k = true → u.med.data k = List.replicate 4096 0 ∧ k ∉ u.med.unrec) ∧
      (∀ k, inRange c.nsid c.slba c.blocks k = false → u.med.slot k = s.med.slot k)) ∧
  (∀ (s : State) (h : Nat) (c : Cmd), s.io h 0x09 = some c →
    (bit (c.dword 11) 2 = false ∨ (s.med.eol = false ∧ c.ranges = []) → exec (.datasetManagement h) s = .next (settle (succeed h s))) ∧
    (bit (c.dword 11) 2 = true → s.med.eol = true → exec (.datasetManagement h) s = .next (settle (fail h 7 0x89 s))) ∧
    (c.ranges ≠ [] → s.med.eol = false →
      ∃ u, exec (.datasetManagement h) s = .next (settle (succeed h u)) ∧ u = { s with med := u.med } ∧
        (∀ k, (∃ r ∈ c.ranges, inRange c.nsid r.1 r.2 k = true) → u.med.data k = List.replicate 4096 0) ∧
        (∀ k, (∀ r ∈ c.ranges, inRange c.nsid r.1 r.2 k = false) → u.med.slot k = s.med.slot k)))

/-- Held data and Flush (R68, R105, R119, R122, R131, R159, R168, R169, R392): what waits first is admitted first; the trigger
starts programs and loses nothing; a Flush covers what its namespace held when it was fetched and completes when that is in
NAND with its map pages; the journal is programmed up to its first record that waits for a program, and only when it is due, like the
checkpoint; a commit of the map or a checkpoint changes no data; a write held past its time by the closed window is refused.
Completes, under the hypotheses on state and operands that its clauses name: flush, flushCompletion, heldProgramTrigger, mapJournalProgram, scanCheckpoint, writeHoldTimeout, heldAdmit, writeIdleTimeout. -/
def Obligations.HeldRows : Prop :=
  (∀ (s : State) (h : Nat) (c : Cmd) (rest : List Waiting), s.operating = true → s.pwr.watch ≠ .asleep → s.waitq = .write h :: rest →
    s.cmd h = some c → s.therm.shutting = false → s.med.eol = false → s.overCap c (s.nsOf c) = false →
    s.programFirst c (s.nsOf c) = false →
    (s.room (s.newSlots c) = false → exec .heldAdmit s = .next (settle s)) ∧
    (s.room (s.newSlots c) = true → ∃ u, exec .heldAdmit s = .next (settle (succeed c.h u)) ∧
      u = { s with med := u.med, health := u.health, waitq := rest } ∧
      ∀ i, i < c.blocks → u.med.slot (slotKey c.nsid (c.slba + i)) = some (hostBlock c (s.nsOf c) i))) ∧
  (∀ s : State, s.operating = true → s.windowClosed = false → s.med.heldDue s.now = true →
    (∀ x ∈ s.med.held, x.2.err = 0) →
    ∃ u, exec .heldProgramTrigger s = .next (settle u) ∧ u = { s with med := u.med } ∧
      u.med = { s.med with queue := u.med.queue, progs := u.med.progs, nextProg := u.med.nextProg, supers := u.med.supers
                           blocks := u.med.blocks, nextSuper := u.med.nextSuper, nextPar := u.med.nextPar } ∧
      (∀ p ∈ s.med.progs, p ∈ u.med.progs) ∧
      (∀ k ∈ s.med.unprogrammed, ∀ x, look s.med.held k = some x → u.med.inFlight k x.wseq = true)) ∧
  (∀ s : State, s.windowClosed = true ∨ s.med.heldDue s.now = false → exec .heldProgramTrigger s = .next (settle s)) ∧
  (∀ (s : State) (h : Nat) (c : Cmd), s.io h 0x00 = some c →
    (s.covered c = [] → s.pagesDue c = false → exec (.flush h) s = .next (settle (succeed h s))) ∧
    (s.covered c ≠ [] ∨ s.pagesDue c = true → (∀ x ∈ s.med.held, x.2.err = 0) → ∃ u, exec (.flush h) s = .next (settle u) ∧ u.med.held = s.med.held ∧ u.med.content = s.med.content ∧
      u.nv.inflight = s.nv.inflight.map fun x => if x.h = h then { x with begun := true, phase := .flushing c.below } else x)) ∧
  (∀ (s : State) (h b : Nat) (c : Cmd), s.cmd h = some c → c.phase = .flushing b → s.operating = true →
    (s.covered c = [] → (∀ r ∈ s.med.jrnl, c.describes r = true → s.med.ready r = true) →
      ∃ u, exec (.flushCompletion h) s = .next (settle (succeed h u)) ∧ u = { s with med := u.med } ∧
        u.med.held = s.med.held ∧ u.med.content = s.med.content ∧
        ((∀ r ∈ s.med.jrnl, r.keys.any c.flushes = true → r.keys.all c.flushes = true) → u.pagesDue c = false)) ∧
    (s.covered c ≠ [] ∨ (∃ r ∈ s.med.jrnl, c.describes r = true ∧ s.med.ready r = false) → exec (.flushCompletion h) s = .next (settle s))) ∧
  (∀ s : State, s.operating = true →
    (s.med.jrnlDue s.now = true → ∃ u, exec .mapJournalProgram s = .next (settle u) ∧
      u = { s with med := u.med } ∧ u.med.held = s.med.held ∧ u.med.content = s.med.content ∧
      u.med.jrnl = s.med.jrnl.dropWhile s.med.ready) ∧
    (s.med.jrnlDue s.now = false → exec .mapJournalProgram s = .next (settle s)) ∧
    (s.med.ckptDue s.now = true → ∃ u, exec .scanCheckpoint s = .next (settle u) ∧
      u = { s with med := u.med } ∧ u.med.held = s.med.held ∧ u.med.content = s.med.content ∧
      u.med.ckptSeq = s.med.wseq ∧ u.med.ckptNs = s.now ∧ u.med.scanBytes = 0 ∧ u.med.wseq = s.med.wseq ∧
      (∀ x ∈ s.med.supers, x.2.closed = false → ∀ p ∈ x.2.members, blkKey p ∈ u.med.ckptOpen) ∧
      (∀ x ∈ u.med.cache, x.2 = true → s.scanKey x.1 = false)) ∧
    (s.med.ckptDue s.now = false → exec .scanCheckpoint s = .next (settle s))) ∧
  (∀ s : State, s.mediaOn = true →
    ∃ u, exec .writeIdleTimeout s = .next (settle u) ∧ u = { s with med := { s.med with idle := true, groups := u.med.groups } }) ∧
  (∀ (s : State) (h : Nat) (c : Cmd), s.cmd h = some c → s.windowClosed = true → s.operating = true → c.qid ≠ 0 →
    s.therm.shutting = false → c.opc = 0x01 ∨ c.opc = 0x08 → c.started = false →
    exec (.writeHoldTimeout h) s = .next (settle { fail h 7 0x83 s with waitq := s.waitq.filter fun w => w != .write h })) ∧
  (∀ (s : State) (h : Nat), s.windowClosed = false → exec (.writeHoldTimeout h) s = .next (settle s))

/-- Programs and erases (R22, R117, R120, R124, R143, R144, R146, R147, R149, R167, R178): a program that has its Porter and
succeeds puts its data where its map entry points; what fails is on its way again and its blocks are suspect; a superblock whose
verify read passes gives up its parity; only a block that an erase-intent record names is erased; the third timeout in a row fails
the die.
Completes, under the hypotheses on state and operands that its clauses name: oneBitProgramComplete, verifyReadComplete, nandEraseComplete, dieStatusTimeout. -/
def Obligations.ProgramRows : Prop :=
  (∀ (s : State) (id row t : Nat) (die : Fin 64) (fails : List (Fin 4)), s.moving (.cores id) = false →
    exec (.oneBitProgramComplete id die row t fails) s = .next (settle s)) ∧
  (∀ (s : State) (t : Nat) (p : Prog) (sb : Super), s.running = true → s.moving (.cores p.id) = true →
    s.med.progs.filter (fun x => x.id == p.id) = [p] → s.med.partials = [] → look s.med.supers p.sb = some sb →
    (∀ (k : Nat) (x : Slot4k), p.pages = [[⟨[(k, x)], none, none⟩]] → look s.med.held k = none →
      (∀ y, look s.med.content k = some y → y.wseq ≤ x.wseq) →
      ∃ u, exec (.oneBitProgramComplete p.id p.die p.row t []) s = .next (settle u) ∧
        look u.med.content k = some { x with place := sb.block p.die 0, pos := 4 * p.row } ∧
        (∀ j, j ≠ k → look u.med.content j = look s.med.content j) ∧ u.med.held = s.med.held ∧
        (∀ q ∈ s.med.progs, q.id ≠ p.id → q ∈ u.med.progs) ∧ u.ram = s.ram ∧ u.bcn.pos = s.bcn.pos) ∧
    (p.pages.length ≤ 4 →
      ∃ u, exec (.oneBitProgramComplete p.id p.die p.row t [0, 1, 2, 3]) s = .next (settle u) ∧ u.med.content = s.med.content ∧
        u.med.held = s.med.held ∧ (∀ k w, s.med.inFlight k w = true → u.med.inFlight k w = true) ∧
        (∀ pl ∈ sb.members, pl.die = p.die → (u.med.blk pl).suspect = true) ∧ u.ram = s.ram ∧ u.bcn.pos = s.bcn.pos)) ∧
  (∀ (s : State) (k : Nat) (m : Super), s.med.supers.filter (fun x => x.1 == k) = [(k, m)] → s.mediaOn = true → m.closed = true →
    m.verify = true →
    ∃ u, exec (.verifyReadComplete k []) s = .next (settle u) ∧ u = { s with med := u.med } ∧ u.med.content = s.med.content ∧
      u.med.held = s.med.held ∧
      (∀ v, look u.med.supers k = some v → v = { m with verify := false, failing := [], parity := [] }) ∧
      (∀ p ∈ m.members, s.med.inBlock p ≠ [] → (look u.med.supers k).isSome = true) ∧
      (∀ p ∈ m.parity, p ∈ u.med.toErase ∨ blkKey p ∈ u.med.intents)) ∧
  (∀ (s : State) (pl : Place) (tlc : Bool), s.mediaOn = true →
    (blkKey pl ∈ s.med.intents →
      (∃ u, exec (.nandEraseComplete pl tlc true) s = .next (settle u) ∧ u = { s with med := u.med } ∧ u.med.content = s.med.content ∧
        u.med.held = s.med.held ∧ (u.med.blk pl).erases = (s.med.blk pl).erases + 1 ∧ (u.med.blk pl).tlc = tlc ∧
        (u.med.blk pl).wear = (s.med.blk pl).wear + (if tlc then 100 else 15) ∧ (u.med.blk pl).reads = 0 ∧
        (u.med.blk pl).closed = false ∧ (u.med.blk pl).slots = []) ∧
      (∃ u, exec (.nandEraseComplete pl tlc false) s = .next (settle u) ∧ u.med.content = s.med.content ∧ u.med.held = s.med.held ∧
        (u.med.blk pl).retired = true ∧ (u.med.blk pl).erases = (s.med.blk pl).erases ∧ u.ram = s.ram)) ∧
    (blkKey pl ∉ s.med.intents → ∀ ok, exec (.nandEraseComplete pl tlc ok) s = .next (settle s))) ∧
  (∀ (s : State) (d : Fin 64), s.running = true → (s.med.die d.val).failed = false →
    ∃ u, exec (.dieStatusTimeout d) s = .next (settle u) ∧
      ((s.med.die d.val).timeouts < 2 → (u.med.die d.val).timeouts = (s.med.die d.val).timeouts + 1 ∧ (u.med.die d.val).failed = false ∧
        u.med.content = s.med.content ∧ u.med.held = s.med.held ∧ u.med.eol = s.med.eol) ∧
      (2 ≤ (s.med.die d.val).timeouts → (u.med.die d.val).failed = true ∧ u.med.eol = true ∧
        ∀ k x, look s.med.held k = some x → (∀ y ∈ s.med.content, y.1 = k → y.2.wseq < x.wseq) →
          ∃ y, look u.med.held k = some y ∧ y.data = x.data ∧ y.wseq = x.wseq))

/-- Reads of the media and background work (R15, R122, R125, R129 to R131, R136, R137, R139, R140, R145, R166, R402): a
read that is corrected, or whose slot is rebuilt from parity, changes no data; one that is not marks its LBA, unless newer data waits in DRAM; a block read too often is queued; a copy moves a slot only
while the map still points at its source, and changes no data; a drift sample of patrol takes five reads more, and its rate is the shift
divided by the block's powered days; a page filled is the most recently used.
Completes, under the hypotheses on state and operands that its clauses name: mediaReadComplete, readDisturbRefresh, foldStart, gcStart, copyComplete, patrolRead, mapPageFill, indexRebuildDone. -/
def Obligations.MediaRows : Prop :=
  (∀ (s : State) (pl : Place) (nsid lba dec : Nat) (ok : Bool) (x : Slot4k), s.mediaOn = true →
    look s.med.content (slotKey nsid lba) = some x → x.place = some pl →
    (∃ u, exec (.mediaReadComplete pl (nsid, lba) dec ok none) s = .next (settle u) ∧ u.med.content = s.med.content ∧ u.med.held = s.med.held ∧
      (dec ≤ 8 → (u.med.blk pl).reads = (s.med.blk pl).reads + (if dec = 8 then 2 else 1)) ∧ (3 ≤ dec → (u.med.blk pl).refresh ≠ 0) ∧
      (ok = true → dec ≤ 8 ∨ s.med.guarded pl = true → u.med.unrec = s.med.unrec) ∧
      (ok = false → dec < (if s.med.guarded pl then 9 else 8) → u.med.unrec = s.med.unrec) ∧
      (ok = false → (if s.med.guarded pl then 9 else 8) ≤ dec →
        slotKey nsid lba ∈ u.med.unrec ∨ (look s.med.held (slotKey nsid lba)).isSome = true)) ∧
    (∀ around, s.med.readAround pl around = true →
      exec (.mediaReadComplete pl (nsid, lba) dec ok around) s = .next (settle
        (if ok then parityRebuild pl s else readStripe pl s)))) ∧
  (∀ (s : State) (pl : Place), s.mediaOn = true →
    ((s.med.blk pl).reads < (if (s.med.blk pl).tlc then 60000 else 200000) →
      exec (.readDisturbRefresh pl) s = .next (settle s)) ∧
    ((if (s.med.blk pl).tlc then 60000 else 200000) ≤ (s.med.blk pl).reads →
      ∃ u, exec (.readDisturbRefresh pl) s = .next (settle u) ∧ u = { s with med := { s.med with blocks := u.med.blocks } } ∧
        1 ≤ (u.med.blk pl).refresh)) ∧
  (∀ (s : State) (g : Fin 2), s.mediaOn = true →
    (∃ u, exec (.foldStart g) s = .next (settle u) ∧ u = { s with med := { s.med with groups := u.med.groups } } ∧
      ((u.med.group g.val).folding = (decide (s.med.unfolded g.val ≠ 0) &&
        ((s.med.group g.val).folding || decide (3120562176 ≤ s.med.unfolded g.val) || s.med.idle)))) ∧
    (∃ u, exec (.gcStart g) s = .next (settle u) ∧ u = { s with med := { s.med with groups := u.med.groups } } ∧
      (137438953472 ≤ s.med.free g.val → (u.med.group g.val).gc = false) ∧
      (s.med.free g.val < 103079215104 → (u.med.group g.val).gc = true))) ∧
  (∀ (s : State) (nsid lba t : Nat) (src : Place) (die : Fin 64), s.mediaOn = true → s.windowClosed = false →
    (s.med.copySpot src die = none → ∀ ok, exec (.copyComplete nsid lba src die t ok) s = .next (settle s)) ∧
    (∀ (sb pos : Nat) (dst : Place) (m : Media), s.med.copySpot src die = some (sb, dst, pos, m) →
      (∀ x, look s.med.content (slotKey nsid lba) = some x →
        ∃ u, exec (.copyComplete nsid lba src die t true) s = .next (settle u) ∧ u.med.held = s.med.held ∧
          look u.med.content (slotKey nsid lba) = some (if x.place = some src then { x with place := some dst, pos := pos } else x) ∧
          (∀ j, j ≠ slotKey nsid lba → look u.med.content j = look s.med.content j) ∧ u.med.unrec = s.med.unrec ∧ dst.die = die) ∧
      (∃ u, exec (.copyComplete nsid lba src die t false) s = .next (settle u) ∧ u.med.held = s.med.held ∧
        (∀ j, (look u.med.content j).map (fun x => (x.data, x.pi, x.wseq)) = (look s.med.content j).map fun x => (x.data, x.pi, x.wseq)) ∧
        ((∀ y ∈ s.med.copied, y.dst = dst → y.src ≠ dst) → ∀ j x, look u.med.content j = some x → x.place = some dst →
          look s.med.content j = some x ∧ ∀ y ∈ s.med.copied, y.key = j → y.dst ≠ dst) ∧ (u.med.blk dst).suspect = true))) ∧
  (∀ (s : State) (pl : Place) (dec shift : Nat) (weak : Bool), s.mediaOn = true →
    (s.med.patrolNext pl = false → ∀ page d, exec (.patrolRead pl page dec weak shift d) s = .next (settle s)) ∧
    (s.med.patrolNext pl = true → dec ≤ 8 →
      ∃ u, exec (.patrolRead pl (s.med.blk pl).patrol dec weak shift 0) s = .next (settle u) ∧ u.med.content = s.med.content ∧ u.med.held = s.med.held ∧
        u.med.unrec = s.med.unrec ∧ u.ram = s.ram ∧ u.nv = s.nv ∧ u.ns = s.ns ∧ u.bcn.pos = s.bcn.pos ∧
        (u.med.blk pl).reads = (s.med.blk pl).reads + (if dec = 8 then 10 else dec + 1) ∧ (weak = true ∨ 3 ≤ dec → (u.med.blk pl).refresh ≠ 0)) ∧
    (s.med.patrolNext pl = true → dec ≤ 8 → (s.med.blk pl).tlc = true → 24 ≤ (s.med.blk pl).age → (s.med.blk pl).patrol + 1 < 24 →
      ∃ u, exec (.patrolRead pl (s.med.blk pl).patrol dec weak shift ((s.med.blk pl).age / 24)) s = .next (settle u) ∧
        u.med.content = s.med.content ∧ u.med.unrec = s.med.unrec ∧
        (u.med.blk pl).reads = (s.med.blk pl).reads + (if dec = 8 then 10 else dec + 1) + 5 ∧
        u.health.roundMax[pl.die] = max s.health.roundMax[pl.die] (10 * shift / ((s.med.blk pl).age / 24)))) ∧
  (∀ (s : State) (nsid page : Nat), s.operating = true →
    ∃ u, exec (.mapPageFill nsid page) s = .next (settle u) ∧
      u = { s with med := { s.med with cache := u.med.cache, wants := s.med.wants.filter (fun x => x != slotKey nsid page)
                                       stale := s.med.stale.filter fun x => x != slotKey nsid page } } ∧
      (u.med.cache[0]?).map (fun x => x.1) = some (slotKey nsid page) ∧ u.med.cached (slotKey nsid page) = true) ∧
  (∀ s : State, s.operating = true → s.pwr.watch ≠ .asleep →
    exec .indexRebuildDone s = .next (settle { s with ns := s.ns.map fun n => (n.1, { n.2 with st := { n.2.st with unindexed := [] } }) }))

/-- Stream commands (R74, R77, R82, R263, R268, R269): a Record Append reserves its space before its records land; a query is
queued, into a slot when it asks for one; a result is fetched or released by its handle; a Cycle Commit waits for its mark; a lookup
answers from the index and changes nothing.
Completes, under the hypotheses on state and operands that its clauses name: recordAppend, arcQuery, fetchResult, releaseResult, cycleCommit, indexLookup. -/
def Obligations.StreamRows : Prop :=
  (∀ (s : State) (h : Nat) (c : Cmd), s.io h 0x81 = some c →
    (s.med.eol = true → exec (.recordAppend h) s = .next (settle (fail h 7 0x89 s))) ∧
    (s.med.eol = false →
      (((s.needs c).map s.withTail).all s.fits = true →
        exec (.recordAppend h) s = .next (settle (s.modCmd h fun x => { x with phase := .landing, resv := (s.needs c).map s.withTail }))) ∧
      ((∃ r ∈ (s.needs c).map s.withTail, s.fits r = false ∧ s.isRing r.1 = false) →
        exec (.recordAppend h) s = .next (settle (fail h 7 0x85 s))))) ∧
  (∀ (s : State) (h : Nat) (c : Cmd), s.io h 0x82 = some c → c.qRel = false →
    ∀ p, c.qPipe = p → p ≠ 0xFF →
    (s.pipe p = none → exec (.arcQuery h) s = .next (settle (invalidField h s))) ∧
    (∀ x, s.pipe p = some x → s.pipeUp x = false → exec (.arcQuery h) s = .next (settle (fail h 7 0x87 s))) ∧
    (∀ x, s.pipe p = some x → s.pipeUp x = true → c.slotted = false →
      (s.queries.filter fun q => q.pipe.isSome && q.pipe == some p && q.state == .waiting).length < 64 →
      exec (.arcQuery h) s = .next (settle (runFree ({ s with queries := queued c.query s.queries }.modCmd h fun x => { x with phase := .query }))))) ∧
  (∀ (s : State) (h k : Nat) (c : Cmd) (x : Slot), s.io h 0x85 = some c → s.resultTurn c = true → s.slotOf (c.dword 10) = some (k, x) →
    x.nsid = c.nsid → c.allZero [2, 3, 4, 5, 14, 15] = true → fld (c.dword 11) 31 1 = 0 → (c.dword 12).toNat % 8 = 0 →
    (c.dword 13).toNat % 8 = 0 → 8 ≤ (c.dword 13).toNat → (c.dword 13).toNat ≤ 2097152 →
    (x.state = .ready → (c.dword 12).toNat < x.answer.length → s.slotWorldAt c.epoch k = c.secure →
      ∃ n, n = min (c.dword 13).toNat (x.answer.length - (c.dword 12).toNat) ∧
        exec (.fetchResult h) s = .next (settle (complete h 0 0 (w32 n) (w32 x.answer.length) (slice x.answer (c.dword 12).toNat n)
          (if bit (c.dword 11) 0 then s else freeSlot k s)))) ∧
    (s.slotWorldAt c.epoch k ≠ c.secure → x.state ≠ .ready → exec (.fetchResult h) s = .next (settle (regionDenied h s))) ∧
    (s.slotWorldAt c.epoch k = c.secure → x.state = .running → exec (.fetchResult h) s = .next (settle (fail h 7 0x80 s)))) ∧
  (∀ (s : State) (h k : Nat) (c : Cmd) (x : Slot), s.io h 0x86 = some c → s.resultTurn c = true → s.slotOf (c.dword 10) = some (k, x) →
    x.nsid = c.nsid → c.allZero [2, 3, 4, 5, 6, 7, 8, 9, 11, 12, 13, 14, 15] = true → s.slotWorldAt c.epoch k = c.secure → x.state = .ready →
    exec (.releaseResult h) s = .next (settle (succeed h (freeSlot k s)))) ∧
  (∀ (s : State) (h : Nat) (c : Cmd), s.io h 0x85 = some c → s.resultTurn c = true → s.slotOf (c.dword 10) = none →
    c.allZero [2, 3, 4, 5, 14, 15] = true → fld (c.dword 11) 31 1 = 0 → (c.dword 12).toNat % 8 = 0 →
    (c.dword 13).toNat % 8 = 0 → 8 ≤ (c.dword 13).toNat → (c.dword 13).toNat ≤ 2097152 → s.slotWorldAt c.epoch (fld (c.dword 10) 7 0) = c.secure →
    exec (.fetchResult h) s = .next (settle (fail h 7 0x81 s))) ∧
  (∀ (s : State) (h : Nat) (c : Cmd), s.io h 0x89 = some c → s.med.eol = false →
    ∃ u m, exec (.cycleCommit h) s = .next (settle u) ∧ m ∈ u.med.pendMarks ∧ m.cmd = some h ∧ m.bound = c.bound ∧
      u.med.content = s.med.content ∧ u.med.held = s.med.held ∧ u.ram = s.ram ∧
      (s.bcn.extrapolates = false → u.bcn.com.num = s.bcn.com.num ∧
        m.flags = 1 + (if s.bcn.com.zeroForce then 4 else 0) + (if s.bcn.inFault then 8 else 0) ∧ m.era = s.bcn.curEra)) ∧
  (∀ (s : State) (h : Nat) (c : Cmd), s.io h 0x8A = some c →
    ∀ kind, kind = fld (c.dword 10) 3 0 →
    (2 ≤ kind ∨ s.lotsMeeting c.nsid (fun r => c.meets kind r.seq (recStamp r.bytes) r.era) = false →
      ∃ u, exec (.indexLookup h) s = .next (settle (complete h 0 0 0 0 (lookup s c) u)) ∧
        u = { s with med := { s.med with idx := u.med.idx } }) ∧
    (kind ≤ 1 → s.lotsMeeting c.nsid (fun r => c.meets kind r.seq (recStamp r.bytes) r.era) = true →
      exec (.indexLookup h) s = .next (settle (s.modCmd h fun x => { x with begun := true }))))

/-- Lots and queries (R17, R22, R23, R192, R249, R263, R264): the first waiting Lot of a pipeline goes to the Stall that has the
fewest, then the longest idle when it is empty, then the first, but for those that faulted on it; a pipeline with no Stall to take it fails it; the oldest query of a pipeline starts when the Lots below
its boundary have retired; a Lot retires in its order, or waits for room in the arrival order.
Completes, under the hypotheses on state and operands that its clauses name: lotIssue, lotRetire, queryStart. -/
def Obligations.LotRows : Prop :=
  (∀ (s : State) (lot : Nat) (l : Lot) (p : Pipe), s.operating = true → s.pwr.watch = .awake → s.lot lot = some l →
    l.pipe.bind s.pipe = some p → l.state = .waiting → p.gateOnly = false → p.running = true → s.therm.shutting = false →
    ((s.lots.filter fun x => x.pipe == l.pipe && x.state == .waiting)[0]?) = some l →
    ∀ ts, ts = (s.takers p).filter (fun n => !l.tried.contains n) →
    (ts = [] → exec (.lotIssue lot) s = .next (settle (failLot l false s))) ∧
    (ts ≠ [] → pickStall s ts = none → exec (.lotIssue lot) s = .next (settle s)) ∧
    (∀ n : Fin 64, pickStall s ts = some n.val →
      ∃ u, exec (.lotIssue lot) s = .next (settle u) ∧
        u = { s with lots := u.lots, stalls := u.stalls, ev := u.ev, pipes := u.pipes, med := { s.med with pendMarks := u.med.pendMarks } } ∧
        (u.stall n.val).lots = (s.stall n.val).lots ++ [lot] ∧ (∀ m, m ≠ n.val → u.stall m = s.stall m) ∧
        (∀ x, u.lot lot = some x → x.state = .issued n.val ∧ x.recs = l.recs) ∧
        (∀ im, (s.stall n.val).lots = [] → (s.stall n.val).image = some im →
          (u.stall n.val).stage = .idle ∧ (u.stall n.val).elapsed = 0 ∧
          (u.stall n.val).budget = ((l.recs.filter fun r => r.pass).map fun r =>
            im.cRec + im.c64 * ((r.bytes.length + 63) / 64)).foldl (· + ·) 0))) ∧
  (∀ (s : State) (ns : List Nat) (n : Nat), pickStall s ns = some n →
    n ∈ ns ∧ (s.stall n).lots.length < 2 ∧ (s.stall n).stops = [] ∧
    ∀ m ∈ ns, (s.stall m).lots.length < 2 → (s.stall m).stops = [] →
      (s.stall n).lots.length < (s.stall m).lots.length ∨
      ((s.stall n).lots.length = (s.stall m).lots.length ∧ ((s.stall n).lots = [] → (s.stall n).idleAt ≤ (s.stall m).idleAt) ∧
        (((s.stall n).lots = [] → (s.stall n).idleAt = (s.stall m).idleAt) → ns.idxOf n ≤ ns.idxOf m))) ∧
  (∀ (s : State) (k : Fin 32) (p : Pipe) (q : Query), s.operating = true → s.pwr.watch = .awake → s.pipe k.val = some p → p.running = true →
    (s.queries.filter fun q => q.pipe == some k.val).any (fun q => q.state == .running) = false →
    (((s.queries.filter fun q => q.pipe == some k.val).filter fun q => q.state == .waiting)[0]?) = some q →
    (s.lotsBelow q.start = true ∨ s.queryBefore k.val q.id = true → exec (.queryStart k) s = .next (settle (runFree s))) ∧
    (s.lotsBelow q.start = false → s.queryBefore k.val q.id = false → exec (.queryStart k) s = .next (settle (runFree (startQuery q s))))) ∧
  (∀ (s : State) (lot : Nat) (l : Lot), s.operating = true → s.pwr.watch = .awake → s.lot lot = some l → s.lotReady l = true → s.lotFirst l = true →
    s.lotLanded l = true →
    (l.query ≠ none ∨ s.stores l = [] ∨ (s.lotDram l = [] ∧ s.lotNand l = false) → exec (.lotRetire lot) s = .next (settle (retire' l s))) ∧
    (s.lotNand l = true → s.writesOpen = false → exec (.lotRetire lot) s = .next (settle s)) ∧
    (l.query = none → s.lotNand l = false ∨ s.writesOpen = true → s.lotDram l ≠ [] →
      (s.waitq = [] → s.room (s.lotSlots l) = true → exec (.lotRetire lot) s = .next (settle (retire' l s))) ∧
      (s.waitq ≠ [] ∨ s.room (s.lotSlots l) = false → Waiting.lot lot ∉ s.waitq → exec (.lotRetire lot) s = .next (settle { s with waitq := s.waitq ++ [.lot lot] })))) ∧
  (∀ (s : State) (lot : Nat), s.operating = false → exec (.lotRetire lot) s = .next (settle s) ∧ exec (.lotIssue lot) s = .next (settle s))

/-- R79: a Write of a thin-provisioned block namespace that would raise NUSE above NCAP completes with Capacity Exceeded and writes
nothing; Deallocate frees blocks; a namespace with NCAP = NSZE never returns Capacity Exceeded.
Completes, under the hypotheses on state and operands that its clauses name: write, datasetManagement. -/
def Obligations.ThinProvisioning : Prop :=
  ∀ (s : State) (h : Nat) (c : Cmd) (n : Ns), look s.ns c.nsid = some n → s.med.eol = false →
    (s.io h 0x01 = some c → (hostBlocks c n).2 = none →
      (n.ncap < n.nsze →
        n.ncap < s.nuse c.nsid + ((List.range c.blocks).filter fun i =>
          !s.med.allocated.contains (slotKey c.nsid (c.slba + i))).length →
        exec (.write h) s = .next (settle (fail h 0 0x81 s)) ∧ (fail h 0 0x81 s).med = s.med) ∧
      (n.ncap = n.nsze → ∃ u, exec (.write h) s = .next (settle u) ∧ ((∃ v, u = succeed h v) ∨ ∃ x ∈ u.nv.inflight, x.h = h))) ∧
    (s.io h 0x09 = some c → c.ranges ≠ [] →
      ∃ u, exec (.datasetManagement h) s = .next (settle (succeed h u)) ∧ u.nuse c.nsid ≤ s.nuse c.nsid ∧
        ∀ r ∈ c.ranges, ∀ k, inRange c.nsid r.1 r.2 k = true → u.med.slot k = none)

/-- R28: BCN_CPC holds CPC − 1, CPC can be any value from 16 to 2^32, and a value below 15 is stored as 15; the net cycle is a
signed count that goes on through every cycle length.
Completes, under the hypotheses on state and operands that its clauses name: bcnConfigWrite. -/
def Obligations.CyclesPerCount : Prop :=
  (∀ s : State, s.bcn.cpc = s.bcn.regs.cpc.toNat + 1) ∧
  (∀ (s : State) (a : Actor) (v : W32), CanWrite a 0x0201 s →
    ∃ u, exec (.bcnConfigWrite a true v) s = .next (settle u) ∧ u.bcn.regs.cpc = (if v.toNat < 15 then 15 else v) ∧
      16 ≤ u.bcn.cpc ∧ u.bcn.cpc ≤ 2 ^ 32 ∧ u.bcn.net = s.bcn.net ∧ u.ram = s.ram ∧ u.acc = s.acc ∧ u.hb = s.hb ∧
      u.nv = s.nv ∧ u.med = { s.med with pendMarks := u.med.pendMarks }) ∧
  (∀ c : Nat, 16 ≤ c → c ≤ 2 ^ 32 → ∀ (s : State) (a : Actor), CanWrite a 0x0201 s →
    ∃ u, exec (.bcnConfigWrite a true (BitVec.ofNat 32 (c - 1))) s = .next (settle u) ∧ u.bcn.cpc = c)

/-- No command stops the card: whatever the state and the operands, a command answers a next state, never a fault or a refusal.
Where its event cannot occur or its actor cannot reach, that state is the one it found, by the model's choice
(notes/assumptions/2.md); what each command does where it acts is in the other statements. -/
def Obligations.EveryCommandAnswers : Prop :=
  ∀ (i : Instr) (s : State), ∃ t, exec i s = .next t

/-- Where a stream command or a row of Lots acts, it has its own effect (R17, R23, R74, R77, R82, R263, R264, R268, R269): a Record
Append has its space reserved; a query without a pipeline is queued, in a slot when it asks for one; an answer is fetched, or
released; a forced mark becomes pending; a lookup answers; a Lot goes to a Stall, or retires; the oldest query of a pipeline starts.
Completes, under the hypotheses on state and operands that its clauses name: recordAppend, arcQuery, fetchResult, releaseResult, cycleCommit, indexLookup, lotIssue, lotRetire, queryStart. -/
def Obligations.StreamRowsAct : Prop :=
  (∀ (s : State) (h : Nat) (c : Cmd),
    (s.io h 0x81 = some c → s.med.eol = false → ((s.needs c).map s.withTail).all s.fits = true →
      ∃ u, exec (.recordAppend h) s = .next (settle u) ∧ u = { s with nv := u.nv } ∧
        u.cmd h = some { c with phase := .landing, resv := (s.needs c).map s.withTail }) ∧
    (s.io h 0x82 = some c → c.qPipe = 0xFF → c.qRel = false →
      (c.slotted = false →
        ∃ u, exec (.arcQuery h) s = .next (settle (runFree u)) ∧ u = { s with nv := u.nv, queries := u.queries } ∧
          c.query ∈ u.queries ∧ u.cmd h = some { c with phase := .query }) ∧
      (∀ k, c.slotted = true → s.freeSlotOf c.secure = some k → s.poolUsed + (c.dword 11).toNat ≤ 1073741824 →
        ∃ u x, exec (.arcQuery h) s = .next (settle (runFree (complete h 0 0 (w32 (x.start * 2 ^ 24 + x.gen * 256 + k)) 0 [] u))) ∧
          u = { s with slots := u.slots, queries := u.queries } ∧ { c.query with slot := some k } ∈ u.queries ∧
          look u.slots k = some x ∧ x.state = .running ∧ x.query = h ∧ x.nsid = c.nsid ∧ x.start = s.pwr.starts.toNat % 256)) ∧
    (∀ k x, s.resultTurn c = true → s.slotOf (c.dword 10) = some (k, x) → x.nsid = c.nsid → s.slotWorldAt c.epoch k = c.secure →
      x.state = .ready →
      (s.io h 0x85 = some c → c.allZero [2, 3, 4, 5, 14, 15] = true → fld (c.dword 11) 31 1 = 0 → (c.dword 12).toNat % 8 = 0 →
        (c.dword 12).toNat < x.answer.length → (c.dword 13).toNat % 8 = 0 → 8 ≤ (c.dword 13).toNat → (c.dword 13).toNat ≤ 2097152 →
        ∃ u n, exec (.fetchResult h) s = .next (settle (complete h 0 0 (w32 n) (w32 x.answer.length)
            (slice x.answer (c.dword 12).toNat n) u)) ∧
          n = min (c.dword 13).toNat (x.answer.length - (c.dword 12).toNat) ∧ u = { s with slots := u.slots } ∧
          (look u.slots k).map (fun y => y.state) = some (if bit (c.dword 11) 0 then .ready else .free)) ∧
      (s.io h 0x86 = some c → c.allZero [2, 3, 4, 5, 6, 7, 8, 9, 11, 12, 13, 14, 15] = true →
        ∃ u, exec (.releaseResult h) s = .next (settle (succeed h u)) ∧ u = { s with slots := u.slots } ∧
          (look u.slots k).map (fun y => y.state) = some .free)) ∧
    (s.io h 0x89 = some c → s.med.eol = false →
      ∃ u m, exec (.cycleCommit h) s = .next (settle u) ∧ m ∈ u.med.pendMarks ∧ m.cmd = some h ∧ m.bound = c.bound ∧
        u.cmd h = some { c with phase := .mark }) ∧
    (s.io h 0x8A = some c → 2 ≤ fld (c.dword 10) 3 0 ∨
        s.lotsMeeting c.nsid (fun r => c.meets (fld (c.dword 10) 3 0) r.seq (recStamp r.bytes) r.era) = false →
      ∃ u, exec (.indexLookup h) s = .next (settle (complete h 0 0 0 0 (lookup s c) u)) ∧
        u = { s with med := { s.med with idx := u.med.idx } })) ∧
  (∀ (s : State) (lot : Nat) (l : Lot) (p : Pipe) (n : Fin 64), s.operating = true → s.pwr.watch = .awake → s.lot lot = some l →
    l.pipe.bind s.pipe = some p → p.gateOnly = false → p.running = true → s.therm.shutting = false → l.state = .waiting →
    ((s.lots.filter fun x => x.pipe == l.pipe && x.state == .waiting)[0]?) = some l →
    pickStall s ((s.takers p).filter fun n => !l.tried.contains n) = some n.val →
    ∃ u, exec (.lotIssue lot) s = .next (settle u) ∧ (u.stall n.val).lots = (s.stall n.val).lots ++ [lot] ∧
      (u.lot lot).map (fun x => x.state) = some (.issued n.val)) ∧
  (∀ (s : State) (lot : Nat) (l : Lot), s.operating = true → s.pwr.watch = .awake → s.lot lot = some l → l.query = none → l.pipe = none →
    l.state = .waiting → s.lotFirst l = true → s.lotLanded l = true → s.lotNand l = false ∨ s.writesOpen = true → s.waitq = [] →
    s.room (s.lotSlots l) = true → exec (.lotRetire lot) s = .next (settle (retire' l s))) ∧
  (∀ (s : State) (k : Fin 32) (p : Pipe) (q : Query), s.operating = true → s.pwr.watch = .awake → s.pipe k.val = some p → p.running = true →
    s.queries.filter (fun x => x.pipe == some k.val) = [q] → q.state = .waiting → s.lotsBelow q.start = false →
    s.queryBefore k.val q.id = false → exec (.queryStart k) s = .next (settle (runFree (startQuery q s))))

/-- Where an instruction that emits, moves, orders, counts or calls acts, and where a row of the Beacon acts, it has its own effect
(R28, R34, R37 to R42, R44, R49, R51, R55, R56, R58, R193, R235 to R238, R240): a Porter job starts; a BARRIER with none pending goes
on; a Tally update is held in the Lot; a unit is called; a sample places the count, a RESUME or a Zero ends the fault; a register of the
Beacon or an Arc holds what was written.
Completes, under the hypotheses on state and operands that its clauses name: indexEvent, ssiFrameStart, ssiWord, line, bcnFeed, resume, zeroNow, zeroArm, bcnConfigWrite, bcnIntRateWrite, arcRegisterWrite, bcnCommitCtlWrite, bcnStampLoRead, ucall, tally, emitr, emitm, pmov, barrier. -/
def Obligations.MovesAndPositionAct : Prop :=
  (∀ (s : State) (n : Fin 64),
    (∀ f : RFmt, Runs s n.val (rWord 0x34 f) f.g 2 → (s.stall n.val).handlers = [] → f.d = 0 → f.a = 0 → f.b = 0 → f.fn.toNat < 4 →
      s.emitOk n.val f.fn.toNat = true → (s.stall n.val).moves.length < 8 →
      ∃ u m, exec (.emitr n f) s = .next (settle u) ∧ (u.stall n.val).moves = (s.stall n.val).moves ++ [m] ∧
        m.kind = .emitRecord (((s.stall n.val).lots[0]?).getD 0) (s.stall n.val).rec_ f.fn.toNat) ∧
    (∀ (f : RFmt) (h : List Byte), Runs s n.val (rWord 0x35 f) f.g 2 → (s.stall n.val).handlers = [] → f.d = 0 → fld f.fn 3 2 = 0 →
      fld f.fn 9 8 = 0 → fld f.fn 7 4 ≤ 14 → localRange ((s.stall n.val).reg f.a).toNat ((s.stall n.val).reg f.b).toNat 8 = true →
      32 ≤ ((s.stall n.val).reg f.b).toNat → ((s.stall n.val).reg f.b).toNat ≤ 2 ^ (fld f.fn 7 4 + 5) →
      s.emitOk n.val (fld f.fn 1 0) = true → loadLocal n.val ((s.stall n.val).reg f.a).toNat 8 s = (some h, s) →
      recVersion h = 1 → recType h ≠ 0 → (s.stall n.val).moves.length < 8 →
      ∃ u m, exec (.emitm n f) s = .next (settle u) ∧ (u.stall n.val).moves = (s.stall n.val).moves ++ [m] ∧
        m.kind = .emitMemory (((s.stall n.val).lots[0]?).getD 0) (s.stall n.val).rec_ (fld f.fn 1 0) ((s.stall n.val).reg f.a).toNat
          (s.peekLocal n.val ((s.stall n.val).reg f.a).toNat ((s.stall n.val).reg f.b).toNat)) ∧
    (∀ (f : RFmt) (card loc len : Nat), Runs s n.val (rWord 0x36 f) f.g 2 → card = ((s.stall n.val).reg f.d).toNat →
      loc = ((s.stall n.val).reg f.a).toNat → len = ((s.stall n.val).reg f.b).toNat → f.fn.toNat < 2 → localRange loc len 64 = true →
      card % 64 = 0 → len % 64 = 0 → 64 ≤ len → len ≤ 65536 → (s.stall n.val).moves.length < 8 →
      ∃ u m, exec (.pmov n f) s = .next (settle u) ∧ (u.stall n.val).moves = (s.stall n.val).moves ++ [m] ∧
        m.kind = (if f.fn = 0 then .toCard loc card (s.peekLocal n.val loc len) else .fromCard loc card len)) ∧
    (∀ f : BFmt, Runs s n.val (bWord 0x39 f) f.g 1 → f.z = 0 → f.off = 0 → (s.stall n.val).moves = [] →
      ∃ u, exec (.barrier n f) s = .next (settle u) ∧ (u.stall n.val).undef = [] ∧ (u.stall n.val).moves = [] ∧ u.lots = s.lots) ∧
    (∀ (f : RFmt) (l : Lot) (p : Pipe), Runs s n.val (rWord 0x2F f) f.g 1 → (s.stall n.val).handlers = [] → f.d = 0 → f.fn.toNat < 4 →
      s.curLot n.val = some l → s.lotPipe n.val = some p → ((s.stall n.val).reg f.b).toNat < p.tallyCount →
      look l.tally ((s.stall n.val).reg f.b).toNat = none →
      ∃ u, exec (.tally n f) s = .next (settle u) ∧
        (u.lot l.id).map (fun x => look x.tally ((s.stall n.val).reg f.b).toNat) = some (some (f.fn.toNat, (s.stall n.val).reg f.a))) ∧
    (∀ f : RFmt, Runs s n.val (rWord 0x2E f) f.g 4 → (s.stall n.val).handlers = [] → f.d = 0 → f.a = 0 → f.b = 0 → f.fn.toNat < 32 →
      fld f.fn 3 0 = 5 →
      ∃ u c, exec (.ucall n f) s = .next (settle u) ∧ (u.stall n.val).call = some c ∧ c.unit = 5 ∧ c.src = fld f.fn 4 4 ∧
        ∀ i : Fin 3, c.args[i] = (s.stall n.val).reg (BitVec.ofNat 4 (i.val + 1)))) ∧
  (∀ (s : State) (t : Nat), s.ssiOn = true → s.bcn.master = true → s.bcn.extrapolates = false →
    ∃ u, exec (.ssiFrameStart t) s = .next (settle u) ∧ u.bcn.inp.frame = true ∧ u.now = max s.now t ∧ u.bcn.pos = s.bcn.pos) ∧
  (∀ (s : State) (t : Nat) (w : W32) (k : BitVec 6), s.ssiOn = true → (s.bcn.master = true → s.bcn.inp.frame = true) →
    s.bcn.wordGood w k = true → s.bcn.code = 6 → s.bcn.inp.reref = false →
    ∃ u, exec (.ssiWord t w k) s = .next (settle u) ∧ u.bcn.code = 0 ∧ u.bcn.count = s.bcn.sense (s.bcn.wordValue w)) ∧
  (∀ (s : State) (t : Nat) (a : Actor) (v : W32), CanWrite a 0x0206 (s.at_ t) → s.beaconOn = true → s.bcn.mode = 3 → s.bcn.code = 6 →
    s.bcn.inp.reref = false →
    ∃ u, exec (.bcnFeed t a v) s = .next (settle u) ∧ u.bcn.code = 0 ∧ u.bcn.count = s.bcn.sense v.toNat) ∧
  (∀ (s : State) (p : BcnPair), s.beaconOn = true → s.bcn.pairUsed p = true →
    ∃ u, exec (.line p) s = .next (settle u) ∧ bit u.bcn.sticky 7 = true ∧ u.bcn.code ≠ 0 ∧ u.bcn.pos = s.bcn.pos) ∧
  (∀ (s : State) (t : Nat), s.inMode 1 = true → s.bcn.armed = false → s.bcn.indexMode = 2 →
    ∃ u, exec (.indexEvent t) s = .next (settle u) ∧ u.bcn.count = 0 ∧ u.bcn.code = 0) ∧
  (∀ (s : State) (a : Actor), CanWrite a 0x0207 s → s.native = true → s.beaconOn = true →
    (s.bcn.code ≠ 0 → ∃ u, exec (.resume a) s = .next (settle u) ∧ u.bcn.code = 0) ∧
    (∃ u, exec (.zeroNow a) s = .next (settle u) ∧ u.bcn.code = 0 ∧
      u.bcn.net = s.bcn.curEra * 16777215 + (min s.bcn.regs.zeroCyc.toNat 0xFFFFFE : Nat)) ∧
    (s.bcn.mode = 1 → ∃ u, exec (.zeroArm a) s = .next (settle u) ∧ u.bcn.armed = true)) ∧
  (∀ (s : State) (a : Actor) (v : W32), s.native = true →
    (CanWrite a 0x0200 s → ∃ u, exec (.bcnConfigWrite a false v) s = .next (settle u) ∧ u.bcn.regs.cfg = v &&& 0xFFFFC000) ∧
    (CanWrite a 0x0205 s → ∃ u, exec (.bcnIntRateWrite a v) s = .next (settle u) ∧
      u.bcn.regs.intRate = (if 40000000 < v.toNat then 40000000#32 else v)) ∧
    (CanWrite a 0x0211 s → ∃ u, exec (.bcnCommitCtlWrite a v) s = .next (settle u) ∧ u.bcn.regs.commitCtl = v &&& 0x8000FFFF) ∧
    (∀ k : Fin 64, CanWrite a (0x0240 + k.val) s →
      ∃ u, exec (.arcRegisterWrite a (BitVec.ofNat 16 (0x0240 + k.val)) v) s = .next (settle u) ∧ (u.bcn.arcs[k]).start = v)) ∧
  (∀ (s : State) (a : Actor) (t : Nat), s.regReady 0x0209 = true → s.regAllowed a 0x0209 = statOk → s.bcn.code ≠ 0 →
    ∃ u, exec (.bcnStampLoRead t a) s = .next (settle u) ∧ u.bcn.latch = mkStamp 0xFFFFFF s.bcn.valid s.bcn.code)
end

