-- ==== Sys2Proof/Laws/Frames.lean ====
section
/-! SUPPORT. Frames of the operations that every command shares: one lemma per field of State that an operation leaves as it is,
so that no proof unfolds the operation to see it. -/

namespace Sys2Proof.Machine

/-- A fold keeps what each of its steps keeps. -/
theorem foldl_keep {α β γ : Type} (p : β → γ) (f : β → α → β) (h : ∀ s x, p (f s x) = p s) (l : List α) (s : β) :
    p (l.foldl f s) = p s := by
  induction l generalizing s with
  | nil => rfl
  | cons x xs ih => simp [List.foldl_cons, ih, h]

/-! Plain updates. -/

@[simp] theorem take_pending (s : State) : (s.take.2).pending = s.pending := rfl
@[simp] theorem take_now (s : State) : (s.take.2).now = s.now := rfl
@[simp] theorem take_pwr (s : State) : (s.take.2).pwr = s.pwr := rfl
@[simp] theorem take_therm (s : State) : (s.take.2).therm = s.therm := rfl
@[simp] theorem take_hu (s : State) : (s.take.2).hu = s.hu := rfl
@[simp] theorem take_health (s : State) : (s.take.2).health = s.health := rfl
@[simp] theorem take_bcn (s : State) : (s.take.2).bcn = s.bcn := rfl
@[simp] theorem take_bus (s : State) : (s.take.2).bus = s.bus := rfl
@[simp] theorem take_keeper (s : State) : (s.take.2).keeper = s.keeper := rfl
@[simp] theorem take_acc (s : State) : (s.take.2).acc = s.acc := rfl
@[simp] theorem take_ev (s : State) : (s.take.2).ev = s.ev := rfl
@[simp] theorem take_hb (s : State) : (s.take.2).hb = s.hb := rfl
@[simp] theorem take_nv (s : State) : (s.take.2).nv = s.nv := rfl
@[simp] theorem take_ns (s : State) : (s.take.2).ns = s.ns := rfl
@[simp] theorem take_med (s : State) : (s.take.2).med = s.med := rfl
@[simp] theorem take_stalls (s : State) : (s.take.2).stalls = s.stalls := rfl
@[simp] theorem take_lots (s : State) : (s.take.2).lots = s.lots := rfl
@[simp] theorem take_nextLot (s : State) : (s.take.2).nextLot = s.nextLot := rfl
@[simp] theorem take_pipes (s : State) : (s.take.2).pipes = s.pipes := rfl
@[simp] theorem take_queries (s : State) : (s.take.2).queries = s.queries := rfl
@[simp] theorem take_slots (s : State) : (s.take.2).slots = s.slots := rfl
@[simp] theorem take_waitq (s : State) : (s.take.2).waitq = s.waitq := rfl
@[simp] theorem take_opens (s : State) : (s.take.2).opens = s.opens := rfl
@[simp] theorem take_porters (s : State) : (s.take.2).porters = s.porters := rfl
@[simp] theorem take_units (s : State) : (s.take.2).units = s.units := rfl
@[simp] theorem take_nextCall (s : State) : (s.take.2).nextCall = s.nextCall := rfl
@[simp] theorem take_offReports (s : State) : (s.take.2).offReports = s.offReports := rfl
@[simp] theorem take_ram (s : State) : (s.take.2).ram = s.ram := rfl
@[simp] theorem take_dataOut (s : State) : (s.take.2).dataOut = s.dataOut := rfl

@[simp] theorem setStall_pending (s : State) (n : Nat) (t : Stall) : (s.setStall n t).pending = s.pending := rfl
@[simp] theorem setStall_now (s : State) (n : Nat) (t : Stall) : (s.setStall n t).now = s.now := rfl
@[simp] theorem setStall_fresh (s : State) (n : Nat) (t : Stall) : (s.setStall n t).fresh = s.fresh := rfl
@[simp] theorem setStall_pwr (s : State) (n : Nat) (t : Stall) : (s.setStall n t).pwr = s.pwr := rfl
@[simp] theorem setStall_therm (s : State) (n : Nat) (t : Stall) : (s.setStall n t).therm = s.therm := rfl
@[simp] theorem setStall_hu (s : State) (n : Nat) (t : Stall) : (s.setStall n t).hu = s.hu := rfl
@[simp] theorem setStall_health (s : State) (n : Nat) (t : Stall) : (s.setStall n t).health = s.health := rfl
@[simp] theorem setStall_bcn (s : State) (n : Nat) (t : Stall) : (s.setStall n t).bcn = s.bcn := rfl
@[simp] theorem setStall_bus (s : State) (n : Nat) (t : Stall) : (s.setStall n t).bus = s.bus := rfl
@[simp] theorem setStall_keeper (s : State) (n : Nat) (t : Stall) : (s.setStall n t).keeper = s.keeper := rfl
@[simp] theorem setStall_acc (s : State) (n : Nat) (t : Stall) : (s.setStall n t).acc = s.acc := rfl
@[simp] theorem setStall_ev (s : State) (n : Nat) (t : Stall) : (s.setStall n t).ev = s.ev := rfl
@[simp] theorem setStall_hb (s : State) (n : Nat) (t : Stall) : (s.setStall n t).hb = s.hb := rfl
@[simp] theorem setStall_nv (s : State) (n : Nat) (t : Stall) : (s.setStall n t).nv = s.nv := rfl
@[simp] theorem setStall_ns (s : State) (n : Nat) (t : Stall) : (s.setStall n t).ns = s.ns := rfl
@[simp] theorem setStall_med (s : State) (n : Nat) (t : Stall) : (s.setStall n t).med = s.med := rfl
@[simp] theorem setStall_lots (s : State) (n : Nat) (t : Stall) : (s.setStall n t).lots = s.lots := rfl
@[simp] theorem setStall_nextLot (s : State) (n : Nat) (t : Stall) : (s.setStall n t).nextLot = s.nextLot := rfl
@[simp] theorem setStall_pipes (s : State) (n : Nat) (t : Stall) : (s.setStall n t).pipes = s.pipes := rfl
@[simp] theorem setStall_queries (s : State) (n : Nat) (t : Stall) : (s.setStall n t).queries = s.queries := rfl
@[simp] theorem setStall_slots (s : State) (n : Nat) (t : Stall) : (s.setStall n t).slots = s.slots := rfl
@[simp] theorem setStall_waitq (s : State) (n : Nat) (t : Stall) : (s.setStall n t).waitq = s.waitq := rfl
@[simp] theorem setStall_opens (s : State) (n : Nat) (t : Stall) : (s.setStall n t).opens = s.opens := rfl
@[simp] theorem setStall_porters (s : State) (n : Nat) (t : Stall) : (s.setStall n t).porters = s.porters := rfl
@[simp] theorem setStall_units (s : State) (n : Nat) (t : Stall) : (s.setStall n t).units = s.units := rfl
@[simp] theorem setStall_nextCall (s : State) (n : Nat) (t : Stall) : (s.setStall n t).nextCall = s.nextCall := rfl
@[simp] theorem setStall_offReports (s : State) (n : Nat) (t : Stall) : (s.setStall n t).offReports = s.offReports := rfl
@[simp] theorem setStall_ram (s : State) (n : Nat) (t : Stall) : (s.setStall n t).ram = s.ram := rfl
@[simp] theorem setStall_dataOut (s : State) (n : Nat) (t : Stall) : (s.setStall n t).dataOut = s.dataOut := rfl

@[simp] theorem modStall_pending (s : State) (n : Nat) (f : Stall → Stall) : (s.modStall n f).pending = s.pending := rfl
@[simp] theorem modStall_now (s : State) (n : Nat) (f : Stall → Stall) : (s.modStall n f).now = s.now := rfl
@[simp] theorem modStall_fresh (s : State) (n : Nat) (f : Stall → Stall) : (s.modStall n f).fresh = s.fresh := rfl
@[simp] theorem modStall_pwr (s : State) (n : Nat) (f : Stall → Stall) : (s.modStall n f).pwr = s.pwr := rfl
@[simp] theorem modStall_therm (s : State) (n : Nat) (f : Stall → Stall) : (s.modStall n f).therm = s.therm := rfl
@[simp] theorem modStall_hu (s : State) (n : Nat) (f : Stall → Stall) : (s.modStall n f).hu = s.hu := rfl
@[simp] theorem modStall_health (s : State) (n : Nat) (f : Stall → Stall) : (s.modStall n f).health = s.health := rfl
@[simp] theorem modStall_bcn (s : State) (n : Nat) (f : Stall → Stall) : (s.modStall n f).bcn = s.bcn := rfl
@[simp] theorem modStall_bus (s : State) (n : Nat) (f : Stall → Stall) : (s.modStall n f).bus = s.bus := rfl
@[simp] theorem modStall_keeper (s : State) (n : Nat) (f : Stall → Stall) : (s.modStall n f).keeper = s.keeper := rfl
@[simp] theorem modStall_acc (s : State) (n : Nat) (f : Stall → Stall) : (s.modStall n f).acc = s.acc := rfl
@[simp] theorem modStall_ev (s : State) (n : Nat) (f : Stall → Stall) : (s.modStall n f).ev = s.ev := rfl
@[simp] theorem modStall_hb (s : State) (n : Nat) (f : Stall → Stall) : (s.modStall n f).hb = s.hb := rfl
@[simp] theorem modStall_nv (s : State) (n : Nat) (f : Stall → Stall) : (s.modStall n f).nv = s.nv := rfl
@[simp] theorem modStall_ns (s : State) (n : Nat) (f : Stall → Stall) : (s.modStall n f).ns = s.ns := rfl
@[simp] theorem modStall_med (s : State) (n : Nat) (f : Stall → Stall) : (s.modStall n f).med = s.med := rfl
@[simp] theorem modStall_lots (s : State) (n : Nat) (f : Stall → Stall) : (s.modStall n f).lots = s.lots := rfl
@[simp] theorem modStall_nextLot (s : State) (n : Nat) (f : Stall → Stall) : (s.modStall n f).nextLot = s.nextLot := rfl
@[simp] theorem modStall_pipes (s : State) (n : Nat) (f : Stall → Stall) : (s.modStall n f).pipes = s.pipes := rfl
@[simp] theorem modStall_queries (s : State) (n : Nat) (f : Stall → Stall) : (s.modStall n f).queries = s.queries := rfl
@[simp] theorem modStall_slots (s : State) (n : Nat) (f : Stall → Stall) : (s.modStall n f).slots = s.slots := rfl
@[simp] theorem modStall_waitq (s : State) (n : Nat) (f : Stall → Stall) : (s.modStall n f).waitq = s.waitq := rfl
@[simp] theorem modStall_opens (s : State) (n : Nat) (f : Stall → Stall) : (s.modStall n f).opens = s.opens := rfl
@[simp] theorem modStall_porters (s : State) (n : Nat) (f : Stall → Stall) : (s.modStall n f).porters = s.porters := rfl
@[simp] theorem modStall_units (s : State) (n : Nat) (f : Stall → Stall) : (s.modStall n f).units = s.units := rfl
@[simp] theorem modStall_nextCall (s : State) (n : Nat) (f : Stall → Stall) : (s.modStall n f).nextCall = s.nextCall := rfl
@[simp] theorem modStall_offReports (s : State) (n : Nat) (f : Stall → Stall) : (s.modStall n f).offReports = s.offReports := rfl
@[simp] theorem modStall_ram (s : State) (n : Nat) (f : Stall → Stall) : (s.modStall n f).ram = s.ram := rfl
@[simp] theorem modStall_dataOut (s : State) (n : Nat) (f : Stall → Stall) : (s.modStall n f).dataOut = s.dataOut := rfl

@[simp] theorem pendAll_pending (s : State) (k : Nat) : (pendAll k s).pending = s.pending := rfl
@[simp] theorem pendAll_now (s : State) (k : Nat) : (pendAll k s).now = s.now := rfl
@[simp] theorem pendAll_fresh (s : State) (k : Nat) : (pendAll k s).fresh = s.fresh := rfl
@[simp] theorem pendAll_pwr (s : State) (k : Nat) : (pendAll k s).pwr = s.pwr := rfl
@[simp] theorem pendAll_therm (s : State) (k : Nat) : (pendAll k s).therm = s.therm := rfl
@[simp] theorem pendAll_hu (s : State) (k : Nat) : (pendAll k s).hu = s.hu := rfl
@[simp] theorem pendAll_health (s : State) (k : Nat) : (pendAll k s).health = s.health := rfl
@[simp] theorem pendAll_bcn (s : State) (k : Nat) : (pendAll k s).bcn = s.bcn := rfl
@[simp] theorem pendAll_bus (s : State) (k : Nat) : (pendAll k s).bus = s.bus := rfl
@[simp] theorem pendAll_keeper (s : State) (k : Nat) : (pendAll k s).keeper = s.keeper := rfl
@[simp] theorem pendAll_acc (s : State) (k : Nat) : (pendAll k s).acc = s.acc := rfl
@[simp] theorem pendAll_ev (s : State) (k : Nat) : (pendAll k s).ev = s.ev := rfl
@[simp] theorem pendAll_hb (s : State) (k : Nat) : (pendAll k s).hb = s.hb := rfl
@[simp] theorem pendAll_nv (s : State) (k : Nat) : (pendAll k s).nv = s.nv := rfl
@[simp] theorem pendAll_ns (s : State) (k : Nat) : (pendAll k s).ns = s.ns := rfl
@[simp] theorem pendAll_med (s : State) (k : Nat) : (pendAll k s).med = s.med := rfl
@[simp] theorem pendAll_lots (s : State) (k : Nat) : (pendAll k s).lots = s.lots := rfl
@[simp] theorem pendAll_nextLot (s : State) (k : Nat) : (pendAll k s).nextLot = s.nextLot := rfl
@[simp] theorem pendAll_pipes (s : State) (k : Nat) : (pendAll k s).pipes = s.pipes := rfl
@[simp] theorem pendAll_queries (s : State) (k : Nat) : (pendAll k s).queries = s.queries := rfl
@[simp] theorem pendAll_slots (s : State) (k : Nat) : (pendAll k s).slots = s.slots := rfl
@[simp] theorem pendAll_waitq (s : State) (k : Nat) : (pendAll k s).waitq = s.waitq := rfl
@[simp] theorem pendAll_opens (s : State) (k : Nat) : (pendAll k s).opens = s.opens := rfl
@[simp] theorem pendAll_porters (s : State) (k : Nat) : (pendAll k s).porters = s.porters := rfl
@[simp] theorem pendAll_units (s : State) (k : Nat) : (pendAll k s).units = s.units := rfl
@[simp] theorem pendAll_nextCall (s : State) (k : Nat) : (pendAll k s).nextCall = s.nextCall := rfl
@[simp] theorem pendAll_offReports (s : State) (k : Nat) : (pendAll k s).offReports = s.offReports := rfl
@[simp] theorem pendAll_ram (s : State) (k : Nat) : (pendAll k s).ram = s.ram := rfl
@[simp] theorem pendAll_dataOut (s : State) (k : Nat) : (pendAll k s).dataOut = s.dataOut := rfl

@[simp] theorem modCmd_pending (s : State) (h : Nat) (f : Cmd → Cmd) : (s.modCmd h f).pending = s.pending := rfl
@[simp] theorem modCmd_now (s : State) (h : Nat) (f : Cmd → Cmd) : (s.modCmd h f).now = s.now := rfl
@[simp] theorem modCmd_fresh (s : State) (h : Nat) (f : Cmd → Cmd) : (s.modCmd h f).fresh = s.fresh := rfl
@[simp] theorem modCmd_pwr (s : State) (h : Nat) (f : Cmd → Cmd) : (s.modCmd h f).pwr = s.pwr := rfl
@[simp] theorem modCmd_therm (s : State) (h : Nat) (f : Cmd → Cmd) : (s.modCmd h f).therm = s.therm := rfl
@[simp] theorem modCmd_hu (s : State) (h : Nat) (f : Cmd → Cmd) : (s.modCmd h f).hu = s.hu := rfl
@[simp] theorem modCmd_health (s : State) (h : Nat) (f : Cmd → Cmd) : (s.modCmd h f).health = s.health := rfl
@[simp] theorem modCmd_bcn (s : State) (h : Nat) (f : Cmd → Cmd) : (s.modCmd h f).bcn = s.bcn := rfl
@[simp] theorem modCmd_bus (s : State) (h : Nat) (f : Cmd → Cmd) : (s.modCmd h f).bus = s.bus := rfl
@[simp] theorem modCmd_keeper (s : State) (h : Nat) (f : Cmd → Cmd) : (s.modCmd h f).keeper = s.keeper := rfl
@[simp] theorem modCmd_acc (s : State) (h : Nat) (f : Cmd → Cmd) : (s.modCmd h f).acc = s.acc := rfl
@[simp] theorem modCmd_ev (s : State) (h : Nat) (f : Cmd → Cmd) : (s.modCmd h f).ev = s.ev := rfl
@[simp] theorem modCmd_hb (s : State) (h : Nat) (f : Cmd → Cmd) : (s.modCmd h f).hb = s.hb := rfl
@[simp] theorem modCmd_ns (s : State) (h : Nat) (f : Cmd → Cmd) : (s.modCmd h f).ns = s.ns := rfl
@[simp] theorem modCmd_med (s : State) (h : Nat) (f : Cmd → Cmd) : (s.modCmd h f).med = s.med := rfl
@[simp] theorem modCmd_stalls (s : State) (h : Nat) (f : Cmd → Cmd) : (s.modCmd h f).stalls = s.stalls := rfl
@[simp] theorem modCmd_lots (s : State) (h : Nat) (f : Cmd → Cmd) : (s.modCmd h f).lots = s.lots := rfl
@[simp] theorem modCmd_nextLot (s : State) (h : Nat) (f : Cmd → Cmd) : (s.modCmd h f).nextLot = s.nextLot := rfl
@[simp] theorem modCmd_pipes (s : State) (h : Nat) (f : Cmd → Cmd) : (s.modCmd h f).pipes = s.pipes := rfl
@[simp] theorem modCmd_queries (s : State) (h : Nat) (f : Cmd → Cmd) : (s.modCmd h f).queries = s.queries := rfl
@[simp] theorem modCmd_slots (s : State) (h : Nat) (f : Cmd → Cmd) : (s.modCmd h f).slots = s.slots := rfl
@[simp] theorem modCmd_waitq (s : State) (h : Nat) (f : Cmd → Cmd) : (s.modCmd h f).waitq = s.waitq := rfl
@[simp] theorem modCmd_opens (s : State) (h : Nat) (f : Cmd → Cmd) : (s.modCmd h f).opens = s.opens := rfl
@[simp] theorem modCmd_porters (s : State) (h : Nat) (f : Cmd → Cmd) : (s.modCmd h f).porters = s.porters := rfl
@[simp] theorem modCmd_units (s : State) (h : Nat) (f : Cmd → Cmd) : (s.modCmd h f).units = s.units := rfl
@[simp] theorem modCmd_nextCall (s : State) (h : Nat) (f : Cmd → Cmd) : (s.modCmd h f).nextCall = s.nextCall := rfl
@[simp] theorem modCmd_offReports (s : State) (h : Nat) (f : Cmd → Cmd) : (s.modCmd h f).offReports = s.offReports := rfl
@[simp] theorem modCmd_ram (s : State) (h : Nat) (f : Cmd → Cmd) : (s.modCmd h f).ram = s.ram := rfl
@[simp] theorem modCmd_dataOut (s : State) (h : Nat) (f : Cmd → Cmd) : (s.modCmd h f).dataOut = s.dataOut := rfl

@[simp] theorem dropCmd_pending (s : State) (h : Nat) : (dropCmd h s).pending = s.pending := rfl
@[simp] theorem dropCmd_now (s : State) (h : Nat) : (dropCmd h s).now = s.now := rfl
@[simp] theorem dropCmd_fresh (s : State) (h : Nat) : (dropCmd h s).fresh = s.fresh := rfl
@[simp] theorem dropCmd_pwr (s : State) (h : Nat) : (dropCmd h s).pwr = s.pwr := rfl
@[simp] theorem dropCmd_therm (s : State) (h : Nat) : (dropCmd h s).therm = s.therm := rfl
@[simp] theorem dropCmd_hu (s : State) (h : Nat) : (dropCmd h s).hu = s.hu := rfl
@[simp] theorem dropCmd_health (s : State) (h : Nat) : (dropCmd h s).health = s.health := rfl
@[simp] theorem dropCmd_bcn (s : State) (h : Nat) : (dropCmd h s).bcn = s.bcn := rfl
@[simp] theorem dropCmd_bus (s : State) (h : Nat) : (dropCmd h s).bus = s.bus := rfl
@[simp] theorem dropCmd_keeper (s : State) (h : Nat) : (dropCmd h s).keeper = s.keeper := rfl
@[simp] theorem dropCmd_acc (s : State) (h : Nat) : (dropCmd h s).acc = s.acc := rfl
@[simp] theorem dropCmd_ev (s : State) (h : Nat) : (dropCmd h s).ev = s.ev := rfl
@[simp] theorem dropCmd_hb (s : State) (h : Nat) : (dropCmd h s).hb = s.hb := rfl
@[simp] theorem dropCmd_ns (s : State) (h : Nat) : (dropCmd h s).ns = s.ns := rfl
@[simp] theorem dropCmd_med (s : State) (h : Nat) : (dropCmd h s).med = s.med := rfl
@[simp] theorem dropCmd_stalls (s : State) (h : Nat) : (dropCmd h s).stalls = s.stalls := rfl
@[simp] theorem dropCmd_lots (s : State) (h : Nat) : (dropCmd h s).lots = s.lots := rfl
@[simp] theorem dropCmd_nextLot (s : State) (h : Nat) : (dropCmd h s).nextLot = s.nextLot := rfl
@[simp] theorem dropCmd_pipes (s : State) (h : Nat) : (dropCmd h s).pipes = s.pipes := rfl
@[simp] theorem dropCmd_queries (s : State) (h : Nat) : (dropCmd h s).queries = s.queries := rfl
@[simp] theorem dropCmd_slots (s : State) (h : Nat) : (dropCmd h s).slots = s.slots := rfl
@[simp] theorem dropCmd_waitq (s : State) (h : Nat) : (dropCmd h s).waitq = s.waitq := rfl
@[simp] theorem dropCmd_opens (s : State) (h : Nat) : (dropCmd h s).opens = s.opens := rfl
@[simp] theorem dropCmd_porters (s : State) (h : Nat) : (dropCmd h s).porters = s.porters := rfl
@[simp] theorem dropCmd_units (s : State) (h : Nat) : (dropCmd h s).units = s.units := rfl
@[simp] theorem dropCmd_nextCall (s : State) (h : Nat) : (dropCmd h s).nextCall = s.nextCall := rfl
@[simp] theorem dropCmd_offReports (s : State) (h : Nat) : (dropCmd h s).offReports = s.offReports := rfl
@[simp] theorem dropCmd_ram (s : State) (h : Nat) : (dropCmd h s).ram = s.ram := rfl
@[simp] theorem dropCmd_dataOut (s : State) (h : Nat) : (dropCmd h s).dataOut = s.dataOut := rfl

@[simp] theorem countNand_pending (s : State) (n : Nat) : (countNand n s).pending = s.pending := rfl
@[simp] theorem countNand_now (s : State) (n : Nat) : (countNand n s).now = s.now := rfl
@[simp] theorem countNand_fresh (s : State) (n : Nat) : (countNand n s).fresh = s.fresh := rfl
@[simp] theorem countNand_pwr (s : State) (n : Nat) : (countNand n s).pwr = s.pwr := rfl
@[simp] theorem countNand_therm (s : State) (n : Nat) : (countNand n s).therm = s.therm := rfl
@[simp] theorem countNand_hu (s : State) (n : Nat) : (countNand n s).hu = s.hu := rfl
@[simp] theorem countNand_bcn (s : State) (n : Nat) : (countNand n s).bcn = s.bcn := rfl
@[simp] theorem countNand_bus (s : State) (n : Nat) : (countNand n s).bus = s.bus := rfl
@[simp] theorem countNand_keeper (s : State) (n : Nat) : (countNand n s).keeper = s.keeper := rfl
@[simp] theorem countNand_acc (s : State) (n : Nat) : (countNand n s).acc = s.acc := rfl
@[simp] theorem countNand_ev (s : State) (n : Nat) : (countNand n s).ev = s.ev := rfl
@[simp] theorem countNand_hb (s : State) (n : Nat) : (countNand n s).hb = s.hb := rfl
@[simp] theorem countNand_nv (s : State) (n : Nat) : (countNand n s).nv = s.nv := rfl
@[simp] theorem countNand_ns (s : State) (n : Nat) : (countNand n s).ns = s.ns := rfl
@[simp] theorem countNand_med (s : State) (n : Nat) : (countNand n s).med = s.med := rfl
@[simp] theorem countNand_stalls (s : State) (n : Nat) : (countNand n s).stalls = s.stalls := rfl
@[simp] theorem countNand_lots (s : State) (n : Nat) : (countNand n s).lots = s.lots := rfl
@[simp] theorem countNand_nextLot (s : State) (n : Nat) : (countNand n s).nextLot = s.nextLot := rfl
@[simp] theorem countNand_pipes (s : State) (n : Nat) : (countNand n s).pipes = s.pipes := rfl
@[simp] theorem countNand_queries (s : State) (n : Nat) : (countNand n s).queries = s.queries := rfl
@[simp] theorem countNand_slots (s : State) (n : Nat) : (countNand n s).slots = s.slots := rfl
@[simp] theorem countNand_waitq (s : State) (n : Nat) : (countNand n s).waitq = s.waitq := rfl
@[simp] theorem countNand_opens (s : State) (n : Nat) : (countNand n s).opens = s.opens := rfl
@[simp] theorem countNand_porters (s : State) (n : Nat) : (countNand n s).porters = s.porters := rfl
@[simp] theorem countNand_units (s : State) (n : Nat) : (countNand n s).units = s.units := rfl
@[simp] theorem countNand_nextCall (s : State) (n : Nat) : (countNand n s).nextCall = s.nextCall := rfl
@[simp] theorem countNand_offReports (s : State) (n : Nat) : (countNand n s).offReports = s.offReports := rfl
@[simp] theorem countNand_ram (s : State) (n : Nat) : (countNand n s).ram = s.ram := rfl
@[simp] theorem countNand_dataOut (s : State) (n : Nat) : (countNand n s).dataOut = s.dataOut := rfl

@[simp] theorem clearDirect_pending (s : State) : (clearDirect s).pending = s.pending := rfl
@[simp] theorem clearDirect_now (s : State) : (clearDirect s).now = s.now := rfl
@[simp] theorem clearDirect_fresh (s : State) : (clearDirect s).fresh = s.fresh := rfl
@[simp] theorem clearDirect_therm (s : State) : (clearDirect s).therm = s.therm := rfl
@[simp] theorem clearDirect_hu (s : State) : (clearDirect s).hu = s.hu := rfl
@[simp] theorem clearDirect_health (s : State) : (clearDirect s).health = s.health := rfl
@[simp] theorem clearDirect_bcn (s : State) : (clearDirect s).bcn = s.bcn := rfl
@[simp] theorem clearDirect_bus (s : State) : (clearDirect s).bus = s.bus := rfl
@[simp] theorem clearDirect_keeper (s : State) : (clearDirect s).keeper = s.keeper := rfl
@[simp] theorem clearDirect_acc (s : State) : (clearDirect s).acc = s.acc := rfl
@[simp] theorem clearDirect_ev (s : State) : (clearDirect s).ev = s.ev := rfl
@[simp] theorem clearDirect_hb (s : State) : (clearDirect s).hb = s.hb := rfl
@[simp] theorem clearDirect_nv (s : State) : (clearDirect s).nv = s.nv := rfl
@[simp] theorem clearDirect_ns (s : State) : (clearDirect s).ns = s.ns := rfl
@[simp] theorem clearDirect_med (s : State) : (clearDirect s).med = s.med := rfl
@[simp] theorem clearDirect_stalls (s : State) : (clearDirect s).stalls = s.stalls := rfl
@[simp] theorem clearDirect_lots (s : State) : (clearDirect s).lots = s.lots := rfl
@[simp] theorem clearDirect_nextLot (s : State) : (clearDirect s).nextLot = s.nextLot := rfl
@[simp] theorem clearDirect_pipes (s : State) : (clearDirect s).pipes = s.pipes := rfl
@[simp] theorem clearDirect_queries (s : State) : (clearDirect s).queries = s.queries := rfl
@[simp] theorem clearDirect_slots (s : State) : (clearDirect s).slots = s.slots := rfl
@[simp] theorem clearDirect_waitq (s : State) : (clearDirect s).waitq = s.waitq := rfl
@[simp] theorem clearDirect_opens (s : State) : (clearDirect s).opens = s.opens := rfl
@[simp] theorem clearDirect_porters (s : State) : (clearDirect s).porters = s.porters := rfl
@[simp] theorem clearDirect_units (s : State) : (clearDirect s).units = s.units := rfl
@[simp] theorem clearDirect_nextCall (s : State) : (clearDirect s).nextCall = s.nextCall := rfl
@[simp] theorem clearDirect_offReports (s : State) : (clearDirect s).offReports = s.offReports := rfl
@[simp] theorem clearDirect_ram (s : State) : (clearDirect s).ram = s.ram := rfl
@[simp] theorem clearDirect_dataOut (s : State) : (clearDirect s).dataOut = s.dataOut := rfl

@[simp] theorem publishHoldup_pending (s : State) : (publishHoldup s).pending = s.pending := rfl
@[simp] theorem publishHoldup_now (s : State) : (publishHoldup s).now = s.now := rfl
@[simp] theorem publishHoldup_fresh (s : State) : (publishHoldup s).fresh = s.fresh := rfl
@[simp] theorem publishHoldup_pwr (s : State) : (publishHoldup s).pwr = s.pwr := rfl
@[simp] theorem publishHoldup_therm (s : State) : (publishHoldup s).therm = s.therm := rfl
@[simp] theorem publishHoldup_health (s : State) : (publishHoldup s).health = s.health := rfl
@[simp] theorem publishHoldup_bcn (s : State) : (publishHoldup s).bcn = s.bcn := rfl
@[simp] theorem publishHoldup_bus (s : State) : (publishHoldup s).bus = s.bus := rfl
@[simp] theorem publishHoldup_keeper (s : State) : (publishHoldup s).keeper = s.keeper := rfl
@[simp] theorem publishHoldup_acc (s : State) : (publishHoldup s).acc = s.acc := rfl
@[simp] theorem publishHoldup_ev (s : State) : (publishHoldup s).ev = s.ev := rfl
@[simp] theorem publishHoldup_hb (s : State) : (publishHoldup s).hb = s.hb := rfl
@[simp] theorem publishHoldup_nv (s : State) : (publishHoldup s).nv = s.nv := rfl
@[simp] theorem publishHoldup_ns (s : State) : (publishHoldup s).ns = s.ns := rfl
@[simp] theorem publishHoldup_med (s : State) : (publishHoldup s).med = s.med := rfl
@[simp] theorem publishHoldup_stalls (s : State) : (publishHoldup s).stalls = s.stalls := rfl
@[simp] theorem publishHoldup_lots (s : State) : (publishHoldup s).lots = s.lots := rfl
@[simp] theorem publishHoldup_nextLot (s : State) : (publishHoldup s).nextLot = s.nextLot := rfl
@[simp] theorem publishHoldup_pipes (s : State) : (publishHoldup s).pipes = s.pipes := rfl
@[simp] theorem publishHoldup_queries (s : State) : (publishHoldup s).queries = s.queries := rfl
@[simp] theorem publishHoldup_slots (s : State) : (publishHoldup s).slots = s.slots := rfl
@[simp] theorem publishHoldup_waitq (s : State) : (publishHoldup s).waitq = s.waitq := rfl
@[simp] theorem publishHoldup_opens (s : State) : (publishHoldup s).opens = s.opens := rfl
@[simp] theorem publishHoldup_porters (s : State) : (publishHoldup s).porters = s.porters := rfl
@[simp] theorem publishHoldup_units (s : State) : (publishHoldup s).units = s.units := rfl
@[simp] theorem publishHoldup_nextCall (s : State) : (publishHoldup s).nextCall = s.nextCall := rfl
@[simp] theorem publishHoldup_offReports (s : State) : (publishHoldup s).offReports = s.offReports := rfl
@[simp] theorem publishHoldup_ram (s : State) : (publishHoldup s).ram = s.ram := rfl
@[simp] theorem publishHoldup_dataOut (s : State) : (publishHoldup s).dataOut = s.dataOut := rfl

@[simp] theorem evalWarn_pending (s : State) : (evalWarn s).pending = s.pending := rfl
@[simp] theorem evalWarn_now (s : State) : (evalWarn s).now = s.now := rfl
@[simp] theorem evalWarn_fresh (s : State) : (evalWarn s).fresh = s.fresh := rfl
@[simp] theorem evalWarn_pwr (s : State) : (evalWarn s).pwr = s.pwr := rfl
@[simp] theorem evalWarn_therm (s : State) : (evalWarn s).therm = s.therm := rfl
@[simp] theorem evalWarn_hu (s : State) : (evalWarn s).hu = s.hu := rfl
@[simp] theorem evalWarn_bcn (s : State) : (evalWarn s).bcn = s.bcn := rfl
@[simp] theorem evalWarn_bus (s : State) : (evalWarn s).bus = s.bus := rfl
@[simp] theorem evalWarn_keeper (s : State) : (evalWarn s).keeper = s.keeper := rfl
@[simp] theorem evalWarn_acc (s : State) : (evalWarn s).acc = s.acc := rfl
@[simp] theorem evalWarn_ev (s : State) : (evalWarn s).ev = s.ev := rfl
@[simp] theorem evalWarn_hb (s : State) : (evalWarn s).hb = s.hb := rfl
@[simp] theorem evalWarn_nv (s : State) : (evalWarn s).nv = s.nv := rfl
@[simp] theorem evalWarn_ns (s : State) : (evalWarn s).ns = s.ns := rfl
@[simp] theorem evalWarn_med (s : State) : (evalWarn s).med = s.med := rfl
@[simp] theorem evalWarn_stalls (s : State) : (evalWarn s).stalls = s.stalls := rfl
@[simp] theorem evalWarn_lots (s : State) : (evalWarn s).lots = s.lots := rfl
@[simp] theorem evalWarn_nextLot (s : State) : (evalWarn s).nextLot = s.nextLot := rfl
@[simp] theorem evalWarn_pipes (s : State) : (evalWarn s).pipes = s.pipes := rfl
@[simp] theorem evalWarn_queries (s : State) : (evalWarn s).queries = s.queries := rfl
@[simp] theorem evalWarn_slots (s : State) : (evalWarn s).slots = s.slots := rfl
@[simp] theorem evalWarn_waitq (s : State) : (evalWarn s).waitq = s.waitq := rfl
@[simp] theorem evalWarn_opens (s : State) : (evalWarn s).opens = s.opens := rfl
@[simp] theorem evalWarn_porters (s : State) : (evalWarn s).porters = s.porters := rfl
@[simp] theorem evalWarn_units (s : State) : (evalWarn s).units = s.units := rfl
@[simp] theorem evalWarn_nextCall (s : State) : (evalWarn s).nextCall = s.nextCall := rfl
@[simp] theorem evalWarn_offReports (s : State) : (evalWarn s).offReports = s.offReports := rfl
@[simp] theorem evalWarn_ram (s : State) : (evalWarn s).ram = s.ram := rfl
@[simp] theorem evalWarn_dataOut (s : State) : (evalWarn s).dataOut = s.dataOut := rfl

@[simp] theorem lifeRecalc_pending (s : State) : (lifeRecalc s).pending = s.pending := rfl
@[simp] theorem lifeRecalc_now (s : State) : (lifeRecalc s).now = s.now := rfl
@[simp] theorem lifeRecalc_fresh (s : State) : (lifeRecalc s).fresh = s.fresh := rfl
@[simp] theorem lifeRecalc_pwr (s : State) : (lifeRecalc s).pwr = s.pwr := rfl
@[simp] theorem lifeRecalc_therm (s : State) : (lifeRecalc s).therm = s.therm := rfl
@[simp] theorem lifeRecalc_hu (s : State) : (lifeRecalc s).hu = s.hu := rfl
@[simp] theorem lifeRecalc_bcn (s : State) : (lifeRecalc s).bcn = s.bcn := rfl
@[simp] theorem lifeRecalc_bus (s : State) : (lifeRecalc s).bus = s.bus := rfl
@[simp] theorem lifeRecalc_keeper (s : State) : (lifeRecalc s).keeper = s.keeper := rfl
@[simp] theorem lifeRecalc_acc (s : State) : (lifeRecalc s).acc = s.acc := rfl
@[simp] theorem lifeRecalc_ev (s : State) : (lifeRecalc s).ev = s.ev := rfl
@[simp] theorem lifeRecalc_hb (s : State) : (lifeRecalc s).hb = s.hb := rfl
@[simp] theorem lifeRecalc_nv (s : State) : (lifeRecalc s).nv = s.nv := rfl
@[simp] theorem lifeRecalc_ns (s : State) : (lifeRecalc s).ns = s.ns := rfl
@[simp] theorem lifeRecalc_med (s : State) : (lifeRecalc s).med = s.med := rfl
@[simp] theorem lifeRecalc_stalls (s : State) : (lifeRecalc s).stalls = s.stalls := rfl
@[simp] theorem lifeRecalc_lots (s : State) : (lifeRecalc s).lots = s.lots := rfl
@[simp] theorem lifeRecalc_nextLot (s : State) : (lifeRecalc s).nextLot = s.nextLot := rfl
@[simp] theorem lifeRecalc_pipes (s : State) : (lifeRecalc s).pipes = s.pipes := rfl
@[simp] theorem lifeRecalc_queries (s : State) : (lifeRecalc s).queries = s.queries := rfl
@[simp] theorem lifeRecalc_slots (s : State) : (lifeRecalc s).slots = s.slots := rfl
@[simp] theorem lifeRecalc_waitq (s : State) : (lifeRecalc s).waitq = s.waitq := rfl
@[simp] theorem lifeRecalc_opens (s : State) : (lifeRecalc s).opens = s.opens := rfl
@[simp] theorem lifeRecalc_porters (s : State) : (lifeRecalc s).porters = s.porters := rfl
@[simp] theorem lifeRecalc_units (s : State) : (lifeRecalc s).units = s.units := rfl
@[simp] theorem lifeRecalc_nextCall (s : State) : (lifeRecalc s).nextCall = s.nextCall := rfl
@[simp] theorem lifeRecalc_offReports (s : State) : (lifeRecalc s).offReports = s.offReports := rfl
@[simp] theorem lifeRecalc_ram (s : State) : (lifeRecalc s).ram = s.ram := rfl
@[simp] theorem lifeRecalc_dataOut (s : State) : (lifeRecalc s).dataOut = s.dataOut := rfl

@[simp] theorem sendEvents_pending (s : State) : (sendEvents s).pending = s.pending := rfl
@[simp] theorem sendEvents_now (s : State) : (sendEvents s).now = s.now := rfl
@[simp] theorem sendEvents_fresh (s : State) : (sendEvents s).fresh = s.fresh := rfl
@[simp] theorem sendEvents_pwr (s : State) : (sendEvents s).pwr = s.pwr := rfl
@[simp] theorem sendEvents_therm (s : State) : (sendEvents s).therm = s.therm := rfl
@[simp] theorem sendEvents_hu (s : State) : (sendEvents s).hu = s.hu := rfl
@[simp] theorem sendEvents_health (s : State) : (sendEvents s).health = s.health := rfl
@[simp] theorem sendEvents_bcn (s : State) : (sendEvents s).bcn = s.bcn := rfl
@[simp] theorem sendEvents_bus (s : State) : (sendEvents s).bus = s.bus := rfl
@[simp] theorem sendEvents_keeper (s : State) : (sendEvents s).keeper = s.keeper := rfl
@[simp] theorem sendEvents_acc (s : State) : (sendEvents s).acc = s.acc := rfl
@[simp] theorem sendEvents_hb (s : State) : (sendEvents s).hb = s.hb := rfl
@[simp] theorem sendEvents_nv (s : State) : (sendEvents s).nv = s.nv := rfl
@[simp] theorem sendEvents_ns (s : State) : (sendEvents s).ns = s.ns := rfl
@[simp] theorem sendEvents_med (s : State) : (sendEvents s).med = s.med := rfl
@[simp] theorem sendEvents_stalls (s : State) : (sendEvents s).stalls = s.stalls := rfl
@[simp] theorem sendEvents_lots (s : State) : (sendEvents s).lots = s.lots := rfl
@[simp] theorem sendEvents_nextLot (s : State) : (sendEvents s).nextLot = s.nextLot := rfl
@[simp] theorem sendEvents_pipes (s : State) : (sendEvents s).pipes = s.pipes := rfl
@[simp] theorem sendEvents_queries (s : State) : (sendEvents s).queries = s.queries := rfl
@[simp] theorem sendEvents_slots (s : State) : (sendEvents s).slots = s.slots := rfl
@[simp] theorem sendEvents_waitq (s : State) : (sendEvents s).waitq = s.waitq := rfl
@[simp] theorem sendEvents_opens (s : State) : (sendEvents s).opens = s.opens := rfl
@[simp] theorem sendEvents_porters (s : State) : (sendEvents s).porters = s.porters := rfl
@[simp] theorem sendEvents_units (s : State) : (sendEvents s).units = s.units := rfl
@[simp] theorem sendEvents_nextCall (s : State) : (sendEvents s).nextCall = s.nextCall := rfl
@[simp] theorem sendEvents_offReports (s : State) : (sendEvents s).offReports = s.offReports := rfl
@[simp] theorem sendEvents_ram (s : State) : (sendEvents s).ram = s.ram := rfl
@[simp] theorem sendEvents_dataOut (s : State) : (sendEvents s).dataOut = s.dataOut := rfl

/-! The journal, events and faults. -/

@[simp] theorem journal_pending (s : State) (k o c d : Nat) : (journal k o c d s).pending = s.pending := by unfold journal; dsimp only; (repeat' split) <;> rfl
@[simp] theorem journal_now (s : State) (k o c d : Nat) : (journal k o c d s).now = s.now := by unfold journal; dsimp only; (repeat' split) <;> rfl
@[simp] theorem journal_fresh (s : State) (k o c d : Nat) : (journal k o c d s).fresh = s.fresh := by unfold journal; dsimp only; (repeat' split) <;> rfl
@[simp] theorem journal_pwr (s : State) (k o c d : Nat) : (journal k o c d s).pwr = s.pwr := by unfold journal; dsimp only; (repeat' split) <;> rfl
@[simp] theorem journal_therm (s : State) (k o c d : Nat) : (journal k o c d s).therm = s.therm := by unfold journal; dsimp only; (repeat' split) <;> rfl
@[simp] theorem journal_hu (s : State) (k o c d : Nat) : (journal k o c d s).hu = s.hu := by unfold journal; dsimp only; (repeat' split) <;> rfl
@[simp] theorem journal_health (s : State) (k o c d : Nat) : (journal k o c d s).health = s.health := by unfold journal; dsimp only; (repeat' split) <;> rfl
@[simp] theorem journal_bcn (s : State) (k o c d : Nat) : (journal k o c d s).bcn = s.bcn := by unfold journal; dsimp only; (repeat' split) <;> rfl
@[simp] theorem journal_bus (s : State) (k o c d : Nat) : (journal k o c d s).bus = s.bus := by unfold journal; dsimp only; (repeat' split) <;> rfl
@[simp] theorem journal_keeper (s : State) (k o c d : Nat) : (journal k o c d s).keeper = s.keeper := by unfold journal; dsimp only; (repeat' split) <;> rfl
@[simp] theorem journal_acc (s : State) (k o c d : Nat) : (journal k o c d s).acc = s.acc := by unfold journal; dsimp only; (repeat' split) <;> rfl
@[simp] theorem journal_hb (s : State) (k o c d : Nat) : (journal k o c d s).hb = s.hb := by unfold journal; dsimp only; (repeat' split) <;> rfl
@[simp] theorem journal_nv (s : State) (k o c d : Nat) : (journal k o c d s).nv = s.nv := by unfold journal; dsimp only; (repeat' split) <;> rfl
@[simp] theorem journal_ns (s : State) (k o c d : Nat) : (journal k o c d s).ns = s.ns := by unfold journal; dsimp only; (repeat' split) <;> rfl
@[simp] theorem journal_med (s : State) (k o c d : Nat) : (journal k o c d s).med = s.med := by unfold journal; dsimp only; (repeat' split) <;> rfl
@[simp] theorem journal_stalls (s : State) (k o c d : Nat) : (journal k o c d s).stalls = s.stalls := by unfold journal; dsimp only; (repeat' split) <;> rfl
@[simp] theorem journal_lots (s : State) (k o c d : Nat) : (journal k o c d s).lots = s.lots := by unfold journal; dsimp only; (repeat' split) <;> rfl
@[simp] theorem journal_nextLot (s : State) (k o c d : Nat) : (journal k o c d s).nextLot = s.nextLot := by unfold journal; dsimp only; (repeat' split) <;> rfl
@[simp] theorem journal_pipes (s : State) (k o c d : Nat) : (journal k o c d s).pipes = s.pipes := by unfold journal; dsimp only; (repeat' split) <;> rfl
@[simp] theorem journal_queries (s : State) (k o c d : Nat) : (journal k o c d s).queries = s.queries := by unfold journal; dsimp only; (repeat' split) <;> rfl
@[simp] theorem journal_slots (s : State) (k o c d : Nat) : (journal k o c d s).slots = s.slots := by unfold journal; dsimp only; (repeat' split) <;> rfl
@[simp] theorem journal_waitq (s : State) (k o c d : Nat) : (journal k o c d s).waitq = s.waitq := by unfold journal; dsimp only; (repeat' split) <;> rfl
@[simp] theorem journal_opens (s : State) (k o c d : Nat) : (journal k o c d s).opens = s.opens := by unfold journal; dsimp only; (repeat' split) <;> rfl
@[simp] theorem journal_porters (s : State) (k o c d : Nat) : (journal k o c d s).porters = s.porters := by unfold journal; dsimp only; (repeat' split) <;> rfl
@[simp] theorem journal_units (s : State) (k o c d : Nat) : (journal k o c d s).units = s.units := by unfold journal; dsimp only; (repeat' split) <;> rfl
@[simp] theorem journal_nextCall (s : State) (k o c d : Nat) : (journal k o c d s).nextCall = s.nextCall := by unfold journal; dsimp only; (repeat' split) <;> rfl
@[simp] theorem journal_offReports (s : State) (k o c d : Nat) : (journal k o c d s).offReports = s.offReports := by unfold journal; dsimp only; (repeat' split) <;> rfl
@[simp] theorem journal_ram (s : State) (k o c d : Nat) : (journal k o c d s).ram = s.ram := by unfold journal; dsimp only; (repeat' split) <;> rfl
@[simp] theorem journal_dataOut (s : State) (k o c d : Nat) : (journal k o c d s).dataOut = s.dataOut := by unfold journal; dsimp only; (repeat' split) <;> rfl

@[simp] theorem raisePulse_pending (s : State) (a b c : Nat) : (raisePulse a b c s).pending = s.pending := by unfold raisePulse; dsimp only; (repeat' split) <;> simp
@[simp] theorem raisePulse_now (s : State) (a b c : Nat) : (raisePulse a b c s).now = s.now := by unfold raisePulse; dsimp only; (repeat' split) <;> simp
@[simp] theorem raisePulse_fresh (s : State) (a b c : Nat) : (raisePulse a b c s).fresh = s.fresh := by unfold raisePulse; dsimp only; (repeat' split) <;> simp
@[simp] theorem raisePulse_pwr (s : State) (a b c : Nat) : (raisePulse a b c s).pwr = s.pwr := by unfold raisePulse; dsimp only; (repeat' split) <;> simp
@[simp] theorem raisePulse_therm (s : State) (a b c : Nat) : (raisePulse a b c s).therm = s.therm := by unfold raisePulse; dsimp only; (repeat' split) <;> simp
@[simp] theorem raisePulse_hu (s : State) (a b c : Nat) : (raisePulse a b c s).hu = s.hu := by unfold raisePulse; dsimp only; (repeat' split) <;> simp
@[simp] theorem raisePulse_health (s : State) (a b c : Nat) : (raisePulse a b c s).health = s.health := by unfold raisePulse; dsimp only; (repeat' split) <;> simp
@[simp] theorem raisePulse_bcn (s : State) (a b c : Nat) : (raisePulse a b c s).bcn = s.bcn := by unfold raisePulse; dsimp only; (repeat' split) <;> simp
@[simp] theorem raisePulse_bus (s : State) (a b c : Nat) : (raisePulse a b c s).bus = s.bus := by unfold raisePulse; dsimp only; (repeat' split) <;> simp
@[simp] theorem raisePulse_keeper (s : State) (a b c : Nat) : (raisePulse a b c s).keeper = s.keeper := by unfold raisePulse; dsimp only; (repeat' split) <;> simp
@[simp] theorem raisePulse_acc (s : State) (a b c : Nat) : (raisePulse a b c s).acc = s.acc := by unfold raisePulse; dsimp only; (repeat' split) <;> simp
@[simp] theorem raisePulse_hb (s : State) (a b c : Nat) : (raisePulse a b c s).hb = s.hb := by unfold raisePulse; dsimp only; (repeat' split) <;> simp
@[simp] theorem raisePulse_nv (s : State) (a b c : Nat) : (raisePulse a b c s).nv = s.nv := by unfold raisePulse; dsimp only; (repeat' split) <;> simp
@[simp] theorem raisePulse_ns (s : State) (a b c : Nat) : (raisePulse a b c s).ns = s.ns := by unfold raisePulse; dsimp only; (repeat' split) <;> simp
@[simp] theorem raisePulse_med (s : State) (a b c : Nat) : (raisePulse a b c s).med = s.med := by unfold raisePulse; dsimp only; (repeat' split) <;> simp
@[simp] theorem raisePulse_stalls (s : State) (a b c : Nat) : (raisePulse a b c s).stalls = s.stalls := by unfold raisePulse; dsimp only; (repeat' split) <;> simp
@[simp] theorem raisePulse_lots (s : State) (a b c : Nat) : (raisePulse a b c s).lots = s.lots := by unfold raisePulse; dsimp only; (repeat' split) <;> simp
@[simp] theorem raisePulse_nextLot (s : State) (a b c : Nat) : (raisePulse a b c s).nextLot = s.nextLot := by unfold raisePulse; dsimp only; (repeat' split) <;> simp
@[simp] theorem raisePulse_pipes (s : State) (a b c : Nat) : (raisePulse a b c s).pipes = s.pipes := by unfold raisePulse; dsimp only; (repeat' split) <;> simp
@[simp] theorem raisePulse_queries (s : State) (a b c : Nat) : (raisePulse a b c s).queries = s.queries := by unfold raisePulse; dsimp only; (repeat' split) <;> simp
@[simp] theorem raisePulse_slots (s : State) (a b c : Nat) : (raisePulse a b c s).slots = s.slots := by unfold raisePulse; dsimp only; (repeat' split) <;> simp
@[simp] theorem raisePulse_waitq (s : State) (a b c : Nat) : (raisePulse a b c s).waitq = s.waitq := by unfold raisePulse; dsimp only; (repeat' split) <;> simp
@[simp] theorem raisePulse_opens (s : State) (a b c : Nat) : (raisePulse a b c s).opens = s.opens := by unfold raisePulse; dsimp only; (repeat' split) <;> simp
@[simp] theorem raisePulse_porters (s : State) (a b c : Nat) : (raisePulse a b c s).porters = s.porters := by unfold raisePulse; dsimp only; (repeat' split) <;> simp
@[simp] theorem raisePulse_units (s : State) (a b c : Nat) : (raisePulse a b c s).units = s.units := by unfold raisePulse; dsimp only; (repeat' split) <;> simp
@[simp] theorem raisePulse_nextCall (s : State) (a b c : Nat) : (raisePulse a b c s).nextCall = s.nextCall := by unfold raisePulse; dsimp only; (repeat' split) <;> simp
@[simp] theorem raisePulse_offReports (s : State) (a b c : Nat) : (raisePulse a b c s).offReports = s.offReports := by unfold raisePulse; dsimp only; (repeat' split) <;> simp
@[simp] theorem raisePulse_ram (s : State) (a b c : Nat) : (raisePulse a b c s).ram = s.ram := by unfold raisePulse; dsimp only; (repeat' split) <;> simp
@[simp] theorem raisePulse_dataOut (s : State) (a b c : Nat) : (raisePulse a b c s).dataOut = s.dataOut := by unfold raisePulse; dsimp only; (repeat' split) <;> simp

@[simp] theorem setFrame_pending (s : State) (f : Nat) (v : W32) : (s.setFrame f v).pending = s.pending := by unfold State.setFrame; dsimp only; (repeat' split) <;> rfl
@[simp] theorem setFrame_now (s : State) (f : Nat) (v : W32) : (s.setFrame f v).now = s.now := by unfold State.setFrame; dsimp only; (repeat' split) <;> rfl
@[simp] theorem setFrame_fresh (s : State) (f : Nat) (v : W32) : (s.setFrame f v).fresh = s.fresh := by unfold State.setFrame; dsimp only; (repeat' split) <;> rfl
@[simp] theorem setFrame_pwr (s : State) (f : Nat) (v : W32) : (s.setFrame f v).pwr = s.pwr := by unfold State.setFrame; dsimp only; (repeat' split) <;> rfl
@[simp] theorem setFrame_therm (s : State) (f : Nat) (v : W32) : (s.setFrame f v).therm = s.therm := by unfold State.setFrame; dsimp only; (repeat' split) <;> rfl
@[simp] theorem setFrame_hu (s : State) (f : Nat) (v : W32) : (s.setFrame f v).hu = s.hu := by unfold State.setFrame; dsimp only; (repeat' split) <;> rfl
@[simp] theorem setFrame_health (s : State) (f : Nat) (v : W32) : (s.setFrame f v).health = s.health := by unfold State.setFrame; dsimp only; (repeat' split) <;> rfl
@[simp] theorem setFrame_keeper (s : State) (f : Nat) (v : W32) : (s.setFrame f v).keeper = s.keeper := by unfold State.setFrame; dsimp only; (repeat' split) <;> rfl
@[simp] theorem setFrame_acc (s : State) (f : Nat) (v : W32) : (s.setFrame f v).acc = s.acc := by unfold State.setFrame; dsimp only; (repeat' split) <;> rfl
@[simp] theorem setFrame_hb (s : State) (f : Nat) (v : W32) : (s.setFrame f v).hb = s.hb := by unfold State.setFrame; dsimp only; (repeat' split) <;> rfl
@[simp] theorem setFrame_nv (s : State) (f : Nat) (v : W32) : (s.setFrame f v).nv = s.nv := by unfold State.setFrame; dsimp only; (repeat' split) <;> rfl
@[simp] theorem setFrame_ns (s : State) (f : Nat) (v : W32) : (s.setFrame f v).ns = s.ns := by unfold State.setFrame; dsimp only; (repeat' split) <;> rfl
@[simp] theorem setFrame_med (s : State) (f : Nat) (v : W32) : (s.setFrame f v).med = s.med := by unfold State.setFrame; dsimp only; (repeat' split) <;> rfl
@[simp] theorem setFrame_stalls (s : State) (f : Nat) (v : W32) : (s.setFrame f v).stalls = s.stalls := by unfold State.setFrame; dsimp only; (repeat' split) <;> rfl
@[simp] theorem setFrame_lots (s : State) (f : Nat) (v : W32) : (s.setFrame f v).lots = s.lots := by unfold State.setFrame; dsimp only; (repeat' split) <;> rfl
@[simp] theorem setFrame_nextLot (s : State) (f : Nat) (v : W32) : (s.setFrame f v).nextLot = s.nextLot := by unfold State.setFrame; dsimp only; (repeat' split) <;> rfl
@[simp] theorem setFrame_pipes (s : State) (f : Nat) (v : W32) : (s.setFrame f v).pipes = s.pipes := by unfold State.setFrame; dsimp only; (repeat' split) <;> rfl
@[simp] theorem setFrame_queries (s : State) (f : Nat) (v : W32) : (s.setFrame f v).queries = s.queries := by unfold State.setFrame; dsimp only; (repeat' split) <;> rfl
@[simp] theorem setFrame_slots (s : State) (f : Nat) (v : W32) : (s.setFrame f v).slots = s.slots := by unfold State.setFrame; dsimp only; (repeat' split) <;> rfl
@[simp] theorem setFrame_waitq (s : State) (f : Nat) (v : W32) : (s.setFrame f v).waitq = s.waitq := by unfold State.setFrame; dsimp only; (repeat' split) <;> rfl
@[simp] theorem setFrame_opens (s : State) (f : Nat) (v : W32) : (s.setFrame f v).opens = s.opens := by unfold State.setFrame; dsimp only; (repeat' split) <;> rfl
@[simp] theorem setFrame_porters (s : State) (f : Nat) (v : W32) : (s.setFrame f v).porters = s.porters := by unfold State.setFrame; dsimp only; (repeat' split) <;> rfl
@[simp] theorem setFrame_units (s : State) (f : Nat) (v : W32) : (s.setFrame f v).units = s.units := by unfold State.setFrame; dsimp only; (repeat' split) <;> rfl
@[simp] theorem setFrame_nextCall (s : State) (f : Nat) (v : W32) : (s.setFrame f v).nextCall = s.nextCall := by unfold State.setFrame; dsimp only; (repeat' split) <;> rfl
@[simp] theorem setFrame_offReports (s : State) (f : Nat) (v : W32) : (s.setFrame f v).offReports = s.offReports := by unfold State.setFrame; dsimp only; (repeat' split) <;> rfl
@[simp] theorem setFrame_ram (s : State) (f : Nat) (v : W32) : (s.setFrame f v).ram = s.ram := by unfold State.setFrame; dsimp only; (repeat' split) <;> rfl
@[simp] theorem setFrame_dataOut (s : State) (f : Nat) (v : W32) : (s.setFrame f v).dataOut = s.dataOut := by unfold State.setFrame; dsimp only; (repeat' split) <;> rfl

@[simp] theorem raiseFaultKind_pending (s : State) (k f b : Nat) : (raiseFaultKind k f b s).pending = s.pending := by unfold raiseFaultKind; dsimp only; (repeat' split) <;> simp
@[simp] theorem raiseFaultKind_now (s : State) (k f b : Nat) : (raiseFaultKind k f b s).now = s.now := by unfold raiseFaultKind; dsimp only; (repeat' split) <;> simp
@[simp] theorem raiseFaultKind_fresh (s : State) (k f b : Nat) : (raiseFaultKind k f b s).fresh = s.fresh := by unfold raiseFaultKind; dsimp only; (repeat' split) <;> simp
@[simp] theorem raiseFaultKind_pwr (s : State) (k f b : Nat) : (raiseFaultKind k f b s).pwr = s.pwr := by unfold raiseFaultKind; dsimp only; (repeat' split) <;> simp
@[simp] theorem raiseFaultKind_therm (s : State) (k f b : Nat) : (raiseFaultKind k f b s).therm = s.therm := by unfold raiseFaultKind; dsimp only; (repeat' split) <;> simp
@[simp] theorem raiseFaultKind_hu (s : State) (k f b : Nat) : (raiseFaultKind k f b s).hu = s.hu := by unfold raiseFaultKind; dsimp only; (repeat' split) <;> simp
@[simp] theorem raiseFaultKind_health (s : State) (k f b : Nat) : (raiseFaultKind k f b s).health = s.health := by unfold raiseFaultKind; dsimp only; (repeat' split) <;> simp
@[simp] theorem raiseFaultKind_keeper (s : State) (k f b : Nat) : (raiseFaultKind k f b s).keeper = s.keeper := by unfold raiseFaultKind; dsimp only; (repeat' split) <;> simp
@[simp] theorem raiseFaultKind_acc (s : State) (k f b : Nat) : (raiseFaultKind k f b s).acc = s.acc := by unfold raiseFaultKind; dsimp only; (repeat' split) <;> simp
@[simp] theorem raiseFaultKind_hb (s : State) (k f b : Nat) : (raiseFaultKind k f b s).hb = s.hb := by unfold raiseFaultKind; dsimp only; (repeat' split) <;> simp
@[simp] theorem raiseFaultKind_nv (s : State) (k f b : Nat) : (raiseFaultKind k f b s).nv = s.nv := by unfold raiseFaultKind; dsimp only; (repeat' split) <;> simp
@[simp] theorem raiseFaultKind_ns (s : State) (k f b : Nat) : (raiseFaultKind k f b s).ns = s.ns := by unfold raiseFaultKind; dsimp only; (repeat' split) <;> simp
@[simp] theorem raiseFaultKind_med (s : State) (k f b : Nat) : (raiseFaultKind k f b s).med = s.med := by unfold raiseFaultKind; dsimp only; (repeat' split) <;> simp
@[simp] theorem raiseFaultKind_stalls (s : State) (k f b : Nat) : (raiseFaultKind k f b s).stalls = s.stalls := by unfold raiseFaultKind; dsimp only; (repeat' split) <;> simp
@[simp] theorem raiseFaultKind_lots (s : State) (k f b : Nat) : (raiseFaultKind k f b s).lots = s.lots := by unfold raiseFaultKind; dsimp only; (repeat' split) <;> simp
@[simp] theorem raiseFaultKind_nextLot (s : State) (k f b : Nat) : (raiseFaultKind k f b s).nextLot = s.nextLot := by unfold raiseFaultKind; dsimp only; (repeat' split) <;> simp
@[simp] theorem raiseFaultKind_pipes (s : State) (k f b : Nat) : (raiseFaultKind k f b s).pipes = s.pipes := by unfold raiseFaultKind; dsimp only; (repeat' split) <;> simp
@[simp] theorem raiseFaultKind_queries (s : State) (k f b : Nat) : (raiseFaultKind k f b s).queries = s.queries := by unfold raiseFaultKind; dsimp only; (repeat' split) <;> simp
@[simp] theorem raiseFaultKind_slots (s : State) (k f b : Nat) : (raiseFaultKind k f b s).slots = s.slots := by unfold raiseFaultKind; dsimp only; (repeat' split) <;> simp
@[simp] theorem raiseFaultKind_waitq (s : State) (k f b : Nat) : (raiseFaultKind k f b s).waitq = s.waitq := by unfold raiseFaultKind; dsimp only; (repeat' split) <;> simp
@[simp] theorem raiseFaultKind_opens (s : State) (k f b : Nat) : (raiseFaultKind k f b s).opens = s.opens := by unfold raiseFaultKind; dsimp only; (repeat' split) <;> simp
@[simp] theorem raiseFaultKind_porters (s : State) (k f b : Nat) : (raiseFaultKind k f b s).porters = s.porters := by unfold raiseFaultKind; dsimp only; (repeat' split) <;> simp
@[simp] theorem raiseFaultKind_units (s : State) (k f b : Nat) : (raiseFaultKind k f b s).units = s.units := by unfold raiseFaultKind; dsimp only; (repeat' split) <;> simp
@[simp] theorem raiseFaultKind_nextCall (s : State) (k f b : Nat) : (raiseFaultKind k f b s).nextCall = s.nextCall := by unfold raiseFaultKind; dsimp only; (repeat' split) <;> simp
@[simp] theorem raiseFaultKind_offReports (s : State) (k f b : Nat) : (raiseFaultKind k f b s).offReports = s.offReports := by unfold raiseFaultKind; dsimp only; (repeat' split) <;> simp
@[simp] theorem raiseFaultKind_ram (s : State) (k f b : Nat) : (raiseFaultKind k f b s).ram = s.ram := by unfold raiseFaultKind; dsimp only; (repeat' split) <;> simp
@[simp] theorem raiseFaultKind_dataOut (s : State) (k f b : Nat) : (raiseFaultKind k f b s).dataOut = s.dataOut := by unfold raiseFaultKind; dsimp only; (repeat' split) <;> simp

@[simp] theorem raiseFault_pending (s : State) (f b : Nat) : (raiseFault f b s).pending = s.pending := by unfold raiseFault; simp
@[simp] theorem raiseFault_now (s : State) (f b : Nat) : (raiseFault f b s).now = s.now := by unfold raiseFault; simp
@[simp] theorem raiseFault_fresh (s : State) (f b : Nat) : (raiseFault f b s).fresh = s.fresh := by unfold raiseFault; simp
@[simp] theorem raiseFault_pwr (s : State) (f b : Nat) : (raiseFault f b s).pwr = s.pwr := by unfold raiseFault; simp
@[simp] theorem raiseFault_therm (s : State) (f b : Nat) : (raiseFault f b s).therm = s.therm := by unfold raiseFault; simp
@[simp] theorem raiseFault_hu (s : State) (f b : Nat) : (raiseFault f b s).hu = s.hu := by unfold raiseFault; simp
@[simp] theorem raiseFault_health (s : State) (f b : Nat) : (raiseFault f b s).health = s.health := by unfold raiseFault; simp
@[simp] theorem raiseFault_keeper (s : State) (f b : Nat) : (raiseFault f b s).keeper = s.keeper := by unfold raiseFault; simp
@[simp] theorem raiseFault_acc (s : State) (f b : Nat) : (raiseFault f b s).acc = s.acc := by unfold raiseFault; simp
@[simp] theorem raiseFault_hb (s : State) (f b : Nat) : (raiseFault f b s).hb = s.hb := by unfold raiseFault; simp
@[simp] theorem raiseFault_nv (s : State) (f b : Nat) : (raiseFault f b s).nv = s.nv := by unfold raiseFault; simp
@[simp] theorem raiseFault_ns (s : State) (f b : Nat) : (raiseFault f b s).ns = s.ns := by unfold raiseFault; simp
@[simp] theorem raiseFault_med (s : State) (f b : Nat) : (raiseFault f b s).med = s.med := by unfold raiseFault; simp
@[simp] theorem raiseFault_stalls (s : State) (f b : Nat) : (raiseFault f b s).stalls = s.stalls := by unfold raiseFault; simp
@[simp] theorem raiseFault_lots (s : State) (f b : Nat) : (raiseFault f b s).lots = s.lots := by unfold raiseFault; simp
@[simp] theorem raiseFault_nextLot (s : State) (f b : Nat) : (raiseFault f b s).nextLot = s.nextLot := by unfold raiseFault; simp
@[simp] theorem raiseFault_pipes (s : State) (f b : Nat) : (raiseFault f b s).pipes = s.pipes := by unfold raiseFault; simp
@[simp] theorem raiseFault_queries (s : State) (f b : Nat) : (raiseFault f b s).queries = s.queries := by unfold raiseFault; simp
@[simp] theorem raiseFault_slots (s : State) (f b : Nat) : (raiseFault f b s).slots = s.slots := by unfold raiseFault; simp
@[simp] theorem raiseFault_waitq (s : State) (f b : Nat) : (raiseFault f b s).waitq = s.waitq := by unfold raiseFault; simp
@[simp] theorem raiseFault_opens (s : State) (f b : Nat) : (raiseFault f b s).opens = s.opens := by unfold raiseFault; simp
@[simp] theorem raiseFault_porters (s : State) (f b : Nat) : (raiseFault f b s).porters = s.porters := by unfold raiseFault; simp
@[simp] theorem raiseFault_units (s : State) (f b : Nat) : (raiseFault f b s).units = s.units := by unfold raiseFault; simp
@[simp] theorem raiseFault_nextCall (s : State) (f b : Nat) : (raiseFault f b s).nextCall = s.nextCall := by unfold raiseFault; simp
@[simp] theorem raiseFault_offReports (s : State) (f b : Nat) : (raiseFault f b s).offReports = s.offReports := by unfold raiseFault; simp
@[simp] theorem raiseFault_ram (s : State) (f b : Nat) : (raiseFault f b s).ram = s.ram := by unfold raiseFault; simp
@[simp] theorem raiseFault_dataOut (s : State) (f b : Nat) : (raiseFault f b s).dataOut = s.dataOut := by unfold raiseFault; simp

@[simp] theorem mediaEvent_pending (s : State) (c d : Nat) : (mediaEvent c d s).pending = s.pending := by unfold mediaEvent; simp
@[simp] theorem mediaEvent_now (s : State) (c d : Nat) : (mediaEvent c d s).now = s.now := by unfold mediaEvent; simp
@[simp] theorem mediaEvent_fresh (s : State) (c d : Nat) : (mediaEvent c d s).fresh = s.fresh := by unfold mediaEvent; simp
@[simp] theorem mediaEvent_pwr (s : State) (c d : Nat) : (mediaEvent c d s).pwr = s.pwr := by unfold mediaEvent; simp
@[simp] theorem mediaEvent_therm (s : State) (c d : Nat) : (mediaEvent c d s).therm = s.therm := by unfold mediaEvent; simp
@[simp] theorem mediaEvent_hu (s : State) (c d : Nat) : (mediaEvent c d s).hu = s.hu := by unfold mediaEvent; simp
@[simp] theorem mediaEvent_health (s : State) (c d : Nat) : (mediaEvent c d s).health = s.health := by unfold mediaEvent; simp
@[simp] theorem mediaEvent_bcn (s : State) (c d : Nat) : (mediaEvent c d s).bcn = s.bcn := by unfold mediaEvent; simp
@[simp] theorem mediaEvent_bus (s : State) (c d : Nat) : (mediaEvent c d s).bus = s.bus := by unfold mediaEvent; simp
@[simp] theorem mediaEvent_keeper (s : State) (c d : Nat) : (mediaEvent c d s).keeper = s.keeper := by unfold mediaEvent; simp
@[simp] theorem mediaEvent_acc (s : State) (c d : Nat) : (mediaEvent c d s).acc = s.acc := by unfold mediaEvent; simp
@[simp] theorem mediaEvent_hb (s : State) (c d : Nat) : (mediaEvent c d s).hb = s.hb := by unfold mediaEvent; simp
@[simp] theorem mediaEvent_nv (s : State) (c d : Nat) : (mediaEvent c d s).nv = s.nv := by unfold mediaEvent; simp
@[simp] theorem mediaEvent_ns (s : State) (c d : Nat) : (mediaEvent c d s).ns = s.ns := by unfold mediaEvent; simp
@[simp] theorem mediaEvent_med (s : State) (c d : Nat) : (mediaEvent c d s).med = s.med := by unfold mediaEvent; simp
@[simp] theorem mediaEvent_stalls (s : State) (c d : Nat) : (mediaEvent c d s).stalls = s.stalls := by unfold mediaEvent; simp
@[simp] theorem mediaEvent_lots (s : State) (c d : Nat) : (mediaEvent c d s).lots = s.lots := by unfold mediaEvent; simp
@[simp] theorem mediaEvent_nextLot (s : State) (c d : Nat) : (mediaEvent c d s).nextLot = s.nextLot := by unfold mediaEvent; simp
@[simp] theorem mediaEvent_pipes (s : State) (c d : Nat) : (mediaEvent c d s).pipes = s.pipes := by unfold mediaEvent; simp
@[simp] theorem mediaEvent_queries (s : State) (c d : Nat) : (mediaEvent c d s).queries = s.queries := by unfold mediaEvent; simp
@[simp] theorem mediaEvent_slots (s : State) (c d : Nat) : (mediaEvent c d s).slots = s.slots := by unfold mediaEvent; simp
@[simp] theorem mediaEvent_waitq (s : State) (c d : Nat) : (mediaEvent c d s).waitq = s.waitq := by unfold mediaEvent; simp
@[simp] theorem mediaEvent_opens (s : State) (c d : Nat) : (mediaEvent c d s).opens = s.opens := by unfold mediaEvent; simp
@[simp] theorem mediaEvent_porters (s : State) (c d : Nat) : (mediaEvent c d s).porters = s.porters := by unfold mediaEvent; simp
@[simp] theorem mediaEvent_units (s : State) (c d : Nat) : (mediaEvent c d s).units = s.units := by unfold mediaEvent; simp
@[simp] theorem mediaEvent_nextCall (s : State) (c d : Nat) : (mediaEvent c d s).nextCall = s.nextCall := by unfold mediaEvent; simp
@[simp] theorem mediaEvent_offReports (s : State) (c d : Nat) : (mediaEvent c d s).offReports = s.offReports := by unfold mediaEvent; simp
@[simp] theorem mediaEvent_ram (s : State) (c d : Nat) : (mediaEvent c d s).ram = s.ram := by unfold mediaEvent; simp
@[simp] theorem mediaEvent_dataOut (s : State) (c d : Nat) : (mediaEvent c d s).dataOut = s.dataOut := by unfold mediaEvent; simp

@[simp] theorem wake_pending (s : State) (k : Nat) : (wake k s).pending = s.pending := by unfold wake; split <;> rfl
@[simp] theorem wake_now (s : State) (k : Nat) : (wake k s).now = s.now := by unfold wake; split <;> rfl
@[simp] theorem wake_fresh (s : State) (k : Nat) : (wake k s).fresh = s.fresh := by unfold wake; split <;> rfl
@[simp] theorem wake_therm (s : State) (k : Nat) : (wake k s).therm = s.therm := by unfold wake; split <;> rfl
@[simp] theorem wake_hu (s : State) (k : Nat) : (wake k s).hu = s.hu := by unfold wake; split <;> rfl
@[simp] theorem wake_health (s : State) (k : Nat) : (wake k s).health = s.health := by unfold wake; split <;> rfl
@[simp] theorem wake_bcn (s : State) (k : Nat) : (wake k s).bcn = s.bcn := by unfold wake; split <;> rfl
@[simp] theorem wake_bus (s : State) (k : Nat) : (wake k s).bus = s.bus := by unfold wake; split <;> rfl
@[simp] theorem wake_keeper (s : State) (k : Nat) : (wake k s).keeper = s.keeper := by unfold wake; split <;> rfl
@[simp] theorem wake_acc (s : State) (k : Nat) : (wake k s).acc = s.acc := by unfold wake; split <;> rfl
@[simp] theorem wake_ev (s : State) (k : Nat) : (wake k s).ev = s.ev := by unfold wake; split <;> rfl
@[simp] theorem wake_hb (s : State) (k : Nat) : (wake k s).hb = s.hb := by unfold wake; split <;> rfl
@[simp] theorem wake_nv (s : State) (k : Nat) : (wake k s).nv = s.nv := by unfold wake; split <;> rfl
@[simp] theorem wake_ns (s : State) (k : Nat) : (wake k s).ns = s.ns := by unfold wake; split <;> rfl
@[simp] theorem wake_med (s : State) (k : Nat) : (wake k s).med = s.med := by unfold wake; split <;> rfl
@[simp] theorem wake_stalls (s : State) (k : Nat) : (wake k s).stalls = s.stalls := by unfold wake; split <;> rfl
@[simp] theorem wake_lots (s : State) (k : Nat) : (wake k s).lots = s.lots := by unfold wake; split <;> rfl
@[simp] theorem wake_nextLot (s : State) (k : Nat) : (wake k s).nextLot = s.nextLot := by unfold wake; split <;> rfl
@[simp] theorem wake_pipes (s : State) (k : Nat) : (wake k s).pipes = s.pipes := by unfold wake; split <;> rfl
@[simp] theorem wake_queries (s : State) (k : Nat) : (wake k s).queries = s.queries := by unfold wake; split <;> rfl
@[simp] theorem wake_slots (s : State) (k : Nat) : (wake k s).slots = s.slots := by unfold wake; split <;> rfl
@[simp] theorem wake_waitq (s : State) (k : Nat) : (wake k s).waitq = s.waitq := by unfold wake; split <;> rfl
@[simp] theorem wake_opens (s : State) (k : Nat) : (wake k s).opens = s.opens := by unfold wake; split <;> rfl
@[simp] theorem wake_porters (s : State) (k : Nat) : (wake k s).porters = s.porters := by unfold wake; split <;> rfl
@[simp] theorem wake_units (s : State) (k : Nat) : (wake k s).units = s.units := by unfold wake; split <;> rfl
@[simp] theorem wake_nextCall (s : State) (k : Nat) : (wake k s).nextCall = s.nextCall := by unfold wake; split <;> rfl
@[simp] theorem wake_offReports (s : State) (k : Nat) : (wake k s).offReports = s.offReports := by unfold wake; split <;> rfl
@[simp] theorem wake_ram (s : State) (k : Nat) : (wake k s).ram = s.ram := by unfold wake; split <;> rfl
@[simp] theorem wake_dataOut (s : State) (k : Nat) : (wake k s).dataOut = s.dataOut := by unfold wake; split <;> rfl

/-! The position: what a count change can change, and that time alone changes nothing else where nothing extrapolates. -/

@[simp] theorem arcPendAll_pending (s : State) (a : Nat) (e : Bool) : (s.arcPendAll a e).pending = s.pending := by unfold State.arcPendAll; dsimp only
@[simp] theorem arcPendAll_now (s : State) (a : Nat) (e : Bool) : (s.arcPendAll a e).now = s.now := by unfold State.arcPendAll; dsimp only
@[simp] theorem arcPendAll_fresh (s : State) (a : Nat) (e : Bool) : (s.arcPendAll a e).fresh = s.fresh := by unfold State.arcPendAll; dsimp only
@[simp] theorem arcPendAll_pwr (s : State) (a : Nat) (e : Bool) : (s.arcPendAll a e).pwr = s.pwr := by unfold State.arcPendAll; dsimp only
@[simp] theorem arcPendAll_therm (s : State) (a : Nat) (e : Bool) : (s.arcPendAll a e).therm = s.therm := by unfold State.arcPendAll; dsimp only
@[simp] theorem arcPendAll_hu (s : State) (a : Nat) (e : Bool) : (s.arcPendAll a e).hu = s.hu := by unfold State.arcPendAll; dsimp only
@[simp] theorem arcPendAll_health (s : State) (a : Nat) (e : Bool) : (s.arcPendAll a e).health = s.health := by unfold State.arcPendAll; dsimp only
@[simp] theorem arcPendAll_bcn (s : State) (a : Nat) (e : Bool) : (s.arcPendAll a e).bcn = s.bcn := by unfold State.arcPendAll; dsimp only
@[simp] theorem arcPendAll_bus (s : State) (a : Nat) (e : Bool) : (s.arcPendAll a e).bus = s.bus := by unfold State.arcPendAll; dsimp only
@[simp] theorem arcPendAll_keeper (s : State) (a : Nat) (e : Bool) : (s.arcPendAll a e).keeper = s.keeper := by unfold State.arcPendAll; dsimp only
@[simp] theorem arcPendAll_acc (s : State) (a : Nat) (e : Bool) : (s.arcPendAll a e).acc = s.acc := by unfold State.arcPendAll; dsimp only
@[simp] theorem arcPendAll_ev (s : State) (a : Nat) (e : Bool) : (s.arcPendAll a e).ev = s.ev := by unfold State.arcPendAll; dsimp only
@[simp] theorem arcPendAll_hb (s : State) (a : Nat) (e : Bool) : (s.arcPendAll a e).hb = s.hb := by unfold State.arcPendAll; dsimp only
@[simp] theorem arcPendAll_nv (s : State) (a : Nat) (e : Bool) : (s.arcPendAll a e).nv = s.nv := by unfold State.arcPendAll; dsimp only
@[simp] theorem arcPendAll_ns (s : State) (a : Nat) (e : Bool) : (s.arcPendAll a e).ns = s.ns := by unfold State.arcPendAll; dsimp only
@[simp] theorem arcPendAll_med (s : State) (a : Nat) (e : Bool) : (s.arcPendAll a e).med = s.med := by unfold State.arcPendAll; dsimp only
@[simp] theorem arcPendAll_lots (s : State) (a : Nat) (e : Bool) : (s.arcPendAll a e).lots = s.lots := by unfold State.arcPendAll; dsimp only
@[simp] theorem arcPendAll_nextLot (s : State) (a : Nat) (e : Bool) : (s.arcPendAll a e).nextLot = s.nextLot := by unfold State.arcPendAll; dsimp only
@[simp] theorem arcPendAll_pipes (s : State) (a : Nat) (e : Bool) : (s.arcPendAll a e).pipes = s.pipes := by unfold State.arcPendAll; dsimp only
@[simp] theorem arcPendAll_queries (s : State) (a : Nat) (e : Bool) : (s.arcPendAll a e).queries = s.queries := by unfold State.arcPendAll; dsimp only
@[simp] theorem arcPendAll_slots (s : State) (a : Nat) (e : Bool) : (s.arcPendAll a e).slots = s.slots := by unfold State.arcPendAll; dsimp only
@[simp] theorem arcPendAll_waitq (s : State) (a : Nat) (e : Bool) : (s.arcPendAll a e).waitq = s.waitq := by unfold State.arcPendAll; dsimp only
@[simp] theorem arcPendAll_opens (s : State) (a : Nat) (e : Bool) : (s.arcPendAll a e).opens = s.opens := by unfold State.arcPendAll; dsimp only
@[simp] theorem arcPendAll_porters (s : State) (a : Nat) (e : Bool) : (s.arcPendAll a e).porters = s.porters := by unfold State.arcPendAll; dsimp only
@[simp] theorem arcPendAll_units (s : State) (a : Nat) (e : Bool) : (s.arcPendAll a e).units = s.units := by unfold State.arcPendAll; dsimp only
@[simp] theorem arcPendAll_nextCall (s : State) (a : Nat) (e : Bool) : (s.arcPendAll a e).nextCall = s.nextCall := by unfold State.arcPendAll; dsimp only
@[simp] theorem arcPendAll_offReports (s : State) (a : Nat) (e : Bool) : (s.arcPendAll a e).offReports = s.offReports := by unfold State.arcPendAll; dsimp only
@[simp] theorem arcPendAll_ram (s : State) (a : Nat) (e : Bool) : (s.arcPendAll a e).ram = s.ram := by unfold State.arcPendAll; dsimp only
@[simp] theorem arcPendAll_dataOut (s : State) (a : Nat) (e : Bool) : (s.arcPendAll a e).dataOut = s.dataOut := by unfold State.arcPendAll; dsimp only

@[simp] theorem closeLot_pending (s : State) (n : Nat) : (closeLot n s).pending = s.pending := by unfold closeLot; (repeat' split) <;> rfl
@[simp] theorem closeLot_now (s : State) (n : Nat) : (closeLot n s).now = s.now := by unfold closeLot; (repeat' split) <;> rfl
@[simp] theorem closeLot_fresh (s : State) (n : Nat) : (closeLot n s).fresh = s.fresh := by unfold closeLot; (repeat' split) <;> rfl
@[simp] theorem closeLot_pwr (s : State) (n : Nat) : (closeLot n s).pwr = s.pwr := by unfold closeLot; (repeat' split) <;> rfl
@[simp] theorem closeLot_therm (s : State) (n : Nat) : (closeLot n s).therm = s.therm := by unfold closeLot; (repeat' split) <;> rfl
@[simp] theorem closeLot_hu (s : State) (n : Nat) : (closeLot n s).hu = s.hu := by unfold closeLot; (repeat' split) <;> rfl
@[simp] theorem closeLot_health (s : State) (n : Nat) : (closeLot n s).health = s.health := by unfold closeLot; (repeat' split) <;> rfl
@[simp] theorem closeLot_bcn (s : State) (n : Nat) : (closeLot n s).bcn = s.bcn := by unfold closeLot; (repeat' split) <;> rfl
@[simp] theorem closeLot_bus (s : State) (n : Nat) : (closeLot n s).bus = s.bus := by unfold closeLot; (repeat' split) <;> rfl
@[simp] theorem closeLot_keeper (s : State) (n : Nat) : (closeLot n s).keeper = s.keeper := by unfold closeLot; (repeat' split) <;> rfl
@[simp] theorem closeLot_acc (s : State) (n : Nat) : (closeLot n s).acc = s.acc := by unfold closeLot; (repeat' split) <;> rfl
@[simp] theorem closeLot_ev (s : State) (n : Nat) : (closeLot n s).ev = s.ev := by unfold closeLot; (repeat' split) <;> rfl
@[simp] theorem closeLot_hb (s : State) (n : Nat) : (closeLot n s).hb = s.hb := by unfold closeLot; (repeat' split) <;> rfl
@[simp] theorem closeLot_nv (s : State) (n : Nat) : (closeLot n s).nv = s.nv := by unfold closeLot; (repeat' split) <;> rfl
@[simp] theorem closeLot_med (s : State) (n : Nat) : (closeLot n s).med = s.med := by unfold closeLot; (repeat' split) <;> rfl
@[simp] theorem closeLot_stalls (s : State) (n : Nat) : (closeLot n s).stalls = s.stalls := by unfold closeLot; (repeat' split) <;> rfl
@[simp] theorem closeLot_pipes (s : State) (n : Nat) : (closeLot n s).pipes = s.pipes := by unfold closeLot; (repeat' split) <;> rfl
@[simp] theorem closeLot_queries (s : State) (n : Nat) : (closeLot n s).queries = s.queries := by unfold closeLot; (repeat' split) <;> rfl
@[simp] theorem closeLot_slots (s : State) (n : Nat) : (closeLot n s).slots = s.slots := by unfold closeLot; (repeat' split) <;> rfl
@[simp] theorem closeLot_waitq (s : State) (n : Nat) : (closeLot n s).waitq = s.waitq := by unfold closeLot; (repeat' split) <;> rfl
@[simp] theorem closeLot_porters (s : State) (n : Nat) : (closeLot n s).porters = s.porters := by unfold closeLot; (repeat' split) <;> rfl
@[simp] theorem closeLot_units (s : State) (n : Nat) : (closeLot n s).units = s.units := by unfold closeLot; (repeat' split) <;> rfl
@[simp] theorem closeLot_nextCall (s : State) (n : Nat) : (closeLot n s).nextCall = s.nextCall := by unfold closeLot; (repeat' split) <;> rfl
@[simp] theorem closeLot_offReports (s : State) (n : Nat) : (closeLot n s).offReports = s.offReports := by unfold closeLot; (repeat' split) <;> rfl
@[simp] theorem closeLot_ram (s : State) (n : Nat) : (closeLot n s).ram = s.ram := by unfold closeLot; (repeat' split) <;> rfl
@[simp] theorem closeLot_dataOut (s : State) (n : Nat) : (closeLot n s).dataOut = s.dataOut := by unfold closeLot; (repeat' split) <;> rfl

@[simp] theorem closeLots_pending (s : State) : (closeLots s).pending = s.pending := foldl_keep (fun u : State => u.pending) _ (fun t x => closeLot_pending t x) _ _
@[simp] theorem closeLots_now (s : State) : (closeLots s).now = s.now := foldl_keep (fun u : State => u.now) _ (fun t x => closeLot_now t x) _ _
@[simp] theorem closeLots_fresh (s : State) : (closeLots s).fresh = s.fresh := foldl_keep (fun u : State => u.fresh) _ (fun t x => closeLot_fresh t x) _ _
@[simp] theorem closeLots_pwr (s : State) : (closeLots s).pwr = s.pwr := foldl_keep (fun u : State => u.pwr) _ (fun t x => closeLot_pwr t x) _ _
@[simp] theorem closeLots_therm (s : State) : (closeLots s).therm = s.therm := foldl_keep (fun u : State => u.therm) _ (fun t x => closeLot_therm t x) _ _
@[simp] theorem closeLots_hu (s : State) : (closeLots s).hu = s.hu := foldl_keep (fun u : State => u.hu) _ (fun t x => closeLot_hu t x) _ _
@[simp] theorem closeLots_health (s : State) : (closeLots s).health = s.health := foldl_keep (fun u : State => u.health) _ (fun t x => closeLot_health t x) _ _
@[simp] theorem closeLots_bcn (s : State) : (closeLots s).bcn = s.bcn := foldl_keep (fun u : State => u.bcn) _ (fun t x => closeLot_bcn t x) _ _
@[simp] theorem closeLots_bus (s : State) : (closeLots s).bus = s.bus := foldl_keep (fun u : State => u.bus) _ (fun t x => closeLot_bus t x) _ _
@[simp] theorem closeLots_keeper (s : State) : (closeLots s).keeper = s.keeper := foldl_keep (fun u : State => u.keeper) _ (fun t x => closeLot_keeper t x) _ _
@[simp] theorem closeLots_acc (s : State) : (closeLots s).acc = s.acc := foldl_keep (fun u : State => u.acc) _ (fun t x => closeLot_acc t x) _ _
@[simp] theorem closeLots_ev (s : State) : (closeLots s).ev = s.ev := foldl_keep (fun u : State => u.ev) _ (fun t x => closeLot_ev t x) _ _
@[simp] theorem closeLots_hb (s : State) : (closeLots s).hb = s.hb := foldl_keep (fun u : State => u.hb) _ (fun t x => closeLot_hb t x) _ _
@[simp] theorem closeLots_nv (s : State) : (closeLots s).nv = s.nv := foldl_keep (fun u : State => u.nv) _ (fun t x => closeLot_nv t x) _ _
@[simp] theorem closeLots_med (s : State) : (closeLots s).med = s.med := foldl_keep (fun u : State => u.med) _ (fun t x => closeLot_med t x) _ _
@[simp] theorem closeLots_stalls (s : State) : (closeLots s).stalls = s.stalls := foldl_keep (fun u : State => u.stalls) _ (fun t x => closeLot_stalls t x) _ _
@[simp] theorem closeLots_pipes (s : State) : (closeLots s).pipes = s.pipes := foldl_keep (fun u : State => u.pipes) _ (fun t x => closeLot_pipes t x) _ _
@[simp] theorem closeLots_queries (s : State) : (closeLots s).queries = s.queries := foldl_keep (fun u : State => u.queries) _ (fun t x => closeLot_queries t x) _ _
@[simp] theorem closeLots_slots (s : State) : (closeLots s).slots = s.slots := foldl_keep (fun u : State => u.slots) _ (fun t x => closeLot_slots t x) _ _
@[simp] theorem closeLots_waitq (s : State) : (closeLots s).waitq = s.waitq := foldl_keep (fun u : State => u.waitq) _ (fun t x => closeLot_waitq t x) _ _
@[simp] theorem closeLots_porters (s : State) : (closeLots s).porters = s.porters := foldl_keep (fun u : State => u.porters) _ (fun t x => closeLot_porters t x) _ _
@[simp] theorem closeLots_units (s : State) : (closeLots s).units = s.units := foldl_keep (fun u : State => u.units) _ (fun t x => closeLot_units t x) _ _
@[simp] theorem closeLots_nextCall (s : State) : (closeLots s).nextCall = s.nextCall := foldl_keep (fun u : State => u.nextCall) _ (fun t x => closeLot_nextCall t x) _ _
@[simp] theorem closeLots_offReports (s : State) : (closeLots s).offReports = s.offReports := foldl_keep (fun u : State => u.offReports) _ (fun t x => closeLot_offReports t x) _ _
@[simp] theorem closeLots_ram (s : State) : (closeLots s).ram = s.ram := foldl_keep (fun u : State => u.ram) _ (fun t x => closeLot_ram t x) _ _
@[simp] theorem closeLots_dataOut (s : State) : (closeLots s).dataOut = s.dataOut := foldl_keep (fun u : State => u.dataOut) _ (fun t x => closeLot_dataOut t x) _ _

@[simp] theorem clearDec_pending (s : State) : (clearDec s).pending = s.pending := by unfold clearDec; dsimp only
@[simp] theorem clearDec_now (s : State) : (clearDec s).now = s.now := by unfold clearDec; dsimp only
@[simp] theorem clearDec_fresh (s : State) : (clearDec s).fresh = s.fresh := by unfold clearDec; dsimp only
@[simp] theorem clearDec_pwr (s : State) : (clearDec s).pwr = s.pwr := by unfold clearDec; dsimp only
@[simp] theorem clearDec_therm (s : State) : (clearDec s).therm = s.therm := by unfold clearDec; dsimp only
@[simp] theorem clearDec_hu (s : State) : (clearDec s).hu = s.hu := by unfold clearDec; dsimp only
@[simp] theorem clearDec_health (s : State) : (clearDec s).health = s.health := by unfold clearDec; dsimp only
@[simp] theorem clearDec_bcn (s : State) : (clearDec s).bcn = s.bcn := by unfold clearDec; dsimp only
@[simp] theorem clearDec_bus (s : State) : (clearDec s).bus = s.bus := by unfold clearDec; dsimp only
@[simp] theorem clearDec_keeper (s : State) : (clearDec s).keeper = s.keeper := by unfold clearDec; dsimp only
@[simp] theorem clearDec_acc (s : State) : (clearDec s).acc = s.acc := by unfold clearDec; dsimp only
@[simp] theorem clearDec_ev (s : State) : (clearDec s).ev = s.ev := by unfold clearDec; dsimp only
@[simp] theorem clearDec_hb (s : State) : (clearDec s).hb = s.hb := by unfold clearDec; dsimp only
@[simp] theorem clearDec_nv (s : State) : (clearDec s).nv = s.nv := by unfold clearDec; dsimp only
@[simp] theorem clearDec_ns (s : State) : (clearDec s).ns = s.ns := by unfold clearDec; dsimp only
@[simp] theorem clearDec_med (s : State) : (clearDec s).med = s.med := by unfold clearDec; dsimp only
@[simp] theorem clearDec_stalls (s : State) : (clearDec s).stalls = s.stalls := by unfold clearDec; dsimp only
@[simp] theorem clearDec_lots (s : State) : (clearDec s).lots = s.lots := by unfold clearDec; dsimp only
@[simp] theorem clearDec_nextLot (s : State) : (clearDec s).nextLot = s.nextLot := by unfold clearDec; dsimp only
@[simp] theorem clearDec_queries (s : State) : (clearDec s).queries = s.queries := by unfold clearDec; dsimp only
@[simp] theorem clearDec_slots (s : State) : (clearDec s).slots = s.slots := by unfold clearDec; dsimp only
@[simp] theorem clearDec_waitq (s : State) : (clearDec s).waitq = s.waitq := by unfold clearDec; dsimp only
@[simp] theorem clearDec_opens (s : State) : (clearDec s).opens = s.opens := by unfold clearDec; dsimp only
@[simp] theorem clearDec_porters (s : State) : (clearDec s).porters = s.porters := by unfold clearDec; dsimp only
@[simp] theorem clearDec_units (s : State) : (clearDec s).units = s.units := by unfold clearDec; dsimp only
@[simp] theorem clearDec_nextCall (s : State) : (clearDec s).nextCall = s.nextCall := by unfold clearDec; dsimp only
@[simp] theorem clearDec_offReports (s : State) : (clearDec s).offReports = s.offReports := by unfold clearDec; dsimp only
@[simp] theorem clearDec_ram (s : State) : (clearDec s).ram = s.ram := by unfold clearDec; dsimp only
@[simp] theorem clearDec_dataOut (s : State) : (clearDec s).dataOut = s.dataOut := by unfold clearDec; dsimp only

@[simp] theorem bcnEvent_pending (s : State) (e : BcnEvent) : (bcnEvent s e).pending = s.pending := by cases e <;> simp only [bcnEvent] <;> (repeat' split) <;> simp [pendMark]
@[simp] theorem bcnEvent_now (s : State) (e : BcnEvent) : (bcnEvent s e).now = s.now := by cases e <;> simp only [bcnEvent] <;> (repeat' split) <;> simp [pendMark]
@[simp] theorem bcnEvent_fresh (s : State) (e : BcnEvent) : (bcnEvent s e).fresh = s.fresh := by cases e <;> simp only [bcnEvent] <;> (repeat' split) <;> simp [pendMark]
@[simp] theorem bcnEvent_therm (s : State) (e : BcnEvent) : (bcnEvent s e).therm = s.therm := by cases e <;> simp only [bcnEvent] <;> (repeat' split) <;> simp [pendMark]
@[simp] theorem bcnEvent_hu (s : State) (e : BcnEvent) : (bcnEvent s e).hu = s.hu := by cases e <;> simp only [bcnEvent] <;> (repeat' split) <;> simp [pendMark]
@[simp] theorem bcnEvent_health (s : State) (e : BcnEvent) : (bcnEvent s e).health = s.health := by cases e <;> simp only [bcnEvent] <;> (repeat' split) <;> simp [pendMark]
@[simp] theorem bcnEvent_bcn (s : State) (e : BcnEvent) : (bcnEvent s e).bcn = s.bcn := by cases e <;> simp only [bcnEvent] <;> (repeat' split) <;> simp [pendMark]
@[simp] theorem bcnEvent_bus (s : State) (e : BcnEvent) : (bcnEvent s e).bus = s.bus := by cases e <;> simp only [bcnEvent] <;> (repeat' split) <;> simp [pendMark]
@[simp] theorem bcnEvent_keeper (s : State) (e : BcnEvent) : (bcnEvent s e).keeper = s.keeper := by cases e <;> simp only [bcnEvent] <;> (repeat' split) <;> simp [pendMark]
@[simp] theorem bcnEvent_acc (s : State) (e : BcnEvent) : (bcnEvent s e).acc = s.acc := by cases e <;> simp only [bcnEvent] <;> (repeat' split) <;> simp [pendMark]
@[simp] theorem bcnEvent_hb (s : State) (e : BcnEvent) : (bcnEvent s e).hb = s.hb := by cases e <;> simp only [bcnEvent] <;> (repeat' split) <;> simp [pendMark]
@[simp] theorem bcnEvent_nv (s : State) (e : BcnEvent) : (bcnEvent s e).nv = s.nv := by cases e <;> simp only [bcnEvent] <;> (repeat' split) <;> simp [pendMark]
@[simp] theorem bcnEvent_queries (s : State) (e : BcnEvent) : (bcnEvent s e).queries = s.queries := by cases e <;> simp only [bcnEvent] <;> (repeat' split) <;> simp [pendMark]
@[simp] theorem bcnEvent_slots (s : State) (e : BcnEvent) : (bcnEvent s e).slots = s.slots := by cases e <;> simp only [bcnEvent] <;> (repeat' split) <;> simp [pendMark]
@[simp] theorem bcnEvent_waitq (s : State) (e : BcnEvent) : (bcnEvent s e).waitq = s.waitq := by cases e <;> simp only [bcnEvent] <;> (repeat' split) <;> simp [pendMark]
@[simp] theorem bcnEvent_porters (s : State) (e : BcnEvent) : (bcnEvent s e).porters = s.porters := by cases e <;> simp only [bcnEvent] <;> (repeat' split) <;> simp [pendMark]
@[simp] theorem bcnEvent_units (s : State) (e : BcnEvent) : (bcnEvent s e).units = s.units := by cases e <;> simp only [bcnEvent] <;> (repeat' split) <;> simp [pendMark]
@[simp] theorem bcnEvent_nextCall (s : State) (e : BcnEvent) : (bcnEvent s e).nextCall = s.nextCall := by cases e <;> simp only [bcnEvent] <;> (repeat' split) <;> simp [pendMark]
@[simp] theorem bcnEvent_offReports (s : State) (e : BcnEvent) : (bcnEvent s e).offReports = s.offReports := by cases e <;> simp only [bcnEvent] <;> (repeat' split) <;> simp [pendMark]
@[simp] theorem bcnEvent_ram (s : State) (e : BcnEvent) : (bcnEvent s e).ram = s.ram := by cases e <;> simp only [bcnEvent] <;> (repeat' split) <;> simp [pendMark]
@[simp] theorem bcnEvent_dataOut (s : State) (e : BcnEvent) : (bcnEvent s e).dataOut = s.dataOut := by cases e <;> simp only [bcnEvent] <;> (repeat' split) <;> simp [pendMark]

@[simp] theorem bcnApply_pending (s : State) (r : Bcn × List BcnEvent) : (bcnApply r s).pending = s.pending := by unfold bcnApply; dsimp only; rw [foldl_keep (fun u : State => u.pending) _ (fun t x => bcnEvent_pending t x)]; (repeat' split) <;> simp [foldl_keep (fun u : State => u.pending)]
@[simp] theorem bcnApply_now (s : State) (r : Bcn × List BcnEvent) : (bcnApply r s).now = s.now := by unfold bcnApply; dsimp only; rw [foldl_keep (fun u : State => u.now) _ (fun t x => bcnEvent_now t x)]; (repeat' split) <;> simp [foldl_keep (fun u : State => u.now)]
@[simp] theorem bcnApply_fresh (s : State) (r : Bcn × List BcnEvent) : (bcnApply r s).fresh = s.fresh := by unfold bcnApply; dsimp only; rw [foldl_keep (fun u : State => u.fresh) _ (fun t x => bcnEvent_fresh t x)]; (repeat' split) <;> simp [foldl_keep (fun u : State => u.fresh)]
@[simp] theorem bcnApply_therm (s : State) (r : Bcn × List BcnEvent) : (bcnApply r s).therm = s.therm := by unfold bcnApply; dsimp only; rw [foldl_keep (fun u : State => u.therm) _ (fun t x => bcnEvent_therm t x)]; (repeat' split) <;> simp [foldl_keep (fun u : State => u.therm)]
@[simp] theorem bcnApply_hu (s : State) (r : Bcn × List BcnEvent) : (bcnApply r s).hu = s.hu := by unfold bcnApply; dsimp only; rw [foldl_keep (fun u : State => u.hu) _ (fun t x => bcnEvent_hu t x)]; (repeat' split) <;> simp [foldl_keep (fun u : State => u.hu)]
@[simp] theorem bcnApply_health (s : State) (r : Bcn × List BcnEvent) : (bcnApply r s).health = s.health := by unfold bcnApply; dsimp only; rw [foldl_keep (fun u : State => u.health) _ (fun t x => bcnEvent_health t x)]; (repeat' split) <;> simp [foldl_keep (fun u : State => u.health)]
@[simp] theorem bcnApply_bus (s : State) (r : Bcn × List BcnEvent) : (bcnApply r s).bus = s.bus := by unfold bcnApply; dsimp only; rw [foldl_keep (fun u : State => u.bus) _ (fun t x => bcnEvent_bus t x)]; (repeat' split) <;> simp [foldl_keep (fun u : State => u.bus)]
@[simp] theorem bcnApply_keeper (s : State) (r : Bcn × List BcnEvent) : (bcnApply r s).keeper = s.keeper := by unfold bcnApply; dsimp only; rw [foldl_keep (fun u : State => u.keeper) _ (fun t x => bcnEvent_keeper t x)]; (repeat' split) <;> simp [foldl_keep (fun u : State => u.keeper)]
@[simp] theorem bcnApply_acc (s : State) (r : Bcn × List BcnEvent) : (bcnApply r s).acc = s.acc := by unfold bcnApply; dsimp only; rw [foldl_keep (fun u : State => u.acc) _ (fun t x => bcnEvent_acc t x)]; (repeat' split) <;> simp [foldl_keep (fun u : State => u.acc)]
@[simp] theorem bcnApply_hb (s : State) (r : Bcn × List BcnEvent) : (bcnApply r s).hb = s.hb := by unfold bcnApply; dsimp only; rw [foldl_keep (fun u : State => u.hb) _ (fun t x => bcnEvent_hb t x)]; (repeat' split) <;> simp [foldl_keep (fun u : State => u.hb)]
@[simp] theorem bcnApply_nv (s : State) (r : Bcn × List BcnEvent) : (bcnApply r s).nv = s.nv := by unfold bcnApply; dsimp only; rw [foldl_keep (fun u : State => u.nv) _ (fun t x => bcnEvent_nv t x)]; (repeat' split) <;> simp [foldl_keep (fun u : State => u.nv)]
@[simp] theorem bcnApply_queries (s : State) (r : Bcn × List BcnEvent) : (bcnApply r s).queries = s.queries := by unfold bcnApply; dsimp only; rw [foldl_keep (fun u : State => u.queries) _ (fun t x => bcnEvent_queries t x)]; (repeat' split) <;> simp [foldl_keep (fun u : State => u.queries)]
@[simp] theorem bcnApply_slots (s : State) (r : Bcn × List BcnEvent) : (bcnApply r s).slots = s.slots := by unfold bcnApply; dsimp only; rw [foldl_keep (fun u : State => u.slots) _ (fun t x => bcnEvent_slots t x)]; (repeat' split) <;> simp [foldl_keep (fun u : State => u.slots)]
@[simp] theorem bcnApply_waitq (s : State) (r : Bcn × List BcnEvent) : (bcnApply r s).waitq = s.waitq := by unfold bcnApply; dsimp only; rw [foldl_keep (fun u : State => u.waitq) _ (fun t x => bcnEvent_waitq t x)]; (repeat' split) <;> simp [foldl_keep (fun u : State => u.waitq)]
@[simp] theorem bcnApply_porters (s : State) (r : Bcn × List BcnEvent) : (bcnApply r s).porters = s.porters := by unfold bcnApply; dsimp only; rw [foldl_keep (fun u : State => u.porters) _ (fun t x => bcnEvent_porters t x)]; (repeat' split) <;> simp [foldl_keep (fun u : State => u.porters)]
@[simp] theorem bcnApply_units (s : State) (r : Bcn × List BcnEvent) : (bcnApply r s).units = s.units := by unfold bcnApply; dsimp only; rw [foldl_keep (fun u : State => u.units) _ (fun t x => bcnEvent_units t x)]; (repeat' split) <;> simp [foldl_keep (fun u : State => u.units)]
@[simp] theorem bcnApply_nextCall (s : State) (r : Bcn × List BcnEvent) : (bcnApply r s).nextCall = s.nextCall := by unfold bcnApply; dsimp only; rw [foldl_keep (fun u : State => u.nextCall) _ (fun t x => bcnEvent_nextCall t x)]; (repeat' split) <;> simp [foldl_keep (fun u : State => u.nextCall)]
@[simp] theorem bcnApply_offReports (s : State) (r : Bcn × List BcnEvent) : (bcnApply r s).offReports = s.offReports := by unfold bcnApply; dsimp only; rw [foldl_keep (fun u : State => u.offReports) _ (fun t x => bcnEvent_offReports t x)]; (repeat' split) <;> simp [foldl_keep (fun u : State => u.offReports)]
@[simp] theorem bcnApply_ram (s : State) (r : Bcn × List BcnEvent) : (bcnApply r s).ram = s.ram := by unfold bcnApply; dsimp only; rw [foldl_keep (fun u : State => u.ram) _ (fun t x => bcnEvent_ram t x)]; (repeat' split) <;> simp [foldl_keep (fun u : State => u.ram)]
@[simp] theorem bcnApply_dataOut (s : State) (r : Bcn × List BcnEvent) : (bcnApply r s).dataOut = s.dataOut := by unfold bcnApply; dsimp only; rw [foldl_keep (fun u : State => u.dataOut) _ (fun t x => bcnEvent_dataOut t x)]; (repeat' split) <;> simp [foldl_keep (fun u : State => u.dataOut)]

@[simp] theorem follow_pending (s : State) : (s.follow).pending = s.pending := by unfold State.follow; split <;> simp
@[simp] theorem follow_now (s : State) : (s.follow).now = s.now := by unfold State.follow; split <;> simp
@[simp] theorem follow_fresh (s : State) : (s.follow).fresh = s.fresh := by unfold State.follow; split <;> simp
@[simp] theorem follow_therm (s : State) : (s.follow).therm = s.therm := by unfold State.follow; split <;> simp
@[simp] theorem follow_hu (s : State) : (s.follow).hu = s.hu := by unfold State.follow; split <;> simp
@[simp] theorem follow_health (s : State) : (s.follow).health = s.health := by unfold State.follow; split <;> simp
@[simp] theorem follow_bus (s : State) : (s.follow).bus = s.bus := by unfold State.follow; split <;> simp
@[simp] theorem follow_keeper (s : State) : (s.follow).keeper = s.keeper := by unfold State.follow; split <;> simp
@[simp] theorem follow_acc (s : State) : (s.follow).acc = s.acc := by unfold State.follow; split <;> simp
@[simp] theorem follow_hb (s : State) : (s.follow).hb = s.hb := by unfold State.follow; split <;> simp
@[simp] theorem follow_nv (s : State) : (s.follow).nv = s.nv := by unfold State.follow; split <;> simp
@[simp] theorem follow_queries (s : State) : (s.follow).queries = s.queries := by unfold State.follow; split <;> simp
@[simp] theorem follow_slots (s : State) : (s.follow).slots = s.slots := by unfold State.follow; split <;> simp
@[simp] theorem follow_waitq (s : State) : (s.follow).waitq = s.waitq := by unfold State.follow; split <;> simp
@[simp] theorem follow_porters (s : State) : (s.follow).porters = s.porters := by unfold State.follow; split <;> simp
@[simp] theorem follow_units (s : State) : (s.follow).units = s.units := by unfold State.follow; split <;> simp
@[simp] theorem follow_nextCall (s : State) : (s.follow).nextCall = s.nextCall := by unfold State.follow; split <;> simp
@[simp] theorem follow_offReports (s : State) : (s.follow).offReports = s.offReports := by unfold State.follow; split <;> simp
@[simp] theorem follow_ram (s : State) : (s.follow).ram = s.ram := by unfold State.follow; split <;> simp
@[simp] theorem follow_dataOut (s : State) : (s.follow).dataOut = s.dataOut := by unfold State.follow; split <;> simp

@[simp] theorem tick_pending (s : State) : (tick s).pending = s.pending := by unfold tick; simp
@[simp] theorem tick_fresh (s : State) : (tick s).fresh = s.fresh := by unfold tick; simp
@[simp] theorem tick_therm (s : State) : (tick s).therm = s.therm := by unfold tick; simp
@[simp] theorem tick_hu (s : State) : (tick s).hu = s.hu := by unfold tick; simp
@[simp] theorem tick_health (s : State) : (tick s).health = s.health := by unfold tick; simp
@[simp] theorem tick_bus (s : State) : (tick s).bus = s.bus := by unfold tick; simp
@[simp] theorem tick_keeper (s : State) : (tick s).keeper = s.keeper := by unfold tick; simp
@[simp] theorem tick_acc (s : State) : (tick s).acc = s.acc := by unfold tick; simp
@[simp] theorem tick_hb (s : State) : (tick s).hb = s.hb := by unfold tick; simp
@[simp] theorem tick_nv (s : State) : (tick s).nv = s.nv := by unfold tick; simp
@[simp] theorem tick_queries (s : State) : (tick s).queries = s.queries := by unfold tick; simp
@[simp] theorem tick_slots (s : State) : (tick s).slots = s.slots := by unfold tick; simp
@[simp] theorem tick_waitq (s : State) : (tick s).waitq = s.waitq := by unfold tick; simp
@[simp] theorem tick_porters (s : State) : (tick s).porters = s.porters := by unfold tick; simp
@[simp] theorem tick_units (s : State) : (tick s).units = s.units := by unfold tick; simp
@[simp] theorem tick_nextCall (s : State) : (tick s).nextCall = s.nextCall := by unfold tick; simp
@[simp] theorem tick_offReports (s : State) : (tick s).offReports = s.offReports := by unfold tick; simp
@[simp] theorem tick_ram (s : State) : (tick s).ram = s.ram := by unfold tick; simp
@[simp] theorem tick_dataOut (s : State) : (tick s).dataOut = s.dataOut := by unfold tick; simp

@[simp] theorem at_pending (s : State) (t : Nat) : (s.at_ t).pending = s.pending := by unfold State.at_; simp
@[simp] theorem at_fresh (s : State) (t : Nat) : (s.at_ t).fresh = s.fresh := by unfold State.at_; simp
@[simp] theorem at_therm (s : State) (t : Nat) : (s.at_ t).therm = s.therm := by unfold State.at_; simp
@[simp] theorem at_hu (s : State) (t : Nat) : (s.at_ t).hu = s.hu := by unfold State.at_; simp
@[simp] theorem at_health (s : State) (t : Nat) : (s.at_ t).health = s.health := by unfold State.at_; simp
@[simp] theorem at_bus (s : State) (t : Nat) : (s.at_ t).bus = s.bus := by unfold State.at_; simp
@[simp] theorem at_keeper (s : State) (t : Nat) : (s.at_ t).keeper = s.keeper := by unfold State.at_; simp
@[simp] theorem at_acc (s : State) (t : Nat) : (s.at_ t).acc = s.acc := by unfold State.at_; simp
@[simp] theorem at_hb (s : State) (t : Nat) : (s.at_ t).hb = s.hb := by unfold State.at_; simp
@[simp] theorem at_nv (s : State) (t : Nat) : (s.at_ t).nv = s.nv := by unfold State.at_; simp
@[simp] theorem at_queries (s : State) (t : Nat) : (s.at_ t).queries = s.queries := by unfold State.at_; simp
@[simp] theorem at_slots (s : State) (t : Nat) : (s.at_ t).slots = s.slots := by unfold State.at_; simp
@[simp] theorem at_waitq (s : State) (t : Nat) : (s.at_ t).waitq = s.waitq := by unfold State.at_; simp
@[simp] theorem at_porters (s : State) (t : Nat) : (s.at_ t).porters = s.porters := by unfold State.at_; simp
@[simp] theorem at_units (s : State) (t : Nat) : (s.at_ t).units = s.units := by unfold State.at_; simp
@[simp] theorem at_nextCall (s : State) (t : Nat) : (s.at_ t).nextCall = s.nextCall := by unfold State.at_; simp
@[simp] theorem at_offReports (s : State) (t : Nat) : (s.at_ t).offReports = s.offReports := by unfold State.at_; simp
@[simp] theorem at_ram (s : State) (t : Nat) : (s.at_ t).ram = s.ram := by unfold State.at_; simp
@[simp] theorem at_dataOut (s : State) (t : Nat) : (s.at_ t).dataOut = s.dataOut := by unfold State.at_; simp

@[simp] theorem tick_now (s : State) : (tick s).now = s.now + 1 := by unfold tick; simp
@[simp] theorem at_now (s : State) (t : Nat) : (s.at_ t).now = max s.now t := by unfold State.at_; simp

/-- Where no sample extrapolates, the position stands by itself. -/
theorem advance_of_not_extrapolates (b : Bcn) (t : Nat) (ok : Bool) (h : b.extrapolates = false) : b.advance t ok = (b, []) := by
  simp [Bcn.advance, h]

/-- An update of the Beacon that leaves it as it is and has no event changes nothing. -/
theorem bcnApply_self (s : State) : bcnApply (s.bcn, []) s = s := by
  simp [bcnApply]

/-- Following the position changes nothing where no sample extrapolates. -/
theorem follow_of_not_extrapolates (s : State) (h : s.bcn.extrapolates = false) : s.follow = s := by
  simp [State.follow, advance_of_not_extrapolates _ _ _ h, bcnApply_self]

/-- Time alone: only the time changes where no sample extrapolates. -/
theorem at_of_not_extrapolates (s : State) (t : Nat) (h : s.bcn.extrapolates = false) : s.at_ t = { s with now := max s.now t } :=
  follow_of_not_extrapolates _ h

/-- An idle step changes only the time where no sample extrapolates. -/
theorem tick_of_not_extrapolates (s : State) (h : s.bcn.extrapolates = false) : tick s = { s with now := s.now + 1 } :=
  follow_of_not_extrapolates _ h

/-! Completions. -/

@[simp] theorem postEntry_pending (s : State) (e : Completion) : (postEntry e s).pending = s.pending := by unfold postEntry; split <;> rfl
@[simp] theorem postEntry_now (s : State) (e : Completion) : (postEntry e s).now = s.now := by unfold postEntry; split <;> rfl
@[simp] theorem postEntry_fresh (s : State) (e : Completion) : (postEntry e s).fresh = s.fresh := by unfold postEntry; split <;> rfl
@[simp] theorem postEntry_pwr (s : State) (e : Completion) : (postEntry e s).pwr = s.pwr := by unfold postEntry; split <;> rfl
@[simp] theorem postEntry_therm (s : State) (e : Completion) : (postEntry e s).therm = s.therm := by unfold postEntry; split <;> rfl
@[simp] theorem postEntry_hu (s : State) (e : Completion) : (postEntry e s).hu = s.hu := by unfold postEntry; split <;> rfl
@[simp] theorem postEntry_health (s : State) (e : Completion) : (postEntry e s).health = s.health := by unfold postEntry; split <;> rfl
@[simp] theorem postEntry_bcn (s : State) (e : Completion) : (postEntry e s).bcn = s.bcn := by unfold postEntry; split <;> rfl
@[simp] theorem postEntry_bus (s : State) (e : Completion) : (postEntry e s).bus = s.bus := by unfold postEntry; split <;> rfl
@[simp] theorem postEntry_keeper (s : State) (e : Completion) : (postEntry e s).keeper = s.keeper := by unfold postEntry; split <;> rfl
@[simp] theorem postEntry_acc (s : State) (e : Completion) : (postEntry e s).acc = s.acc := by unfold postEntry; split <;> rfl
@[simp] theorem postEntry_ev (s : State) (e : Completion) : (postEntry e s).ev = s.ev := by unfold postEntry; split <;> rfl
@[simp] theorem postEntry_hb (s : State) (e : Completion) : (postEntry e s).hb = s.hb := by unfold postEntry; split <;> rfl
@[simp] theorem postEntry_ns (s : State) (e : Completion) : (postEntry e s).ns = s.ns := by unfold postEntry; split <;> rfl
@[simp] theorem postEntry_med (s : State) (e : Completion) : (postEntry e s).med = s.med := by unfold postEntry; split <;> rfl
@[simp] theorem postEntry_stalls (s : State) (e : Completion) : (postEntry e s).stalls = s.stalls := by unfold postEntry; split <;> rfl
@[simp] theorem postEntry_lots (s : State) (e : Completion) : (postEntry e s).lots = s.lots := by unfold postEntry; split <;> rfl
@[simp] theorem postEntry_nextLot (s : State) (e : Completion) : (postEntry e s).nextLot = s.nextLot := by unfold postEntry; split <;> rfl
@[simp] theorem postEntry_pipes (s : State) (e : Completion) : (postEntry e s).pipes = s.pipes := by unfold postEntry; split <;> rfl
@[simp] theorem postEntry_queries (s : State) (e : Completion) : (postEntry e s).queries = s.queries := by unfold postEntry; split <;> rfl
@[simp] theorem postEntry_slots (s : State) (e : Completion) : (postEntry e s).slots = s.slots := by unfold postEntry; split <;> rfl
@[simp] theorem postEntry_waitq (s : State) (e : Completion) : (postEntry e s).waitq = s.waitq := by unfold postEntry; split <;> rfl
@[simp] theorem postEntry_opens (s : State) (e : Completion) : (postEntry e s).opens = s.opens := by unfold postEntry; split <;> rfl
@[simp] theorem postEntry_porters (s : State) (e : Completion) : (postEntry e s).porters = s.porters := by unfold postEntry; split <;> rfl
@[simp] theorem postEntry_units (s : State) (e : Completion) : (postEntry e s).units = s.units := by unfold postEntry; split <;> rfl
@[simp] theorem postEntry_nextCall (s : State) (e : Completion) : (postEntry e s).nextCall = s.nextCall := by unfold postEntry; split <;> rfl
@[simp] theorem postEntry_offReports (s : State) (e : Completion) : (postEntry e s).offReports = s.offReports := by unfold postEntry; split <;> rfl
@[simp] theorem postEntry_ram (s : State) (e : Completion) : (postEntry e s).ram = s.ram := by unfold postEntry; split <;> rfl
@[simp] theorem postEntry_dataOut (s : State) (e : Completion) : (postEntry e s).dataOut = s.dataOut := by unfold postEntry; split <;> rfl

@[simp] theorem endDeletes_pending (s : State) : (endDeletes s).pending = s.pending := by unfold endDeletes; refine foldl_keep (fun u : State => u.pending) _ (fun t x => ?_) _ _; dsimp only; split <;> simp
@[simp] theorem endDeletes_now (s : State) : (endDeletes s).now = s.now := by unfold endDeletes; refine foldl_keep (fun u : State => u.now) _ (fun t x => ?_) _ _; dsimp only; split <;> simp
@[simp] theorem endDeletes_fresh (s : State) : (endDeletes s).fresh = s.fresh := by unfold endDeletes; refine foldl_keep (fun u : State => u.fresh) _ (fun t x => ?_) _ _; dsimp only; split <;> simp
@[simp] theorem endDeletes_pwr (s : State) : (endDeletes s).pwr = s.pwr := by unfold endDeletes; refine foldl_keep (fun u : State => u.pwr) _ (fun t x => ?_) _ _; dsimp only; split <;> simp
@[simp] theorem endDeletes_therm (s : State) : (endDeletes s).therm = s.therm := by unfold endDeletes; refine foldl_keep (fun u : State => u.therm) _ (fun t x => ?_) _ _; dsimp only; split <;> simp
@[simp] theorem endDeletes_hu (s : State) : (endDeletes s).hu = s.hu := by unfold endDeletes; refine foldl_keep (fun u : State => u.hu) _ (fun t x => ?_) _ _; dsimp only; split <;> simp
@[simp] theorem endDeletes_health (s : State) : (endDeletes s).health = s.health := by unfold endDeletes; refine foldl_keep (fun u : State => u.health) _ (fun t x => ?_) _ _; dsimp only; split <;> simp
@[simp] theorem endDeletes_bcn (s : State) : (endDeletes s).bcn = s.bcn := by unfold endDeletes; refine foldl_keep (fun u : State => u.bcn) _ (fun t x => ?_) _ _; dsimp only; split <;> simp
@[simp] theorem endDeletes_bus (s : State) : (endDeletes s).bus = s.bus := by unfold endDeletes; refine foldl_keep (fun u : State => u.bus) _ (fun t x => ?_) _ _; dsimp only; split <;> simp
@[simp] theorem endDeletes_keeper (s : State) : (endDeletes s).keeper = s.keeper := by unfold endDeletes; refine foldl_keep (fun u : State => u.keeper) _ (fun t x => ?_) _ _; dsimp only; split <;> simp
@[simp] theorem endDeletes_acc (s : State) : (endDeletes s).acc = s.acc := by unfold endDeletes; refine foldl_keep (fun u : State => u.acc) _ (fun t x => ?_) _ _; dsimp only; split <;> simp
@[simp] theorem endDeletes_ev (s : State) : (endDeletes s).ev = s.ev := by unfold endDeletes; refine foldl_keep (fun u : State => u.ev) _ (fun t x => ?_) _ _; dsimp only; split <;> simp
@[simp] theorem endDeletes_hb (s : State) : (endDeletes s).hb = s.hb := by unfold endDeletes; refine foldl_keep (fun u : State => u.hb) _ (fun t x => ?_) _ _; dsimp only; split <;> simp
@[simp] theorem endDeletes_ns (s : State) : (endDeletes s).ns = s.ns := by unfold endDeletes; refine foldl_keep (fun u : State => u.ns) _ (fun t x => ?_) _ _; dsimp only; split <;> simp
@[simp] theorem endDeletes_med (s : State) : (endDeletes s).med = s.med := by unfold endDeletes; refine foldl_keep (fun u : State => u.med) _ (fun t x => ?_) _ _; dsimp only; split <;> simp
@[simp] theorem endDeletes_stalls (s : State) : (endDeletes s).stalls = s.stalls := by unfold endDeletes; refine foldl_keep (fun u : State => u.stalls) _ (fun t x => ?_) _ _; dsimp only; split <;> simp
@[simp] theorem endDeletes_lots (s : State) : (endDeletes s).lots = s.lots := by unfold endDeletes; refine foldl_keep (fun u : State => u.lots) _ (fun t x => ?_) _ _; dsimp only; split <;> simp
@[simp] theorem endDeletes_nextLot (s : State) : (endDeletes s).nextLot = s.nextLot := by unfold endDeletes; refine foldl_keep (fun u : State => u.nextLot) _ (fun t x => ?_) _ _; dsimp only; split <;> simp
@[simp] theorem endDeletes_pipes (s : State) : (endDeletes s).pipes = s.pipes := by unfold endDeletes; refine foldl_keep (fun u : State => u.pipes) _ (fun t x => ?_) _ _; dsimp only; split <;> simp
@[simp] theorem endDeletes_queries (s : State) : (endDeletes s).queries = s.queries := by unfold endDeletes; refine foldl_keep (fun u : State => u.queries) _ (fun t x => ?_) _ _; dsimp only; split <;> simp
@[simp] theorem endDeletes_slots (s : State) : (endDeletes s).slots = s.slots := by unfold endDeletes; refine foldl_keep (fun u : State => u.slots) _ (fun t x => ?_) _ _; dsimp only; split <;> simp
@[simp] theorem endDeletes_waitq (s : State) : (endDeletes s).waitq = s.waitq := by unfold endDeletes; refine foldl_keep (fun u : State => u.waitq) _ (fun t x => ?_) _ _; dsimp only; split <;> simp
@[simp] theorem endDeletes_opens (s : State) : (endDeletes s).opens = s.opens := by unfold endDeletes; refine foldl_keep (fun u : State => u.opens) _ (fun t x => ?_) _ _; dsimp only; split <;> simp
@[simp] theorem endDeletes_porters (s : State) : (endDeletes s).porters = s.porters := by unfold endDeletes; refine foldl_keep (fun u : State => u.porters) _ (fun t x => ?_) _ _; dsimp only; split <;> simp
@[simp] theorem endDeletes_units (s : State) : (endDeletes s).units = s.units := by unfold endDeletes; refine foldl_keep (fun u : State => u.units) _ (fun t x => ?_) _ _; dsimp only; split <;> simp
@[simp] theorem endDeletes_nextCall (s : State) : (endDeletes s).nextCall = s.nextCall := by unfold endDeletes; refine foldl_keep (fun u : State => u.nextCall) _ (fun t x => ?_) _ _; dsimp only; split <;> simp
@[simp] theorem endDeletes_offReports (s : State) : (endDeletes s).offReports = s.offReports := by unfold endDeletes; refine foldl_keep (fun u : State => u.offReports) _ (fun t x => ?_) _ _; dsimp only; split <;> simp
@[simp] theorem endDeletes_ram (s : State) : (endDeletes s).ram = s.ram := by unfold endDeletes; refine foldl_keep (fun u : State => u.ram) _ (fun t x => ?_) _ _; dsimp only; split <;> simp
@[simp] theorem endDeletes_dataOut (s : State) : (endDeletes s).dataOut = s.dataOut := by unfold endDeletes; refine foldl_keep (fun u : State => u.dataOut) _ (fun t x => ?_) _ _; dsimp only; split <;> simp

@[simp] theorem complete_pending (s : State) (h sct sc : Nat) (d0 d1 : W32) (d : List Byte) : (complete h sct sc d0 d1 d s).pending = s.pending := by unfold complete; dsimp only; (repeat' split) <;> simp
@[simp] theorem complete_now (s : State) (h sct sc : Nat) (d0 d1 : W32) (d : List Byte) : (complete h sct sc d0 d1 d s).now = s.now := by unfold complete; dsimp only; (repeat' split) <;> simp
@[simp] theorem complete_fresh (s : State) (h sct sc : Nat) (d0 d1 : W32) (d : List Byte) : (complete h sct sc d0 d1 d s).fresh = s.fresh := by unfold complete; dsimp only; (repeat' split) <;> simp
@[simp] theorem complete_pwr (s : State) (h sct sc : Nat) (d0 d1 : W32) (d : List Byte) : (complete h sct sc d0 d1 d s).pwr = s.pwr := by unfold complete; dsimp only; (repeat' split) <;> simp
@[simp] theorem complete_therm (s : State) (h sct sc : Nat) (d0 d1 : W32) (d : List Byte) : (complete h sct sc d0 d1 d s).therm = s.therm := by unfold complete; dsimp only; (repeat' split) <;> simp
@[simp] theorem complete_hu (s : State) (h sct sc : Nat) (d0 d1 : W32) (d : List Byte) : (complete h sct sc d0 d1 d s).hu = s.hu := by unfold complete; dsimp only; (repeat' split) <;> simp
@[simp] theorem complete_health (s : State) (h sct sc : Nat) (d0 d1 : W32) (d : List Byte) : (complete h sct sc d0 d1 d s).health = s.health := by unfold complete; dsimp only; (repeat' split) <;> simp
@[simp] theorem complete_bcn (s : State) (h sct sc : Nat) (d0 d1 : W32) (d : List Byte) : (complete h sct sc d0 d1 d s).bcn = s.bcn := by unfold complete; dsimp only; (repeat' split) <;> simp
@[simp] theorem complete_bus (s : State) (h sct sc : Nat) (d0 d1 : W32) (d : List Byte) : (complete h sct sc d0 d1 d s).bus = s.bus := by unfold complete; dsimp only; (repeat' split) <;> simp
@[simp] theorem complete_keeper (s : State) (h sct sc : Nat) (d0 d1 : W32) (d : List Byte) : (complete h sct sc d0 d1 d s).keeper = s.keeper := by unfold complete; dsimp only; (repeat' split) <;> simp
@[simp] theorem complete_acc (s : State) (h sct sc : Nat) (d0 d1 : W32) (d : List Byte) : (complete h sct sc d0 d1 d s).acc = s.acc := by unfold complete; dsimp only; (repeat' split) <;> simp
@[simp] theorem complete_ev (s : State) (h sct sc : Nat) (d0 d1 : W32) (d : List Byte) : (complete h sct sc d0 d1 d s).ev = s.ev := by unfold complete; dsimp only; (repeat' split) <;> simp
@[simp] theorem complete_hb (s : State) (h sct sc : Nat) (d0 d1 : W32) (d : List Byte) : (complete h sct sc d0 d1 d s).hb = s.hb := by unfold complete; dsimp only; (repeat' split) <;> simp
@[simp] theorem complete_ns (s : State) (h sct sc : Nat) (d0 d1 : W32) (d : List Byte) : (complete h sct sc d0 d1 d s).ns = s.ns := by unfold complete; dsimp only; (repeat' split) <;> simp
@[simp] theorem complete_med (s : State) (h sct sc : Nat) (d0 d1 : W32) (d : List Byte) : (complete h sct sc d0 d1 d s).med = s.med := by unfold complete; dsimp only; (repeat' split) <;> simp
@[simp] theorem complete_stalls (s : State) (h sct sc : Nat) (d0 d1 : W32) (d : List Byte) : (complete h sct sc d0 d1 d s).stalls = s.stalls := by unfold complete; dsimp only; (repeat' split) <;> simp
@[simp] theorem complete_lots (s : State) (h sct sc : Nat) (d0 d1 : W32) (d : List Byte) : (complete h sct sc d0 d1 d s).lots = s.lots := by unfold complete; dsimp only; (repeat' split) <;> simp
@[simp] theorem complete_nextLot (s : State) (h sct sc : Nat) (d0 d1 : W32) (d : List Byte) : (complete h sct sc d0 d1 d s).nextLot = s.nextLot := by unfold complete; dsimp only; (repeat' split) <;> simp
@[simp] theorem complete_pipes (s : State) (h sct sc : Nat) (d0 d1 : W32) (d : List Byte) : (complete h sct sc d0 d1 d s).pipes = s.pipes := by unfold complete; dsimp only; (repeat' split) <;> simp
@[simp] theorem complete_queries (s : State) (h sct sc : Nat) (d0 d1 : W32) (d : List Byte) : (complete h sct sc d0 d1 d s).queries = s.queries := by unfold complete; dsimp only; (repeat' split) <;> simp
@[simp] theorem complete_slots (s : State) (h sct sc : Nat) (d0 d1 : W32) (d : List Byte) : (complete h sct sc d0 d1 d s).slots = s.slots := by unfold complete; dsimp only; (repeat' split) <;> simp
@[simp] theorem complete_waitq (s : State) (h sct sc : Nat) (d0 d1 : W32) (d : List Byte) : (complete h sct sc d0 d1 d s).waitq = s.waitq := by unfold complete; dsimp only; (repeat' split) <;> simp
@[simp] theorem complete_opens (s : State) (h sct sc : Nat) (d0 d1 : W32) (d : List Byte) : (complete h sct sc d0 d1 d s).opens = s.opens := by unfold complete; dsimp only; (repeat' split) <;> simp
@[simp] theorem complete_porters (s : State) (h sct sc : Nat) (d0 d1 : W32) (d : List Byte) : (complete h sct sc d0 d1 d s).porters = s.porters := by unfold complete; dsimp only; (repeat' split) <;> simp
@[simp] theorem complete_units (s : State) (h sct sc : Nat) (d0 d1 : W32) (d : List Byte) : (complete h sct sc d0 d1 d s).units = s.units := by unfold complete; dsimp only; (repeat' split) <;> simp
@[simp] theorem complete_nextCall (s : State) (h sct sc : Nat) (d0 d1 : W32) (d : List Byte) : (complete h sct sc d0 d1 d s).nextCall = s.nextCall := by unfold complete; dsimp only; (repeat' split) <;> simp
@[simp] theorem complete_offReports (s : State) (h sct sc : Nat) (d0 d1 : W32) (d : List Byte) : (complete h sct sc d0 d1 d s).offReports = s.offReports := by unfold complete; dsimp only; (repeat' split) <;> simp
@[simp] theorem complete_ram (s : State) (h sct sc : Nat) (d0 d1 : W32) (d : List Byte) : (complete h sct sc d0 d1 d s).ram = s.ram := by unfold complete; dsimp only; (repeat' split) <;> simp
@[simp] theorem complete_dataOut (s : State) (h sct sc : Nat) (d0 d1 : W32) (d : List Byte) : (complete h sct sc d0 d1 d s).dataOut = s.dataOut := by unfold complete; dsimp only; (repeat' split) <;> simp

@[simp] theorem fail_pending (s : State) (h sct sc : Nat) : (fail h sct sc s).pending = s.pending := by unfold fail; simp
@[simp] theorem fail_now (s : State) (h sct sc : Nat) : (fail h sct sc s).now = s.now := by unfold fail; simp
@[simp] theorem fail_fresh (s : State) (h sct sc : Nat) : (fail h sct sc s).fresh = s.fresh := by unfold fail; simp
@[simp] theorem fail_pwr (s : State) (h sct sc : Nat) : (fail h sct sc s).pwr = s.pwr := by unfold fail; simp
@[simp] theorem fail_therm (s : State) (h sct sc : Nat) : (fail h sct sc s).therm = s.therm := by unfold fail; simp
@[simp] theorem fail_hu (s : State) (h sct sc : Nat) : (fail h sct sc s).hu = s.hu := by unfold fail; simp
@[simp] theorem fail_health (s : State) (h sct sc : Nat) : (fail h sct sc s).health = s.health := by unfold fail; simp
@[simp] theorem fail_bcn (s : State) (h sct sc : Nat) : (fail h sct sc s).bcn = s.bcn := by unfold fail; simp
@[simp] theorem fail_bus (s : State) (h sct sc : Nat) : (fail h sct sc s).bus = s.bus := by unfold fail; simp
@[simp] theorem fail_keeper (s : State) (h sct sc : Nat) : (fail h sct sc s).keeper = s.keeper := by unfold fail; simp
@[simp] theorem fail_acc (s : State) (h sct sc : Nat) : (fail h sct sc s).acc = s.acc := by unfold fail; simp
@[simp] theorem fail_ev (s : State) (h sct sc : Nat) : (fail h sct sc s).ev = s.ev := by unfold fail; simp
@[simp] theorem fail_hb (s : State) (h sct sc : Nat) : (fail h sct sc s).hb = s.hb := by unfold fail; simp
@[simp] theorem fail_ns (s : State) (h sct sc : Nat) : (fail h sct sc s).ns = s.ns := by unfold fail; simp
@[simp] theorem fail_med (s : State) (h sct sc : Nat) : (fail h sct sc s).med = s.med := by unfold fail; simp
@[simp] theorem fail_stalls (s : State) (h sct sc : Nat) : (fail h sct sc s).stalls = s.stalls := by unfold fail; simp
@[simp] theorem fail_lots (s : State) (h sct sc : Nat) : (fail h sct sc s).lots = s.lots := by unfold fail; simp
@[simp] theorem fail_nextLot (s : State) (h sct sc : Nat) : (fail h sct sc s).nextLot = s.nextLot := by unfold fail; simp
@[simp] theorem fail_pipes (s : State) (h sct sc : Nat) : (fail h sct sc s).pipes = s.pipes := by unfold fail; simp
@[simp] theorem fail_queries (s : State) (h sct sc : Nat) : (fail h sct sc s).queries = s.queries := by unfold fail; simp
@[simp] theorem fail_slots (s : State) (h sct sc : Nat) : (fail h sct sc s).slots = s.slots := by unfold fail; simp
@[simp] theorem fail_waitq (s : State) (h sct sc : Nat) : (fail h sct sc s).waitq = s.waitq := by unfold fail; simp
@[simp] theorem fail_opens (s : State) (h sct sc : Nat) : (fail h sct sc s).opens = s.opens := by unfold fail; simp
@[simp] theorem fail_porters (s : State) (h sct sc : Nat) : (fail h sct sc s).porters = s.porters := by unfold fail; simp
@[simp] theorem fail_units (s : State) (h sct sc : Nat) : (fail h sct sc s).units = s.units := by unfold fail; simp
@[simp] theorem fail_nextCall (s : State) (h sct sc : Nat) : (fail h sct sc s).nextCall = s.nextCall := by unfold fail; simp
@[simp] theorem fail_offReports (s : State) (h sct sc : Nat) : (fail h sct sc s).offReports = s.offReports := by unfold fail; simp
@[simp] theorem fail_ram (s : State) (h sct sc : Nat) : (fail h sct sc s).ram = s.ram := by unfold fail; simp
@[simp] theorem fail_dataOut (s : State) (h sct sc : Nat) : (fail h sct sc s).dataOut = s.dataOut := by unfold fail; simp

@[simp] theorem succeed_pending (s : State) (h : Nat) : (succeed h s).pending = s.pending := by unfold succeed; simp
@[simp] theorem succeed_now (s : State) (h : Nat) : (succeed h s).now = s.now := by unfold succeed; simp
@[simp] theorem succeed_fresh (s : State) (h : Nat) : (succeed h s).fresh = s.fresh := by unfold succeed; simp
@[simp] theorem succeed_pwr (s : State) (h : Nat) : (succeed h s).pwr = s.pwr := by unfold succeed; simp
@[simp] theorem succeed_therm (s : State) (h : Nat) : (succeed h s).therm = s.therm := by unfold succeed; simp
@[simp] theorem succeed_hu (s : State) (h : Nat) : (succeed h s).hu = s.hu := by unfold succeed; simp
@[simp] theorem succeed_health (s : State) (h : Nat) : (succeed h s).health = s.health := by unfold succeed; simp
@[simp] theorem succeed_bcn (s : State) (h : Nat) : (succeed h s).bcn = s.bcn := by unfold succeed; simp
@[simp] theorem succeed_bus (s : State) (h : Nat) : (succeed h s).bus = s.bus := by unfold succeed; simp
@[simp] theorem succeed_keeper (s : State) (h : Nat) : (succeed h s).keeper = s.keeper := by unfold succeed; simp
@[simp] theorem succeed_acc (s : State) (h : Nat) : (succeed h s).acc = s.acc := by unfold succeed; simp
@[simp] theorem succeed_ev (s : State) (h : Nat) : (succeed h s).ev = s.ev := by unfold succeed; simp
@[simp] theorem succeed_hb (s : State) (h : Nat) : (succeed h s).hb = s.hb := by unfold succeed; simp
@[simp] theorem succeed_ns (s : State) (h : Nat) : (succeed h s).ns = s.ns := by unfold succeed; simp
@[simp] theorem succeed_med (s : State) (h : Nat) : (succeed h s).med = s.med := by unfold succeed; simp
@[simp] theorem succeed_stalls (s : State) (h : Nat) : (succeed h s).stalls = s.stalls := by unfold succeed; simp
@[simp] theorem succeed_lots (s : State) (h : Nat) : (succeed h s).lots = s.lots := by unfold succeed; simp
@[simp] theorem succeed_nextLot (s : State) (h : Nat) : (succeed h s).nextLot = s.nextLot := by unfold succeed; simp
@[simp] theorem succeed_pipes (s : State) (h : Nat) : (succeed h s).pipes = s.pipes := by unfold succeed; simp
@[simp] theorem succeed_queries (s : State) (h : Nat) : (succeed h s).queries = s.queries := by unfold succeed; simp
@[simp] theorem succeed_slots (s : State) (h : Nat) : (succeed h s).slots = s.slots := by unfold succeed; simp
@[simp] theorem succeed_waitq (s : State) (h : Nat) : (succeed h s).waitq = s.waitq := by unfold succeed; simp
@[simp] theorem succeed_opens (s : State) (h : Nat) : (succeed h s).opens = s.opens := by unfold succeed; simp
@[simp] theorem succeed_porters (s : State) (h : Nat) : (succeed h s).porters = s.porters := by unfold succeed; simp
@[simp] theorem succeed_units (s : State) (h : Nat) : (succeed h s).units = s.units := by unfold succeed; simp
@[simp] theorem succeed_nextCall (s : State) (h : Nat) : (succeed h s).nextCall = s.nextCall := by unfold succeed; simp
@[simp] theorem succeed_offReports (s : State) (h : Nat) : (succeed h s).offReports = s.offReports := by unfold succeed; simp
@[simp] theorem succeed_ram (s : State) (h : Nat) : (succeed h s).ram = s.ram := by unfold succeed; simp
@[simp] theorem succeed_dataOut (s : State) (h : Nat) : (succeed h s).dataOut = s.dataOut := by unfold succeed; simp

@[simp] theorem logError_pending (s : State) (c : Cmd) (a b l : Nat) : (logError c a b l s).pending = s.pending := rfl
@[simp] theorem logError_now (s : State) (c : Cmd) (a b l : Nat) : (logError c a b l s).now = s.now := rfl
@[simp] theorem logError_fresh (s : State) (c : Cmd) (a b l : Nat) : (logError c a b l s).fresh = s.fresh := rfl
@[simp] theorem logError_pwr (s : State) (c : Cmd) (a b l : Nat) : (logError c a b l s).pwr = s.pwr := rfl
@[simp] theorem logError_therm (s : State) (c : Cmd) (a b l : Nat) : (logError c a b l s).therm = s.therm := rfl
@[simp] theorem logError_hu (s : State) (c : Cmd) (a b l : Nat) : (logError c a b l s).hu = s.hu := rfl
@[simp] theorem logError_health (s : State) (c : Cmd) (a b l : Nat) : (logError c a b l s).health = s.health := rfl
@[simp] theorem logError_bcn (s : State) (c : Cmd) (a b l : Nat) : (logError c a b l s).bcn = s.bcn := rfl
@[simp] theorem logError_bus (s : State) (c : Cmd) (a b l : Nat) : (logError c a b l s).bus = s.bus := rfl
@[simp] theorem logError_keeper (s : State) (c : Cmd) (a b l : Nat) : (logError c a b l s).keeper = s.keeper := rfl
@[simp] theorem logError_acc (s : State) (c : Cmd) (a b l : Nat) : (logError c a b l s).acc = s.acc := rfl
@[simp] theorem logError_ev (s : State) (c : Cmd) (a b l : Nat) : (logError c a b l s).ev = s.ev := rfl
@[simp] theorem logError_hb (s : State) (c : Cmd) (a b l : Nat) : (logError c a b l s).hb = s.hb := rfl
@[simp] theorem logError_ns (s : State) (c : Cmd) (a b l : Nat) : (logError c a b l s).ns = s.ns := rfl
@[simp] theorem logError_med (s : State) (c : Cmd) (a b l : Nat) : (logError c a b l s).med = s.med := rfl
@[simp] theorem logError_stalls (s : State) (c : Cmd) (a b l : Nat) : (logError c a b l s).stalls = s.stalls := rfl
@[simp] theorem logError_lots (s : State) (c : Cmd) (a b l : Nat) : (logError c a b l s).lots = s.lots := rfl
@[simp] theorem logError_nextLot (s : State) (c : Cmd) (a b l : Nat) : (logError c a b l s).nextLot = s.nextLot := rfl
@[simp] theorem logError_pipes (s : State) (c : Cmd) (a b l : Nat) : (logError c a b l s).pipes = s.pipes := rfl
@[simp] theorem logError_queries (s : State) (c : Cmd) (a b l : Nat) : (logError c a b l s).queries = s.queries := rfl
@[simp] theorem logError_slots (s : State) (c : Cmd) (a b l : Nat) : (logError c a b l s).slots = s.slots := rfl
@[simp] theorem logError_waitq (s : State) (c : Cmd) (a b l : Nat) : (logError c a b l s).waitq = s.waitq := rfl
@[simp] theorem logError_opens (s : State) (c : Cmd) (a b l : Nat) : (logError c a b l s).opens = s.opens := rfl
@[simp] theorem logError_porters (s : State) (c : Cmd) (a b l : Nat) : (logError c a b l s).porters = s.porters := rfl
@[simp] theorem logError_units (s : State) (c : Cmd) (a b l : Nat) : (logError c a b l s).units = s.units := rfl
@[simp] theorem logError_nextCall (s : State) (c : Cmd) (a b l : Nat) : (logError c a b l s).nextCall = s.nextCall := rfl
@[simp] theorem logError_offReports (s : State) (c : Cmd) (a b l : Nat) : (logError c a b l s).offReports = s.offReports := rfl
@[simp] theorem logError_ram (s : State) (c : Cmd) (a b l : Nat) : (logError c a b l s).ram = s.ram := rfl
@[simp] theorem logError_dataOut (s : State) (c : Cmd) (a b l : Nat) : (logError c a b l s).dataOut = s.dataOut := rfl

@[simp] theorem asyncEvent_pending (s : State) (a b c : Nat) : (asyncEvent a b c s).pending = s.pending := by unfold asyncEvent; dsimp only; (repeat' split) <;> simp
@[simp] theorem asyncEvent_now (s : State) (a b c : Nat) : (asyncEvent a b c s).now = s.now := by unfold asyncEvent; dsimp only; (repeat' split) <;> simp
@[simp] theorem asyncEvent_fresh (s : State) (a b c : Nat) : (asyncEvent a b c s).fresh = s.fresh := by unfold asyncEvent; dsimp only; (repeat' split) <;> simp
@[simp] theorem asyncEvent_pwr (s : State) (a b c : Nat) : (asyncEvent a b c s).pwr = s.pwr := by unfold asyncEvent; dsimp only; (repeat' split) <;> simp
@[simp] theorem asyncEvent_therm (s : State) (a b c : Nat) : (asyncEvent a b c s).therm = s.therm := by unfold asyncEvent; dsimp only; (repeat' split) <;> simp
@[simp] theorem asyncEvent_hu (s : State) (a b c : Nat) : (asyncEvent a b c s).hu = s.hu := by unfold asyncEvent; dsimp only; (repeat' split) <;> simp
@[simp] theorem asyncEvent_health (s : State) (a b c : Nat) : (asyncEvent a b c s).health = s.health := by unfold asyncEvent; dsimp only; (repeat' split) <;> simp
@[simp] theorem asyncEvent_bcn (s : State) (a b c : Nat) : (asyncEvent a b c s).bcn = s.bcn := by unfold asyncEvent; dsimp only; (repeat' split) <;> simp
@[simp] theorem asyncEvent_bus (s : State) (a b c : Nat) : (asyncEvent a b c s).bus = s.bus := by unfold asyncEvent; dsimp only; (repeat' split) <;> simp
@[simp] theorem asyncEvent_keeper (s : State) (a b c : Nat) : (asyncEvent a b c s).keeper = s.keeper := by unfold asyncEvent; dsimp only; (repeat' split) <;> simp
@[simp] theorem asyncEvent_acc (s : State) (a b c : Nat) : (asyncEvent a b c s).acc = s.acc := by unfold asyncEvent; dsimp only; (repeat' split) <;> simp
@[simp] theorem asyncEvent_ev (s : State) (a b c : Nat) : (asyncEvent a b c s).ev = s.ev := by unfold asyncEvent; dsimp only; (repeat' split) <;> simp
@[simp] theorem asyncEvent_hb (s : State) (a b c : Nat) : (asyncEvent a b c s).hb = s.hb := by unfold asyncEvent; dsimp only; (repeat' split) <;> simp
@[simp] theorem asyncEvent_ns (s : State) (a b c : Nat) : (asyncEvent a b c s).ns = s.ns := by unfold asyncEvent; dsimp only; (repeat' split) <;> simp
@[simp] theorem asyncEvent_med (s : State) (a b c : Nat) : (asyncEvent a b c s).med = s.med := by unfold asyncEvent; dsimp only; (repeat' split) <;> simp
@[simp] theorem asyncEvent_stalls (s : State) (a b c : Nat) : (asyncEvent a b c s).stalls = s.stalls := by unfold asyncEvent; dsimp only; (repeat' split) <;> simp
@[simp] theorem asyncEvent_lots (s : State) (a b c : Nat) : (asyncEvent a b c s).lots = s.lots := by unfold asyncEvent; dsimp only; (repeat' split) <;> simp
@[simp] theorem asyncEvent_nextLot (s : State) (a b c : Nat) : (asyncEvent a b c s).nextLot = s.nextLot := by unfold asyncEvent; dsimp only; (repeat' split) <;> simp
@[simp] theorem asyncEvent_pipes (s : State) (a b c : Nat) : (asyncEvent a b c s).pipes = s.pipes := by unfold asyncEvent; dsimp only; (repeat' split) <;> simp
@[simp] theorem asyncEvent_queries (s : State) (a b c : Nat) : (asyncEvent a b c s).queries = s.queries := by unfold asyncEvent; dsimp only; (repeat' split) <;> simp
@[simp] theorem asyncEvent_slots (s : State) (a b c : Nat) : (asyncEvent a b c s).slots = s.slots := by unfold asyncEvent; dsimp only; (repeat' split) <;> simp
@[simp] theorem asyncEvent_waitq (s : State) (a b c : Nat) : (asyncEvent a b c s).waitq = s.waitq := by unfold asyncEvent; dsimp only; (repeat' split) <;> simp
@[simp] theorem asyncEvent_opens (s : State) (a b c : Nat) : (asyncEvent a b c s).opens = s.opens := by unfold asyncEvent; dsimp only; (repeat' split) <;> simp
@[simp] theorem asyncEvent_porters (s : State) (a b c : Nat) : (asyncEvent a b c s).porters = s.porters := by unfold asyncEvent; dsimp only; (repeat' split) <;> simp
@[simp] theorem asyncEvent_units (s : State) (a b c : Nat) : (asyncEvent a b c s).units = s.units := by unfold asyncEvent; dsimp only; (repeat' split) <;> simp
@[simp] theorem asyncEvent_nextCall (s : State) (a b c : Nat) : (asyncEvent a b c s).nextCall = s.nextCall := by unfold asyncEvent; dsimp only; (repeat' split) <;> simp
@[simp] theorem asyncEvent_offReports (s : State) (a b c : Nat) : (asyncEvent a b c s).offReports = s.offReports := by unfold asyncEvent; dsimp only; (repeat' split) <;> simp
@[simp] theorem asyncEvent_ram (s : State) (a b c : Nat) : (asyncEvent a b c s).ram = s.ram := by unfold asyncEvent; dsimp only; (repeat' split) <;> simp
@[simp] theorem asyncEvent_dataOut (s : State) (a b c : Nat) : (asyncEvent a b c s).dataOut = s.dataOut := by unfold asyncEvent; dsimp only; (repeat' split) <;> simp

/-! The event router's update. -/

@[simp] theorem critEvents_pending (s : State) : (critEvents s).pending = s.pending := by unfold critEvents; exact foldl_keep (fun u : State => u.pending) _ (fun t x => asyncEvent_pending t _ _ _) _ _
@[simp] theorem critEvents_now (s : State) : (critEvents s).now = s.now := by unfold critEvents; exact foldl_keep (fun u : State => u.now) _ (fun t x => asyncEvent_now t _ _ _) _ _
@[simp] theorem critEvents_fresh (s : State) : (critEvents s).fresh = s.fresh := by unfold critEvents; exact foldl_keep (fun u : State => u.fresh) _ (fun t x => asyncEvent_fresh t _ _ _) _ _
@[simp] theorem critEvents_pwr (s : State) : (critEvents s).pwr = s.pwr := by unfold critEvents; exact foldl_keep (fun u : State => u.pwr) _ (fun t x => asyncEvent_pwr t _ _ _) _ _
@[simp] theorem critEvents_therm (s : State) : (critEvents s).therm = s.therm := by unfold critEvents; exact foldl_keep (fun u : State => u.therm) _ (fun t x => asyncEvent_therm t _ _ _) _ _
@[simp] theorem critEvents_hu (s : State) : (critEvents s).hu = s.hu := by unfold critEvents; exact foldl_keep (fun u : State => u.hu) _ (fun t x => asyncEvent_hu t _ _ _) _ _
@[simp] theorem critEvents_health (s : State) : (critEvents s).health = s.health := by unfold critEvents; exact foldl_keep (fun u : State => u.health) _ (fun t x => asyncEvent_health t _ _ _) _ _
@[simp] theorem critEvents_bcn (s : State) : (critEvents s).bcn = s.bcn := by unfold critEvents; exact foldl_keep (fun u : State => u.bcn) _ (fun t x => asyncEvent_bcn t _ _ _) _ _
@[simp] theorem critEvents_bus (s : State) : (critEvents s).bus = s.bus := by unfold critEvents; exact foldl_keep (fun u : State => u.bus) _ (fun t x => asyncEvent_bus t _ _ _) _ _
@[simp] theorem critEvents_keeper (s : State) : (critEvents s).keeper = s.keeper := by unfold critEvents; exact foldl_keep (fun u : State => u.keeper) _ (fun t x => asyncEvent_keeper t _ _ _) _ _
@[simp] theorem critEvents_acc (s : State) : (critEvents s).acc = s.acc := by unfold critEvents; exact foldl_keep (fun u : State => u.acc) _ (fun t x => asyncEvent_acc t _ _ _) _ _
@[simp] theorem critEvents_ev (s : State) : (critEvents s).ev = s.ev := by unfold critEvents; exact foldl_keep (fun u : State => u.ev) _ (fun t x => asyncEvent_ev t _ _ _) _ _
@[simp] theorem critEvents_hb (s : State) : (critEvents s).hb = s.hb := by unfold critEvents; exact foldl_keep (fun u : State => u.hb) _ (fun t x => asyncEvent_hb t _ _ _) _ _
@[simp] theorem critEvents_ns (s : State) : (critEvents s).ns = s.ns := by unfold critEvents; exact foldl_keep (fun u : State => u.ns) _ (fun t x => asyncEvent_ns t _ _ _) _ _
@[simp] theorem critEvents_med (s : State) : (critEvents s).med = s.med := by unfold critEvents; exact foldl_keep (fun u : State => u.med) _ (fun t x => asyncEvent_med t _ _ _) _ _
@[simp] theorem critEvents_stalls (s : State) : (critEvents s).stalls = s.stalls := by unfold critEvents; exact foldl_keep (fun u : State => u.stalls) _ (fun t x => asyncEvent_stalls t _ _ _) _ _
@[simp] theorem critEvents_lots (s : State) : (critEvents s).lots = s.lots := by unfold critEvents; exact foldl_keep (fun u : State => u.lots) _ (fun t x => asyncEvent_lots t _ _ _) _ _
@[simp] theorem critEvents_nextLot (s : State) : (critEvents s).nextLot = s.nextLot := by unfold critEvents; exact foldl_keep (fun u : State => u.nextLot) _ (fun t x => asyncEvent_nextLot t _ _ _) _ _
@[simp] theorem critEvents_pipes (s : State) : (critEvents s).pipes = s.pipes := by unfold critEvents; exact foldl_keep (fun u : State => u.pipes) _ (fun t x => asyncEvent_pipes t _ _ _) _ _
@[simp] theorem critEvents_queries (s : State) : (critEvents s).queries = s.queries := by unfold critEvents; exact foldl_keep (fun u : State => u.queries) _ (fun t x => asyncEvent_queries t _ _ _) _ _
@[simp] theorem critEvents_slots (s : State) : (critEvents s).slots = s.slots := by unfold critEvents; exact foldl_keep (fun u : State => u.slots) _ (fun t x => asyncEvent_slots t _ _ _) _ _
@[simp] theorem critEvents_waitq (s : State) : (critEvents s).waitq = s.waitq := by unfold critEvents; exact foldl_keep (fun u : State => u.waitq) _ (fun t x => asyncEvent_waitq t _ _ _) _ _
@[simp] theorem critEvents_opens (s : State) : (critEvents s).opens = s.opens := by unfold critEvents; exact foldl_keep (fun u : State => u.opens) _ (fun t x => asyncEvent_opens t _ _ _) _ _
@[simp] theorem critEvents_porters (s : State) : (critEvents s).porters = s.porters := by unfold critEvents; exact foldl_keep (fun u : State => u.porters) _ (fun t x => asyncEvent_porters t _ _ _) _ _
@[simp] theorem critEvents_units (s : State) : (critEvents s).units = s.units := by unfold critEvents; exact foldl_keep (fun u : State => u.units) _ (fun t x => asyncEvent_units t _ _ _) _ _
@[simp] theorem critEvents_nextCall (s : State) : (critEvents s).nextCall = s.nextCall := by unfold critEvents; exact foldl_keep (fun u : State => u.nextCall) _ (fun t x => asyncEvent_nextCall t _ _ _) _ _
@[simp] theorem critEvents_offReports (s : State) : (critEvents s).offReports = s.offReports := by unfold critEvents; exact foldl_keep (fun u : State => u.offReports) _ (fun t x => asyncEvent_offReports t _ _ _) _ _
@[simp] theorem critEvents_ram (s : State) : (critEvents s).ram = s.ram := by unfold critEvents; exact foldl_keep (fun u : State => u.ram) _ (fun t x => asyncEvent_ram t _ _ _) _ _
@[simp] theorem critEvents_dataOut (s : State) : (critEvents s).dataOut = s.dataOut := by unfold critEvents; exact foldl_keep (fun u : State => u.dataOut) _ (fun t x => asyncEvent_dataOut t _ _ _) _ _

@[simp] theorem setMedia_pending (s : State) (n : Nat) (m : Media) : (setMedia n m s).pending = s.pending := rfl
@[simp] theorem setMedia_now (s : State) (n : Nat) (m : Media) : (setMedia n m s).now = s.now := rfl
@[simp] theorem setMedia_fresh (s : State) (n : Nat) (m : Media) : (setMedia n m s).fresh = s.fresh := rfl
@[simp] theorem setMedia_pwr (s : State) (n : Nat) (m : Media) : (setMedia n m s).pwr = s.pwr := rfl
@[simp] theorem setMedia_therm (s : State) (n : Nat) (m : Media) : (setMedia n m s).therm = s.therm := rfl
@[simp] theorem setMedia_hu (s : State) (n : Nat) (m : Media) : (setMedia n m s).hu = s.hu := rfl
@[simp] theorem setMedia_bcn (s : State) (n : Nat) (m : Media) : (setMedia n m s).bcn = s.bcn := rfl
@[simp] theorem setMedia_bus (s : State) (n : Nat) (m : Media) : (setMedia n m s).bus = s.bus := rfl
@[simp] theorem setMedia_keeper (s : State) (n : Nat) (m : Media) : (setMedia n m s).keeper = s.keeper := rfl
@[simp] theorem setMedia_acc (s : State) (n : Nat) (m : Media) : (setMedia n m s).acc = s.acc := rfl
@[simp] theorem setMedia_ev (s : State) (n : Nat) (m : Media) : (setMedia n m s).ev = s.ev := rfl
@[simp] theorem setMedia_hb (s : State) (n : Nat) (m : Media) : (setMedia n m s).hb = s.hb := rfl
@[simp] theorem setMedia_nv (s : State) (n : Nat) (m : Media) : (setMedia n m s).nv = s.nv := rfl
@[simp] theorem setMedia_ns (s : State) (n : Nat) (m : Media) : (setMedia n m s).ns = s.ns := rfl
@[simp] theorem setMedia_stalls (s : State) (n : Nat) (m : Media) : (setMedia n m s).stalls = s.stalls := rfl
@[simp] theorem setMedia_lots (s : State) (n : Nat) (m : Media) : (setMedia n m s).lots = s.lots := rfl
@[simp] theorem setMedia_nextLot (s : State) (n : Nat) (m : Media) : (setMedia n m s).nextLot = s.nextLot := rfl
@[simp] theorem setMedia_pipes (s : State) (n : Nat) (m : Media) : (setMedia n m s).pipes = s.pipes := rfl
@[simp] theorem setMedia_queries (s : State) (n : Nat) (m : Media) : (setMedia n m s).queries = s.queries := rfl
@[simp] theorem setMedia_slots (s : State) (n : Nat) (m : Media) : (setMedia n m s).slots = s.slots := rfl
@[simp] theorem setMedia_waitq (s : State) (n : Nat) (m : Media) : (setMedia n m s).waitq = s.waitq := rfl
@[simp] theorem setMedia_opens (s : State) (n : Nat) (m : Media) : (setMedia n m s).opens = s.opens := rfl
@[simp] theorem setMedia_porters (s : State) (n : Nat) (m : Media) : (setMedia n m s).porters = s.porters := rfl
@[simp] theorem setMedia_units (s : State) (n : Nat) (m : Media) : (setMedia n m s).units = s.units := rfl
@[simp] theorem setMedia_nextCall (s : State) (n : Nat) (m : Media) : (setMedia n m s).nextCall = s.nextCall := rfl
@[simp] theorem setMedia_offReports (s : State) (n : Nat) (m : Media) : (setMedia n m s).offReports = s.offReports := rfl
@[simp] theorem setMedia_ram (s : State) (n : Nat) (m : Media) : (setMedia n m s).ram = s.ram := rfl
@[simp] theorem setMedia_dataOut (s : State) (n : Nat) (m : Media) : (setMedia n m s).dataOut = s.dataOut := rfl

@[simp] theorem loseHeld_pending (s : State) (k : Nat) : (loseHeld k s).pending = s.pending := by unfold loseHeld markUnrec; (repeat' split) <;> simp
@[simp] theorem loseHeld_now (s : State) (k : Nat) : (loseHeld k s).now = s.now := by unfold loseHeld markUnrec; (repeat' split) <;> simp
@[simp] theorem loseHeld_fresh (s : State) (k : Nat) : (loseHeld k s).fresh = s.fresh := by unfold loseHeld markUnrec; (repeat' split) <;> simp
@[simp] theorem loseHeld_pwr (s : State) (k : Nat) : (loseHeld k s).pwr = s.pwr := by unfold loseHeld markUnrec; (repeat' split) <;> simp
@[simp] theorem loseHeld_therm (s : State) (k : Nat) : (loseHeld k s).therm = s.therm := by unfold loseHeld markUnrec; (repeat' split) <;> simp
@[simp] theorem loseHeld_hu (s : State) (k : Nat) : (loseHeld k s).hu = s.hu := by unfold loseHeld markUnrec; (repeat' split) <;> simp
@[simp] theorem loseHeld_bcn (s : State) (k : Nat) : (loseHeld k s).bcn = s.bcn := by unfold loseHeld markUnrec; (repeat' split) <;> simp
@[simp] theorem loseHeld_bus (s : State) (k : Nat) : (loseHeld k s).bus = s.bus := by unfold loseHeld markUnrec; (repeat' split) <;> simp
@[simp] theorem loseHeld_keeper (s : State) (k : Nat) : (loseHeld k s).keeper = s.keeper := by unfold loseHeld markUnrec; (repeat' split) <;> simp
@[simp] theorem loseHeld_acc (s : State) (k : Nat) : (loseHeld k s).acc = s.acc := by unfold loseHeld markUnrec; (repeat' split) <;> simp
@[simp] theorem loseHeld_hb (s : State) (k : Nat) : (loseHeld k s).hb = s.hb := by unfold loseHeld markUnrec; (repeat' split) <;> simp
@[simp] theorem loseHeld_nv (s : State) (k : Nat) : (loseHeld k s).nv = s.nv := by unfold loseHeld markUnrec; (repeat' split) <;> simp
@[simp] theorem loseHeld_ns (s : State) (k : Nat) : (loseHeld k s).ns = s.ns := by unfold loseHeld markUnrec; (repeat' split) <;> simp
@[simp] theorem loseHeld_stalls (s : State) (k : Nat) : (loseHeld k s).stalls = s.stalls := by unfold loseHeld markUnrec; (repeat' split) <;> simp
@[simp] theorem loseHeld_lots (s : State) (k : Nat) : (loseHeld k s).lots = s.lots := by unfold loseHeld markUnrec; (repeat' split) <;> simp
@[simp] theorem loseHeld_nextLot (s : State) (k : Nat) : (loseHeld k s).nextLot = s.nextLot := by unfold loseHeld markUnrec; (repeat' split) <;> simp
@[simp] theorem loseHeld_pipes (s : State) (k : Nat) : (loseHeld k s).pipes = s.pipes := by unfold loseHeld markUnrec; (repeat' split) <;> simp
@[simp] theorem loseHeld_queries (s : State) (k : Nat) : (loseHeld k s).queries = s.queries := by unfold loseHeld markUnrec; (repeat' split) <;> simp
@[simp] theorem loseHeld_slots (s : State) (k : Nat) : (loseHeld k s).slots = s.slots := by unfold loseHeld markUnrec; (repeat' split) <;> simp
@[simp] theorem loseHeld_waitq (s : State) (k : Nat) : (loseHeld k s).waitq = s.waitq := by unfold loseHeld markUnrec; (repeat' split) <;> simp
@[simp] theorem loseHeld_opens (s : State) (k : Nat) : (loseHeld k s).opens = s.opens := by unfold loseHeld markUnrec; (repeat' split) <;> simp
@[simp] theorem loseHeld_porters (s : State) (k : Nat) : (loseHeld k s).porters = s.porters := by unfold loseHeld markUnrec; (repeat' split) <;> simp
@[simp] theorem loseHeld_units (s : State) (k : Nat) : (loseHeld k s).units = s.units := by unfold loseHeld markUnrec; (repeat' split) <;> simp
@[simp] theorem loseHeld_nextCall (s : State) (k : Nat) : (loseHeld k s).nextCall = s.nextCall := by unfold loseHeld markUnrec; (repeat' split) <;> simp
@[simp] theorem loseHeld_offReports (s : State) (k : Nat) : (loseHeld k s).offReports = s.offReports := by unfold loseHeld markUnrec; (repeat' split) <;> simp
@[simp] theorem loseHeld_ram (s : State) (k : Nat) : (loseHeld k s).ram = s.ram := by unfold loseHeld markUnrec; (repeat' split) <;> simp
@[simp] theorem loseHeld_dataOut (s : State) (k : Nat) : (loseHeld k s).dataOut = s.dataOut := by unfold loseHeld markUnrec; (repeat' split) <;> simp

@[simp] theorem dropSpoiled_pending (s : State) (ks : List Nat) : (dropSpoiled ks s).pending = s.pending := foldl_keep (fun u : State => u.pending) _ (fun t x => loseHeld_pending t x) _ _
@[simp] theorem dropSpoiled_now (s : State) (ks : List Nat) : (dropSpoiled ks s).now = s.now := foldl_keep (fun u : State => u.now) _ (fun t x => loseHeld_now t x) _ _
@[simp] theorem dropSpoiled_fresh (s : State) (ks : List Nat) : (dropSpoiled ks s).fresh = s.fresh := foldl_keep (fun u : State => u.fresh) _ (fun t x => loseHeld_fresh t x) _ _
@[simp] theorem dropSpoiled_pwr (s : State) (ks : List Nat) : (dropSpoiled ks s).pwr = s.pwr := foldl_keep (fun u : State => u.pwr) _ (fun t x => loseHeld_pwr t x) _ _
@[simp] theorem dropSpoiled_therm (s : State) (ks : List Nat) : (dropSpoiled ks s).therm = s.therm := foldl_keep (fun u : State => u.therm) _ (fun t x => loseHeld_therm t x) _ _
@[simp] theorem dropSpoiled_hu (s : State) (ks : List Nat) : (dropSpoiled ks s).hu = s.hu := foldl_keep (fun u : State => u.hu) _ (fun t x => loseHeld_hu t x) _ _
@[simp] theorem dropSpoiled_bcn (s : State) (ks : List Nat) : (dropSpoiled ks s).bcn = s.bcn := foldl_keep (fun u : State => u.bcn) _ (fun t x => loseHeld_bcn t x) _ _
@[simp] theorem dropSpoiled_bus (s : State) (ks : List Nat) : (dropSpoiled ks s).bus = s.bus := foldl_keep (fun u : State => u.bus) _ (fun t x => loseHeld_bus t x) _ _
@[simp] theorem dropSpoiled_keeper (s : State) (ks : List Nat) : (dropSpoiled ks s).keeper = s.keeper := foldl_keep (fun u : State => u.keeper) _ (fun t x => loseHeld_keeper t x) _ _
@[simp] theorem dropSpoiled_acc (s : State) (ks : List Nat) : (dropSpoiled ks s).acc = s.acc := foldl_keep (fun u : State => u.acc) _ (fun t x => loseHeld_acc t x) _ _
@[simp] theorem dropSpoiled_hb (s : State) (ks : List Nat) : (dropSpoiled ks s).hb = s.hb := foldl_keep (fun u : State => u.hb) _ (fun t x => loseHeld_hb t x) _ _
@[simp] theorem dropSpoiled_nv (s : State) (ks : List Nat) : (dropSpoiled ks s).nv = s.nv := foldl_keep (fun u : State => u.nv) _ (fun t x => loseHeld_nv t x) _ _
@[simp] theorem dropSpoiled_ns (s : State) (ks : List Nat) : (dropSpoiled ks s).ns = s.ns := foldl_keep (fun u : State => u.ns) _ (fun t x => loseHeld_ns t x) _ _
@[simp] theorem dropSpoiled_stalls (s : State) (ks : List Nat) : (dropSpoiled ks s).stalls = s.stalls := foldl_keep (fun u : State => u.stalls) _ (fun t x => loseHeld_stalls t x) _ _
@[simp] theorem dropSpoiled_lots (s : State) (ks : List Nat) : (dropSpoiled ks s).lots = s.lots := foldl_keep (fun u : State => u.lots) _ (fun t x => loseHeld_lots t x) _ _
@[simp] theorem dropSpoiled_nextLot (s : State) (ks : List Nat) : (dropSpoiled ks s).nextLot = s.nextLot := foldl_keep (fun u : State => u.nextLot) _ (fun t x => loseHeld_nextLot t x) _ _
@[simp] theorem dropSpoiled_pipes (s : State) (ks : List Nat) : (dropSpoiled ks s).pipes = s.pipes := foldl_keep (fun u : State => u.pipes) _ (fun t x => loseHeld_pipes t x) _ _
@[simp] theorem dropSpoiled_queries (s : State) (ks : List Nat) : (dropSpoiled ks s).queries = s.queries := foldl_keep (fun u : State => u.queries) _ (fun t x => loseHeld_queries t x) _ _
@[simp] theorem dropSpoiled_slots (s : State) (ks : List Nat) : (dropSpoiled ks s).slots = s.slots := foldl_keep (fun u : State => u.slots) _ (fun t x => loseHeld_slots t x) _ _
@[simp] theorem dropSpoiled_waitq (s : State) (ks : List Nat) : (dropSpoiled ks s).waitq = s.waitq := foldl_keep (fun u : State => u.waitq) _ (fun t x => loseHeld_waitq t x) _ _
@[simp] theorem dropSpoiled_opens (s : State) (ks : List Nat) : (dropSpoiled ks s).opens = s.opens := foldl_keep (fun u : State => u.opens) _ (fun t x => loseHeld_opens t x) _ _
@[simp] theorem dropSpoiled_porters (s : State) (ks : List Nat) : (dropSpoiled ks s).porters = s.porters := foldl_keep (fun u : State => u.porters) _ (fun t x => loseHeld_porters t x) _ _
@[simp] theorem dropSpoiled_units (s : State) (ks : List Nat) : (dropSpoiled ks s).units = s.units := foldl_keep (fun u : State => u.units) _ (fun t x => loseHeld_units t x) _ _
@[simp] theorem dropSpoiled_nextCall (s : State) (ks : List Nat) : (dropSpoiled ks s).nextCall = s.nextCall := foldl_keep (fun u : State => u.nextCall) _ (fun t x => loseHeld_nextCall t x) _ _
@[simp] theorem dropSpoiled_offReports (s : State) (ks : List Nat) : (dropSpoiled ks s).offReports = s.offReports := foldl_keep (fun u : State => u.offReports) _ (fun t x => loseHeld_offReports t x) _ _
@[simp] theorem dropSpoiled_ram (s : State) (ks : List Nat) : (dropSpoiled ks s).ram = s.ram := foldl_keep (fun u : State => u.ram) _ (fun t x => loseHeld_ram t x) _ _
@[simp] theorem dropSpoiled_dataOut (s : State) (ks : List Nat) : (dropSpoiled ks s).dataOut = s.dataOut := foldl_keep (fun u : State => u.dataOut) _ (fun t x => loseHeld_dataOut t x) _ _

@[simp] theorem startLowered_pending (s : State) : (startLowered s).pending = s.pending := by unfold startLowered; split <;> rfl
@[simp] theorem startLowered_now (s : State) : (startLowered s).now = s.now := by unfold startLowered; split <;> rfl
@[simp] theorem startLowered_fresh (s : State) : (startLowered s).fresh = s.fresh := by unfold startLowered; split <;> rfl
@[simp] theorem startLowered_pwr (s : State) : (startLowered s).pwr = s.pwr := by unfold startLowered; split <;> rfl
@[simp] theorem startLowered_therm (s : State) : (startLowered s).therm = s.therm := by unfold startLowered; split <;> rfl
@[simp] theorem startLowered_health (s : State) : (startLowered s).health = s.health := by unfold startLowered; split <;> rfl
@[simp] theorem startLowered_bcn (s : State) : (startLowered s).bcn = s.bcn := by unfold startLowered; split <;> rfl
@[simp] theorem startLowered_bus (s : State) : (startLowered s).bus = s.bus := by unfold startLowered; split <;> rfl
@[simp] theorem startLowered_keeper (s : State) : (startLowered s).keeper = s.keeper := by unfold startLowered; split <;> rfl
@[simp] theorem startLowered_acc (s : State) : (startLowered s).acc = s.acc := by unfold startLowered; split <;> rfl
@[simp] theorem startLowered_ev (s : State) : (startLowered s).ev = s.ev := by unfold startLowered; split <;> rfl
@[simp] theorem startLowered_hb (s : State) : (startLowered s).hb = s.hb := by unfold startLowered; split <;> rfl
@[simp] theorem startLowered_nv (s : State) : (startLowered s).nv = s.nv := by unfold startLowered; split <;> rfl
@[simp] theorem startLowered_ns (s : State) : (startLowered s).ns = s.ns := by unfold startLowered; split <;> rfl
@[simp] theorem startLowered_med (s : State) : (startLowered s).med = s.med := by unfold startLowered; split <;> rfl
@[simp] theorem startLowered_stalls (s : State) : (startLowered s).stalls = s.stalls := by unfold startLowered; split <;> rfl
@[simp] theorem startLowered_lots (s : State) : (startLowered s).lots = s.lots := by unfold startLowered; split <;> rfl
@[simp] theorem startLowered_nextLot (s : State) : (startLowered s).nextLot = s.nextLot := by unfold startLowered; split <;> rfl
@[simp] theorem startLowered_pipes (s : State) : (startLowered s).pipes = s.pipes := by unfold startLowered; split <;> rfl
@[simp] theorem startLowered_queries (s : State) : (startLowered s).queries = s.queries := by unfold startLowered; split <;> rfl
@[simp] theorem startLowered_slots (s : State) : (startLowered s).slots = s.slots := by unfold startLowered; split <;> rfl
@[simp] theorem startLowered_waitq (s : State) : (startLowered s).waitq = s.waitq := by unfold startLowered; split <;> rfl
@[simp] theorem startLowered_opens (s : State) : (startLowered s).opens = s.opens := by unfold startLowered; split <;> rfl
@[simp] theorem startLowered_porters (s : State) : (startLowered s).porters = s.porters := by unfold startLowered; split <;> rfl
@[simp] theorem startLowered_units (s : State) : (startLowered s).units = s.units := by unfold startLowered; split <;> rfl
@[simp] theorem startLowered_nextCall (s : State) : (startLowered s).nextCall = s.nextCall := by unfold startLowered; split <;> rfl
@[simp] theorem startLowered_offReports (s : State) : (startLowered s).offReports = s.offReports := by unfold startLowered; split <;> rfl
@[simp] theorem startLowered_ram (s : State) : (startLowered s).ram = s.ram := by unfold startLowered; split <;> rfl
@[simp] theorem startLowered_dataOut (s : State) : (startLowered s).dataOut = s.dataOut := by unfold startLowered; split <;> rfl

@[simp] theorem flushHeld_pending (s : State) (k : Nat) : (flushHeld k s).pending = s.pending := by unfold flushHeld; simp
@[simp] theorem flushHeld_now (s : State) (k : Nat) : (flushHeld k s).now = s.now := by unfold flushHeld; simp
@[simp] theorem flushHeld_fresh (s : State) (k : Nat) : (flushHeld k s).fresh = s.fresh := by unfold flushHeld; simp
@[simp] theorem flushHeld_pwr (s : State) (k : Nat) : (flushHeld k s).pwr = s.pwr := by unfold flushHeld; simp
@[simp] theorem flushHeld_therm (s : State) (k : Nat) : (flushHeld k s).therm = s.therm := by unfold flushHeld; simp
@[simp] theorem flushHeld_bcn (s : State) (k : Nat) : (flushHeld k s).bcn = s.bcn := by unfold flushHeld; simp
@[simp] theorem flushHeld_bus (s : State) (k : Nat) : (flushHeld k s).bus = s.bus := by unfold flushHeld; simp
@[simp] theorem flushHeld_keeper (s : State) (k : Nat) : (flushHeld k s).keeper = s.keeper := by unfold flushHeld; simp
@[simp] theorem flushHeld_acc (s : State) (k : Nat) : (flushHeld k s).acc = s.acc := by unfold flushHeld; simp
@[simp] theorem flushHeld_hb (s : State) (k : Nat) : (flushHeld k s).hb = s.hb := by unfold flushHeld; simp
@[simp] theorem flushHeld_nv (s : State) (k : Nat) : (flushHeld k s).nv = s.nv := by unfold flushHeld; simp
@[simp] theorem flushHeld_ns (s : State) (k : Nat) : (flushHeld k s).ns = s.ns := by unfold flushHeld; simp
@[simp] theorem flushHeld_stalls (s : State) (k : Nat) : (flushHeld k s).stalls = s.stalls := by unfold flushHeld; simp
@[simp] theorem flushHeld_lots (s : State) (k : Nat) : (flushHeld k s).lots = s.lots := by unfold flushHeld; simp
@[simp] theorem flushHeld_nextLot (s : State) (k : Nat) : (flushHeld k s).nextLot = s.nextLot := by unfold flushHeld; simp
@[simp] theorem flushHeld_pipes (s : State) (k : Nat) : (flushHeld k s).pipes = s.pipes := by unfold flushHeld; simp
@[simp] theorem flushHeld_queries (s : State) (k : Nat) : (flushHeld k s).queries = s.queries := by unfold flushHeld; simp
@[simp] theorem flushHeld_slots (s : State) (k : Nat) : (flushHeld k s).slots = s.slots := by unfold flushHeld; simp
@[simp] theorem flushHeld_waitq (s : State) (k : Nat) : (flushHeld k s).waitq = s.waitq := by unfold flushHeld; simp
@[simp] theorem flushHeld_opens (s : State) (k : Nat) : (flushHeld k s).opens = s.opens := by unfold flushHeld; simp
@[simp] theorem flushHeld_porters (s : State) (k : Nat) : (flushHeld k s).porters = s.porters := by unfold flushHeld; simp
@[simp] theorem flushHeld_units (s : State) (k : Nat) : (flushHeld k s).units = s.units := by unfold flushHeld; simp
@[simp] theorem flushHeld_nextCall (s : State) (k : Nat) : (flushHeld k s).nextCall = s.nextCall := by unfold flushHeld; simp
@[simp] theorem flushHeld_offReports (s : State) (k : Nat) : (flushHeld k s).offReports = s.offReports := by unfold flushHeld; simp
@[simp] theorem flushHeld_ram (s : State) (k : Nat) : (flushHeld k s).ram = s.ram := by unfold flushHeld; simp
@[simp] theorem flushHeld_dataOut (s : State) (k : Nat) : (flushHeld k s).dataOut = s.dataOut := by unfold flushHeld; simp

@[simp] theorem cleanStop_pending (s : State) : (cleanStop s).pending = s.pending := by unfold cleanStop; dsimp only
@[simp] theorem cleanStop_now (s : State) : (cleanStop s).now = s.now := by unfold cleanStop; dsimp only
@[simp] theorem cleanStop_fresh (s : State) : (cleanStop s).fresh = s.fresh := by unfold cleanStop; dsimp only
@[simp] theorem cleanStop_pwr (s : State) : (cleanStop s).pwr = s.pwr := by unfold cleanStop; dsimp only
@[simp] theorem cleanStop_therm (s : State) : (cleanStop s).therm = s.therm := by unfold cleanStop; dsimp only
@[simp] theorem cleanStop_hu (s : State) : (cleanStop s).hu = s.hu := by unfold cleanStop; dsimp only
@[simp] theorem cleanStop_health (s : State) : (cleanStop s).health = s.health := by unfold cleanStop; dsimp only
@[simp] theorem cleanStop_bcn (s : State) : (cleanStop s).bcn = s.bcn := by unfold cleanStop; dsimp only
@[simp] theorem cleanStop_bus (s : State) : (cleanStop s).bus = s.bus := by unfold cleanStop; dsimp only
@[simp] theorem cleanStop_keeper (s : State) : (cleanStop s).keeper = s.keeper := by unfold cleanStop; dsimp only
@[simp] theorem cleanStop_acc (s : State) : (cleanStop s).acc = s.acc := by unfold cleanStop; dsimp only
@[simp] theorem cleanStop_ev (s : State) : (cleanStop s).ev = s.ev := by unfold cleanStop; dsimp only
@[simp] theorem cleanStop_hb (s : State) : (cleanStop s).hb = s.hb := by unfold cleanStop; dsimp only
@[simp] theorem cleanStop_nv (s : State) : (cleanStop s).nv = s.nv := by unfold cleanStop; dsimp only
@[simp] theorem cleanStop_ns (s : State) : (cleanStop s).ns = s.ns := by unfold cleanStop; dsimp only
@[simp] theorem cleanStop_stalls (s : State) : (cleanStop s).stalls = s.stalls := by unfold cleanStop; dsimp only
@[simp] theorem cleanStop_lots (s : State) : (cleanStop s).lots = s.lots := by unfold cleanStop; dsimp only
@[simp] theorem cleanStop_nextLot (s : State) : (cleanStop s).nextLot = s.nextLot := by unfold cleanStop; dsimp only
@[simp] theorem cleanStop_pipes (s : State) : (cleanStop s).pipes = s.pipes := by unfold cleanStop; dsimp only
@[simp] theorem cleanStop_queries (s : State) : (cleanStop s).queries = s.queries := by unfold cleanStop; dsimp only
@[simp] theorem cleanStop_slots (s : State) : (cleanStop s).slots = s.slots := by unfold cleanStop; dsimp only
@[simp] theorem cleanStop_waitq (s : State) : (cleanStop s).waitq = s.waitq := by unfold cleanStop; dsimp only
@[simp] theorem cleanStop_opens (s : State) : (cleanStop s).opens = s.opens := by unfold cleanStop; dsimp only
@[simp] theorem cleanStop_porters (s : State) : (cleanStop s).porters = s.porters := by unfold cleanStop; dsimp only
@[simp] theorem cleanStop_units (s : State) : (cleanStop s).units = s.units := by unfold cleanStop; dsimp only
@[simp] theorem cleanStop_nextCall (s : State) : (cleanStop s).nextCall = s.nextCall := by unfold cleanStop; dsimp only
@[simp] theorem cleanStop_offReports (s : State) : (cleanStop s).offReports = s.offReports := by unfold cleanStop; dsimp only
@[simp] theorem cleanStop_ram (s : State) : (cleanStop s).ram = s.ram := by unfold cleanStop; dsimp only
@[simp] theorem cleanStop_dataOut (s : State) : (cleanStop s).dataOut = s.dataOut := by unfold cleanStop; dsimp only

@[simp] theorem endShutdown_pending (s : State) : (endShutdown s).pending = s.pending := by unfold endShutdown; split <;> simp
@[simp] theorem endShutdown_now (s : State) : (endShutdown s).now = s.now := by unfold endShutdown; split <;> simp
@[simp] theorem endShutdown_fresh (s : State) : (endShutdown s).fresh = s.fresh := by unfold endShutdown; split <;> simp
@[simp] theorem endShutdown_pwr (s : State) : (endShutdown s).pwr = s.pwr := by unfold endShutdown; split <;> simp
@[simp] theorem endShutdown_therm (s : State) : (endShutdown s).therm = s.therm := by unfold endShutdown; split <;> simp
@[simp] theorem endShutdown_bcn (s : State) : (endShutdown s).bcn = s.bcn := by unfold endShutdown; split <;> simp
@[simp] theorem endShutdown_bus (s : State) : (endShutdown s).bus = s.bus := by unfold endShutdown; split <;> simp
@[simp] theorem endShutdown_keeper (s : State) : (endShutdown s).keeper = s.keeper := by unfold endShutdown; split <;> simp
@[simp] theorem endShutdown_acc (s : State) : (endShutdown s).acc = s.acc := by unfold endShutdown; split <;> simp
@[simp] theorem endShutdown_hb (s : State) : (endShutdown s).hb = s.hb := by unfold endShutdown; split <;> simp
@[simp] theorem endShutdown_ns (s : State) : (endShutdown s).ns = s.ns := by unfold endShutdown; split <;> simp
@[simp] theorem endShutdown_stalls (s : State) : (endShutdown s).stalls = s.stalls := by unfold endShutdown; split <;> simp
@[simp] theorem endShutdown_lots (s : State) : (endShutdown s).lots = s.lots := by unfold endShutdown; split <;> simp
@[simp] theorem endShutdown_nextLot (s : State) : (endShutdown s).nextLot = s.nextLot := by unfold endShutdown; split <;> simp
@[simp] theorem endShutdown_pipes (s : State) : (endShutdown s).pipes = s.pipes := by unfold endShutdown; split <;> simp
@[simp] theorem endShutdown_queries (s : State) : (endShutdown s).queries = s.queries := by unfold endShutdown; split <;> simp
@[simp] theorem endShutdown_slots (s : State) : (endShutdown s).slots = s.slots := by unfold endShutdown; split <;> simp
@[simp] theorem endShutdown_waitq (s : State) : (endShutdown s).waitq = s.waitq := by unfold endShutdown; split <;> simp
@[simp] theorem endShutdown_opens (s : State) : (endShutdown s).opens = s.opens := by unfold endShutdown; split <;> simp
@[simp] theorem endShutdown_porters (s : State) : (endShutdown s).porters = s.porters := by unfold endShutdown; split <;> simp
@[simp] theorem endShutdown_units (s : State) : (endShutdown s).units = s.units := by unfold endShutdown; split <;> simp
@[simp] theorem endShutdown_nextCall (s : State) : (endShutdown s).nextCall = s.nextCall := by unfold endShutdown; split <;> simp
@[simp] theorem endShutdown_offReports (s : State) : (endShutdown s).offReports = s.offReports := by unfold endShutdown; split <;> simp
@[simp] theorem endShutdown_ram (s : State) : (endShutdown s).ram = s.ram := by unfold endShutdown; split <;> simp
@[simp] theorem endShutdown_dataOut (s : State) : (endShutdown s).dataOut = s.dataOut := by unfold endShutdown; split <;> simp

@[simp] theorem sendCompletions_pending (s : State) : (sendCompletions s).pending = s.pending := by unfold sendCompletions; dsimp only; split <;> rfl
@[simp] theorem sendCompletions_now (s : State) : (sendCompletions s).now = s.now := by unfold sendCompletions; dsimp only; split <;> rfl
@[simp] theorem sendCompletions_fresh (s : State) : (sendCompletions s).fresh = s.fresh := by unfold sendCompletions; dsimp only; split <;> rfl
@[simp] theorem sendCompletions_pwr (s : State) : (sendCompletions s).pwr = s.pwr := by unfold sendCompletions; dsimp only; split <;> rfl
@[simp] theorem sendCompletions_therm (s : State) : (sendCompletions s).therm = s.therm := by unfold sendCompletions; dsimp only; split <;> rfl
@[simp] theorem sendCompletions_hu (s : State) : (sendCompletions s).hu = s.hu := by unfold sendCompletions; dsimp only; split <;> rfl
@[simp] theorem sendCompletions_health (s : State) : (sendCompletions s).health = s.health := by unfold sendCompletions; dsimp only; split <;> rfl
@[simp] theorem sendCompletions_bcn (s : State) : (sendCompletions s).bcn = s.bcn := by unfold sendCompletions; dsimp only; split <;> rfl
@[simp] theorem sendCompletions_bus (s : State) : (sendCompletions s).bus = s.bus := by unfold sendCompletions; dsimp only; split <;> rfl
@[simp] theorem sendCompletions_keeper (s : State) : (sendCompletions s).keeper = s.keeper := by unfold sendCompletions; dsimp only; split <;> rfl
@[simp] theorem sendCompletions_acc (s : State) : (sendCompletions s).acc = s.acc := by unfold sendCompletions; dsimp only; split <;> rfl
@[simp] theorem sendCompletions_hb (s : State) : (sendCompletions s).hb = s.hb := by unfold sendCompletions; dsimp only; split <;> rfl
@[simp] theorem sendCompletions_ns (s : State) : (sendCompletions s).ns = s.ns := by unfold sendCompletions; dsimp only; split <;> rfl
@[simp] theorem sendCompletions_med (s : State) : (sendCompletions s).med = s.med := by unfold sendCompletions; dsimp only; split <;> rfl
@[simp] theorem sendCompletions_stalls (s : State) : (sendCompletions s).stalls = s.stalls := by unfold sendCompletions; dsimp only; split <;> rfl
@[simp] theorem sendCompletions_lots (s : State) : (sendCompletions s).lots = s.lots := by unfold sendCompletions; dsimp only; split <;> rfl
@[simp] theorem sendCompletions_nextLot (s : State) : (sendCompletions s).nextLot = s.nextLot := by unfold sendCompletions; dsimp only; split <;> rfl
@[simp] theorem sendCompletions_pipes (s : State) : (sendCompletions s).pipes = s.pipes := by unfold sendCompletions; dsimp only; split <;> rfl
@[simp] theorem sendCompletions_queries (s : State) : (sendCompletions s).queries = s.queries := by unfold sendCompletions; dsimp only; split <;> rfl
@[simp] theorem sendCompletions_slots (s : State) : (sendCompletions s).slots = s.slots := by unfold sendCompletions; dsimp only; split <;> rfl
@[simp] theorem sendCompletions_waitq (s : State) : (sendCompletions s).waitq = s.waitq := by unfold sendCompletions; dsimp only; split <;> rfl
@[simp] theorem sendCompletions_opens (s : State) : (sendCompletions s).opens = s.opens := by unfold sendCompletions; dsimp only; split <;> rfl
@[simp] theorem sendCompletions_porters (s : State) : (sendCompletions s).porters = s.porters := by unfold sendCompletions; dsimp only; split <;> rfl
@[simp] theorem sendCompletions_units (s : State) : (sendCompletions s).units = s.units := by unfold sendCompletions; dsimp only; split <;> rfl
@[simp] theorem sendCompletions_nextCall (s : State) : (sendCompletions s).nextCall = s.nextCall := by unfold sendCompletions; dsimp only; split <;> rfl
@[simp] theorem sendCompletions_offReports (s : State) : (sendCompletions s).offReports = s.offReports := by unfold sendCompletions; dsimp only; split <;> rfl
@[simp] theorem sendCompletions_ram (s : State) : (sendCompletions s).ram = s.ram := by unfold sendCompletions; dsimp only; split <;> rfl
@[simp] theorem sendCompletions_dataOut (s : State) : (sendCompletions s).dataOut = s.dataOut := by unfold sendCompletions; dsimp only; split <;> rfl

@[simp] theorem publish_pending (s : State) : (publish s).pending = s.pending := by unfold publish; split <;> simp
@[simp] theorem publish_now (s : State) : (publish s).now = s.now := by unfold publish; split <;> simp
@[simp] theorem publish_fresh (s : State) : (publish s).fresh = s.fresh := by unfold publish; split <;> simp
@[simp] theorem publish_pwr (s : State) : (publish s).pwr = s.pwr := by unfold publish; split <;> simp
@[simp] theorem publish_therm (s : State) : (publish s).therm = s.therm := by unfold publish; split <;> simp
@[simp] theorem publish_bcn (s : State) : (publish s).bcn = s.bcn := by unfold publish; split <;> simp
@[simp] theorem publish_bus (s : State) : (publish s).bus = s.bus := by unfold publish; split <;> simp
@[simp] theorem publish_keeper (s : State) : (publish s).keeper = s.keeper := by unfold publish; split <;> simp
@[simp] theorem publish_acc (s : State) : (publish s).acc = s.acc := by unfold publish; split <;> simp
@[simp] theorem publish_hb (s : State) : (publish s).hb = s.hb := by unfold publish; split <;> simp
@[simp] theorem publish_ns (s : State) : (publish s).ns = s.ns := by unfold publish; split <;> simp
@[simp] theorem publish_stalls (s : State) : (publish s).stalls = s.stalls := by unfold publish; split <;> simp
@[simp] theorem publish_lots (s : State) : (publish s).lots = s.lots := by unfold publish; split <;> simp
@[simp] theorem publish_nextLot (s : State) : (publish s).nextLot = s.nextLot := by unfold publish; split <;> simp
@[simp] theorem publish_pipes (s : State) : (publish s).pipes = s.pipes := by unfold publish; split <;> simp
@[simp] theorem publish_queries (s : State) : (publish s).queries = s.queries := by unfold publish; split <;> simp
@[simp] theorem publish_slots (s : State) : (publish s).slots = s.slots := by unfold publish; split <;> simp
@[simp] theorem publish_waitq (s : State) : (publish s).waitq = s.waitq := by unfold publish; split <;> simp
@[simp] theorem publish_opens (s : State) : (publish s).opens = s.opens := by unfold publish; split <;> simp
@[simp] theorem publish_porters (s : State) : (publish s).porters = s.porters := by unfold publish; split <;> simp
@[simp] theorem publish_units (s : State) : (publish s).units = s.units := by unfold publish; split <;> simp
@[simp] theorem publish_nextCall (s : State) : (publish s).nextCall = s.nextCall := by unfold publish; split <;> simp
@[simp] theorem publish_offReports (s : State) : (publish s).offReports = s.offReports := by unfold publish; split <;> simp
@[simp] theorem publish_ram (s : State) : (publish s).ram = s.ram := by unfold publish; split <;> simp
@[simp] theorem publish_dataOut (s : State) : (publish s).dataOut = s.dataOut := by unfold publish; split <;> simp

/-! Porters and unit instances. -/

@[simp] theorem servePorters_pending (s : State) : (servePorters s).pending = s.pending := rfl
@[simp] theorem servePorters_now (s : State) : (servePorters s).now = s.now := rfl
@[simp] theorem servePorters_fresh (s : State) : (servePorters s).fresh = s.fresh := rfl
@[simp] theorem servePorters_pwr (s : State) : (servePorters s).pwr = s.pwr := rfl
@[simp] theorem servePorters_therm (s : State) : (servePorters s).therm = s.therm := rfl
@[simp] theorem servePorters_hu (s : State) : (servePorters s).hu = s.hu := rfl
@[simp] theorem servePorters_health (s : State) : (servePorters s).health = s.health := rfl
@[simp] theorem servePorters_bcn (s : State) : (servePorters s).bcn = s.bcn := rfl
@[simp] theorem servePorters_bus (s : State) : (servePorters s).bus = s.bus := rfl
@[simp] theorem servePorters_keeper (s : State) : (servePorters s).keeper = s.keeper := rfl
@[simp] theorem servePorters_acc (s : State) : (servePorters s).acc = s.acc := rfl
@[simp] theorem servePorters_ev (s : State) : (servePorters s).ev = s.ev := rfl
@[simp] theorem servePorters_hb (s : State) : (servePorters s).hb = s.hb := rfl
@[simp] theorem servePorters_nv (s : State) : (servePorters s).nv = s.nv := rfl
@[simp] theorem servePorters_ns (s : State) : (servePorters s).ns = s.ns := rfl
@[simp] theorem servePorters_med (s : State) : (servePorters s).med = s.med := rfl
@[simp] theorem servePorters_stalls (s : State) : (servePorters s).stalls = s.stalls := rfl
@[simp] theorem servePorters_lots (s : State) : (servePorters s).lots = s.lots := rfl
@[simp] theorem servePorters_nextLot (s : State) : (servePorters s).nextLot = s.nextLot := rfl
@[simp] theorem servePorters_pipes (s : State) : (servePorters s).pipes = s.pipes := rfl
@[simp] theorem servePorters_queries (s : State) : (servePorters s).queries = s.queries := rfl
@[simp] theorem servePorters_slots (s : State) : (servePorters s).slots = s.slots := rfl
@[simp] theorem servePorters_waitq (s : State) : (servePorters s).waitq = s.waitq := rfl
@[simp] theorem servePorters_opens (s : State) : (servePorters s).opens = s.opens := rfl
@[simp] theorem servePorters_units (s : State) : (servePorters s).units = s.units := rfl
@[simp] theorem servePorters_nextCall (s : State) : (servePorters s).nextCall = s.nextCall := rfl
@[simp] theorem servePorters_offReports (s : State) : (servePorters s).offReports = s.offReports := rfl
@[simp] theorem servePorters_ram (s : State) : (servePorters s).ram = s.ram := rfl
@[simp] theorem servePorters_dataOut (s : State) : (servePorters s).dataOut = s.dataOut := rfl

@[simp] theorem serveUnits_pending (s : State) : (serveUnits s).pending = s.pending := rfl
@[simp] theorem serveUnits_now (s : State) : (serveUnits s).now = s.now := rfl
@[simp] theorem serveUnits_fresh (s : State) : (serveUnits s).fresh = s.fresh := rfl
@[simp] theorem serveUnits_pwr (s : State) : (serveUnits s).pwr = s.pwr := rfl
@[simp] theorem serveUnits_therm (s : State) : (serveUnits s).therm = s.therm := rfl
@[simp] theorem serveUnits_hu (s : State) : (serveUnits s).hu = s.hu := rfl
@[simp] theorem serveUnits_health (s : State) : (serveUnits s).health = s.health := rfl
@[simp] theorem serveUnits_bcn (s : State) : (serveUnits s).bcn = s.bcn := rfl
@[simp] theorem serveUnits_bus (s : State) : (serveUnits s).bus = s.bus := rfl
@[simp] theorem serveUnits_keeper (s : State) : (serveUnits s).keeper = s.keeper := rfl
@[simp] theorem serveUnits_acc (s : State) : (serveUnits s).acc = s.acc := rfl
@[simp] theorem serveUnits_ev (s : State) : (serveUnits s).ev = s.ev := rfl
@[simp] theorem serveUnits_hb (s : State) : (serveUnits s).hb = s.hb := rfl
@[simp] theorem serveUnits_nv (s : State) : (serveUnits s).nv = s.nv := rfl
@[simp] theorem serveUnits_ns (s : State) : (serveUnits s).ns = s.ns := rfl
@[simp] theorem serveUnits_med (s : State) : (serveUnits s).med = s.med := rfl
@[simp] theorem serveUnits_stalls (s : State) : (serveUnits s).stalls = s.stalls := rfl
@[simp] theorem serveUnits_lots (s : State) : (serveUnits s).lots = s.lots := rfl
@[simp] theorem serveUnits_nextLot (s : State) : (serveUnits s).nextLot = s.nextLot := rfl
@[simp] theorem serveUnits_pipes (s : State) : (serveUnits s).pipes = s.pipes := rfl
@[simp] theorem serveUnits_queries (s : State) : (serveUnits s).queries = s.queries := rfl
@[simp] theorem serveUnits_slots (s : State) : (serveUnits s).slots = s.slots := rfl
@[simp] theorem serveUnits_waitq (s : State) : (serveUnits s).waitq = s.waitq := rfl
@[simp] theorem serveUnits_opens (s : State) : (serveUnits s).opens = s.opens := rfl
@[simp] theorem serveUnits_porters (s : State) : (serveUnits s).porters = s.porters := rfl
@[simp] theorem serveUnits_nextCall (s : State) : (serveUnits s).nextCall = s.nextCall := rfl
@[simp] theorem serveUnits_offReports (s : State) : (serveUnits s).offReports = s.offReports := rfl
@[simp] theorem serveUnits_ram (s : State) : (serveUnits s).ram = s.ram := rfl
@[simp] theorem serveUnits_dataOut (s : State) : (serveUnits s).dataOut = s.dataOut := rfl

@[simp] theorem settle_pending (s : State) : (settle s).pending = s.pending := by unfold settle; simp
@[simp] theorem settle_now (s : State) : (settle s).now = s.now := by unfold settle; simp
@[simp] theorem settle_fresh (s : State) : (settle s).fresh = s.fresh := by unfold settle; simp
@[simp] theorem settle_pwr (s : State) : (settle s).pwr = s.pwr := by unfold settle; simp
@[simp] theorem settle_therm (s : State) : (settle s).therm = s.therm := by unfold settle; simp
@[simp] theorem settle_bcn (s : State) : (settle s).bcn = s.bcn := by unfold settle; simp
@[simp] theorem settle_bus (s : State) : (settle s).bus = s.bus := by unfold settle; simp
@[simp] theorem settle_keeper (s : State) : (settle s).keeper = s.keeper := by unfold settle; simp
@[simp] theorem settle_acc (s : State) : (settle s).acc = s.acc := by unfold settle; simp
@[simp] theorem settle_hb (s : State) : (settle s).hb = s.hb := by unfold settle; simp
@[simp] theorem settle_ns (s : State) : (settle s).ns = s.ns := by unfold settle; simp
@[simp] theorem settle_stalls (s : State) : (settle s).stalls = s.stalls := by unfold settle; simp
@[simp] theorem settle_lots (s : State) : (settle s).lots = s.lots := by unfold settle; simp
@[simp] theorem settle_nextLot (s : State) : (settle s).nextLot = s.nextLot := by unfold settle; simp
@[simp] theorem settle_pipes (s : State) : (settle s).pipes = s.pipes := by unfold settle; simp
@[simp] theorem settle_queries (s : State) : (settle s).queries = s.queries := by unfold settle; simp
@[simp] theorem settle_slots (s : State) : (settle s).slots = s.slots := by unfold settle; simp
@[simp] theorem settle_waitq (s : State) : (settle s).waitq = s.waitq := by unfold settle; simp
@[simp] theorem settle_opens (s : State) : (settle s).opens = s.opens := by unfold settle; simp
@[simp] theorem settle_nextCall (s : State) : (settle s).nextCall = s.nextCall := by unfold settle; simp
@[simp] theorem settle_offReports (s : State) : (settle s).offReports = s.offReports := by unfold settle; simp
@[simp] theorem settle_ram (s : State) : (settle s).ram = s.ram := by unfold settle; simp
@[simp] theorem settle_dataOut (s : State) : (settle s).dataOut = s.dataOut := by unfold settle; simp

end Sys2Proof.Machine
end

