-- ==== Sys2Proof/Laws/Memory.lean ====
section
/-! SUPPORT. Byte memories: a write keeps the canonical form, a byte written is read back, and no other byte changes. -/

namespace Sys2Proof.Laws

open Sys2Proof Sys2Proof.Machine

theorem write_wfFrom (d : Nat → Byte) (m : List Host.Cell) (a : Nat) (v : Byte) (lo : Nat) (h : Memory.wfFrom d lo m) (ha : lo ≤ a) :
    Memory.wfFrom d lo (Memory.write d m a v) := by
  induction m generalizing lo with
  | nil =>
    unfold Memory.write
    split
    · exact h
    · exact ⟨ha, ‹_›, trivial⟩
  | cons p m ih =>
    obtain ⟨k, w⟩ := p
    obtain ⟨h1, h2, h3⟩ := h
    unfold Memory.write
    split
    · split
      · exact ⟨h1, h2, h3⟩
      · exact ⟨ha, ‹_›, by omega, h2, h3⟩
    · split
      · subst_vars
        split
        · cases m with
          | nil => trivial
          | cons q m => exact ⟨Nat.le_trans (Nat.le_succ_of_le h1) h3.1, h3.2⟩
        · exact ⟨ha, ‹_›, h3⟩
      · exact ⟨h1, h2, ih (k + 1) h3 (by omega)⟩

/-- A write keeps the canonical form. -/
theorem write_wf (d : Nat → Byte) (m : List Host.Cell) (a : Nat) (v : Byte) (h : Memory.wf d m) : Memory.wf d (Memory.write d m a v) :=
  write_wfFrom d m a v 0 h (Nat.zero_le a)

/-- Writing bytes keeps the canonical form. -/
theorem writeBytes_wf (d : Nat → Byte) (m : List Host.Cell) (a : Nat) (bs : List Byte) (h : Memory.wf d m) :
    Memory.wf d (Memory.writeBytes d m a bs) := by
  induction bs generalizing m a with
  | nil => exact h
  | cons b bs ih => exact ih _ _ (write_wf d m a b h)

/-- Below its first address a canonical memory reads as unlisted. -/
theorem read_below (d : Nat → Byte) (m : List Host.Cell) (lo a : Nat) (h : Memory.wfFrom d lo m) (ha : a < lo) : Memory.read d m a = d a := by
  induction m generalizing lo with
  | nil => rfl
  | cons p m ih =>
    obtain ⟨k, w⟩ := p
    obtain ⟨h1, _, h3⟩ := h
    rw [Memory.read, if_neg (by omega)]
    exact ih (k + 1) h3 (by omega)

/-- A byte written is read back. -/
theorem read_write_self (d : Nat → Byte) (m : List Host.Cell) (a : Nat) (v : Byte) (lo : Nat) (h : Memory.wfFrom d lo m) :
    Memory.read d (Memory.write d m a v) a = v := by
  induction m generalizing lo with
  | nil => unfold Memory.write; split <;> simp_all [Memory.read]
  | cons p m ih =>
    obtain ⟨k, w⟩ := p
    obtain ⟨h1, h2, h3⟩ := h
    unfold Memory.write
    split
    · split
      · subst_vars
        exact read_below d ((k, w) :: m) k a ⟨Nat.le_refl k, h2, h3⟩ ‹_›
      · simp [Memory.read]
    · split
      · subst_vars
        split
        · subst_vars; exact read_below d m (k + 1) k h3 (by omega)
        · simp [Memory.read]
      · rw [Memory.read, if_neg (by omega)]; exact ih (k + 1) h3

/-- A write leaves every other byte. -/
theorem read_write_ne (d : Nat → Byte) (m : List Host.Cell) (a x : Nat) (v : Byte) (h : x ≠ a) :
    Memory.read d (Memory.write d m a v) x = Memory.read d m x := by
  induction m with
  | nil => unfold Memory.write; split <;> simp [Memory.read, h.symm]
  | cons p m ih =>
    obtain ⟨k, w⟩ := p
    unfold Memory.write
    split
    · split <;> simp [Memory.read, h.symm]
    · split
      · subst_vars; split <;> simp [Memory.read, h.symm]
      · simp only [Memory.read]; split <;> simp_all

/-- Reset lists nothing. -/
theorem reset_ram_wf : Memory.wf ramByte State.reset.ram := trivial

end Sys2Proof.Laws
end

