-- ==== Sys2Proof/WellFormed.lean ====
section
/-! DEFINITION. Well-formed commands: operands within the ranges that the spec gives the thing they name. A term
outside them names nothing on the card. -/

namespace Sys2Proof

/-- A submission entry's host buffer: at most 2 MiB and its metadata (MDTS = 9, R94). -/
def Submission.wf (s : Submission) : Bool := decide (s.buf.length ≤ 2097152 + 4096) && decide (s.md.length ≤ 4096)

/-- A namespace number (R63) and a 40-bit LBA (R165). -/
def nsLba (nsid lba : Nat) : Bool := decide (1 ≤ nsid) && decide (nsid ≤ 64) && decide (lba < 2 ^ 40)

/-- The sectors of harbour flash are numbered below 512 (R318). -/
def HalfErases.wf (x : HalfErases) : Bool := x.fails.all fun k => decide (k < 512)

/-- Held data that a fault hit is data of a namespace. -/
def Hit.wf (x : Hit) : Bool :=
  match x with
  | .held n l => nsLba n l
  | .unused | .command _ | .lot _ | .core => true

/-- What a detected fault hit names something on the card. -/
def Comparator.wf (x : Comparator) : Bool :=
  match x with
  | .eccUncorr _ hit | .e2eCrc _ hit _ => hit.wf
  | .cores _ | .romSequencer | .checker | .beaconAux | .samplerAux | .unit _ | .eccCorr _ | .training => true

/-- Operand ranges of every command. -/
def wellFormed (i : Instr) : Bool :=
  match i with
  | .activeBankVerified _ _ => true
  | .bankCutoff k => decide (k ≤ 131072)
  | .doorbellWrite _ _ _ es => es.all Submission.wf
  | .mediaReadComplete _ x d _ _ => nsLba x.1 x.2 && decide (d ≤ 9)
  | .copyComplete n l _ _ _ _ => nsLba n l
  | .patrolRead _ _ d _ _ _ => decide (d ≤ 9)
  | .mapPageFill n pg => nsLba n (pg * 512)
  | .lotCloseIdle n => decide (1 ≤ n) && decide (n ≤ 64)
  | .bar2Write off bs => decide (off + bs.length ≤ 0x04000000)
  | .bar2Read off len => decide (off + len ≤ 0x04000000)
  | .arcRegisterWrite _ r _ => decide (0x0240 ≤ r.toNat) && decide (r.toNat ≤ 0x02FF)
  | .auxPowerUp _ => true
  | .halfEraseRecovery x => x.wf
  | .rebuild _ _ _ => true
  | .controllerEnable _ _ _ _ => true
  | .shutdownNotification _ => true
  | .capFail _ => true
  | .chargeMeasurement _ _ _ _ => true
  | .holdupMeasure _ _ => true
  | .measurementComplete _ _ _ _ => true
  | .rangeLockGrant _ => true
  | .createIoSq _ => true
  | .deleteIoSq _ => true
  | .createIoCq _ => true
  | .deleteIoCq _ => true
  | .getLogPage _ => true
  | .identify _ => true
  | .abort _ => true
  | .setFeaturesArbitration _ => true
  | .setFeaturesPowerManagement _ => true
  | .setFeaturesTemperatureThreshold _ => true
  | .setFeaturesErrorRecovery _ => true
  | .setFeaturesVolatileWriteCache _ => true
  | .setFeaturesNumberOfQueues _ => true
  | .setFeaturesInterruptCoalescing _ => true
  | .setFeaturesInterruptVectorConfig _ => true
  | .setFeaturesWriteAtomicity _ => true
  | .setFeaturesAsyncEventConfig _ => true
  | .getFeatures _ => true
  | .asynchronousEventRequest _ => true
  | .namespaceCreate _ => true
  | .namespaceDelete _ => true
  | .namespaceAttachment _ => true
  | .firmwareImageDownload _ => true
  | .firmwareCommitReplace _ => true
  | .firmwareCommitReplaceActivate _ => true
  | .firmwareCommitActivate _ => true
  | .formatNvm _ => true
  | .sanitizeBlockErase _ => true
  | .sanitizeCryptoErase _ => true
  | .deviceSelfTest _ => true
  | .stallLoad _ => true
  | .stallStop _ => true
  | .stallRun _ => true
  | .stallRestart _ _ => true
  | .stallClearSlow _ => true
  | .stallPowerOff _ => true
  | .stallPowerOn _ _ => true
  | .pipelineSet _ => true
  | .pipelineStart _ => true
  | .pipelineStop _ => true
  | .pipelineDelete _ => true
  | .pipelineIndex _ => true
  | .tallyRead _ => true
  | .keeperHello _ => true
  | .keeperProve _ => true
  | .keeperClose _ => true
  | .keeperArm _ => true
  | .keeperRegister _ => true
  | .keeperCommitRules _ => true
  | .attest _ => true
  | .harbourMailbox _ => true
  | .read _ => true
  | .write _ => true
  | .compare _ => true
  | .verify _ => true
  | .writeZeroes _ => true
  | .datasetManagement _ => true
  | .flush _ => true
  | .recordAppend _ => true
  | .arcQuery _ => true
  | .fetchResult _ => true
  | .releaseResult _ => true
  | .cycleCommit _ => true
  | .indexLookup _ => true
  | .flushCompletion _ => true
  | .dieStatusTimeout _ => true
  | .foldStart _ => true
  | .gcStart _ => true
  | .countChange _ _ => true
  | .indexEvent _ => true
  | .ssiFrameStart _ => true
  | .ssiWord _ _ _ => true
  | .internalCount _ => true
  | .extrapolationStop _ => true
  | .line _ => true
  | .recordHeaderLands _ _ => true
  | .commitMarkDurable _ => true
  | .bcnFeed _ _ _ => true
  | .resume _ => true
  | .zeroNow _ => true
  | .zeroArm _ => true
  | .bcnConfigWrite _ _ _ => true
  | .bcnIntRateWrite _ _ => true
  | .bcnCommitCtlWrite _ _ => true
  | .bcnStampLoRead _ _ => true
  | .lotIssue _ => true
  | .recordStageStart _ => true
  | .lotEnd _ => true
  | .lotRetire _ => true
  | .slow _ => true
  | .budget _ => true
  | .handlerClaim _ => true
  | .unitCallComplete _ _ => true
  | .porterMoveComplete _ _ => true
  | .queryStart _ => true
  | .mailboxInWrite _ _ _ => true
  | .maskSet _ _ _ => true
  | .maskClr _ _ _ => true
  | .pendSet _ _ _ => true
  | .pendClr _ _ _ => true
  | .disableWrite _ _ _ => true
  | .faultForce _ _ _ => true
  | .flipMaskWrite _ _ _ _ => true
  | .alu _ _ => true
  | .addi _ _ => true
  | .andi _ _ => true
  | .ori _ _ => true
  | .xori _ _ => true
  | .shi _ _ => true
  | .movz _ _ => true
  | .movk _ _ => true
  | .ext _ _ => true
  | .ins _ _ => true
  | .sel _ _ => true
  | .cmp _ _ => true
  | .cmpi _ _ => true
  | .pset _ _ => true
  | .tstb _ _ => true
  | .xf _ _ => true
  | .xfr _ _ => true
  | .wadv _ _ => true
  | .wseek _ _ => true
  | .wpos _ _ => true
  | .rhdr _ _ => true
  | .wst _ _ => true
  | .loopc _ _ => true
  | .ld _ _ => true
  | .lds _ _ => true
  | .st _ _ => true
  | .b _ _ => true
  | .loop _ _ => true
  | .loopr _ _ => true
  | .call _ _ => true
  | .ret _ _ => true
  | .keep _ _ => true
  | .drop _ _ => true
  | .done _ _ => true
  | .iret _ _ => true
  | .irqsrc _ _ => true
  | .crcw _ _ => true
  | .crcm _ _ => true
  | .ucall _ _ => true
  | .tally _ _ => true
  | .bcn _ _ => true
  | .arct _ _ => true
  | .emitr _ _ => true
  | .emitm _ _ => true
  | .pmov _ _ => true
  | .yield _ _ => true
  | .barrier _ _ => true
  | .fault _ _ => true
  | .mbox _ _ => true
  | .busRead _ _ => true
  | .busWrite _ _ => true
  | .poll _ _ => true
  | .moor _ _ => true
  | .moorResume _ => true
  | .moorCheck _ _ => true
  | .unmoor _ _ => true
  | .alertWho _ _ => true
  | .beaconZero _ => true
  | .token _ => true
  | .wake _ _ => true
  | .sessionTimeout _ => true
  | .helloRefusalExpiry _ => true
  | .kxHello _ => true
  | .kxSignature _ => true
  | .kxProve _ => true
  | .kxClose _ => true
  | .persistentWrite _ _ _ => true
  | .harbourOpComplete _ => true
  | .hbRead _ _ => true
  | .hbProgram _ _ => true
  | .hbErase _ _ => true
  | .hbBlankCheck _ _ => true
  | .hbOtpRead _ _ => true
  | .hbOtpProgram _ _ => true
  | .hbReboot _ _ => true
  | .ruleEpochWrite _ _ => true
  | .ruleSave _ _ => true
  | .evtStatusRead _ _ => true
  | .pulseAck _ _ => true
  | .evtRouteWrite _ _ => true
  | .msixMaskWrite _ _ => true
  | .violKindClear _ => true
  | .pwrCmdWrite _ _ => true
  | .stallVsetWrite _ _ => true
  | .stallFsetWrite _ _ => true
  | .faultForceMirror _ _ _ => true
  | .registerWrite _ _ _ => true
  | .watchdogExpiry _ => true
  | .lockstepMismatch c => c.wf
  | .watchSample _ _ _ _ _ => true
  | .sensorUpdate _ _ _ => true
  | .writeHoldTimeout _ => true
  | .shutdownSample _ _ _ _ => true
  | .siliconDelayMeasure _ => true
  | .clockLoss _ => true
  | .busIdleDetect _ => true
  | .coalescingTimeExpiry _ => true
  | .deliveryErr _ => true
  | .mainRailUp => true
  | .auxRailFail => true
  | .staggerDelayExpiry => true
  | .rebuildDone => true
  | .perstAssert => true
  | .linkDown => true
  | .perstRelease => true
  | .controllerReset => true
  | .functionLevelReset => true
  | .powerLossDetect => true
  | .flushCompleteRecord => true
  | .railReturnDuringFlush => true
  | .detectRearm => true
  | .lossDetArm => true
  | .lossDet => true
  | .earlyFlushEnd => true
  | .dischargeMeasurementDue => true
  | .budgetFlushDone => true
  | .bankReachesVb => true
  | .commandFetch => true
  | .heldAdmit => true
  | .heldProgramTrigger => true
  | .oneBitProgramComplete _ _ _ _ _ => true
  | .verifyReadComplete _ _ => true
  | .nandEraseComplete _ _ _ => true
  | .readDisturbRefresh _ => true
  | .writeIdleTimeout => true
  | .mapJournalProgram => true
  | .scanCheckpoint => true
  | .stillEntry => true
  | .sequenceReservation => true
  | .opTransitionEnd => true
  | .tokenLapse => true
  | .journalInterval => true
  | .fatalFlushDone => true
  | .watchEntry => true
  | .watchExit => true
  | .watchTimerExpiry => true
  | .throttleGraceExpiry => true
  | .enforcementSecond => true
  | .lifeRecompute => true
  | .auxDomainReset => true
  | .mainRailRemovalInWatch => true
  | .bankCharged => true
  | .indexRebuildDone => true

end Sys2Proof
end

