-- ==== Sys2Proof/Laws/PerInstr.lean ====
section
/-! SUPPORT. Per command: the operand ranges that make it well-formed, as a proposition; a command not named in `Ranges` has every
operand in range. -/

namespace Sys2Proof.Laws.WellFormed

open Sys2Proof

/-- The operand ranges of a command (R63, R91, R94, R116, R165). -/
def Ranges (i : Instr) : Prop :=
  match i with
  | .halfEraseRecovery x => (∀ k ∈ x.fails, k < 512)
  | .bankCutoff k => k ≤ 131072
  | .doorbellWrite _ _ _ es => (∀ e ∈ es, e.buf.length ≤ 2101248 ∧ e.md.length ≤ 4096)
  | .mediaReadComplete _ x d _ _ => ((1 ≤ x.1 ∧ x.1 ≤ 64 ∧ x.2 < 2 ^ 40) ∧ d ≤ 9)
  | .copyComplete n l _ _ _ _ => (1 ≤ n ∧ n ≤ 64 ∧ l < 2 ^ 40)
  | .patrolRead _ _ d _ _ _ => d ≤ 9
  | .mapPageFill n pg => (1 ≤ n ∧ n ≤ 64 ∧ pg * 512 < 2 ^ 40)
  | .arcRegisterWrite _ r _ => (0x0240 ≤ r.toNat ∧ r.toNat ≤ 0x02FF)
  | .lotCloseIdle n => (1 ≤ n ∧ n ≤ 64)
  | .lockstepMismatch c => (∀ f n l again, c = .eccUncorr f (.held n l) ∨ c = .e2eCrc f (.held n l) again → 1 ≤ n ∧ n ≤ 64 ∧ l < 2 ^ 40)
  | .bar2Write off bs => off + bs.length ≤ 0x04000000
  | .bar2Read off len => off + len ≤ 0x04000000
  | _ => True

/-- The check accepts exactly the commands whose operands are in range. -/
def Statement (i : Instr) : Prop := wellFormed i = true ↔ Ranges i

theorem auxPowerUp (compatLow : Bool) : Statement (.auxPowerUp compatLow) := ⟨fun _ => trivial, fun _ => rfl⟩
theorem activeBankVerified (readsA readsB : Bool) : Statement (.activeBankVerified readsA readsB) := ⟨fun _ => trivial, fun _ => rfl⟩
theorem halfEraseRecovery (found : HalfErases) : Statement (.halfEraseRecovery found) := by
  show HalfErases.wf found = true ↔ ∀ k ∈ found.fails, k < 512
  simp [HalfErases.wf]
theorem rebuild (ckptOk heldMapOk : Bool) (torn : List (Nat × Nat)) : Statement (.rebuild ckptOk heldMapOk torn) := ⟨fun _ => trivial, fun _ => rfl⟩
theorem controllerEnable (ams : BitVec 3) (aqa : W32) (asq acq : W64) : Statement (.controllerEnable ams aqa asq acq) := ⟨fun _ => trivial, fun _ => rfl⟩
theorem shutdownNotification (shn : BitVec 2) : Statement (.shutdownNotification shn) := ⟨fun _ => trivial, fun _ => rfl⟩
theorem bankCutoff (programmed : Nat) : Statement (.bankCutoff programmed) := by
  show (decide (programmed ≤ 131072)) = true ↔ programmed ≤ 131072
  simp
theorem capFail (n : Fin 6) : Statement (.capFail n) := ⟨fun _ => trivial, fun _ => rfl⟩
theorem chargeMeasurement (startMv iMa dtUs stepMv : Nat) : Statement (.chargeMeasurement startMv iMa dtUs stepMv) := ⟨fun _ => trivial, fun _ => rfl⟩
theorem holdupMeasure (a : Actor) (v : W32) : Statement (.holdupMeasure a v) := ⟨fun _ => trivial, fun _ => rfl⟩
theorem measurementComplete (tUs dvMv esrUohm vchgMv : Nat) : Statement (.measurementComplete tUs dvMv esrUohm vchgMv) := ⟨fun _ => trivial, fun _ => rfl⟩
theorem doorbellWrite (head : Bool) (y : Byte) (value : W32) (entries : List Submission) : Statement (.doorbellWrite head y value entries) := by
  show (entries.all Submission.wf) = true ↔ ∀ e ∈ entries, e.buf.length ≤ 2101248 ∧ e.md.length ≤ 4096
  simp [Submission.wf]
theorem rangeLockGrant (h : Nat) : Statement (.rangeLockGrant h) := ⟨fun _ => trivial, fun _ => rfl⟩
theorem createIoSq (h : Nat) : Statement (.createIoSq h) := ⟨fun _ => trivial, fun _ => rfl⟩
theorem deleteIoSq (h : Nat) : Statement (.deleteIoSq h) := ⟨fun _ => trivial, fun _ => rfl⟩
theorem createIoCq (h : Nat) : Statement (.createIoCq h) := ⟨fun _ => trivial, fun _ => rfl⟩
theorem deleteIoCq (h : Nat) : Statement (.deleteIoCq h) := ⟨fun _ => trivial, fun _ => rfl⟩
theorem getLogPage (h : Nat) : Statement (.getLogPage h) := ⟨fun _ => trivial, fun _ => rfl⟩
theorem identify (h : Nat) : Statement (.identify h) := ⟨fun _ => trivial, fun _ => rfl⟩
theorem abort (h : Nat) : Statement (.abort h) := ⟨fun _ => trivial, fun _ => rfl⟩
theorem setFeaturesArbitration (h : Nat) : Statement (.setFeaturesArbitration h) := ⟨fun _ => trivial, fun _ => rfl⟩
theorem setFeaturesPowerManagement (h : Nat) : Statement (.setFeaturesPowerManagement h) := ⟨fun _ => trivial, fun _ => rfl⟩
theorem setFeaturesTemperatureThreshold (h : Nat) : Statement (.setFeaturesTemperatureThreshold h) := ⟨fun _ => trivial, fun _ => rfl⟩
theorem setFeaturesErrorRecovery (h : Nat) : Statement (.setFeaturesErrorRecovery h) := ⟨fun _ => trivial, fun _ => rfl⟩
theorem setFeaturesVolatileWriteCache (h : Nat) : Statement (.setFeaturesVolatileWriteCache h) := ⟨fun _ => trivial, fun _ => rfl⟩
theorem setFeaturesNumberOfQueues (h : Nat) : Statement (.setFeaturesNumberOfQueues h) := ⟨fun _ => trivial, fun _ => rfl⟩
theorem setFeaturesInterruptCoalescing (h : Nat) : Statement (.setFeaturesInterruptCoalescing h) := ⟨fun _ => trivial, fun _ => rfl⟩
theorem setFeaturesInterruptVectorConfig (h : Nat) : Statement (.setFeaturesInterruptVectorConfig h) := ⟨fun _ => trivial, fun _ => rfl⟩
theorem setFeaturesWriteAtomicity (h : Nat) : Statement (.setFeaturesWriteAtomicity h) := ⟨fun _ => trivial, fun _ => rfl⟩
theorem setFeaturesAsyncEventConfig (h : Nat) : Statement (.setFeaturesAsyncEventConfig h) := ⟨fun _ => trivial, fun _ => rfl⟩
theorem getFeatures (h : Nat) : Statement (.getFeatures h) := ⟨fun _ => trivial, fun _ => rfl⟩
theorem asynchronousEventRequest (h : Nat) : Statement (.asynchronousEventRequest h) := ⟨fun _ => trivial, fun _ => rfl⟩
theorem namespaceCreate (h : Nat) : Statement (.namespaceCreate h) := ⟨fun _ => trivial, fun _ => rfl⟩
theorem namespaceDelete (h : Nat) : Statement (.namespaceDelete h) := ⟨fun _ => trivial, fun _ => rfl⟩
theorem namespaceAttachment (h : Nat) : Statement (.namespaceAttachment h) := ⟨fun _ => trivial, fun _ => rfl⟩
theorem firmwareImageDownload (h : Nat) : Statement (.firmwareImageDownload h) := ⟨fun _ => trivial, fun _ => rfl⟩
theorem firmwareCommitReplace (h : Nat) : Statement (.firmwareCommitReplace h) := ⟨fun _ => trivial, fun _ => rfl⟩
theorem firmwareCommitReplaceActivate (h : Nat) : Statement (.firmwareCommitReplaceActivate h) := ⟨fun _ => trivial, fun _ => rfl⟩
theorem firmwareCommitActivate (h : Nat) : Statement (.firmwareCommitActivate h) := ⟨fun _ => trivial, fun _ => rfl⟩
theorem formatNvm (h : Nat) : Statement (.formatNvm h) := ⟨fun _ => trivial, fun _ => rfl⟩
theorem sanitizeBlockErase (h : Nat) : Statement (.sanitizeBlockErase h) := ⟨fun _ => trivial, fun _ => rfl⟩
theorem sanitizeCryptoErase (h : Nat) : Statement (.sanitizeCryptoErase h) := ⟨fun _ => trivial, fun _ => rfl⟩
theorem deviceSelfTest (h : Nat) : Statement (.deviceSelfTest h) := ⟨fun _ => trivial, fun _ => rfl⟩
theorem stallLoad (h : Nat) : Statement (.stallLoad h) := ⟨fun _ => trivial, fun _ => rfl⟩
theorem stallStop (h : Nat) : Statement (.stallStop h) := ⟨fun _ => trivial, fun _ => rfl⟩
theorem stallRun (h : Nat) : Statement (.stallRun h) := ⟨fun _ => trivial, fun _ => rfl⟩
theorem stallRestart (h : Nat) (bad : List (Fin 64)) : Statement (.stallRestart h bad) := ⟨fun _ => trivial, fun _ => rfl⟩
theorem stallClearSlow (h : Nat) : Statement (.stallClearSlow h) := ⟨fun _ => trivial, fun _ => rfl⟩
theorem stallPowerOff (h : Nat) : Statement (.stallPowerOff h) := ⟨fun _ => trivial, fun _ => rfl⟩
theorem stallPowerOn (h : Nat) (bad : List (Fin 64)) : Statement (.stallPowerOn h bad) := ⟨fun _ => trivial, fun _ => rfl⟩
theorem pipelineSet (h : Nat) : Statement (.pipelineSet h) := ⟨fun _ => trivial, fun _ => rfl⟩
theorem pipelineStart (h : Nat) : Statement (.pipelineStart h) := ⟨fun _ => trivial, fun _ => rfl⟩
theorem pipelineStop (h : Nat) : Statement (.pipelineStop h) := ⟨fun _ => trivial, fun _ => rfl⟩
theorem pipelineDelete (h : Nat) : Statement (.pipelineDelete h) := ⟨fun _ => trivial, fun _ => rfl⟩
theorem pipelineIndex (h : Nat) : Statement (.pipelineIndex h) := ⟨fun _ => trivial, fun _ => rfl⟩
theorem tallyRead (h : Nat) : Statement (.tallyRead h) := ⟨fun _ => trivial, fun _ => rfl⟩
theorem keeperHello (h : Nat) : Statement (.keeperHello h) := ⟨fun _ => trivial, fun _ => rfl⟩
theorem keeperProve (h : Nat) : Statement (.keeperProve h) := ⟨fun _ => trivial, fun _ => rfl⟩
theorem keeperClose (h : Nat) : Statement (.keeperClose h) := ⟨fun _ => trivial, fun _ => rfl⟩
theorem keeperArm (h : Nat) : Statement (.keeperArm h) := ⟨fun _ => trivial, fun _ => rfl⟩
theorem keeperRegister (h : Nat) : Statement (.keeperRegister h) := ⟨fun _ => trivial, fun _ => rfl⟩
theorem keeperCommitRules (h : Nat) : Statement (.keeperCommitRules h) := ⟨fun _ => trivial, fun _ => rfl⟩
theorem attest (h : Nat) : Statement (.attest h) := ⟨fun _ => trivial, fun _ => rfl⟩
theorem harbourMailbox (h : Nat) : Statement (.harbourMailbox h) := ⟨fun _ => trivial, fun _ => rfl⟩
theorem read (h : Nat) : Statement (.read h) := ⟨fun _ => trivial, fun _ => rfl⟩
theorem write (h : Nat) : Statement (.write h) := ⟨fun _ => trivial, fun _ => rfl⟩
theorem compare (h : Nat) : Statement (.compare h) := ⟨fun _ => trivial, fun _ => rfl⟩
theorem verify (h : Nat) : Statement (.verify h) := ⟨fun _ => trivial, fun _ => rfl⟩
theorem writeZeroes (h : Nat) : Statement (.writeZeroes h) := ⟨fun _ => trivial, fun _ => rfl⟩
theorem datasetManagement (h : Nat) : Statement (.datasetManagement h) := ⟨fun _ => trivial, fun _ => rfl⟩
theorem flush (h : Nat) : Statement (.flush h) := ⟨fun _ => trivial, fun _ => rfl⟩
theorem recordAppend (h : Nat) : Statement (.recordAppend h) := ⟨fun _ => trivial, fun _ => rfl⟩
theorem arcQuery (h : Nat) : Statement (.arcQuery h) := ⟨fun _ => trivial, fun _ => rfl⟩
theorem fetchResult (h : Nat) : Statement (.fetchResult h) := ⟨fun _ => trivial, fun _ => rfl⟩
theorem releaseResult (h : Nat) : Statement (.releaseResult h) := ⟨fun _ => trivial, fun _ => rfl⟩
theorem cycleCommit (h : Nat) : Statement (.cycleCommit h) := ⟨fun _ => trivial, fun _ => rfl⟩
theorem indexLookup (h : Nat) : Statement (.indexLookup h) := ⟨fun _ => trivial, fun _ => rfl⟩
theorem flushCompletion (h : Nat) : Statement (.flushCompletion h) := ⟨fun _ => trivial, fun _ => rfl⟩
theorem oneBitProgramComplete (id : Nat) (die : Fin 64) (row : Nat) (timeUs : Nat) (fails : List (Fin 4)) : Statement (.oneBitProgramComplete id die row timeUs fails) := ⟨fun _ => trivial, fun _ => rfl⟩
theorem verifyReadComplete (sb : Nat) (fails : List Place) : Statement (.verifyReadComplete sb fails) := ⟨fun _ => trivial, fun _ => rfl⟩
theorem nandEraseComplete (place : Place) (tlc ok : Bool) : Statement (.nandEraseComplete place tlc ok) := ⟨fun _ => trivial, fun _ => rfl⟩
theorem dieStatusTimeout (die : Fin 64) : Statement (.dieStatusTimeout die) := ⟨fun _ => trivial, fun _ => rfl⟩
theorem mediaReadComplete (place : Place) (slot : Nat × Nat) (dec : Nat) (ok : Bool) (around : Option (Nat × Nat)) :
    Statement (.mediaReadComplete place slot dec ok around) := by
  show (nsLba slot.1 slot.2 && decide (dec ≤ 9)) = true ↔ (1 ≤ slot.1 ∧ slot.1 ≤ 64 ∧ slot.2 < 2 ^ 40) ∧ dec ≤ 9
  simp [nsLba, and_assoc]
theorem readDisturbRefresh (place : Place) : Statement (.readDisturbRefresh place) := ⟨fun _ => trivial, fun _ => rfl⟩
theorem foldStart (grp : Fin 2) : Statement (.foldStart grp) := ⟨fun _ => trivial, fun _ => rfl⟩
theorem gcStart (grp : Fin 2) : Statement (.gcStart grp) := ⟨fun _ => trivial, fun _ => rfl⟩
theorem copyComplete (nsid lba : Nat) (src : Place) (die : Fin 64) (timeUs : Nat) (ok : Bool) :
    Statement (.copyComplete nsid lba src die timeUs ok) := by
  show (nsLba nsid lba) = true ↔ 1 ≤ nsid ∧ nsid ≤ 64 ∧ lba < 2 ^ 40
  simp [nsLba, and_assoc]
theorem patrolRead (place : Place) (page : Nat) (dec : Nat) (weak : Bool) (shiftMv days : Nat) : Statement (.patrolRead place page dec weak shiftMv days) := by
  show (decide (dec ≤ 9)) = true ↔ dec ≤ 9
  simp
theorem mapPageFill (nsid page : Nat) : Statement (.mapPageFill nsid page) := by
  show (nsLba nsid (page * 512)) = true ↔ 1 ≤ nsid ∧ nsid ≤ 64 ∧ page * 512 < 2 ^ 40
  simp [nsLba, and_assoc]
theorem countChange (at_ : Nat) (step : QuadStep) : Statement (.countChange at_ step) := ⟨fun _ => trivial, fun _ => rfl⟩
theorem indexEvent (at_ : Nat) : Statement (.indexEvent at_) := ⟨fun _ => trivial, fun _ => rfl⟩
theorem ssiFrameStart (at_ : Nat) : Statement (.ssiFrameStart at_) := ⟨fun _ => trivial, fun _ => rfl⟩
theorem ssiWord (at_ : Nat) (word : W32) (check : BitVec 6) : Statement (.ssiWord at_ word check) := ⟨fun _ => trivial, fun _ => rfl⟩
theorem internalCount (at_ : Nat) : Statement (.internalCount at_) := ⟨fun _ => trivial, fun _ => rfl⟩
theorem extrapolationStop (at_ : Nat) : Statement (.extrapolationStop at_) := ⟨fun _ => trivial, fun _ => rfl⟩
theorem line (pair : BcnPair) : Statement (.line pair) := ⟨fun _ => trivial, fun _ => rfl⟩
theorem recordHeaderLands (at_ : Nat) (h : Nat) : Statement (.recordHeaderLands at_ h) := ⟨fun _ => trivial, fun _ => rfl⟩
theorem commitMarkDurable (late : Bool) : Statement (.commitMarkDurable late) := ⟨fun _ => trivial, fun _ => rfl⟩
theorem bcnFeed (at_ : Nat) (a : Actor) (v : W32) : Statement (.bcnFeed at_ a v) := ⟨fun _ => trivial, fun _ => rfl⟩
theorem resume (a : Actor) : Statement (.resume a) := ⟨fun _ => trivial, fun _ => rfl⟩
theorem zeroNow (a : Actor) : Statement (.zeroNow a) := ⟨fun _ => trivial, fun _ => rfl⟩
theorem zeroArm (a : Actor) : Statement (.zeroArm a) := ⟨fun _ => trivial, fun _ => rfl⟩
theorem bcnConfigWrite (a : Actor) (cpc : Bool) (v : W32) : Statement (.bcnConfigWrite a cpc v) := ⟨fun _ => trivial, fun _ => rfl⟩
theorem bcnIntRateWrite (a : Actor) (v : W32) : Statement (.bcnIntRateWrite a v) := ⟨fun _ => trivial, fun _ => rfl⟩
theorem arcRegisterWrite (a : Actor) (reg : W16) (v : W32) : Statement (.arcRegisterWrite a reg v) := by
  show (decide (0x0240 ≤ reg.toNat) && decide (reg.toNat ≤ 0x02FF)) = true ↔ 0x0240 ≤ reg.toNat ∧ reg.toNat ≤ 0x02FF
  simp
theorem bcnCommitCtlWrite (a : Actor) (v : W32) : Statement (.bcnCommitCtlWrite a v) := ⟨fun _ => trivial, fun _ => rfl⟩
theorem bcnStampLoRead (at_ : Nat) (a : Actor) : Statement (.bcnStampLoRead at_ a) := ⟨fun _ => trivial, fun _ => rfl⟩
theorem lotCloseIdle (nsid : Nat) : Statement (.lotCloseIdle nsid) := by
  show (decide (1 ≤ nsid) && decide (nsid ≤ 64)) = true ↔ 1 ≤ nsid ∧ nsid ≤ 64
  simp
theorem lotIssue (lot : Nat) : Statement (.lotIssue lot) := ⟨fun _ => trivial, fun _ => rfl⟩
theorem recordStageStart (n : Fin 64) : Statement (.recordStageStart n) := ⟨fun _ => trivial, fun _ => rfl⟩
theorem lotEnd (n : Fin 64) : Statement (.lotEnd n) := ⟨fun _ => trivial, fun _ => rfl⟩
theorem lotRetire (lot : Nat) : Statement (.lotRetire lot) := ⟨fun _ => trivial, fun _ => rfl⟩
theorem slow (n : Fin 64) : Statement (.slow n) := ⟨fun _ => trivial, fun _ => rfl⟩
theorem budget (n : Fin 64) : Statement (.budget n) := ⟨fun _ => trivial, fun _ => rfl⟩
theorem handlerClaim (n : Fin 64) : Statement (.handlerClaim n) := ⟨fun _ => trivial, fun _ => rfl⟩
theorem unitCallComplete (n : Fin 64) (hwError : Bool) : Statement (.unitCallComplete n hwError) := ⟨fun _ => trivial, fun _ => rfl⟩
theorem porterMoveComplete (n : Fin 64) (id : Nat) : Statement (.porterMoveComplete n id) := ⟨fun _ => trivial, fun _ => rfl⟩
theorem queryStart (pipe : Fin 32) : Statement (.queryStart pipe) := ⟨fun _ => trivial, fun _ => rfl⟩
theorem mailboxInWrite (n : Fin 64) (m : CbMaster) (v : W32) : Statement (.mailboxInWrite n m v) := ⟨fun _ => trivial, fun _ => rfl⟩
theorem maskSet (n : Fin 64) (m : CbMaster) (v : W32) : Statement (.maskSet n m v) := ⟨fun _ => trivial, fun _ => rfl⟩
theorem maskClr (n : Fin 64) (m : CbMaster) (v : W32) : Statement (.maskClr n m v) := ⟨fun _ => trivial, fun _ => rfl⟩
theorem pendSet (n : Fin 64) (m : CbMaster) (v : W32) : Statement (.pendSet n m v) := ⟨fun _ => trivial, fun _ => rfl⟩
theorem pendClr (n : Fin 64) (m : CbMaster) (v : W32) : Statement (.pendClr n m v) := ⟨fun _ => trivial, fun _ => rfl⟩
theorem disableWrite (n : Fin 64) (m : CbMaster) (v : W32) : Statement (.disableWrite n m v) := ⟨fun _ => trivial, fun _ => rfl⟩
theorem faultForce (n : Fin 64) (m : CbMaster) (v : W32) : Statement (.faultForce n m v) := ⟨fun _ => trivial, fun _ => rfl⟩
theorem flipMaskWrite (n : Fin 64) (m : CbMaster) (r : FlipReg) (v : W32) : Statement (.flipMaskWrite n m r v) := ⟨fun _ => trivial, fun _ => rfl⟩
theorem bar2Write (off : Nat) (bytes : List Byte) : Statement (.bar2Write off bytes) := by
  show (decide (off + bytes.length ≤ 0x04000000)) = true ↔ off + bytes.length ≤ 0x04000000
  simp
theorem bar2Read (off len : Nat) : Statement (.bar2Read off len) := by
  show (decide (off + len ≤ 0x04000000)) = true ↔ off + len ≤ 0x04000000
  simp
theorem alu (n : Fin 64) (f : RFmt) : Statement (.alu n f) := ⟨fun _ => trivial, fun _ => rfl⟩
theorem addi (n : Fin 64) (f : IFmt) : Statement (.addi n f) := ⟨fun _ => trivial, fun _ => rfl⟩
theorem andi (n : Fin 64) (f : IFmt) : Statement (.andi n f) := ⟨fun _ => trivial, fun _ => rfl⟩
theorem ori (n : Fin 64) (f : IFmt) : Statement (.ori n f) := ⟨fun _ => trivial, fun _ => rfl⟩
theorem xori (n : Fin 64) (f : IFmt) : Statement (.xori n f) := ⟨fun _ => trivial, fun _ => rfl⟩
theorem shi (n : Fin 64) (f : IFmt) : Statement (.shi n f) := ⟨fun _ => trivial, fun _ => rfl⟩
theorem movz (n : Fin 64) (f : WFmt) : Statement (.movz n f) := ⟨fun _ => trivial, fun _ => rfl⟩
theorem movk (n : Fin 64) (f : WFmt) : Statement (.movk n f) := ⟨fun _ => trivial, fun _ => rfl⟩
theorem ext (n : Fin 64) (f : IFmt) : Statement (.ext n f) := ⟨fun _ => trivial, fun _ => rfl⟩
theorem ins (n : Fin 64) (f : IFmt) : Statement (.ins n f) := ⟨fun _ => trivial, fun _ => rfl⟩
theorem sel (n : Fin 64) (f : RFmt) : Statement (.sel n f) := ⟨fun _ => trivial, fun _ => rfl⟩
theorem cmp (n : Fin 64) (f : RFmt) : Statement (.cmp n f) := ⟨fun _ => trivial, fun _ => rfl⟩
theorem cmpi (n : Fin 64) (f : IFmt) : Statement (.cmpi n f) := ⟨fun _ => trivial, fun _ => rfl⟩
theorem pset (n : Fin 64) (f : RFmt) : Statement (.pset n f) := ⟨fun _ => trivial, fun _ => rfl⟩
theorem tstb (n : Fin 64) (f : IFmt) : Statement (.tstb n f) := ⟨fun _ => trivial, fun _ => rfl⟩
theorem xf (n : Fin 64) (f : XFmt) : Statement (.xf n f) := ⟨fun _ => trivial, fun _ => rfl⟩
theorem xfr (n : Fin 64) (f : IFmt) : Statement (.xfr n f) := ⟨fun _ => trivial, fun _ => rfl⟩
theorem wadv (n : Fin 64) (f : IFmt) : Statement (.wadv n f) := ⟨fun _ => trivial, fun _ => rfl⟩
theorem wseek (n : Fin 64) (f : RFmt) : Statement (.wseek n f) := ⟨fun _ => trivial, fun _ => rfl⟩
theorem wpos (n : Fin 64) (f : RFmt) : Statement (.wpos n f) := ⟨fun _ => trivial, fun _ => rfl⟩
theorem rhdr (n : Fin 64) (f : RFmt) : Statement (.rhdr n f) := ⟨fun _ => trivial, fun _ => rfl⟩
theorem wst (n : Fin 64) (f : IFmt) : Statement (.wst n f) := ⟨fun _ => trivial, fun _ => rfl⟩
theorem loopc (n : Fin 64) (f : LFmt) : Statement (.loopc n f) := ⟨fun _ => trivial, fun _ => rfl⟩
theorem ld (n : Fin 64) (f : IFmt) : Statement (.ld n f) := ⟨fun _ => trivial, fun _ => rfl⟩
theorem lds (n : Fin 64) (f : IFmt) : Statement (.lds n f) := ⟨fun _ => trivial, fun _ => rfl⟩
theorem st (n : Fin 64) (f : IFmt) : Statement (.st n f) := ⟨fun _ => trivial, fun _ => rfl⟩
theorem b (n : Fin 64) (f : BFmt) : Statement (.b n f) := ⟨fun _ => trivial, fun _ => rfl⟩
theorem loop (n : Fin 64) (f : LFmt) : Statement (.loop n f) := ⟨fun _ => trivial, fun _ => rfl⟩
theorem loopr (n : Fin 64) (f : LFmt) : Statement (.loopr n f) := ⟨fun _ => trivial, fun _ => rfl⟩
theorem call (n : Fin 64) (f : BFmt) : Statement (.call n f) := ⟨fun _ => trivial, fun _ => rfl⟩
theorem ret (n : Fin 64) (f : BFmt) : Statement (.ret n f) := ⟨fun _ => trivial, fun _ => rfl⟩
theorem keep (n : Fin 64) (f : BFmt) : Statement (.keep n f) := ⟨fun _ => trivial, fun _ => rfl⟩
theorem drop (n : Fin 64) (f : BFmt) : Statement (.drop n f) := ⟨fun _ => trivial, fun _ => rfl⟩
theorem done (n : Fin 64) (f : BFmt) : Statement (.done n f) := ⟨fun _ => trivial, fun _ => rfl⟩
theorem iret (n : Fin 64) (f : BFmt) : Statement (.iret n f) := ⟨fun _ => trivial, fun _ => rfl⟩
theorem irqsrc (n : Fin 64) (f : RFmt) : Statement (.irqsrc n f) := ⟨fun _ => trivial, fun _ => rfl⟩
theorem crcw (n : Fin 64) (f : RFmt) : Statement (.crcw n f) := ⟨fun _ => trivial, fun _ => rfl⟩
theorem crcm (n : Fin 64) (f : IFmt) : Statement (.crcm n f) := ⟨fun _ => trivial, fun _ => rfl⟩
theorem ucall (n : Fin 64) (f : RFmt) : Statement (.ucall n f) := ⟨fun _ => trivial, fun _ => rfl⟩
theorem tally (n : Fin 64) (f : RFmt) : Statement (.tally n f) := ⟨fun _ => trivial, fun _ => rfl⟩
theorem bcn (n : Fin 64) (f : RFmt) : Statement (.bcn n f) := ⟨fun _ => trivial, fun _ => rfl⟩
theorem arct (n : Fin 64) (f : IFmt) : Statement (.arct n f) := ⟨fun _ => trivial, fun _ => rfl⟩
theorem emitr (n : Fin 64) (f : RFmt) : Statement (.emitr n f) := ⟨fun _ => trivial, fun _ => rfl⟩
theorem emitm (n : Fin 64) (f : RFmt) : Statement (.emitm n f) := ⟨fun _ => trivial, fun _ => rfl⟩
theorem pmov (n : Fin 64) (f : RFmt) : Statement (.pmov n f) := ⟨fun _ => trivial, fun _ => rfl⟩
theorem yield (n : Fin 64) (f : BFmt) : Statement (.yield n f) := ⟨fun _ => trivial, fun _ => rfl⟩
theorem barrier (n : Fin 64) (f : BFmt) : Statement (.barrier n f) := ⟨fun _ => trivial, fun _ => rfl⟩
theorem fault (n : Fin 64) (f : BFmt) : Statement (.fault n f) := ⟨fun _ => trivial, fun _ => rfl⟩
theorem mbox (n : Fin 64) (f : RFmt) : Statement (.mbox n f) := ⟨fun _ => trivial, fun _ => rfl⟩
theorem busRead (f : Frame) (lost : Option Nat) : Statement (.busRead f lost) := ⟨fun _ => trivial, fun _ => rfl⟩
theorem busWrite (f : Frame) (lost : Option Nat) : Statement (.busWrite f lost) := ⟨fun _ => trivial, fun _ => rfl⟩
theorem poll (f : Frame) (lost : Option Nat) : Statement (.poll f lost) := ⟨fun _ => trivial, fun _ => rfl⟩
theorem moor (f : Frame) (others : List W64) : Statement (.moor f others) := ⟨fun _ => trivial, fun _ => rfl⟩
theorem moorResume (f : Frame) : Statement (.moorResume f) := ⟨fun _ => trivial, fun _ => rfl⟩
theorem moorCheck (f : Frame) (others : List W64) : Statement (.moorCheck f others) := ⟨fun _ => trivial, fun _ => rfl⟩
theorem unmoor (f : Frame) (lost : Option Nat) : Statement (.unmoor f lost) := ⟨fun _ => trivial, fun _ => rfl⟩
theorem alertWho (f : Frame) (others : List Byte) : Statement (.alertWho f others) := ⟨fun _ => trivial, fun _ => rfl⟩
theorem beaconZero (f : Frame) : Statement (.beaconZero f) := ⟨fun _ => trivial, fun _ => rfl⟩
theorem token (f : Frame) : Statement (.token f) := ⟨fun _ => trivial, fun _ => rfl⟩
theorem wake (f : Frame) (lost : Option Nat) : Statement (.wake f lost) := ⟨fun _ => trivial, fun _ => rfl⟩
theorem sessionTimeout (nvme : Bool) : Statement (.sessionTimeout nvme) := ⟨fun _ => trivial, fun _ => rfl⟩
theorem helloRefusalExpiry (nvme : Bool) : Statement (.helloRefusalExpiry nvme) := ⟨fun _ => trivial, fun _ => rfl⟩
theorem kxHello (a : Actor) : Statement (.kxHello a) := ⟨fun _ => trivial, fun _ => rfl⟩
theorem kxSignature (a : Actor) : Statement (.kxSignature a) := ⟨fun _ => trivial, fun _ => rfl⟩
theorem kxProve (a : Actor) : Statement (.kxProve a) := ⟨fun _ => trivial, fun _ => rfl⟩
theorem kxClose (a : Actor) : Statement (.kxClose a) := ⟨fun _ => trivial, fun _ => rfl⟩
theorem persistentWrite (a : Actor) (n : Fin 256) (v : W32) : Statement (.persistentWrite a n v) := ⟨fun _ => trivial, fun _ => rfl⟩
theorem harbourOpComplete (result : RomEnd) : Statement (.harbourOpComplete result) := ⟨fun _ => trivial, fun _ => rfl⟩
theorem hbRead (a : Actor) (v : W32) : Statement (.hbRead a v) := ⟨fun _ => trivial, fun _ => rfl⟩
theorem hbProgram (a : Actor) (v : W32) : Statement (.hbProgram a v) := ⟨fun _ => trivial, fun _ => rfl⟩
theorem hbErase (a : Actor) (v : W32) : Statement (.hbErase a v) := ⟨fun _ => trivial, fun _ => rfl⟩
theorem hbBlankCheck (a : Actor) (v : W32) : Statement (.hbBlankCheck a v) := ⟨fun _ => trivial, fun _ => rfl⟩
theorem hbOtpRead (a : Actor) (v : W32) : Statement (.hbOtpRead a v) := ⟨fun _ => trivial, fun _ => rfl⟩
theorem hbOtpProgram (a : Actor) (v : W32) : Statement (.hbOtpProgram a v) := ⟨fun _ => trivial, fun _ => rfl⟩
theorem hbReboot (a : Actor) (v : W32) : Statement (.hbReboot a v) := ⟨fun _ => trivial, fun _ => rfl⟩
theorem ruleEpochWrite (a : Actor) (v : W32) : Statement (.ruleEpochWrite a v) := ⟨fun _ => trivial, fun _ => rfl⟩
theorem ruleSave (a : Actor) (v : W32) : Statement (.ruleSave a v) := ⟨fun _ => trivial, fun _ => rfl⟩
theorem evtStatusRead (a : Actor) (k : Fin 16) : Statement (.evtStatusRead a k) := ⟨fun _ => trivial, fun _ => rfl⟩
theorem pulseAck (a : Actor) (k : Fin 16) : Statement (.pulseAck a k) := ⟨fun _ => trivial, fun _ => rfl⟩
theorem evtRouteWrite (a : Actor) (v : W32) : Statement (.evtRouteWrite a v) := ⟨fun _ => trivial, fun _ => rfl⟩
theorem msixMaskWrite (vector : Option Byte) (masked : Bool) : Statement (.msixMaskWrite vector masked) := ⟨fun _ => trivial, fun _ => rfl⟩
theorem violKindClear (a : Actor) : Statement (.violKindClear a) := ⟨fun _ => trivial, fun _ => rfl⟩
theorem pwrCmdWrite (a : Actor) (v : W32) : Statement (.pwrCmdWrite a v) := ⟨fun _ => trivial, fun _ => rfl⟩
theorem stallVsetWrite (a : Actor) (v : W32) : Statement (.stallVsetWrite a v) := ⟨fun _ => trivial, fun _ => rfl⟩
theorem stallFsetWrite (a : Actor) (v : W32) : Statement (.stallFsetWrite a v) := ⟨fun _ => trivial, fun _ => rfl⟩
theorem faultForceMirror (a : Actor) (f : Fin 64) (v : W32) : Statement (.faultForceMirror a f v) := ⟨fun _ => trivial, fun _ => rfl⟩
theorem registerWrite (a : Actor) (reg : W16) (v : W32) : Statement (.registerWrite a reg v) := ⟨fun _ => trivial, fun _ => rfl⟩
theorem watchdogExpiry (p : CorePair) : Statement (.watchdogExpiry p) := ⟨fun _ => trivial, fun _ => rfl⟩
theorem lockstepMismatch (c : Comparator) : Statement (.lockstepMismatch c) := by
  show Comparator.wf c = true ↔ ∀ f n l again,
    c = .eccUncorr f (.held n l) ∨ c = .e2eCrc f (.held n l) again → 1 ≤ n ∧ n ≤ 64 ∧ l < 2 ^ 40
  have hw : ∀ hit : Hit, hit.wf = true ↔ ∀ n l, hit = .held n l → 1 ≤ n ∧ n ≤ 64 ∧ l < 2 ^ 40 := by
    intro hit; cases hit <;> simp [Hit.wf, nsLba, and_assoc]
  cases c <;> simp [Comparator.wf, hw]
  all_goals exact ⟨fun h _ n l _ => h n l, fun h n l => h _ n l rfl⟩
theorem watchSample (ctrl : Reading) (nand : Vector Reading 8) (dram holdup : Reading) (bankMv : Nat) : Statement (.watchSample ctrl nand dram holdup bankMv) := ⟨fun _ => trivial, fun _ => rfl⟩
theorem sensorUpdate (sensor : Sensor) (value : Int) (stuck : Bool) : Statement (.sensorUpdate sensor value stuck) := ⟨fun _ => trivial, fun _ => rfl⟩
theorem writeHoldTimeout (h : Nat) : Statement (.writeHoldTimeout h) := ⟨fun _ => trivial, fun _ => rfl⟩
theorem shutdownSample (ctrl : Reading) (nand : Vector Reading 8) (dram holdup : Reading) : Statement (.shutdownSample ctrl nand dram holdup) := ⟨fun _ => trivial, fun _ => rfl⟩
theorem siliconDelayMeasure (delta : Nat) : Statement (.siliconDelayMeasure delta) := ⟨fun _ => trivial, fun _ => rfl⟩
theorem clockLoss (c : Clock) : Statement (.clockLoss c) := ⟨fun _ => trivial, fun _ => rfl⟩
theorem busIdleDetect (truncated : Bool) : Statement (.busIdleDetect truncated) := ⟨fun _ => trivial, fun _ => rfl⟩
theorem coalescingTimeExpiry (y : Byte) : Statement (.coalescingTimeExpiry y) := ⟨fun _ => trivial, fun _ => rfl⟩
theorem deliveryErr (vector : Byte) : Statement (.deliveryErr vector) := ⟨fun _ => trivial, fun _ => rfl⟩
theorem mainRailUp : Statement (.mainRailUp) := ⟨fun _ => trivial, fun _ => rfl⟩
theorem auxRailFail : Statement (.auxRailFail) := ⟨fun _ => trivial, fun _ => rfl⟩
theorem staggerDelayExpiry : Statement (.staggerDelayExpiry) := ⟨fun _ => trivial, fun _ => rfl⟩
theorem rebuildDone : Statement (.rebuildDone) := ⟨fun _ => trivial, fun _ => rfl⟩
theorem perstAssert : Statement (.perstAssert) := ⟨fun _ => trivial, fun _ => rfl⟩
theorem linkDown : Statement (.linkDown) := ⟨fun _ => trivial, fun _ => rfl⟩
theorem perstRelease : Statement (.perstRelease) := ⟨fun _ => trivial, fun _ => rfl⟩
theorem controllerReset : Statement (.controllerReset) := ⟨fun _ => trivial, fun _ => rfl⟩
theorem functionLevelReset : Statement (.functionLevelReset) := ⟨fun _ => trivial, fun _ => rfl⟩
theorem powerLossDetect : Statement (.powerLossDetect) := ⟨fun _ => trivial, fun _ => rfl⟩
theorem flushCompleteRecord : Statement (.flushCompleteRecord) := ⟨fun _ => trivial, fun _ => rfl⟩
theorem railReturnDuringFlush : Statement (.railReturnDuringFlush) := ⟨fun _ => trivial, fun _ => rfl⟩
theorem detectRearm : Statement (.detectRearm) := ⟨fun _ => trivial, fun _ => rfl⟩
theorem lossDetArm : Statement (.lossDetArm) := ⟨fun _ => trivial, fun _ => rfl⟩
theorem lossDet : Statement (.lossDet) := ⟨fun _ => trivial, fun _ => rfl⟩
theorem earlyFlushEnd : Statement (.earlyFlushEnd) := ⟨fun _ => trivial, fun _ => rfl⟩
theorem dischargeMeasurementDue : Statement (.dischargeMeasurementDue) := ⟨fun _ => trivial, fun _ => rfl⟩
theorem budgetFlushDone : Statement (.budgetFlushDone) := ⟨fun _ => trivial, fun _ => rfl⟩
theorem bankReachesVb : Statement (.bankReachesVb) := ⟨fun _ => trivial, fun _ => rfl⟩
theorem commandFetch : Statement (.commandFetch) := ⟨fun _ => trivial, fun _ => rfl⟩
theorem heldAdmit : Statement (.heldAdmit) := ⟨fun _ => trivial, fun _ => rfl⟩
theorem heldProgramTrigger : Statement .heldProgramTrigger := ⟨fun _ => trivial, fun _ => rfl⟩
theorem writeIdleTimeout : Statement (.writeIdleTimeout) := ⟨fun _ => trivial, fun _ => rfl⟩
theorem mapJournalProgram : Statement .mapJournalProgram := ⟨fun _ => trivial, fun _ => rfl⟩
theorem scanCheckpoint : Statement .scanCheckpoint := ⟨fun _ => trivial, fun _ => rfl⟩
theorem stillEntry : Statement (.stillEntry) := ⟨fun _ => trivial, fun _ => rfl⟩
theorem sequenceReservation : Statement (.sequenceReservation) := ⟨fun _ => trivial, fun _ => rfl⟩
theorem opTransitionEnd : Statement (.opTransitionEnd) := ⟨fun _ => trivial, fun _ => rfl⟩
theorem tokenLapse : Statement (.tokenLapse) := ⟨fun _ => trivial, fun _ => rfl⟩
theorem journalInterval : Statement (.journalInterval) := ⟨fun _ => trivial, fun _ => rfl⟩
theorem fatalFlushDone : Statement (.fatalFlushDone) := ⟨fun _ => trivial, fun _ => rfl⟩
theorem watchEntry : Statement (.watchEntry) := ⟨fun _ => trivial, fun _ => rfl⟩
theorem watchExit : Statement (.watchExit) := ⟨fun _ => trivial, fun _ => rfl⟩
theorem watchTimerExpiry : Statement (.watchTimerExpiry) := ⟨fun _ => trivial, fun _ => rfl⟩
theorem throttleGraceExpiry : Statement (.throttleGraceExpiry) := ⟨fun _ => trivial, fun _ => rfl⟩
theorem enforcementSecond : Statement (.enforcementSecond) := ⟨fun _ => trivial, fun _ => rfl⟩
theorem lifeRecompute : Statement (.lifeRecompute) := ⟨fun _ => trivial, fun _ => rfl⟩
theorem auxDomainReset : Statement (.auxDomainReset) := ⟨fun _ => trivial, fun _ => rfl⟩
theorem mainRailRemovalInWatch : Statement (.mainRailRemovalInWatch) := ⟨fun _ => trivial, fun _ => rfl⟩
theorem bankCharged : Statement (.bankCharged) := ⟨fun _ => trivial, fun _ => rfl⟩
theorem indexRebuildDone : Statement (.indexRebuildDone) := ⟨fun _ => trivial, fun _ => rfl⟩

end Sys2Proof.Laws.WellFormed
end

