-- ==== Sys2Proof/Laws/Settle.lean ====
section
/-! SUPPORT. Every command answers a next state, which the event router's update ends. -/

namespace Sys2Proof.Laws

open Sys2Proof Sys2Proof.Machine

/-- What a meaning answers. -/
theorem exec_settles (c : Instr) (s : State) : ∃ u, exec c s = .next (settle u) := by
  cases c
  case extrapolationStop t =>
    show ∃ u, execExtrapolationStop t s = _
    unfold execExtrapolationStop; dsimp only; split <;> exact ⟨_, rfl⟩
  case harbourOpComplete result =>
    show ∃ u, execHarbourOpComplete result s = _
    unfold execHarbourOpComplete; (repeat' split) <;> exact ⟨_, rfl⟩
  case busIdleDetect b =>
    show ∃ u, execBusIdleDetect b s = _
    unfold execBusIdleDetect; split <;> exact ⟨_, rfl⟩
  all_goals exact ⟨_, rfl⟩

/-- What a step answers. -/
theorem step_settles (s : State) : ∃ u, step s = .next (settle u) := by
  unfold step
  split
  · exact ⟨_, rfl⟩
  · exact exec_settles _ _

end Sys2Proof.Laws
end

