-- ==== Sys2Proof/Laws/StallCode.lean ====
section
/-! SUPPORT. What one instruction of Stall Code does, said once: the outcome of `runOp` for each way an instruction can end. -/

namespace Sys2Proof.Laws

open Sys2Proof Sys2Proof.Machine

/-! Stalls by number. -/

@[simp] theorem stall_modStall_self (s : State) (n : Nat) (f : Stall → Stall) (h : n < 64) :
    (s.modStall n f).stall n = f (s.stall n) := by
  simp [State.modStall, State.stall, vmod, h]

@[simp] theorem stall_modStall_ne (s : State) (n m : Nat) (f : Stall → Stall) (h : m ≠ n) :
    (s.modStall n f).stall m = s.stall m := by
  by_cases hn : n < 64 <;> simp [State.modStall, State.stall, vmod, hn, h.symm]

@[simp] theorem stall_setStall_self (s : State) (n : Nat) (t : Stall) (h : n < 64) : (s.setStall n t).stall n = t := by
  simp [State.setStall, State.stall, vput, h]

@[simp] theorem stall_setStall_ne (s : State) (n m : Nat) (t : Stall) (h : m ≠ n) : (s.setStall n t).stall m = s.stall m := by
  simp [State.setStall, State.stall, vput, h.symm]

theorem modStall_modStall (s : State) (n : Nat) (f g : Stall → Stall) :
    (s.modStall n f).modStall n g = s.modStall n (fun t => g (f t)) := by
  by_cases hn : n < 64 <;> simp [State.modStall, vmod, hn]

theorem modStall_congr (s : State) (n : Nat) (f g : Stall → Stall) (h : f (s.stall n) = g (s.stall n)) :
    s.modStall n f = s.modStall n g := by
  by_cases hn : n < 64
  · simp only [State.stall, hn, Vector.getElem?_eq_getElem, Option.getD_some] at h
    simp [State.modStall, vmod, hn, h]
  · simp [State.modStall, vmod, hn]

theorem setStall_eq_modStall (s : State) (n : Nat) (t : Stall) (h : n < 64) : s.setStall n t = s.modStall n fun _ => t := by
  simp [State.setStall, State.modStall, vput, vmod, h, Vector.setIfInBounds, Vector.set, Array.setIfInBounds]

/-! The window within its bits. -/

theorem holdWp_room (n old : Nat) (s : State) (h : (s.stall n).core.wp < 2 ^ 21) : holdWp n old s = s := by
  unfold holdWp; rw [if_pos h]

/-- An instruction that is legal, whose guard is true and that the record can pay comes to its body. -/
theorem runOp_body {s : State} {n : Nat} {o : Op} (body : State → Flow × State) (r : Runs s n o.word o.guard o.cost)
    (hl : o.legal = true) (hh : (s.stall n).handlers = [] ∨ o.handler = true) :
    runOp n o body s =
      match body s with
      | (.next, u) => holdWp n (s.stall n).core.wp (u.modStall n fun t => (t.charge o.cost).modCore (CoreRegs.onward (!(s.stall n).handlers.isEmpty) (s.stall n).core.pc))
      | (.jump p, u) => holdWp n (s.stall n).core.wp (u.modStall n fun t =>
          (t.charge o.cost).modCore (CoreRegs.branchTo (!(s.stall n).handlers.isEmpty) p))
      | (.ret p, u) => holdWp n (s.stall n).core.wp (u.modStall n fun t => (t.charge o.cost).modCore fun c => c.advance (p - 1))
      | (.stay, u) => holdWp n (s.stall n).core.wp (u.modStall n fun t => t.charge o.cost)
      | (.wait, _) => s
      | (.fault c, u) => stallFault n c u := by
  obtain ⟨⟨hc, hq, v, hv, hw⟩, hg, ht, hp, _⟩ := r
  have hbad : (!o.legal || !guardOk o.guard || (!(s.stall n).handlers.isEmpty && !o.handler)) = false := by
    rcases hh with h | h <;> simp [hl, hg, h]
  have hpaid : ((!(!(s.stall n).handlers.isEmpty)) && decide (s.curTerm n < (s.stall n).cycles + o.cost)) = false := by
    cases hs : (s.stall n).handlers with
    | nil => simp [hp hs]
    | cons _ _ => simp
  unfold runOp
  simp only [hc, hq, hv, Bool.not_true, Bool.false_eq_true, ↓reduceIte, ← hw, ne_eq, not_true_eq_false, ht, Bool.and_true, Bool.true_and, hbad]
  by_cases hf : (body s).1 = .fault 1
  · rcases hb : body s with ⟨fl, u⟩
    rw [hb] at hf
    subst hf
    simp
  · refine (if_neg (by simpa using hf)).trans ?_
    refine (if_neg (by simpa using hpaid)).trans ?_
    rfl

/-! Cycles that pass leave the registers alone. -/

@[simp] theorem pass_core (k : Nat) (t : Stall) : (t.pass k).core = t.core := rfl
@[simp] theorem pass_lots (k : Nat) (t : Stall) : (t.pass k).lots = t.lots := rfl
@[simp] theorem pass_moves (k : Nat) (t : Stall) : (t.pass k).moves = t.moves := rfl
@[simp] theorem charge_core (k : Nat) (t : Stall) : (t.charge k).core = t.core := rfl

/-- The window position as it stands is within its bits. -/
theorem after_wp (pc : Nat) (fs : List LoopFrame) (d : Nat) (c : CoreRegs) : c.wp ≤ (CoreRegs.after pc fs d c).wp := by
  induction fs generalizing c with
  | nil => simp [CoreRegs.after]
  | cons f fs ih =>
    unfold CoreRegs.after
    split
    · split
      · dsimp only; split <;> omega
      · refine Nat.le_trans ?_ (ih _)
        split <;> simp
    · simp

theorem onward_wp (b : Bool) (pc : Nat) (c : CoreRegs) : c.wp ≤ (CoreRegs.onward b pc c).wp := by
  unfold CoreRegs.onward
  split
  · simp
  · exact after_wp _ _ _ _

theorem runs_wp {s : State} {n : Nat} {w : W32} {g : BitVec 4} {k : Nat} (r : Runs s n w g k) : (s.stall n).core.wp < 2 ^ 21 :=
  Nat.lt_of_le_of_lt (onward_wp _ _ _) r.room

/-- An instruction that goes on in order. -/
theorem runOp_ran {s : State} {n : Nat} {o : Op} {body : State → Flow × State} (r : Runs s n o.word o.guard o.cost)
    (hl : o.legal = true) (hh : (s.stall n).handlers = [] ∨ o.handler = true) (hn : n < 64) (f : Stall → Stall)
    (hb : body s = (.next, s.modStall n f))
    (hpc : (CoreRegs.onward (!(s.stall n).handlers.isEmpty) (s.stall n).core.pc (f (s.stall n)).core).wp < 2 ^ 21) :
    runOp n o body s = s.ran n o.cost f := by
  rw [runOp_body body r hl hh, hb]
  simp only [modStall_modStall]
  rw [holdWp_room]
  · exact modStall_congr _ _ _ _ rfl
  · simpa [hn, Stall.charge, Stall.modCore] using hpc

/-- An instruction that places the PC itself. -/
theorem runOp_stay {s : State} {n : Nat} {o : Op} {body : State → Flow × State} (r : Runs s n o.word o.guard o.cost)
    (hl : o.legal = true) (hh : (s.stall n).handlers = [] ∨ o.handler = true) (hn : n < 64) (f : Stall → Stall)
    (hb : body s = (.stay, s.modStall n f)) (hwp : (f (s.stall n)).core.wp < 2 ^ 21) :
    runOp n o body s = s.ranTo n o.cost f := by
  rw [runOp_body body r hl hh, hb]
  simp only [modStall_modStall]
  rw [holdWp_room]
  · rfl
  · simpa [hn, Stall.charge] using hwp

/-- An instruction that faults. -/
theorem runOp_fault {s u : State} {n : Nat} {o : Op} {body : State → Flow × State} {c : Nat} (r : Runs s n o.word o.guard o.cost)
    (hl : o.legal = true) (hh : (s.stall n).handlers = [] ∨ o.handler = true) (hb : body s = (.fault c, u)) :
    runOp n o body s = stallFault n c u := by
  rw [runOp_body body r hl hh, hb]

/-- An instruction that waits has done nothing. -/
theorem runOp_wait {s u : State} {n : Nat} {o : Op} {body : State → Flow × State} (r : Runs s n o.word o.guard o.cost)
    (hl : o.legal = true) (hh : (s.stall n).handlers = [] ∨ o.handler = true) (hb : body s = (.wait, u)) :
    runOp n o body s = s := by
  rw [runOp_body body r hl hh, hb]

/-! What an instruction writes leaves the PC, the stacks and the window alone. -/

@[simp] theorem setReg_pc (t : Stall) (i : BitVec 4) (v : W64) : (t.setReg i v).core.pc = t.core.pc := by
  unfold Stall.setReg; dsimp only; split <;> [rfl; split <;> rfl]
@[simp] theorem setReg_wp (t : Stall) (i : BitVec 4) (v : W64) : (t.setReg i v).core.wp = t.core.wp := by
  unfold Stall.setReg; dsimp only; split <;> [rfl; split <;> rfl]
@[simp] theorem setReg_loops (t : Stall) (i : BitVec 4) (v : W64) : (t.setReg i v).core.loops = t.core.loops := by
  unfold Stall.setReg; dsimp only; split <;> [rfl; split <;> rfl]
@[simp] theorem setReg_calls (t : Stall) (i : BitVec 4) (v : W64) : (t.setReg i v).core.calls = t.core.calls := by
  unfold Stall.setReg; dsimp only; split <;> [rfl; split <;> rfl]
@[simp] theorem setReg_handlers (t : Stall) (i : BitVec 4) (v : W64) : (t.setReg i v).handlers = t.handlers := by
  unfold Stall.setReg; dsimp only; split <;> [rfl; split <;> rfl]

theorem after_wp_congr (pc : Nat) (fs : List LoopFrame) (d : Nat) (c c' : CoreRegs) (h : c.wp = c'.wp) :
    (CoreRegs.after pc fs d c).wp = (CoreRegs.after pc fs d c').wp := by
  induction fs generalizing c c' with
  | nil => simp [CoreRegs.after, h]
  | cons f fs ih =>
    unfold CoreRegs.after
    split
    · split
      · dsimp only; split <;> simp_all
      · apply ih; split <;> simp_all
    · simp [h]

/-- The next window position depends on the window, the loops and the depth of calls only. -/
theorem advance_wp_congr (c c' : CoreRegs) (pc : Nat) (h : c.wp = c'.wp) (hl : c.loops = c'.loops) (hc : c.calls = c'.calls) :
    (c.advance pc).wp = (c'.advance pc).wp := by
  unfold CoreRegs.advance
  rw [hl, hc]
  exact after_wp_congr _ _ _ _ _ h

theorem onward_wp_congr (b : Bool) (pc : Nat) (c c' : CoreRegs) (h : c.wp = c'.wp) (hl : c.loops = c'.loops) (hc : c.calls = c'.calls) :
    (CoreRegs.onward b pc c).wp = (CoreRegs.onward b pc c').wp := by
  unfold CoreRegs.onward
  split
  · exact h
  · exact advance_wp_congr _ _ _ h hl hc

/-- An instruction that leaves the PC, the stacks and the window alone and goes on in order. -/
theorem runOp_plain {s : State} {n : Nat} {o : Op} {body : State → Flow × State} (r : Runs s n o.word o.guard o.cost)
    (hl : o.legal = true) (hh : (s.stall n).handlers = [] ∨ o.handler = true) (hn : n < 64) (f : Stall → Stall)
    (hb : body s = (.next, s.modStall n f)) (hw : (f (s.stall n)).core.wp = (s.stall n).core.wp)
    (hlo : (f (s.stall n)).core.loops = (s.stall n).core.loops) (hca : (f (s.stall n)).core.calls = (s.stall n).core.calls) :
    runOp n o body s = s.ran n o.cost f :=
  runOp_ran r hl hh hn f hb (by rw [onward_wp_congr _ _ _ (s.stall n).core hw hlo hca]; exact r.room)

end Sys2Proof.Laws
end

