-- ==== Sys2Proof/Laws/State.lean ====
section
/-! SUPPORT. One lemma per field of State for each named update: what it sets the field it changes to, and that every other field is
as it was. (Laws/Frames.lean says the same of the operations that change several fields.) -/

namespace Sys2Proof.Laws

open Sys2Proof Sys2Proof.Machine

@[simp] theorem modNs_pending (s : State) (k : Nat) (f : Ns → Ns) : (modNs k f s).pending = s.pending := rfl
@[simp] theorem modNs_now (s : State) (k : Nat) (f : Ns → Ns) : (modNs k f s).now = s.now := rfl
@[simp] theorem modNs_fresh (s : State) (k : Nat) (f : Ns → Ns) : (modNs k f s).fresh = s.fresh := rfl
@[simp] theorem modNs_pwr (s : State) (k : Nat) (f : Ns → Ns) : (modNs k f s).pwr = s.pwr := rfl
@[simp] theorem modNs_therm (s : State) (k : Nat) (f : Ns → Ns) : (modNs k f s).therm = s.therm := rfl
@[simp] theorem modNs_hu (s : State) (k : Nat) (f : Ns → Ns) : (modNs k f s).hu = s.hu := rfl
@[simp] theorem modNs_health (s : State) (k : Nat) (f : Ns → Ns) : (modNs k f s).health = s.health := rfl
@[simp] theorem modNs_bcn (s : State) (k : Nat) (f : Ns → Ns) : (modNs k f s).bcn = s.bcn := rfl
@[simp] theorem modNs_bus (s : State) (k : Nat) (f : Ns → Ns) : (modNs k f s).bus = s.bus := rfl
@[simp] theorem modNs_keeper (s : State) (k : Nat) (f : Ns → Ns) : (modNs k f s).keeper = s.keeper := rfl
@[simp] theorem modNs_acc (s : State) (k : Nat) (f : Ns → Ns) : (modNs k f s).acc = s.acc := rfl
@[simp] theorem modNs_ev (s : State) (k : Nat) (f : Ns → Ns) : (modNs k f s).ev = s.ev := rfl
@[simp] theorem modNs_hb (s : State) (k : Nat) (f : Ns → Ns) : (modNs k f s).hb = s.hb := rfl
@[simp] theorem modNs_nv (s : State) (k : Nat) (f : Ns → Ns) : (modNs k f s).nv = s.nv := rfl
@[simp] theorem modNs_ns (s : State) (k : Nat) (f : Ns → Ns) : (modNs k f s).ns = (adjust s.ns k f) := rfl
@[simp] theorem modNs_med (s : State) (k : Nat) (f : Ns → Ns) : (modNs k f s).med = s.med := rfl
@[simp] theorem modNs_stalls (s : State) (k : Nat) (f : Ns → Ns) : (modNs k f s).stalls = s.stalls := rfl
@[simp] theorem modNs_lots (s : State) (k : Nat) (f : Ns → Ns) : (modNs k f s).lots = s.lots := rfl
@[simp] theorem modNs_nextLot (s : State) (k : Nat) (f : Ns → Ns) : (modNs k f s).nextLot = s.nextLot := rfl
@[simp] theorem modNs_pipes (s : State) (k : Nat) (f : Ns → Ns) : (modNs k f s).pipes = s.pipes := rfl
@[simp] theorem modNs_queries (s : State) (k : Nat) (f : Ns → Ns) : (modNs k f s).queries = s.queries := rfl
@[simp] theorem modNs_slots (s : State) (k : Nat) (f : Ns → Ns) : (modNs k f s).slots = s.slots := rfl
@[simp] theorem modNs_waitq (s : State) (k : Nat) (f : Ns → Ns) : (modNs k f s).waitq = s.waitq := rfl
@[simp] theorem modNs_opens (s : State) (k : Nat) (f : Ns → Ns) : (modNs k f s).opens = s.opens := rfl
@[simp] theorem modNs_porters (s : State) (k : Nat) (f : Ns → Ns) : (modNs k f s).porters = s.porters := rfl
@[simp] theorem modNs_units (s : State) (k : Nat) (f : Ns → Ns) : (modNs k f s).units = s.units := rfl
@[simp] theorem modNs_nextCall (s : State) (k : Nat) (f : Ns → Ns) : (modNs k f s).nextCall = s.nextCall := rfl
@[simp] theorem modNs_offReports (s : State) (k : Nat) (f : Ns → Ns) : (modNs k f s).offReports = s.offReports := rfl
@[simp] theorem modNs_ram (s : State) (k : Nat) (f : Ns → Ns) : (modNs k f s).ram = s.ram := rfl
@[simp] theorem modNs_dataOut (s : State) (k : Nat) (f : Ns → Ns) : (modNs k f s).dataOut = s.dataOut := rfl

@[simp] theorem modPipe_pending (s : State) (k : Nat) (f : Pipe → Pipe) : (s.modPipe k f).pending = s.pending := rfl
@[simp] theorem modPipe_now (s : State) (k : Nat) (f : Pipe → Pipe) : (s.modPipe k f).now = s.now := rfl
@[simp] theorem modPipe_fresh (s : State) (k : Nat) (f : Pipe → Pipe) : (s.modPipe k f).fresh = s.fresh := rfl
@[simp] theorem modPipe_pwr (s : State) (k : Nat) (f : Pipe → Pipe) : (s.modPipe k f).pwr = s.pwr := rfl
@[simp] theorem modPipe_therm (s : State) (k : Nat) (f : Pipe → Pipe) : (s.modPipe k f).therm = s.therm := rfl
@[simp] theorem modPipe_hu (s : State) (k : Nat) (f : Pipe → Pipe) : (s.modPipe k f).hu = s.hu := rfl
@[simp] theorem modPipe_health (s : State) (k : Nat) (f : Pipe → Pipe) : (s.modPipe k f).health = s.health := rfl
@[simp] theorem modPipe_bcn (s : State) (k : Nat) (f : Pipe → Pipe) : (s.modPipe k f).bcn = s.bcn := rfl
@[simp] theorem modPipe_bus (s : State) (k : Nat) (f : Pipe → Pipe) : (s.modPipe k f).bus = s.bus := rfl
@[simp] theorem modPipe_keeper (s : State) (k : Nat) (f : Pipe → Pipe) : (s.modPipe k f).keeper = s.keeper := rfl
@[simp] theorem modPipe_acc (s : State) (k : Nat) (f : Pipe → Pipe) : (s.modPipe k f).acc = s.acc := rfl
@[simp] theorem modPipe_ev (s : State) (k : Nat) (f : Pipe → Pipe) : (s.modPipe k f).ev = s.ev := rfl
@[simp] theorem modPipe_hb (s : State) (k : Nat) (f : Pipe → Pipe) : (s.modPipe k f).hb = s.hb := rfl
@[simp] theorem modPipe_nv (s : State) (k : Nat) (f : Pipe → Pipe) : (s.modPipe k f).nv = s.nv := rfl
@[simp] theorem modPipe_ns (s : State) (k : Nat) (f : Pipe → Pipe) : (s.modPipe k f).ns = s.ns := rfl
@[simp] theorem modPipe_med (s : State) (k : Nat) (f : Pipe → Pipe) : (s.modPipe k f).med = s.med := rfl
@[simp] theorem modPipe_stalls (s : State) (k : Nat) (f : Pipe → Pipe) : (s.modPipe k f).stalls = s.stalls := rfl
@[simp] theorem modPipe_lots (s : State) (k : Nat) (f : Pipe → Pipe) : (s.modPipe k f).lots = s.lots := rfl
@[simp] theorem modPipe_nextLot (s : State) (k : Nat) (f : Pipe → Pipe) : (s.modPipe k f).nextLot = s.nextLot := rfl
@[simp] theorem modPipe_pipes (s : State) (k : Nat) (f : Pipe → Pipe) : (s.modPipe k f).pipes = (adjust s.pipes k f) := rfl
@[simp] theorem modPipe_queries (s : State) (k : Nat) (f : Pipe → Pipe) : (s.modPipe k f).queries = s.queries := rfl
@[simp] theorem modPipe_slots (s : State) (k : Nat) (f : Pipe → Pipe) : (s.modPipe k f).slots = s.slots := rfl
@[simp] theorem modPipe_waitq (s : State) (k : Nat) (f : Pipe → Pipe) : (s.modPipe k f).waitq = s.waitq := rfl
@[simp] theorem modPipe_opens (s : State) (k : Nat) (f : Pipe → Pipe) : (s.modPipe k f).opens = s.opens := rfl
@[simp] theorem modPipe_porters (s : State) (k : Nat) (f : Pipe → Pipe) : (s.modPipe k f).porters = s.porters := rfl
@[simp] theorem modPipe_units (s : State) (k : Nat) (f : Pipe → Pipe) : (s.modPipe k f).units = s.units := rfl
@[simp] theorem modPipe_nextCall (s : State) (k : Nat) (f : Pipe → Pipe) : (s.modPipe k f).nextCall = s.nextCall := rfl
@[simp] theorem modPipe_offReports (s : State) (k : Nat) (f : Pipe → Pipe) : (s.modPipe k f).offReports = s.offReports := rfl
@[simp] theorem modPipe_ram (s : State) (k : Nat) (f : Pipe → Pipe) : (s.modPipe k f).ram = s.ram := rfl
@[simp] theorem modPipe_dataOut (s : State) (k : Nat) (f : Pipe → Pipe) : (s.modPipe k f).dataOut = s.dataOut := rfl

@[simp] theorem modLot_pending (s : State) (k : Nat) (f : Lot → Lot) : (s.modLot k f).pending = s.pending := rfl
@[simp] theorem modLot_now (s : State) (k : Nat) (f : Lot → Lot) : (s.modLot k f).now = s.now := rfl
@[simp] theorem modLot_fresh (s : State) (k : Nat) (f : Lot → Lot) : (s.modLot k f).fresh = s.fresh := rfl
@[simp] theorem modLot_pwr (s : State) (k : Nat) (f : Lot → Lot) : (s.modLot k f).pwr = s.pwr := rfl
@[simp] theorem modLot_therm (s : State) (k : Nat) (f : Lot → Lot) : (s.modLot k f).therm = s.therm := rfl
@[simp] theorem modLot_hu (s : State) (k : Nat) (f : Lot → Lot) : (s.modLot k f).hu = s.hu := rfl
@[simp] theorem modLot_health (s : State) (k : Nat) (f : Lot → Lot) : (s.modLot k f).health = s.health := rfl
@[simp] theorem modLot_bcn (s : State) (k : Nat) (f : Lot → Lot) : (s.modLot k f).bcn = s.bcn := rfl
@[simp] theorem modLot_bus (s : State) (k : Nat) (f : Lot → Lot) : (s.modLot k f).bus = s.bus := rfl
@[simp] theorem modLot_keeper (s : State) (k : Nat) (f : Lot → Lot) : (s.modLot k f).keeper = s.keeper := rfl
@[simp] theorem modLot_acc (s : State) (k : Nat) (f : Lot → Lot) : (s.modLot k f).acc = s.acc := rfl
@[simp] theorem modLot_ev (s : State) (k : Nat) (f : Lot → Lot) : (s.modLot k f).ev = s.ev := rfl
@[simp] theorem modLot_hb (s : State) (k : Nat) (f : Lot → Lot) : (s.modLot k f).hb = s.hb := rfl
@[simp] theorem modLot_nv (s : State) (k : Nat) (f : Lot → Lot) : (s.modLot k f).nv = s.nv := rfl
@[simp] theorem modLot_ns (s : State) (k : Nat) (f : Lot → Lot) : (s.modLot k f).ns = s.ns := rfl
@[simp] theorem modLot_med (s : State) (k : Nat) (f : Lot → Lot) : (s.modLot k f).med = s.med := rfl
@[simp] theorem modLot_stalls (s : State) (k : Nat) (f : Lot → Lot) : (s.modLot k f).stalls = s.stalls := rfl
@[simp] theorem modLot_lots (s : State) (k : Nat) (f : Lot → Lot) : (s.modLot k f).lots = (s.lots.map fun l => if l.id = k then f l else l) := rfl
@[simp] theorem modLot_nextLot (s : State) (k : Nat) (f : Lot → Lot) : (s.modLot k f).nextLot = s.nextLot := rfl
@[simp] theorem modLot_pipes (s : State) (k : Nat) (f : Lot → Lot) : (s.modLot k f).pipes = s.pipes := rfl
@[simp] theorem modLot_queries (s : State) (k : Nat) (f : Lot → Lot) : (s.modLot k f).queries = s.queries := rfl
@[simp] theorem modLot_slots (s : State) (k : Nat) (f : Lot → Lot) : (s.modLot k f).slots = s.slots := rfl
@[simp] theorem modLot_waitq (s : State) (k : Nat) (f : Lot → Lot) : (s.modLot k f).waitq = s.waitq := rfl
@[simp] theorem modLot_opens (s : State) (k : Nat) (f : Lot → Lot) : (s.modLot k f).opens = s.opens := rfl
@[simp] theorem modLot_porters (s : State) (k : Nat) (f : Lot → Lot) : (s.modLot k f).porters = s.porters := rfl
@[simp] theorem modLot_units (s : State) (k : Nat) (f : Lot → Lot) : (s.modLot k f).units = s.units := rfl
@[simp] theorem modLot_nextCall (s : State) (k : Nat) (f : Lot → Lot) : (s.modLot k f).nextCall = s.nextCall := rfl
@[simp] theorem modLot_offReports (s : State) (k : Nat) (f : Lot → Lot) : (s.modLot k f).offReports = s.offReports := rfl
@[simp] theorem modLot_ram (s : State) (k : Nat) (f : Lot → Lot) : (s.modLot k f).ram = s.ram := rfl
@[simp] theorem modLot_dataOut (s : State) (k : Nat) (f : Lot → Lot) : (s.modLot k f).dataOut = s.dataOut := rfl

@[simp] theorem dropLot_pending (s : State) (k : Nat) : (s.dropLot k).pending = s.pending := rfl
@[simp] theorem dropLot_now (s : State) (k : Nat) : (s.dropLot k).now = s.now := rfl
@[simp] theorem dropLot_fresh (s : State) (k : Nat) : (s.dropLot k).fresh = s.fresh := rfl
@[simp] theorem dropLot_pwr (s : State) (k : Nat) : (s.dropLot k).pwr = s.pwr := rfl
@[simp] theorem dropLot_therm (s : State) (k : Nat) : (s.dropLot k).therm = s.therm := rfl
@[simp] theorem dropLot_hu (s : State) (k : Nat) : (s.dropLot k).hu = s.hu := rfl
@[simp] theorem dropLot_health (s : State) (k : Nat) : (s.dropLot k).health = s.health := rfl
@[simp] theorem dropLot_bcn (s : State) (k : Nat) : (s.dropLot k).bcn = s.bcn := rfl
@[simp] theorem dropLot_bus (s : State) (k : Nat) : (s.dropLot k).bus = s.bus := rfl
@[simp] theorem dropLot_keeper (s : State) (k : Nat) : (s.dropLot k).keeper = s.keeper := rfl
@[simp] theorem dropLot_acc (s : State) (k : Nat) : (s.dropLot k).acc = s.acc := rfl
@[simp] theorem dropLot_ev (s : State) (k : Nat) : (s.dropLot k).ev = s.ev := rfl
@[simp] theorem dropLot_hb (s : State) (k : Nat) : (s.dropLot k).hb = s.hb := rfl
@[simp] theorem dropLot_nv (s : State) (k : Nat) : (s.dropLot k).nv = s.nv := rfl
@[simp] theorem dropLot_ns (s : State) (k : Nat) : (s.dropLot k).ns = s.ns := rfl
@[simp] theorem dropLot_med (s : State) (k : Nat) : (s.dropLot k).med = s.med := rfl
@[simp] theorem dropLot_stalls (s : State) (k : Nat) : (s.dropLot k).stalls = s.stalls := rfl
@[simp] theorem dropLot_lots (s : State) (k : Nat) : (s.dropLot k).lots = (s.lots.filter fun l => l.id != k) := rfl
@[simp] theorem dropLot_nextLot (s : State) (k : Nat) : (s.dropLot k).nextLot = s.nextLot := rfl
@[simp] theorem dropLot_pipes (s : State) (k : Nat) : (s.dropLot k).pipes = s.pipes := rfl
@[simp] theorem dropLot_queries (s : State) (k : Nat) : (s.dropLot k).queries = s.queries := rfl
@[simp] theorem dropLot_slots (s : State) (k : Nat) : (s.dropLot k).slots = s.slots := rfl
@[simp] theorem dropLot_waitq (s : State) (k : Nat) : (s.dropLot k).waitq = s.waitq := rfl
@[simp] theorem dropLot_opens (s : State) (k : Nat) : (s.dropLot k).opens = s.opens := rfl
@[simp] theorem dropLot_porters (s : State) (k : Nat) : (s.dropLot k).porters = s.porters := rfl
@[simp] theorem dropLot_units (s : State) (k : Nat) : (s.dropLot k).units = s.units := rfl
@[simp] theorem dropLot_nextCall (s : State) (k : Nat) : (s.dropLot k).nextCall = s.nextCall := rfl
@[simp] theorem dropLot_offReports (s : State) (k : Nat) : (s.dropLot k).offReports = s.offReports := rfl
@[simp] theorem dropLot_ram (s : State) (k : Nat) : (s.dropLot k).ram = s.ram := rfl
@[simp] theorem dropLot_dataOut (s : State) (k : Nat) : (s.dropLot k).dataOut = s.dataOut := rfl

@[simp] theorem modQuery_pending (s : State) (k : Nat) (f : Query → Query) : (s.modQuery k f).pending = s.pending := rfl
@[simp] theorem modQuery_now (s : State) (k : Nat) (f : Query → Query) : (s.modQuery k f).now = s.now := rfl
@[simp] theorem modQuery_fresh (s : State) (k : Nat) (f : Query → Query) : (s.modQuery k f).fresh = s.fresh := rfl
@[simp] theorem modQuery_pwr (s : State) (k : Nat) (f : Query → Query) : (s.modQuery k f).pwr = s.pwr := rfl
@[simp] theorem modQuery_therm (s : State) (k : Nat) (f : Query → Query) : (s.modQuery k f).therm = s.therm := rfl
@[simp] theorem modQuery_hu (s : State) (k : Nat) (f : Query → Query) : (s.modQuery k f).hu = s.hu := rfl
@[simp] theorem modQuery_health (s : State) (k : Nat) (f : Query → Query) : (s.modQuery k f).health = s.health := rfl
@[simp] theorem modQuery_bcn (s : State) (k : Nat) (f : Query → Query) : (s.modQuery k f).bcn = s.bcn := rfl
@[simp] theorem modQuery_bus (s : State) (k : Nat) (f : Query → Query) : (s.modQuery k f).bus = s.bus := rfl
@[simp] theorem modQuery_keeper (s : State) (k : Nat) (f : Query → Query) : (s.modQuery k f).keeper = s.keeper := rfl
@[simp] theorem modQuery_acc (s : State) (k : Nat) (f : Query → Query) : (s.modQuery k f).acc = s.acc := rfl
@[simp] theorem modQuery_ev (s : State) (k : Nat) (f : Query → Query) : (s.modQuery k f).ev = s.ev := rfl
@[simp] theorem modQuery_hb (s : State) (k : Nat) (f : Query → Query) : (s.modQuery k f).hb = s.hb := rfl
@[simp] theorem modQuery_nv (s : State) (k : Nat) (f : Query → Query) : (s.modQuery k f).nv = s.nv := rfl
@[simp] theorem modQuery_ns (s : State) (k : Nat) (f : Query → Query) : (s.modQuery k f).ns = s.ns := rfl
@[simp] theorem modQuery_med (s : State) (k : Nat) (f : Query → Query) : (s.modQuery k f).med = s.med := rfl
@[simp] theorem modQuery_stalls (s : State) (k : Nat) (f : Query → Query) : (s.modQuery k f).stalls = s.stalls := rfl
@[simp] theorem modQuery_lots (s : State) (k : Nat) (f : Query → Query) : (s.modQuery k f).lots = s.lots := rfl
@[simp] theorem modQuery_nextLot (s : State) (k : Nat) (f : Query → Query) : (s.modQuery k f).nextLot = s.nextLot := rfl
@[simp] theorem modQuery_pipes (s : State) (k : Nat) (f : Query → Query) : (s.modQuery k f).pipes = s.pipes := rfl
@[simp] theorem modQuery_queries (s : State) (k : Nat) (f : Query → Query) : (s.modQuery k f).queries = (s.queries.map fun q => if q.id = k then f q else q) := rfl
@[simp] theorem modQuery_slots (s : State) (k : Nat) (f : Query → Query) : (s.modQuery k f).slots = s.slots := rfl
@[simp] theorem modQuery_waitq (s : State) (k : Nat) (f : Query → Query) : (s.modQuery k f).waitq = s.waitq := rfl
@[simp] theorem modQuery_opens (s : State) (k : Nat) (f : Query → Query) : (s.modQuery k f).opens = s.opens := rfl
@[simp] theorem modQuery_porters (s : State) (k : Nat) (f : Query → Query) : (s.modQuery k f).porters = s.porters := rfl
@[simp] theorem modQuery_units (s : State) (k : Nat) (f : Query → Query) : (s.modQuery k f).units = s.units := rfl
@[simp] theorem modQuery_nextCall (s : State) (k : Nat) (f : Query → Query) : (s.modQuery k f).nextCall = s.nextCall := rfl
@[simp] theorem modQuery_offReports (s : State) (k : Nat) (f : Query → Query) : (s.modQuery k f).offReports = s.offReports := rfl
@[simp] theorem modQuery_ram (s : State) (k : Nat) (f : Query → Query) : (s.modQuery k f).ram = s.ram := rfl
@[simp] theorem modQuery_dataOut (s : State) (k : Nat) (f : Query → Query) : (s.modQuery k f).dataOut = s.dataOut := rfl

@[simp] theorem freeSlot_pending (s : State) (k : Nat) : (freeSlot k s).pending = s.pending := rfl
@[simp] theorem freeSlot_now (s : State) (k : Nat) : (freeSlot k s).now = s.now := rfl
@[simp] theorem freeSlot_fresh (s : State) (k : Nat) : (freeSlot k s).fresh = s.fresh := rfl
@[simp] theorem freeSlot_pwr (s : State) (k : Nat) : (freeSlot k s).pwr = s.pwr := rfl
@[simp] theorem freeSlot_therm (s : State) (k : Nat) : (freeSlot k s).therm = s.therm := rfl
@[simp] theorem freeSlot_hu (s : State) (k : Nat) : (freeSlot k s).hu = s.hu := rfl
@[simp] theorem freeSlot_health (s : State) (k : Nat) : (freeSlot k s).health = s.health := rfl
@[simp] theorem freeSlot_bcn (s : State) (k : Nat) : (freeSlot k s).bcn = s.bcn := rfl
@[simp] theorem freeSlot_bus (s : State) (k : Nat) : (freeSlot k s).bus = s.bus := rfl
@[simp] theorem freeSlot_keeper (s : State) (k : Nat) : (freeSlot k s).keeper = s.keeper := rfl
@[simp] theorem freeSlot_acc (s : State) (k : Nat) : (freeSlot k s).acc = s.acc := rfl
@[simp] theorem freeSlot_ev (s : State) (k : Nat) : (freeSlot k s).ev = s.ev := rfl
@[simp] theorem freeSlot_hb (s : State) (k : Nat) : (freeSlot k s).hb = s.hb := rfl
@[simp] theorem freeSlot_nv (s : State) (k : Nat) : (freeSlot k s).nv = s.nv := rfl
@[simp] theorem freeSlot_ns (s : State) (k : Nat) : (freeSlot k s).ns = s.ns := rfl
@[simp] theorem freeSlot_med (s : State) (k : Nat) : (freeSlot k s).med = s.med := rfl
@[simp] theorem freeSlot_stalls (s : State) (k : Nat) : (freeSlot k s).stalls = s.stalls := rfl
@[simp] theorem freeSlot_lots (s : State) (k : Nat) : (freeSlot k s).lots = s.lots := rfl
@[simp] theorem freeSlot_nextLot (s : State) (k : Nat) : (freeSlot k s).nextLot = s.nextLot := rfl
@[simp] theorem freeSlot_pipes (s : State) (k : Nat) : (freeSlot k s).pipes = s.pipes := rfl
@[simp] theorem freeSlot_queries (s : State) (k : Nat) : (freeSlot k s).queries = s.queries := rfl
@[simp] theorem freeSlot_slots (s : State) (k : Nat) : (freeSlot k s).slots = (adjust s.slots k fun x => { x with state := .free, size := 0, answer := [] }) := rfl
@[simp] theorem freeSlot_waitq (s : State) (k : Nat) : (freeSlot k s).waitq = s.waitq := rfl
@[simp] theorem freeSlot_opens (s : State) (k : Nat) : (freeSlot k s).opens = s.opens := rfl
@[simp] theorem freeSlot_porters (s : State) (k : Nat) : (freeSlot k s).porters = s.porters := rfl
@[simp] theorem freeSlot_units (s : State) (k : Nat) : (freeSlot k s).units = s.units := rfl
@[simp] theorem freeSlot_nextCall (s : State) (k : Nat) : (freeSlot k s).nextCall = s.nextCall := rfl
@[simp] theorem freeSlot_offReports (s : State) (k : Nat) : (freeSlot k s).offReports = s.offReports := rfl
@[simp] theorem freeSlot_ram (s : State) (k : Nat) : (freeSlot k s).ram = s.ram := rfl
@[simp] theorem freeSlot_dataOut (s : State) (k : Nat) : (freeSlot k s).dataOut = s.dataOut := rfl

@[simp] theorem wrote_pending (s : State) : (wrote s).pending = s.pending := rfl
@[simp] theorem wrote_now (s : State) : (wrote s).now = s.now := rfl
@[simp] theorem wrote_fresh (s : State) : (wrote s).fresh = s.fresh := rfl
@[simp] theorem wrote_pwr (s : State) : (wrote s).pwr = s.pwr := rfl
@[simp] theorem wrote_therm (s : State) : (wrote s).therm = s.therm := rfl
@[simp] theorem wrote_hu (s : State) : (wrote s).hu = s.hu := rfl
@[simp] theorem wrote_health (s : State) : (wrote s).health = s.health := rfl
@[simp] theorem wrote_bcn (s : State) : (wrote s).bcn = s.bcn := rfl
@[simp] theorem wrote_bus (s : State) : (wrote s).bus = s.bus := rfl
@[simp] theorem wrote_keeper (s : State) : (wrote s).keeper = s.keeper := rfl
@[simp] theorem wrote_acc (s : State) : (wrote s).acc = s.acc := rfl
@[simp] theorem wrote_ev (s : State) : (wrote s).ev = s.ev := rfl
@[simp] theorem wrote_hb (s : State) : (wrote s).hb = s.hb := rfl
@[simp] theorem wrote_nv (s : State) : (wrote s).nv = s.nv := rfl
@[simp] theorem wrote_ns (s : State) : (wrote s).ns = s.ns := rfl
@[simp] theorem wrote_med (s : State) : (wrote s).med = ({ s.med with idle := false }) := rfl
@[simp] theorem wrote_stalls (s : State) : (wrote s).stalls = s.stalls := rfl
@[simp] theorem wrote_lots (s : State) : (wrote s).lots = s.lots := rfl
@[simp] theorem wrote_nextLot (s : State) : (wrote s).nextLot = s.nextLot := rfl
@[simp] theorem wrote_pipes (s : State) : (wrote s).pipes = s.pipes := rfl
@[simp] theorem wrote_queries (s : State) : (wrote s).queries = s.queries := rfl
@[simp] theorem wrote_slots (s : State) : (wrote s).slots = s.slots := rfl
@[simp] theorem wrote_waitq (s : State) : (wrote s).waitq = s.waitq := rfl
@[simp] theorem wrote_opens (s : State) : (wrote s).opens = s.opens := rfl
@[simp] theorem wrote_porters (s : State) : (wrote s).porters = s.porters := rfl
@[simp] theorem wrote_units (s : State) : (wrote s).units = s.units := rfl
@[simp] theorem wrote_nextCall (s : State) : (wrote s).nextCall = s.nextCall := rfl
@[simp] theorem wrote_offReports (s : State) : (wrote s).offReports = s.offReports := rfl
@[simp] theorem wrote_ram (s : State) : (wrote s).ram = s.ram := rfl
@[simp] theorem wrote_dataOut (s : State) : (wrote s).dataOut = s.dataOut := rfl

@[simp] theorem countHost_pending (s : State) (n : Nat) : (countHost n s).pending = s.pending := rfl
@[simp] theorem countHost_now (s : State) (n : Nat) : (countHost n s).now = s.now := rfl
@[simp] theorem countHost_fresh (s : State) (n : Nat) : (countHost n s).fresh = s.fresh := rfl
@[simp] theorem countHost_pwr (s : State) (n : Nat) : (countHost n s).pwr = s.pwr := rfl
@[simp] theorem countHost_therm (s : State) (n : Nat) : (countHost n s).therm = s.therm := rfl
@[simp] theorem countHost_hu (s : State) (n : Nat) : (countHost n s).hu = s.hu := rfl
@[simp] theorem countHost_health (s : State) (n : Nat) : (countHost n s).health = ({ s.health with hostBytes := s.health.hostBytes + n }) := rfl
@[simp] theorem countHost_bcn (s : State) (n : Nat) : (countHost n s).bcn = s.bcn := rfl
@[simp] theorem countHost_bus (s : State) (n : Nat) : (countHost n s).bus = s.bus := rfl
@[simp] theorem countHost_keeper (s : State) (n : Nat) : (countHost n s).keeper = s.keeper := rfl
@[simp] theorem countHost_acc (s : State) (n : Nat) : (countHost n s).acc = s.acc := rfl
@[simp] theorem countHost_ev (s : State) (n : Nat) : (countHost n s).ev = s.ev := rfl
@[simp] theorem countHost_hb (s : State) (n : Nat) : (countHost n s).hb = s.hb := rfl
@[simp] theorem countHost_nv (s : State) (n : Nat) : (countHost n s).nv = s.nv := rfl
@[simp] theorem countHost_ns (s : State) (n : Nat) : (countHost n s).ns = s.ns := rfl
@[simp] theorem countHost_med (s : State) (n : Nat) : (countHost n s).med = s.med := rfl
@[simp] theorem countHost_stalls (s : State) (n : Nat) : (countHost n s).stalls = s.stalls := rfl
@[simp] theorem countHost_lots (s : State) (n : Nat) : (countHost n s).lots = s.lots := rfl
@[simp] theorem countHost_nextLot (s : State) (n : Nat) : (countHost n s).nextLot = s.nextLot := rfl
@[simp] theorem countHost_pipes (s : State) (n : Nat) : (countHost n s).pipes = s.pipes := rfl
@[simp] theorem countHost_queries (s : State) (n : Nat) : (countHost n s).queries = s.queries := rfl
@[simp] theorem countHost_slots (s : State) (n : Nat) : (countHost n s).slots = s.slots := rfl
@[simp] theorem countHost_waitq (s : State) (n : Nat) : (countHost n s).waitq = s.waitq := rfl
@[simp] theorem countHost_opens (s : State) (n : Nat) : (countHost n s).opens = s.opens := rfl
@[simp] theorem countHost_porters (s : State) (n : Nat) : (countHost n s).porters = s.porters := rfl
@[simp] theorem countHost_units (s : State) (n : Nat) : (countHost n s).units = s.units := rfl
@[simp] theorem countHost_nextCall (s : State) (n : Nat) : (countHost n s).nextCall = s.nextCall := rfl
@[simp] theorem countHost_offReports (s : State) (n : Nat) : (countHost n s).offReports = s.offReports := rfl
@[simp] theorem countHost_ram (s : State) (n : Nat) : (countHost n s).ram = s.ram := rfl
@[simp] theorem countHost_dataOut (s : State) (n : Nat) : (countHost n s).dataOut = s.dataOut := rfl

@[simp] theorem wantPages_pending (s : State) (a b c : Nat) : (wantPages a b c s).pending = s.pending := rfl
@[simp] theorem wantPages_now (s : State) (a b c : Nat) : (wantPages a b c s).now = s.now := rfl
@[simp] theorem wantPages_fresh (s : State) (a b c : Nat) : (wantPages a b c s).fresh = s.fresh := rfl
@[simp] theorem wantPages_pwr (s : State) (a b c : Nat) : (wantPages a b c s).pwr = s.pwr := rfl
@[simp] theorem wantPages_therm (s : State) (a b c : Nat) : (wantPages a b c s).therm = s.therm := rfl
@[simp] theorem wantPages_hu (s : State) (a b c : Nat) : (wantPages a b c s).hu = s.hu := rfl
@[simp] theorem wantPages_health (s : State) (a b c : Nat) : (wantPages a b c s).health = s.health := rfl
@[simp] theorem wantPages_bcn (s : State) (a b c : Nat) : (wantPages a b c s).bcn = s.bcn := rfl
@[simp] theorem wantPages_bus (s : State) (a b c : Nat) : (wantPages a b c s).bus = s.bus := rfl
@[simp] theorem wantPages_keeper (s : State) (a b c : Nat) : (wantPages a b c s).keeper = s.keeper := rfl
@[simp] theorem wantPages_acc (s : State) (a b c : Nat) : (wantPages a b c s).acc = s.acc := rfl
@[simp] theorem wantPages_ev (s : State) (a b c : Nat) : (wantPages a b c s).ev = s.ev := rfl
@[simp] theorem wantPages_hb (s : State) (a b c : Nat) : (wantPages a b c s).hb = s.hb := rfl
@[simp] theorem wantPages_nv (s : State) (a b c : Nat) : (wantPages a b c s).nv = s.nv := rfl
@[simp] theorem wantPages_ns (s : State) (a b c : Nat) : (wantPages a b c s).ns = s.ns := rfl
@[simp] theorem wantPages_stalls (s : State) (a b c : Nat) : (wantPages a b c s).stalls = s.stalls := rfl
@[simp] theorem wantPages_lots (s : State) (a b c : Nat) : (wantPages a b c s).lots = s.lots := rfl
@[simp] theorem wantPages_nextLot (s : State) (a b c : Nat) : (wantPages a b c s).nextLot = s.nextLot := rfl
@[simp] theorem wantPages_pipes (s : State) (a b c : Nat) : (wantPages a b c s).pipes = s.pipes := rfl
@[simp] theorem wantPages_queries (s : State) (a b c : Nat) : (wantPages a b c s).queries = s.queries := rfl
@[simp] theorem wantPages_slots (s : State) (a b c : Nat) : (wantPages a b c s).slots = s.slots := rfl
@[simp] theorem wantPages_waitq (s : State) (a b c : Nat) : (wantPages a b c s).waitq = s.waitq := rfl
@[simp] theorem wantPages_opens (s : State) (a b c : Nat) : (wantPages a b c s).opens = s.opens := rfl
@[simp] theorem wantPages_porters (s : State) (a b c : Nat) : (wantPages a b c s).porters = s.porters := rfl
@[simp] theorem wantPages_units (s : State) (a b c : Nat) : (wantPages a b c s).units = s.units := rfl
@[simp] theorem wantPages_nextCall (s : State) (a b c : Nat) : (wantPages a b c s).nextCall = s.nextCall := rfl
@[simp] theorem wantPages_offReports (s : State) (a b c : Nat) : (wantPages a b c s).offReports = s.offReports := rfl
@[simp] theorem wantPages_ram (s : State) (a b c : Nat) : (wantPages a b c s).ram = s.ram := rfl
@[simp] theorem wantPages_dataOut (s : State) (a b c : Nat) : (wantPages a b c s).dataOut = s.dataOut := rfl

@[simp] theorem acceptHeld_pending (s : State) (xs : List (Nat × List Byte × List Byte)) : (acceptHeld xs s).pending = s.pending := rfl
@[simp] theorem acceptHeld_now (s : State) (xs : List (Nat × List Byte × List Byte)) : (acceptHeld xs s).now = s.now := rfl
@[simp] theorem acceptHeld_fresh (s : State) (xs : List (Nat × List Byte × List Byte)) : (acceptHeld xs s).fresh = s.fresh := rfl
@[simp] theorem acceptHeld_pwr (s : State) (xs : List (Nat × List Byte × List Byte)) : (acceptHeld xs s).pwr = s.pwr := rfl
@[simp] theorem acceptHeld_therm (s : State) (xs : List (Nat × List Byte × List Byte)) : (acceptHeld xs s).therm = s.therm := rfl
@[simp] theorem acceptHeld_hu (s : State) (xs : List (Nat × List Byte × List Byte)) : (acceptHeld xs s).hu = s.hu := rfl
@[simp] theorem acceptHeld_health (s : State) (xs : List (Nat × List Byte × List Byte)) : (acceptHeld xs s).health = s.health := rfl
@[simp] theorem acceptHeld_bcn (s : State) (xs : List (Nat × List Byte × List Byte)) : (acceptHeld xs s).bcn = s.bcn := rfl
@[simp] theorem acceptHeld_bus (s : State) (xs : List (Nat × List Byte × List Byte)) : (acceptHeld xs s).bus = s.bus := rfl
@[simp] theorem acceptHeld_keeper (s : State) (xs : List (Nat × List Byte × List Byte)) : (acceptHeld xs s).keeper = s.keeper := rfl
@[simp] theorem acceptHeld_acc (s : State) (xs : List (Nat × List Byte × List Byte)) : (acceptHeld xs s).acc = s.acc := rfl
@[simp] theorem acceptHeld_ev (s : State) (xs : List (Nat × List Byte × List Byte)) : (acceptHeld xs s).ev = s.ev := rfl
@[simp] theorem acceptHeld_hb (s : State) (xs : List (Nat × List Byte × List Byte)) : (acceptHeld xs s).hb = s.hb := rfl
@[simp] theorem acceptHeld_nv (s : State) (xs : List (Nat × List Byte × List Byte)) : (acceptHeld xs s).nv = s.nv := rfl
@[simp] theorem acceptHeld_ns (s : State) (xs : List (Nat × List Byte × List Byte)) : (acceptHeld xs s).ns = s.ns := rfl
@[simp] theorem acceptHeld_stalls (s : State) (xs : List (Nat × List Byte × List Byte)) : (acceptHeld xs s).stalls = s.stalls := rfl
@[simp] theorem acceptHeld_lots (s : State) (xs : List (Nat × List Byte × List Byte)) : (acceptHeld xs s).lots = s.lots := rfl
@[simp] theorem acceptHeld_nextLot (s : State) (xs : List (Nat × List Byte × List Byte)) : (acceptHeld xs s).nextLot = s.nextLot := rfl
@[simp] theorem acceptHeld_pipes (s : State) (xs : List (Nat × List Byte × List Byte)) : (acceptHeld xs s).pipes = s.pipes := rfl
@[simp] theorem acceptHeld_queries (s : State) (xs : List (Nat × List Byte × List Byte)) : (acceptHeld xs s).queries = s.queries := rfl
@[simp] theorem acceptHeld_slots (s : State) (xs : List (Nat × List Byte × List Byte)) : (acceptHeld xs s).slots = s.slots := rfl
@[simp] theorem acceptHeld_waitq (s : State) (xs : List (Nat × List Byte × List Byte)) : (acceptHeld xs s).waitq = s.waitq := rfl
@[simp] theorem acceptHeld_opens (s : State) (xs : List (Nat × List Byte × List Byte)) : (acceptHeld xs s).opens = s.opens := rfl
@[simp] theorem acceptHeld_porters (s : State) (xs : List (Nat × List Byte × List Byte)) : (acceptHeld xs s).porters = s.porters := rfl
@[simp] theorem acceptHeld_units (s : State) (xs : List (Nat × List Byte × List Byte)) : (acceptHeld xs s).units = s.units := rfl
@[simp] theorem acceptHeld_nextCall (s : State) (xs : List (Nat × List Byte × List Byte)) : (acceptHeld xs s).nextCall = s.nextCall := rfl
@[simp] theorem acceptHeld_offReports (s : State) (xs : List (Nat × List Byte × List Byte)) : (acceptHeld xs s).offReports = s.offReports := rfl
@[simp] theorem acceptHeld_ram (s : State) (xs : List (Nat × List Byte × List Byte)) : (acceptHeld xs s).ram = s.ram := rfl
@[simp] theorem acceptHeld_dataOut (s : State) (xs : List (Nat × List Byte × List Byte)) : (acceptHeld xs s).dataOut = s.dataOut := rfl

@[simp] theorem programMap_pending (s : State) : (programMap s).pending = s.pending := by unfold programMap; split <;> rfl
@[simp] theorem programMap_now (s : State) : (programMap s).now = s.now := by unfold programMap; split <;> rfl
@[simp] theorem programMap_fresh (s : State) : (programMap s).fresh = s.fresh := by unfold programMap; split <;> rfl
@[simp] theorem programMap_pwr (s : State) : (programMap s).pwr = s.pwr := by unfold programMap; split <;> rfl
@[simp] theorem programMap_therm (s : State) : (programMap s).therm = s.therm := by unfold programMap; split <;> rfl
@[simp] theorem programMap_hu (s : State) : (programMap s).hu = s.hu := by unfold programMap; split <;> rfl
@[simp] theorem programMap_health (s : State) : (programMap s).health = s.health := by unfold programMap; split <;> rfl
@[simp] theorem programMap_bcn (s : State) : (programMap s).bcn = s.bcn := by unfold programMap; split <;> rfl
@[simp] theorem programMap_bus (s : State) : (programMap s).bus = s.bus := by unfold programMap; split <;> rfl
@[simp] theorem programMap_keeper (s : State) : (programMap s).keeper = s.keeper := by unfold programMap; split <;> rfl
@[simp] theorem programMap_acc (s : State) : (programMap s).acc = s.acc := by unfold programMap; split <;> rfl
@[simp] theorem programMap_ev (s : State) : (programMap s).ev = s.ev := by unfold programMap; split <;> rfl
@[simp] theorem programMap_hb (s : State) : (programMap s).hb = s.hb := by unfold programMap; split <;> rfl
@[simp] theorem programMap_nv (s : State) : (programMap s).nv = s.nv := by unfold programMap; split <;> rfl
@[simp] theorem programMap_ns (s : State) : (programMap s).ns = s.ns := by unfold programMap; split <;> rfl
@[simp] theorem programMap_stalls (s : State) : (programMap s).stalls = s.stalls := by unfold programMap; split <;> rfl
@[simp] theorem programMap_lots (s : State) : (programMap s).lots = s.lots := by unfold programMap; split <;> rfl
@[simp] theorem programMap_nextLot (s : State) : (programMap s).nextLot = s.nextLot := by unfold programMap; split <;> rfl
@[simp] theorem programMap_pipes (s : State) : (programMap s).pipes = s.pipes := by unfold programMap; split <;> rfl
@[simp] theorem programMap_queries (s : State) : (programMap s).queries = s.queries := by unfold programMap; split <;> rfl
@[simp] theorem programMap_slots (s : State) : (programMap s).slots = s.slots := by unfold programMap; split <;> rfl
@[simp] theorem programMap_waitq (s : State) : (programMap s).waitq = s.waitq := by unfold programMap; split <;> rfl
@[simp] theorem programMap_opens (s : State) : (programMap s).opens = s.opens := by unfold programMap; split <;> rfl
@[simp] theorem programMap_porters (s : State) : (programMap s).porters = s.porters := by unfold programMap; split <;> rfl
@[simp] theorem programMap_units (s : State) : (programMap s).units = s.units := by unfold programMap; split <;> rfl
@[simp] theorem programMap_nextCall (s : State) : (programMap s).nextCall = s.nextCall := by unfold programMap; split <;> rfl
@[simp] theorem programMap_offReports (s : State) : (programMap s).offReports = s.offReports := by unfold programMap; split <;> rfl
@[simp] theorem programMap_ram (s : State) : (programMap s).ram = s.ram := by unfold programMap; split <;> rfl
@[simp] theorem programMap_dataOut (s : State) : (programMap s).dataOut = s.dataOut := by unfold programMap; split <;> rfl

@[simp] theorem trim_pending (s : State) (nsid : Nat) (f : Nat → Bool) : (trim nsid f s).pending = s.pending := programMap_pending _
@[simp] theorem trim_now (s : State) (nsid : Nat) (f : Nat → Bool) : (trim nsid f s).now = s.now := programMap_now _
@[simp] theorem trim_fresh (s : State) (nsid : Nat) (f : Nat → Bool) : (trim nsid f s).fresh = s.fresh := programMap_fresh _
@[simp] theorem trim_pwr (s : State) (nsid : Nat) (f : Nat → Bool) : (trim nsid f s).pwr = s.pwr := programMap_pwr _
@[simp] theorem trim_therm (s : State) (nsid : Nat) (f : Nat → Bool) : (trim nsid f s).therm = s.therm := programMap_therm _
@[simp] theorem trim_hu (s : State) (nsid : Nat) (f : Nat → Bool) : (trim nsid f s).hu = s.hu := programMap_hu _
@[simp] theorem trim_health (s : State) (nsid : Nat) (f : Nat → Bool) : (trim nsid f s).health = s.health := programMap_health _
@[simp] theorem trim_bcn (s : State) (nsid : Nat) (f : Nat → Bool) : (trim nsid f s).bcn = s.bcn := programMap_bcn _
@[simp] theorem trim_bus (s : State) (nsid : Nat) (f : Nat → Bool) : (trim nsid f s).bus = s.bus := programMap_bus _
@[simp] theorem trim_keeper (s : State) (nsid : Nat) (f : Nat → Bool) : (trim nsid f s).keeper = s.keeper := programMap_keeper _
@[simp] theorem trim_acc (s : State) (nsid : Nat) (f : Nat → Bool) : (trim nsid f s).acc = s.acc := programMap_acc _
@[simp] theorem trim_ev (s : State) (nsid : Nat) (f : Nat → Bool) : (trim nsid f s).ev = s.ev := programMap_ev _
@[simp] theorem trim_hb (s : State) (nsid : Nat) (f : Nat → Bool) : (trim nsid f s).hb = s.hb := programMap_hb _
@[simp] theorem trim_nv (s : State) (nsid : Nat) (f : Nat → Bool) : (trim nsid f s).nv = s.nv := programMap_nv _
@[simp] theorem trim_ns (s : State) (nsid : Nat) (f : Nat → Bool) : (trim nsid f s).ns = s.ns := programMap_ns _
@[simp] theorem trim_stalls (s : State) (nsid : Nat) (f : Nat → Bool) : (trim nsid f s).stalls = s.stalls := programMap_stalls _
@[simp] theorem trim_lots (s : State) (nsid : Nat) (f : Nat → Bool) : (trim nsid f s).lots = s.lots := programMap_lots _
@[simp] theorem trim_nextLot (s : State) (nsid : Nat) (f : Nat → Bool) : (trim nsid f s).nextLot = s.nextLot := programMap_nextLot _
@[simp] theorem trim_pipes (s : State) (nsid : Nat) (f : Nat → Bool) : (trim nsid f s).pipes = s.pipes := programMap_pipes _
@[simp] theorem trim_queries (s : State) (nsid : Nat) (f : Nat → Bool) : (trim nsid f s).queries = s.queries := programMap_queries _
@[simp] theorem trim_slots (s : State) (nsid : Nat) (f : Nat → Bool) : (trim nsid f s).slots = s.slots := programMap_slots _
@[simp] theorem trim_waitq (s : State) (nsid : Nat) (f : Nat → Bool) : (trim nsid f s).waitq = s.waitq := programMap_waitq _
@[simp] theorem trim_opens (s : State) (nsid : Nat) (f : Nat → Bool) : (trim nsid f s).opens = s.opens := programMap_opens _
@[simp] theorem trim_porters (s : State) (nsid : Nat) (f : Nat → Bool) : (trim nsid f s).porters = s.porters := programMap_porters _
@[simp] theorem trim_units (s : State) (nsid : Nat) (f : Nat → Bool) : (trim nsid f s).units = s.units := programMap_units _
@[simp] theorem trim_nextCall (s : State) (nsid : Nat) (f : Nat → Bool) : (trim nsid f s).nextCall = s.nextCall := programMap_nextCall _
@[simp] theorem trim_offReports (s : State) (nsid : Nat) (f : Nat → Bool) : (trim nsid f s).offReports = s.offReports := programMap_offReports _
@[simp] theorem trim_ram (s : State) (nsid : Nat) (f : Nat → Bool) : (trim nsid f s).ram = s.ram := programMap_ram _
@[simp] theorem trim_dataOut (s : State) (nsid : Nat) (f : Nat → Bool) : (trim nsid f s).dataOut = s.dataOut := programMap_dataOut _

@[simp] theorem countScan_pending (s : State) (ks : List Nat) : (s.countScan ks).pending = s.pending := rfl
@[simp] theorem countScan_now (s : State) (ks : List Nat) : (s.countScan ks).now = s.now := rfl
@[simp] theorem countScan_fresh (s : State) (ks : List Nat) : (s.countScan ks).fresh = s.fresh := rfl
@[simp] theorem countScan_pwr (s : State) (ks : List Nat) : (s.countScan ks).pwr = s.pwr := rfl
@[simp] theorem countScan_therm (s : State) (ks : List Nat) : (s.countScan ks).therm = s.therm := rfl
@[simp] theorem countScan_hu (s : State) (ks : List Nat) : (s.countScan ks).hu = s.hu := rfl
@[simp] theorem countScan_health (s : State) (ks : List Nat) : (s.countScan ks).health = s.health := rfl
@[simp] theorem countScan_bcn (s : State) (ks : List Nat) : (s.countScan ks).bcn = s.bcn := rfl
@[simp] theorem countScan_bus (s : State) (ks : List Nat) : (s.countScan ks).bus = s.bus := rfl
@[simp] theorem countScan_keeper (s : State) (ks : List Nat) : (s.countScan ks).keeper = s.keeper := rfl
@[simp] theorem countScan_acc (s : State) (ks : List Nat) : (s.countScan ks).acc = s.acc := rfl
@[simp] theorem countScan_ev (s : State) (ks : List Nat) : (s.countScan ks).ev = s.ev := rfl
@[simp] theorem countScan_hb (s : State) (ks : List Nat) : (s.countScan ks).hb = s.hb := rfl
@[simp] theorem countScan_nv (s : State) (ks : List Nat) : (s.countScan ks).nv = s.nv := rfl
@[simp] theorem countScan_ns (s : State) (ks : List Nat) : (s.countScan ks).ns = s.ns := rfl
@[simp] theorem countScan_stalls (s : State) (ks : List Nat) : (s.countScan ks).stalls = s.stalls := rfl
@[simp] theorem countScan_lots (s : State) (ks : List Nat) : (s.countScan ks).lots = s.lots := rfl
@[simp] theorem countScan_nextLot (s : State) (ks : List Nat) : (s.countScan ks).nextLot = s.nextLot := rfl
@[simp] theorem countScan_pipes (s : State) (ks : List Nat) : (s.countScan ks).pipes = s.pipes := rfl
@[simp] theorem countScan_queries (s : State) (ks : List Nat) : (s.countScan ks).queries = s.queries := rfl
@[simp] theorem countScan_slots (s : State) (ks : List Nat) : (s.countScan ks).slots = s.slots := rfl
@[simp] theorem countScan_waitq (s : State) (ks : List Nat) : (s.countScan ks).waitq = s.waitq := rfl
@[simp] theorem countScan_opens (s : State) (ks : List Nat) : (s.countScan ks).opens = s.opens := rfl
@[simp] theorem countScan_porters (s : State) (ks : List Nat) : (s.countScan ks).porters = s.porters := rfl
@[simp] theorem countScan_units (s : State) (ks : List Nat) : (s.countScan ks).units = s.units := rfl
@[simp] theorem countScan_nextCall (s : State) (ks : List Nat) : (s.countScan ks).nextCall = s.nextCall := rfl
@[simp] theorem countScan_offReports (s : State) (ks : List Nat) : (s.countScan ks).offReports = s.offReports := rfl
@[simp] theorem countScan_ram (s : State) (ks : List Nat) : (s.countScan ks).ram = s.ram := rfl
@[simp] theorem countScan_dataOut (s : State) (ks : List Nat) : (s.countScan ks).dataOut = s.dataOut := rfl

@[simp] theorem reachFrame_pending (s : State) (f : Nat) : (reachFrame f s).pending = s.pending := rfl
@[simp] theorem reachFrame_now (s : State) (f : Nat) : (reachFrame f s).now = s.now := rfl
@[simp] theorem reachFrame_fresh (s : State) (f : Nat) : (reachFrame f s).fresh = s.fresh := rfl
@[simp] theorem reachFrame_pwr (s : State) (f : Nat) : (reachFrame f s).pwr = s.pwr := rfl
@[simp] theorem reachFrame_therm (s : State) (f : Nat) : (reachFrame f s).therm = s.therm := rfl
@[simp] theorem reachFrame_hu (s : State) (f : Nat) : (reachFrame f s).hu = s.hu := rfl
@[simp] theorem reachFrame_health (s : State) (f : Nat) : (reachFrame f s).health = s.health := rfl
@[simp] theorem reachFrame_bcn (s : State) (f : Nat) : (reachFrame f s).bcn = s.bcn := rfl
@[simp] theorem reachFrame_bus (s : State) (f : Nat) : (reachFrame f s).bus = s.bus := rfl
@[simp] theorem reachFrame_keeper (s : State) (f : Nat) : (reachFrame f s).keeper = s.keeper := rfl
@[simp] theorem reachFrame_acc (s : State) (f : Nat) : (reachFrame f s).acc = s.acc := rfl
@[simp] theorem reachFrame_ev (s : State) (f : Nat) : (reachFrame f s).ev = s.ev := rfl
@[simp] theorem reachFrame_hb (s : State) (f : Nat) : (reachFrame f s).hb = s.hb := rfl
@[simp] theorem reachFrame_nv (s : State) (f : Nat) : (reachFrame f s).nv = s.nv := rfl
@[simp] theorem reachFrame_ns (s : State) (f : Nat) : (reachFrame f s).ns = s.ns := rfl
@[simp] theorem reachFrame_med (s : State) (f : Nat) : (reachFrame f s).med = s.med := rfl
@[simp] theorem reachFrame_stalls (s : State) (f : Nat) : (reachFrame f s).stalls = s.stalls := rfl
@[simp] theorem reachFrame_lots (s : State) (f : Nat) : (reachFrame f s).lots = s.lots := rfl
@[simp] theorem reachFrame_nextLot (s : State) (f : Nat) : (reachFrame f s).nextLot = s.nextLot := rfl
@[simp] theorem reachFrame_pipes (s : State) (f : Nat) : (reachFrame f s).pipes = s.pipes := rfl
@[simp] theorem reachFrame_queries (s : State) (f : Nat) : (reachFrame f s).queries = s.queries := rfl
@[simp] theorem reachFrame_slots (s : State) (f : Nat) : (reachFrame f s).slots = s.slots := rfl
@[simp] theorem reachFrame_waitq (s : State) (f : Nat) : (reachFrame f s).waitq = s.waitq := rfl
@[simp] theorem reachFrame_opens (s : State) (f : Nat) : (reachFrame f s).opens = s.opens := rfl
@[simp] theorem reachFrame_porters (s : State) (f : Nat) : (reachFrame f s).porters = s.porters := rfl
@[simp] theorem reachFrame_units (s : State) (f : Nat) : (reachFrame f s).units = s.units := rfl
@[simp] theorem reachFrame_nextCall (s : State) (f : Nat) : (reachFrame f s).nextCall = s.nextCall := rfl
@[simp] theorem reachFrame_offReports (s : State) (f : Nat) : (reachFrame f s).offReports = (s.offReports + b2n (!s.frameOn f)) := rfl
@[simp] theorem reachFrame_ram (s : State) (f : Nat) : (reachFrame f s).ram = s.ram := rfl
@[simp] theorem reachFrame_dataOut (s : State) (f : Nat) : (reachFrame f s).dataOut = s.dataOut := rfl

@[simp] theorem nextWseq_pending (s : State) : ((nextWseq s).2).pending = s.pending := rfl
@[simp] theorem nextWseq_now (s : State) : ((nextWseq s).2).now = s.now := rfl
@[simp] theorem nextWseq_fresh (s : State) : ((nextWseq s).2).fresh = s.fresh := rfl
@[simp] theorem nextWseq_pwr (s : State) : ((nextWseq s).2).pwr = s.pwr := rfl
@[simp] theorem nextWseq_therm (s : State) : ((nextWseq s).2).therm = s.therm := rfl
@[simp] theorem nextWseq_hu (s : State) : ((nextWseq s).2).hu = s.hu := rfl
@[simp] theorem nextWseq_health (s : State) : ((nextWseq s).2).health = s.health := rfl
@[simp] theorem nextWseq_bcn (s : State) : ((nextWseq s).2).bcn = s.bcn := rfl
@[simp] theorem nextWseq_bus (s : State) : ((nextWseq s).2).bus = s.bus := rfl
@[simp] theorem nextWseq_keeper (s : State) : ((nextWseq s).2).keeper = s.keeper := rfl
@[simp] theorem nextWseq_acc (s : State) : ((nextWseq s).2).acc = s.acc := rfl
@[simp] theorem nextWseq_ev (s : State) : ((nextWseq s).2).ev = s.ev := rfl
@[simp] theorem nextWseq_hb (s : State) : ((nextWseq s).2).hb = s.hb := rfl
@[simp] theorem nextWseq_nv (s : State) : ((nextWseq s).2).nv = s.nv := rfl
@[simp] theorem nextWseq_ns (s : State) : ((nextWseq s).2).ns = s.ns := rfl
@[simp] theorem nextWseq_stalls (s : State) : ((nextWseq s).2).stalls = s.stalls := rfl
@[simp] theorem nextWseq_lots (s : State) : ((nextWseq s).2).lots = s.lots := rfl
@[simp] theorem nextWseq_nextLot (s : State) : ((nextWseq s).2).nextLot = s.nextLot := rfl
@[simp] theorem nextWseq_pipes (s : State) : ((nextWseq s).2).pipes = s.pipes := rfl
@[simp] theorem nextWseq_queries (s : State) : ((nextWseq s).2).queries = s.queries := rfl
@[simp] theorem nextWseq_slots (s : State) : ((nextWseq s).2).slots = s.slots := rfl
@[simp] theorem nextWseq_waitq (s : State) : ((nextWseq s).2).waitq = s.waitq := rfl
@[simp] theorem nextWseq_opens (s : State) : ((nextWseq s).2).opens = s.opens := rfl
@[simp] theorem nextWseq_porters (s : State) : ((nextWseq s).2).porters = s.porters := rfl
@[simp] theorem nextWseq_units (s : State) : ((nextWseq s).2).units = s.units := rfl
@[simp] theorem nextWseq_nextCall (s : State) : ((nextWseq s).2).nextCall = s.nextCall := rfl
@[simp] theorem nextWseq_offReports (s : State) : ((nextWseq s).2).offReports = s.offReports := rfl
@[simp] theorem nextWseq_ram (s : State) : ((nextWseq s).2).ram = s.ram := rfl
@[simp] theorem nextWseq_dataOut (s : State) : ((nextWseq s).2).dataOut = s.dataOut := rfl

@[simp] theorem useResv_pending (s : State) (a b c : Nat) : (useResv a b c s).pending = s.pending := rfl
@[simp] theorem useResv_now (s : State) (a b c : Nat) : (useResv a b c s).now = s.now := rfl
@[simp] theorem useResv_fresh (s : State) (a b c : Nat) : (useResv a b c s).fresh = s.fresh := rfl
@[simp] theorem useResv_pwr (s : State) (a b c : Nat) : (useResv a b c s).pwr = s.pwr := rfl
@[simp] theorem useResv_therm (s : State) (a b c : Nat) : (useResv a b c s).therm = s.therm := rfl
@[simp] theorem useResv_hu (s : State) (a b c : Nat) : (useResv a b c s).hu = s.hu := rfl
@[simp] theorem useResv_health (s : State) (a b c : Nat) : (useResv a b c s).health = s.health := rfl
@[simp] theorem useResv_bcn (s : State) (a b c : Nat) : (useResv a b c s).bcn = s.bcn := rfl
@[simp] theorem useResv_bus (s : State) (a b c : Nat) : (useResv a b c s).bus = s.bus := rfl
@[simp] theorem useResv_keeper (s : State) (a b c : Nat) : (useResv a b c s).keeper = s.keeper := rfl
@[simp] theorem useResv_acc (s : State) (a b c : Nat) : (useResv a b c s).acc = s.acc := rfl
@[simp] theorem useResv_ev (s : State) (a b c : Nat) : (useResv a b c s).ev = s.ev := rfl
@[simp] theorem useResv_hb (s : State) (a b c : Nat) : (useResv a b c s).hb = s.hb := rfl
@[simp] theorem useResv_ns (s : State) (a b c : Nat) : (useResv a b c s).ns = s.ns := rfl
@[simp] theorem useResv_med (s : State) (a b c : Nat) : (useResv a b c s).med = s.med := rfl
@[simp] theorem useResv_stalls (s : State) (a b c : Nat) : (useResv a b c s).stalls = s.stalls := rfl
@[simp] theorem useResv_lots (s : State) (a b c : Nat) : (useResv a b c s).lots = s.lots := rfl
@[simp] theorem useResv_nextLot (s : State) (a b c : Nat) : (useResv a b c s).nextLot = s.nextLot := rfl
@[simp] theorem useResv_pipes (s : State) (a b c : Nat) : (useResv a b c s).pipes = s.pipes := rfl
@[simp] theorem useResv_queries (s : State) (a b c : Nat) : (useResv a b c s).queries = s.queries := rfl
@[simp] theorem useResv_slots (s : State) (a b c : Nat) : (useResv a b c s).slots = s.slots := rfl
@[simp] theorem useResv_waitq (s : State) (a b c : Nat) : (useResv a b c s).waitq = s.waitq := rfl
@[simp] theorem useResv_opens (s : State) (a b c : Nat) : (useResv a b c s).opens = s.opens := rfl
@[simp] theorem useResv_porters (s : State) (a b c : Nat) : (useResv a b c s).porters = s.porters := rfl
@[simp] theorem useResv_units (s : State) (a b c : Nat) : (useResv a b c s).units = s.units := rfl
@[simp] theorem useResv_nextCall (s : State) (a b c : Nat) : (useResv a b c s).nextCall = s.nextCall := rfl
@[simp] theorem useResv_offReports (s : State) (a b c : Nat) : (useResv a b c s).offReports = s.offReports := rfl
@[simp] theorem useResv_ram (s : State) (a b c : Nat) : (useResv a b c s).ram = s.ram := rfl
@[simp] theorem useResv_dataOut (s : State) (a b c : Nat) : (useResv a b c s).dataOut = s.dataOut := rfl

@[simp] theorem outcome_pending (s : State) (k q : Nat) (b : Bool) : (outcome k q b s).pending = s.pending := rfl
@[simp] theorem outcome_now (s : State) (k q : Nat) (b : Bool) : (outcome k q b s).now = s.now := rfl
@[simp] theorem outcome_fresh (s : State) (k q : Nat) (b : Bool) : (outcome k q b s).fresh = s.fresh := rfl
@[simp] theorem outcome_pwr (s : State) (k q : Nat) (b : Bool) : (outcome k q b s).pwr = s.pwr := rfl
@[simp] theorem outcome_therm (s : State) (k q : Nat) (b : Bool) : (outcome k q b s).therm = s.therm := rfl
@[simp] theorem outcome_hu (s : State) (k q : Nat) (b : Bool) : (outcome k q b s).hu = s.hu := rfl
@[simp] theorem outcome_health (s : State) (k q : Nat) (b : Bool) : (outcome k q b s).health = s.health := rfl
@[simp] theorem outcome_bcn (s : State) (k q : Nat) (b : Bool) : (outcome k q b s).bcn = s.bcn := rfl
@[simp] theorem outcome_bus (s : State) (k q : Nat) (b : Bool) : (outcome k q b s).bus = s.bus := rfl
@[simp] theorem outcome_keeper (s : State) (k q : Nat) (b : Bool) : (outcome k q b s).keeper = s.keeper := rfl
@[simp] theorem outcome_acc (s : State) (k q : Nat) (b : Bool) : (outcome k q b s).acc = s.acc := rfl
@[simp] theorem outcome_ev (s : State) (k q : Nat) (b : Bool) : (outcome k q b s).ev = s.ev := rfl
@[simp] theorem outcome_hb (s : State) (k q : Nat) (b : Bool) : (outcome k q b s).hb = s.hb := rfl
@[simp] theorem outcome_nv (s : State) (k q : Nat) (b : Bool) : (outcome k q b s).nv = s.nv := rfl
@[simp] theorem outcome_med (s : State) (k q : Nat) (b : Bool) : (outcome k q b s).med = s.med := rfl
@[simp] theorem outcome_stalls (s : State) (k q : Nat) (b : Bool) : (outcome k q b s).stalls = s.stalls := rfl
@[simp] theorem outcome_lots (s : State) (k q : Nat) (b : Bool) : (outcome k q b s).lots = s.lots := rfl
@[simp] theorem outcome_nextLot (s : State) (k q : Nat) (b : Bool) : (outcome k q b s).nextLot = s.nextLot := rfl
@[simp] theorem outcome_pipes (s : State) (k q : Nat) (b : Bool) : (outcome k q b s).pipes = s.pipes := rfl
@[simp] theorem outcome_queries (s : State) (k q : Nat) (b : Bool) : (outcome k q b s).queries = s.queries := rfl
@[simp] theorem outcome_slots (s : State) (k q : Nat) (b : Bool) : (outcome k q b s).slots = s.slots := rfl
@[simp] theorem outcome_waitq (s : State) (k q : Nat) (b : Bool) : (outcome k q b s).waitq = s.waitq := rfl
@[simp] theorem outcome_opens (s : State) (k q : Nat) (b : Bool) : (outcome k q b s).opens = s.opens := rfl
@[simp] theorem outcome_porters (s : State) (k q : Nat) (b : Bool) : (outcome k q b s).porters = s.porters := rfl
@[simp] theorem outcome_units (s : State) (k q : Nat) (b : Bool) : (outcome k q b s).units = s.units := rfl
@[simp] theorem outcome_nextCall (s : State) (k q : Nat) (b : Bool) : (outcome k q b s).nextCall = s.nextCall := rfl
@[simp] theorem outcome_offReports (s : State) (k q : Nat) (b : Bool) : (outcome k q b s).offReports = s.offReports := rfl
@[simp] theorem outcome_ram (s : State) (k q : Nat) (b : Bool) : (outcome k q b s).ram = s.ram := rfl
@[simp] theorem outcome_dataOut (s : State) (k q : Nat) (b : Bool) : (outcome k q b s).dataOut = s.dataOut := rfl

@[simp] theorem pendMark_pending (s : State) (m : PendingMark) : (pendMark m s).pending = s.pending := rfl
@[simp] theorem pendMark_now (s : State) (m : PendingMark) : (pendMark m s).now = s.now := rfl
@[simp] theorem pendMark_fresh (s : State) (m : PendingMark) : (pendMark m s).fresh = s.fresh := rfl
@[simp] theorem pendMark_pwr (s : State) (m : PendingMark) : (pendMark m s).pwr = s.pwr := rfl
@[simp] theorem pendMark_therm (s : State) (m : PendingMark) : (pendMark m s).therm = s.therm := rfl
@[simp] theorem pendMark_hu (s : State) (m : PendingMark) : (pendMark m s).hu = s.hu := rfl
@[simp] theorem pendMark_health (s : State) (m : PendingMark) : (pendMark m s).health = s.health := rfl
@[simp] theorem pendMark_bcn (s : State) (m : PendingMark) : (pendMark m s).bcn = s.bcn := rfl
@[simp] theorem pendMark_bus (s : State) (m : PendingMark) : (pendMark m s).bus = s.bus := rfl
@[simp] theorem pendMark_keeper (s : State) (m : PendingMark) : (pendMark m s).keeper = s.keeper := rfl
@[simp] theorem pendMark_acc (s : State) (m : PendingMark) : (pendMark m s).acc = s.acc := rfl
@[simp] theorem pendMark_ev (s : State) (m : PendingMark) : (pendMark m s).ev = s.ev := rfl
@[simp] theorem pendMark_hb (s : State) (m : PendingMark) : (pendMark m s).hb = s.hb := rfl
@[simp] theorem pendMark_nv (s : State) (m : PendingMark) : (pendMark m s).nv = s.nv := rfl
@[simp] theorem pendMark_ns (s : State) (m : PendingMark) : (pendMark m s).ns = s.ns := rfl
@[simp] theorem pendMark_stalls (s : State) (m : PendingMark) : (pendMark m s).stalls = s.stalls := rfl
@[simp] theorem pendMark_lots (s : State) (m : PendingMark) : (pendMark m s).lots = s.lots := rfl
@[simp] theorem pendMark_nextLot (s : State) (m : PendingMark) : (pendMark m s).nextLot = s.nextLot := rfl
@[simp] theorem pendMark_pipes (s : State) (m : PendingMark) : (pendMark m s).pipes = s.pipes := rfl
@[simp] theorem pendMark_queries (s : State) (m : PendingMark) : (pendMark m s).queries = s.queries := rfl
@[simp] theorem pendMark_slots (s : State) (m : PendingMark) : (pendMark m s).slots = s.slots := rfl
@[simp] theorem pendMark_waitq (s : State) (m : PendingMark) : (pendMark m s).waitq = s.waitq := rfl
@[simp] theorem pendMark_opens (s : State) (m : PendingMark) : (pendMark m s).opens = s.opens := rfl
@[simp] theorem pendMark_porters (s : State) (m : PendingMark) : (pendMark m s).porters = s.porters := rfl
@[simp] theorem pendMark_units (s : State) (m : PendingMark) : (pendMark m s).units = s.units := rfl
@[simp] theorem pendMark_nextCall (s : State) (m : PendingMark) : (pendMark m s).nextCall = s.nextCall := rfl
@[simp] theorem pendMark_offReports (s : State) (m : PendingMark) : (pendMark m s).offReports = s.offReports := rfl
@[simp] theorem pendMark_ram (s : State) (m : PendingMark) : (pendMark m s).ram = s.ram := rfl
@[simp] theorem pendMark_dataOut (s : State) (m : PendingMark) : (pendMark m s).dataOut = s.dataOut := rfl

@[simp] theorem takeSt_pending (s : State) : ((s.take).2).pending = s.pending := rfl
@[simp] theorem takeSt_now (s : State) : ((s.take).2).now = s.now := rfl
@[simp] theorem takeSt_fresh (s : State) : ((s.take).2).fresh = (s.fresh + 1) := rfl
@[simp] theorem takeSt_pwr (s : State) : ((s.take).2).pwr = s.pwr := rfl
@[simp] theorem takeSt_therm (s : State) : ((s.take).2).therm = s.therm := rfl
@[simp] theorem takeSt_hu (s : State) : ((s.take).2).hu = s.hu := rfl
@[simp] theorem takeSt_health (s : State) : ((s.take).2).health = s.health := rfl
@[simp] theorem takeSt_bcn (s : State) : ((s.take).2).bcn = s.bcn := rfl
@[simp] theorem takeSt_bus (s : State) : ((s.take).2).bus = s.bus := rfl
@[simp] theorem takeSt_keeper (s : State) : ((s.take).2).keeper = s.keeper := rfl
@[simp] theorem takeSt_acc (s : State) : ((s.take).2).acc = s.acc := rfl
@[simp] theorem takeSt_ev (s : State) : ((s.take).2).ev = s.ev := rfl
@[simp] theorem takeSt_hb (s : State) : ((s.take).2).hb = s.hb := rfl
@[simp] theorem takeSt_nv (s : State) : ((s.take).2).nv = s.nv := rfl
@[simp] theorem takeSt_ns (s : State) : ((s.take).2).ns = s.ns := rfl
@[simp] theorem takeSt_med (s : State) : ((s.take).2).med = s.med := rfl
@[simp] theorem takeSt_stalls (s : State) : ((s.take).2).stalls = s.stalls := rfl
@[simp] theorem takeSt_lots (s : State) : ((s.take).2).lots = s.lots := rfl
@[simp] theorem takeSt_nextLot (s : State) : ((s.take).2).nextLot = s.nextLot := rfl
@[simp] theorem takeSt_pipes (s : State) : ((s.take).2).pipes = s.pipes := rfl
@[simp] theorem takeSt_queries (s : State) : ((s.take).2).queries = s.queries := rfl
@[simp] theorem takeSt_slots (s : State) : ((s.take).2).slots = s.slots := rfl
@[simp] theorem takeSt_waitq (s : State) : ((s.take).2).waitq = s.waitq := rfl
@[simp] theorem takeSt_opens (s : State) : ((s.take).2).opens = s.opens := rfl
@[simp] theorem takeSt_porters (s : State) : ((s.take).2).porters = s.porters := rfl
@[simp] theorem takeSt_units (s : State) : ((s.take).2).units = s.units := rfl
@[simp] theorem takeSt_nextCall (s : State) : ((s.take).2).nextCall = s.nextCall := rfl
@[simp] theorem takeSt_offReports (s : State) : ((s.take).2).offReports = s.offReports := rfl
@[simp] theorem takeSt_ram (s : State) : ((s.take).2).ram = s.ram := rfl
@[simp] theorem takeSt_dataOut (s : State) : ((s.take).2).dataOut = s.dataOut := rfl

/-! Slots of the media. -/

theorem look_put_self {α : Type} (m : AMap α) (i : Nat) (x : α) : look (put m i x) i = some x := by
  induction m with
  | nil => simp [put, look]
  | cons p m ih =>
    obtain ⟨k, v⟩ := p
    unfold put
    split
    · simp [look]
    · split
      · simp [look]
      · rw [look, if_neg (by omega)]; exact ih

theorem look_put_ne {α : Type} (m : AMap α) (i j : Nat) (x : α) (h : j ≠ i) : look (put m i x) j = look m j := by
  induction m with
  | nil => simp [put, look, h.symm]
  | cons p m ih =>
    obtain ⟨k, v⟩ := p
    unfold put
    split
    · simp [look, h.symm]
    · split
      · subst_vars; simp [look, h.symm]
      · simp only [look]; split <;> simp_all

theorem look_filter {α : Type} (m : AMap α) (p : Nat → Bool) (i : Nat) (h : p i = true) :
    look (m.filter fun x => p x.1) i = look m i := by
  induction m with
  | nil => rfl
  | cons q m ih =>
    obtain ⟨k, v⟩ := q
    by_cases hk : k = i
    · subst hk; simp [List.filter, h, look]
    · by_cases hp : p k = true <;> simp [List.filter, hp, look, hk, ih]

theorem look_filter_none {α : Type} (m : AMap α) (p : Nat → Bool) (i : Nat) (h : p i = false) :
    look (m.filter fun x => p x.1) i = none := by
  induction m with
  | nil => rfl
  | cons q m ih =>
    obtain ⟨k, v⟩ := q
    by_cases hk : k = i
    · subst hk; simp [List.filter, h, ih]
    · by_cases hp : p k = true <;> simp [List.filter, hp, look, hk, ih]

theorem look_adjust {α : Type} (m : AMap α) (i j : Nat) (f : α → α) :
    look (adjust m i f) j = if j = i then (look m j).map f else look m j := by
  induction m with
  | nil => simp [adjust, look]
  | cons q m ih =>
    obtain ⟨k, v⟩ := q
    have hc : adjust ((k, v) :: m) i f = (if k = i then (k, f v) else (k, v)) :: adjust m i f := rfl
    rw [hc]
    by_cases hk : k = i
    · subst hk
      by_cases hj : k = j
      · subst hj; simp [look]
      · simp [look, hj, ih, Ne.symm hj]
    · by_cases hj : k = j
      · subst hj; simp [look, hk]
      · simp [look, hk, hj, ih]

end Sys2Proof.Laws
end

