-- ==== Sys2Proof/Machine/NandFormat.lean ====
section
/-! DEFINITION. What lies in NAND, as bytes (R87, R165, R167): the slot header, the summary page, encrypted data and the wrapped key.
The model holds plaintext, as every unit of the card sees it (R87); these are views of it. -/

namespace Sys2Proof.Machine

/-- The slot header of Table 6-7, the write sequence in 56 bits. -/
def slotHeader (nsid lba wseq : Nat) : List Byte :=
  let b := leBytes 2 nsid ++ leBytes 5 lba ++ leBytes 7 wseq
  b ++ leBytes 2 (crc16 b)

/-- The slot header of a slot as it is programmed. -/
def Slot4k.header (x : Slot4k) (k : Nat) : List Byte := slotHeader (keyNs k) (keyLba k) x.wseq

/-- A block holds parity (R117). -/
def Media.parityBlock (m : Media) (p : Place) : Bool := m.supers.any fun x => x.2.parity.contains p

/-- The slots written in a block: position, slot key and write sequence. Parity is system data, with 0 as its LBA and write sequence
(DESIGN CHOICE, notes/assumptions/81.md). -/
def Media.written (m : Media) (p : Place) : List (Nat × Nat × Nat) :=
  if m.parityBlock p then (List.range 2044).map fun i => (i, slotKey systemNsid 0, 0)
  else (m.blk p).slots.mergeSort fun x y => decide (x.1 ≤ y.1)

/-- The slot headers of a block, in the order of its slots (R165). -/
def Media.headers (m : Media) (p : Place) : List (List Byte) :=
  (m.written p).map fun x => slotHeader (keyNs x.2.1) (keyLba x.2.1) x.2.2

/-- The bytes of a closed block's summary page before their compression, which the spec does not give: NSID, LBA and write
sequence of every slot, and a CRC-32C (R167). -/
def Media.summary (m : Media) (p : Place) : Option (List Byte) :=
  if !(m.blk p).closed then none else
  let body := (m.written p).flatMap fun x =>
    leBytes 2 (keyNs x.2.1) ++ leBytes 5 (keyLba x.2.1) ++ leBytes 7 x.2.2
  some (body ++ leBytes 4 (crc32c body))

/-- The namespace's key, unwrapped while it is in use (R352). -/
def Ns.plainKey (n : Ns) : List Byte := keyUnwrap rootKey n.key

/-- Data of a slot as it lies in NAND: AES-256-XTS under the namespace's key, the tweak its LBA (R87). -/
def State.atRest (s : State) (k : Nat) (data : List Byte) : List Byte :=
  match look s.ns (keyNs k) with
  | some n => if n.encrypt then xts n.plainKey (keyLba k) data else data
  | none => data

end Sys2Proof.Machine
end

