-- ==== Sys2Proof/Tests/Slice0.lean ====
section
/-! SUPPORT. Tests: ill-formed commands are refused; worked examples of the spec; and, for every statement with hypotheses, states
and operands that meet them. -/

namespace Sys2Proof.Tests

open Sys2Proof Sys2Proof.Machine

set_option Elab.async false

/-! Ill-formed terms, one for each check. -/

def aPlace : Place := ⟨0, 0, 2799⟩

theorem test_wf_erases : wellFormed (.halfEraseRecovery ⟨[], [512]⟩) = false ∧ wellFormed (.halfEraseRecovery ⟨[], [511]⟩) = true := by decide
theorem test_wf_fault : wellFormed (.lockstepMismatch (.eccUncorr 0 (.held 65 0))) = false := by decide
theorem test_wf_cutoff : wellFormed (.bankCutoff 131073) = false ∧ wellFormed (.bankCutoff 131072) = true := by decide
theorem test_wf_read : wellFormed (.mediaReadComplete aPlace (65, 0) 0 true none) = false ∧
    wellFormed (.mediaReadComplete aPlace (64, 0) 10 true none) = false ∧ wellFormed (.mediaReadComplete aPlace (64, 0) 9 true none) = true := by decide
theorem test_wf_copy : wellFormed (.copyComplete 0 0 aPlace 0 0 true) = false ∧
    wellFormed (.copyComplete 1 (2 ^ 40) aPlace 0 0 true) = false := by decide
theorem test_wf_patrol : wellFormed (.patrolRead aPlace 0 10 true 0 0) = false := by decide
theorem test_wf_page : wellFormed (.mapPageFill 1 (2 ^ 31)) = false ∧ wellFormed (.mapPageFill 1 (2 ^ 31 - 1)) = true := by decide
theorem test_wf_lot : wellFormed (.lotCloseIdle 0) = false ∧ wellFormed (.lotCloseIdle 65) = false := by decide
theorem test_wf_bar2 : wellFormed (.bar2Write 0x03FFFFFF [0, 0]) = false ∧ wellFormed (.bar2Read 0x03FFFFFF 2) = false := by decide
theorem test_wf_arc : wellFormed (.arcRegisterWrite .bus 0x023F 0) = false ∧ wellFormed (.arcRegisterWrite .bus 0x0300 0) = false := by decide
theorem test_wf_entry : wellFormed (.doorbellWrite false 1 1 [⟨Vector.replicate 16 0, [], List.replicate 4097 0, []⟩]) = false := by decide +kernel

/-! Worked examples of the spec. -/

/-- The example under R29 in 00_scope.md: 17:0x0004_A000.80 is 0x0000_1100_04A0_0080. -/
theorem test_stamp : mkStamp 17 0x4A000 0x80 = 0x0000110004A00080 := by decide +kernel

/-- The encodings checked field by field in 08_stall_code.md. -/
theorem test_word_cmpi : iWord 0x0D ⟨0, 1, 2, 0x021⟩ = 0x34048021 := by decide +kernel
theorem test_word_drop : bWord 0x26 ⟨0xD, 0, 0⟩ = 0x9B400000 := by decide +kernel
theorem test_word_loopc : lWord 0x17 ⟨65, 0⟩ = 0x5C041000 := by decide +kernel
theorem test_word_xf : xWord 0x10 ⟨0, 8, 0, 1, 1, 0, 0⟩ = 0x40200300 := by decide +kernel
theorem test_word_maxs : rWord 0x01 ⟨0, 6, 6, 8, 13⟩ = 0x0419A00D := by decide +kernel

/-- The corners that R228 names. -/
theorem test_divs : alu 19 0x8000000000000000 0xFFFFFFFFFFFFFFFF = 0x8000000000000000 ∧ alu 20 0x8000000000000000 0xFFFFFFFFFFFFFFFF = 0 := by
  decide +kernel
theorem test_div_rounds : alu 19 (BitVec.ofInt 64 (-7)) 2 = BitVec.ofInt 64 (-3) ∧ alu 20 (BitVec.ofInt 64 (-7)) 2 = BitVec.ofInt 64 (-1) := by
  decide +kernel
theorem test_div_zero : alu 17 5 0 = 0xFFFFFFFFFFFFFFFF ∧ alu 18 5 0 = 5 := by decide +kernel

/-! States for the witnesses: cards that run, each with what its statements speak of. -/

/-- A block namespace and a stream namespace. -/
def blockNs : Ns := { nsze := 1024, ncap := 1024, fmt := 0, ext := false, prot := 0, stream := false, scan := false, ring := false
                      encrypt := false, maxRec := 0, attached := true, key := [], st := .reset }
def streamNs : Ns := { blockNs with stream := true, scan := true, maxRec := 4096 }

/-- A card in normal operation in native mode. -/
def up : State := { State.reset with
  pwr := { Power.reset with rail12 := true, railAux := true, auxOn := true, mainOn := true, mode := .native, copied := true, step := 6
                            charging := true, perst := false, link := true, detect := true }
  bcn := { Bcn.reset with loaded := true, code := 0, seqLimit := 2 ^ 26, com := { Commits.reset with running := true } }
  bus := { Bus.reset with idleSeen := true }
  hu := { Holdup.reset with state := 1, bankMv := 33000, reached := true, mVolt := ⟨true, 1, 33000⟩, mDirty := ⟨true, 1, 0⟩ }
  hb := { Harbour.reset with running := some false }
  ev := { Events.reset with level := putBit 0 192 true }
  nv := { Nvme.reset with en := true, rdy := true, sqs := [(0, ⟨32, 0, 0, 0, [], none⟩), (1, ⟨64, 1, 0, 0, [], none⟩)]
                          cqs := [(0, ⟨32, 0, true, 0, [], 0, false⟩), (1, ⟨64, 1, true, 0, [], 0, false⟩)] }
  ns := [(1, blockNs), (2, streamNs)] }

def aux : State := { State.reset with pwr := { Power.reset with railAux := true, auxOn := true, step := 1 } }
def withPwr (f : Power → Power) : State := { up with pwr := f up.pwr }
def step2 : State := { withPwr fun p => { p with step := 2, charging := false, link := false, detect := false } with
  hb := Harbour.reset, nv := .reset, hu := .reset }
def step4 : State := { step2 with pwr := { step2.pwr with step := 4, charging := true }, hb := up.hb }
def step5 : State := { step4 with pwr := { step4.pwr with step := 5 }, ns := [] }
def asleep : State := withPwr fun p => { p with watch := .asleep, wakeDue := true, watchTimer := 10, step := 6, detect := false }
def flushing : State := { withPwr fun p => { p with flush := .running, rail12 := false } with
  med := { Media.reset with held := [(slotKey 1 5, ⟨[1], [], 0, 7, 7, 0⟩)] } }
def hot : State := { up with therm := { Thermal.reset with temp := Vector.replicate 11 ⟨true, 1, 2000⟩, request := true } }
def slots0 (v : Int) : Vector Int 8 := Vector.replicate 8 v

theorem canWrite {a : Actor} {r : Nat} {s : State} (h : s.regReady r = true ∧ (regStat a 2 r s).1 = statOk ∧ mirrorOf r = none) :
    CanWrite a r s := by
  refine ⟨h.1, Prod.ext h.2.1 ?_⟩
  unfold regStat; rw [h.2.2]; dsimp only; split <;> (try split) <;> rfl
theorem canWriteMirror {r : Nat} {s : State} (h : s.regReady r = true ∧ (regStat .keeper 2 r s).1 = statOk) : CanWrite .keeper r s := by
  refine ⟨h.1, Prod.ext h.2 ?_⟩
  unfold regStat mirrorStat actorMaster; dsimp only; split <;> (try split) <;> (try split) <;> rfl
theorem taken {f : Frame} {s : State} (h : s.pwr.auxOn = true ∧ s.bus.idleSeen = true ∧ s.bus.ignoring = false ∧ f.sync = s.compat ∧
    frameCrcOk f = true ∧ frameAllowed f = true ∧ (frameFast f = true → s.mine f = true)) : FrameTaken f s :=
  ⟨h.1, h.2.1, h.2.2.1, h.2.2.2.1, h.2.2.2.2.1, h.2.2.2.2.2.1, h.2.2.2.2.2.2⟩
theorem isUp {s : State} (h : s.pwr.mainOn = true ∧ 6 ≤ s.pwr.step ∧ s.pwr.recovery = false ∧ s.pwr.fatal = none ∧ s.pwr.flush = .idle ∧
    s.pwr.watch = .awake) : Up s := ⟨h.1, h.2.1, h.2.2.1, h.2.2.2.1, h.2.2.2.2.1, h.2.2.2.2.2⟩
def quiet : State := { up with ev := { Events.reset with fmask := true } }

/-- A fetched command: its queue, the opcode, the dwords given and the buffer. -/
def mkCmd (q opc : Nat) (dw : List (Nat × W32)) (buf : List Byte) : Cmd :=
  { h := 0, qid := q, sub := ⟨Vector.ofFn fun i => if i.val = 0 then w32 opc else (look dw i.val).getD 0, buf, [], []⟩, locks := [], keeper := false
    epoch := 0, secure := false, begun := false, phase := .ready, bound := 0, net := 0, era := 0, first := 0, off := 0, count := 0
    resv := [], wt := false, stored := [], granted := true, below := 0 }
def inSession (c : Cmd) : Cmd := { c with keeper := true }
/-- The card has fetched a command, which has the Porter that it needs. -/
def State.plus (s : State) (c : Cmd) : State :=
  { s with nv := { s.nv with inflight := s.nv.inflight ++ [c], next := s.nv.next + 1 }
           porters := if c.moves then put s.porters c.h (.host c.h) else s.porters }
def admin (opc : Nat) (dw : List (Nat × W32)) : Cmd := mkCmd 0 opc dw []
def feat (fid v : Nat) : Cmd := admin 0x09 [(10, w32 fid), (11, w32 v)]
def readEntry : Submission := ⟨Vector.ofFn fun i => if i.val = 0 then 2 else if i.val = 1 then 1 else 0, [], [], []⟩
def abortEntry : Submission := ⟨Vector.ofFn fun i => if i.val = 0 then 8 else 0, [], [], []⟩
def withQueue (k : Nat) (e : Submission) : State :=
  { up with nv := { up.nv with sqs := adjust up.nv.sqs k fun q => { q with tail := 1, waiting := [e] } } }
/-- A create buffer of a block namespace of 512 blocks, with its flags byte. -/
def nsBuffer (flags : Byte) : List Byte := leBytes 8 512 ++ (leBytes 8 512 ++ (List.replicate 3826 0 ++ [flags]))
/-- A card whose Keeper key has the modulus of 384 zero bytes; the words are its SHA-256. -/
def keyed : State := { up with
  hb := { up.hb with otp := ([0x72f5a4a1, 0x10461c1c, 0x07717faf, 0xc3683a8f, 0x676d5330, 0xe0b00398, 0xdce87e50, 0xcadfc510] : List W32).zipIdx.map fun p => (2 + p.2, p.1) } }
def handshake : Handshake := ⟨List.replicate 32 0, List.replicate 32 1, List.replicate 384 2⟩
def shaking : State := { up with keeper := { Keeper.reset with nvme := { Channel.reset with hs := some handshake } } }
def session : State := { up with keeper := { Keeper.reset with nvme := { Channel.reset with session := some (List.replicate 32 0, 0) } } }
/-- A Keeper Session command with counter 1 and its MAC. -/
def authed (op : Nat) (mac : Nat) : Cmd := mkCmd 0 0xC9 [(10, w32 op)] (beBytes 8 1 ++ beBytes 32 mac)
def mbx (op off len : Nat) : Cmd := admin 0xCC [(10, w32 (op * 2 ^ 28)), (11, w32 off), (12, w32 len)]
/-- An image of one DROP. -/
def dropImage : List Byte := leBytes 4 0x53544C31 ++ leBytes 2 1 ++ leBytes 2 0 ++ leBytes 4 72 ++ leBytes 4 1 ++ leBytes 4 0 ++
  List.replicate 16 0xFF ++ List.replicate 28 0 ++ leBytes 4 0x98000000 ++ List.replicate 4 0
def loadCmd : Cmd := mkCmd 0 0xC1 [(10, 72), (12, 1)] dropImage
def dropped : Image := ((loadImage dropImage State.reset.keyHash).getRight?).get (by decide +kernel)
def stallsIn (st : StallSt) : State := { up with stalls := Vector.replicate 64 { Stall.reset with state := st } }
def runStop (op : Nat) : Cmd := admin 0xC2 [(10, w32 op), (12, 1)]
/-- A scan pipeline without Stalls, its descriptor, and a card that has it. -/
def scanDescriptor : List Byte := [1] ++ List.replicate 63 0 ++ leBytes 4 32 ++ List.replicate 60 0
def scanPipe : Pipe := pipeOf scanDescriptor
def withPipe (run : Bool) : State := { up with pipes := [(0, { scanPipe with running := run })] }
def pipeCmd (op : Nat) (d12 : W32) (nsid : W32) : Cmd := mkCmd 0 0xC5 [(1, nsid), (10, w32 (op * 256)), (12, d12)] scanDescriptor
def stored : Stored := ⟨0, 0, 0, 64, 0, 1, 1, 0⟩
def reading : State := withQueue 1 readEntry
/-- The Read names a block beyond its namespace. -/
def refused : State := withQueue 1 ⟨Vector.ofFn fun i => if i.val = 0 then 2 else if i.val = 1 then 1 else if i.val = 10 then 1024 else 0, [], [], []⟩
def fetched (s : State) : Cmd :=
  match headCmd s 1 with
  | some c => { c with locks := locksOf s c, granted := s.lockFree { c with locks := locksOf s c } }
  | none => mkCmd 1 0 [] []
def plusFetched (s : State) : State :=
  { s with nv := { s.nv with arb := { ((pickQueue s).elim s.nv.arb fun p => p.2) with stuck := none }, next := s.nv.next + 1
                             inflight := s.nv.inflight ++ [fetched s], sqs := adjust s.nv.sqs 1 fun x => { x with waiting := x.waiting.drop 1 } } }
def crowded : State := { reading with nv := { reading.nv with inflight := [{ mkCmd 1 1 [] [] with locks := List.replicate 1024 ⟨9, 0, 0, true⟩ }] } }
def lockFirst : Cmd := { mkCmd 1 1 [] [] with locks := [⟨1, 0, 5, true⟩] }
def lockSecond : Cmd := { mkCmd 1 2 [] [] with h := 1, locks := [⟨1, 5, 9, false⟩], granted := false }
def locked : State := State.plus (State.plus up lockFirst) lockSecond
def noIoSq : State := { up with nv := { up.nv with sqs := up.nv.sqs.take 1 } }
def foreign : State := { up with acc := { Acc.reset with active := { RuleSet.reset with misc := 0x2000 } } }
def recorded : State := { up with ns := [(1, blockNs), (2, { streamNs with st := { Stream.reset with recs := [stored] } })] }
def after (s : State) (c : Cmd) : State := let s := State.plus s c
  { s with keeper := { s.keeper with nvme := { s.keeper.nvme with session := some (List.replicate 32 0, 1) } } }
def used (c : Cmd) : State := after session c
/-- A write of RULE_SAVE through the session, which the ROM carries out. -/
def authedWrite : Cmd := mkCmd 0 0xC9 [(10, 4), (12, 0x80000512), (13, 1)] (beBytes 8 1 ++ beBytes 32 0x1aa835824bc2f17dcd11ba125b195941690b05c157f6b1097fa2f61607af45f6)
theorem authOk {s : State} {c : Cmd} (hs : s.keeper.nvme.session = some (List.replicate 32 0, 0))
    (h : 0 < ofBe (slice c.sub.buf 0 8) ∧ ofBe (slice c.sub.buf 0 8) = 1 ∧
      slice c.sub.buf 8 32 = nvmeMac (List.replicate 32 0) (ofBe (slice c.sub.buf 0 8)) c.sub.dw c.sub.buf) :
    nvmeAuth c.sub.dw c.sub.buf (State.plus s c) = some (after s c) := by
  have hp : (State.plus s c).keeper.nvme.session = some (List.replicate 32 0, 0) := hs
  unfold nvmeAuth; rw [hp]; dsimp only; rw [if_pos ⟨h.1, h.2.2⟩, h.2.1]; rfl

def busy (j : RomJob) (a : Actor) : State := { up with hb := { up.hb with busy := some (j, a) } }
def withOp (f : OpPoint → OpPoint) : State := withPwr fun p => { p with op := f p.op }
def at_ (a : W32) : State := { up with hb := { up.hb with addr := a } }
def withBcn (f : Bcn → Bcn) : State := { up with bcn := f up.bcn }
/-- The Beacon in the mode that the top bits of BCN_CFG name. -/
def cfg (v : W32) : State := withBcn fun b => { b with regs := { b.regs with cfg := v } }
def faulted (v : W32) (c : Nat) : State := withBcn fun b => { b with code := c, regs := { b.regs with cfg := v } }
def misc (v : W32) : State := { up with acc := { Acc.reset with active := { RuleSet.reset with misc := v } } }
def frame (dest : Byte) (cmd : Byte) (reg : W16) (data : W32) : Frame :=
  ⟨false, dest, cmd, reg, data, 0, BitVec.ofNat 16 (crc16 ([dest, cmd] ++ beBytes 2 reg.toNat ++ beBytes 4 data.toNat))⟩
/-- The frame with KEY and a MAC of zeros. -/
def keyFrame (dest : Byte) (cmd : Byte) (reg : W16) : Frame :=
  ⟨false, dest, cmd, reg, 0, 0, BitVec.ofNat 16 (crc16 ([dest, cmd] ++ beBytes 2 reg.toNat ++ List.replicate 8 0))⟩
def badFrame (dest : Byte) (cmd : Byte) : Frame :=
  { frame dest cmd 0 0 with crc := (frame dest cmd 0 0).crc + 1 }
def moored : State := { up with bus := { up.bus with moor := .moored, addr := 5 } }
def armedMark (b : Nat) : PendingMark := ⟨0, 0, b, 0, none⟩
def landCmd : Cmd := { mkCmd 1 0x81 [(1, 2), (10, 32)] [] with phase := .landing }
def landed : LotRec := ⟨2, 0, 0, 0, List.replicate 32 0, true, 0⟩
def opened : State := { up with ns := [(1, blockNs), (2, { streamNs with st := { Stream.reset with opened := [landed] } })] }
def kxShaking : State := { up with keeper := { Keeper.reset with bus := { Channel.reset with hs := some handshake } } }
/-- The staged set has no Porter group for the Normal world. -/
def badRules : State := { up with acc := { Acc.reset with staged := { RuleSet.reset with misc := 0xFF } } }
theorem uid_up : up.uid = 0x4F21000000001793 := by decide +kernel
theorem uid_moored : moored.uid = 0x4F21000000001793 := by decide +kernel

/-! A Stall that runs: the word at PC 0, a Lot with one record, and an ingest pipeline with an output. -/

def anImage : Image := { words := 2, pred := 0, xform := some 1, vNormal := some 5, vFast := none, vPrio := none, units := 0, version := 0
                         secure := false, signed := false, keyOk := false, prio := false, segs := [], cRec := 100000, c64 := 1, cInt := 0
                         ints := [], eRec := 0, eMul := 1, hash := [] }
def aRecord : LotRec := ⟨2, 0, 0, 0, List.replicate 32 1, true, 0⟩
def aLot : Lot := { id := 0, nsid := 2, pipe := some 0, query := none, recs := [aRecord], state := .issued 0, issues := 1, tried := [], emits := [], tally := [] }
def aPipe : Pipe := { scanPipe with scan := false, source := 2, stalls := 1, bare := false, running := true, tallyCount := 2
                                    outs := #v[(2, 0), (1, 2), (0, 0), (0, 0)] }
def runStall (w : W32) : Stall := { Stall.reset with
  state := .running, stage := .pred, image := some anImage, pm := [(0, ⟨w64 (w.toNat * 4294967297), 0⟩)], lots := [0]
  lm := (List.range 8).map fun i => (i, ⟨if i = 0 then 0x0000000000001001 else 0, 0⟩) }
def oneStall (t : Stall) : State := { up with stalls := (Vector.replicate 64 Stall.reset).set 0 t, lots := [aLot], pipes := [(0, aPipe)] }
def runs (w : W32) (f : Stall → Stall) : State := oneStall (f (runStall w))
def regs (l : List (Nat × W64)) (t : Stall) : Stall :=
  { t with core := { t.core with g := Vector.ofFn fun i => (look l i.val).getD 0 } }
def inHandler (t : Stall) : Stall := { t with handlers := [⟨0, .normal, 0, 0, []⟩] }

/-- A record whose header passes its CRC-32C, and its Lot. -/
def goodBytes : List Byte := let h := [1, 0x10] ++ List.replicate 26 0; h ++ leBytes 4 (crc32c h)
def goodRecord : LotRec := { aRecord with bytes := goodBytes }
def goodLot : Lot := { aLot with recs := [goodRecord] }
theorem secded_clean (v : W64) : secded ⟨v, 0⟩ = some (v, false) := by
  have h : popcount 72 (BitVec.toNat (MemWord.flips ⟨v, 0⟩)) = 0 := by show popcount 72 (0 : BitVec 72).toNat = 0; decide +kernel
  unfold secded; rw [h]; rfl
theorem fetches {s : State} {n : Nat} {w : W32} (h : s.codeRuns n = true ∧ (s.stall n).porterFault = none ∧
    look ((s.stall n).mem true) ((s.stall n).core.pc / 2) = some ⟨w64 (w.toNat * 4294967297), 0⟩ ∧
    w = (if (s.stall n).core.pc % 2 = 0 then w32 ((w64 (w.toNat * 4294967297)).toNat % 2 ^ 32)
      else w32 ((w64 (w.toNat * 4294967297)).toNat / 2 ^ 32))) : Fetches s n w :=
  ⟨h.1, h.2.1, _, by unfold readWord; rw [h.2.2.1]; dsimp only; rw [secded_clean], h.2.2.2⟩
theorem runsWord {s : State} {n : Nat} {w : W32} {g : BitVec 4} {k : Nat} (h : s.codeRuns n = true ∧ (s.stall n).porterFault = none ∧
    look ((s.stall n).mem true) ((s.stall n).core.pc / 2) = some ⟨w64 (w.toNat * 4294967297), 0⟩ ∧
    w = (if (s.stall n).core.pc % 2 = 0 then w32 ((w64 (w.toNat * 4294967297)).toNat % 2 ^ 32)
      else w32 ((w64 (w.toNat * 4294967297)).toNat / 2 ^ 32)))
    (h' : guardOk g = true ∧ guardTrue g (s.stall n).core.p = true ∧
      ((s.stall n).handlers = [] → (s.stall n).cycles + k ≤ s.curTerm n) ∧ (CoreRegs.onward (!(s.stall n).handlers.isEmpty) (s.stall n).core.pc (s.stall n).core).wp < 2 ^ 21) :
    Runs s n w g k := ⟨fetches h, h'.1, h'.2.1, h'.2.2.1, h'.2.2.2⟩
def flipped (k : Nat) : MemWord := ⟨5, BitVec.ofNat 72 (2 ^ k - 1)⟩
theorem ctlOwn {s : State} {n off : Nat} (h : s.running = true ∧ (s.stall n).state = .running) : CtlReach s n .own off := h
theorem ctlBar2 {s : State} {n off : Nat} (h : s.bar2On = true ∧ (memAccess (.queue 0) 2 (0x04000000 + n * 0x1000 + off) 4 s).1 = [] ∧
    (s.stall n).state ≠ .off) : CtlReach s n .bar2 off := h
theorem ctlPorter {s : State} {n off : Nat} {k : Fin 64} (h : s.running = true ∧
    (memAccess (.stall k.val) 2 (0x04000000 + n * 0x1000 + off) 4 s).1 = [] ∧ (s.stall n).state ≠ .off) : CtlReach s n (.porter k) off := h
theorem ctlMgmt {s : State} {n off : Nat} (h : s.running = true ∧ (memAccess .mgmt 2 (0x04000000 + n * 0x1000 + off) 4 s).1 = [] ∧
    (s.stall n).state ≠ .off) : CtlReach s n .mgmt off := h
def asleepLink : State := withPwr fun p => { p with link := false }
/-- Stall 0 is in the Secure world, queue 0 in the Normal. -/
def denied : State := { runs 0 id with acc := { Acc.reset with active := { RuleSet.reset with stall := 1 } } }

/-! Stalls that wait for units and Porters. -/

/-- Stall 0 waits for a unit call; the instance of the frame serves it. -/
def unitCalled (c : UnitCall) (f : Nat) : State := { (runs 0 (fun t => { t with call := some c })) with units := [(f, 0)] }
def hashCall : UnitCall := ⟨4, 0, #v[0, 8, 32, 0, 0], 0, 0⟩
def lookCall : UnitCall := ⟨5, 0, #v[9, 0, 0, 0, 0], 0, 0⟩
def emitMove : Move := ⟨3, .emitRecord 0 0 0, 0⟩
def zeroSnap : List (Option Byte) := List.replicate 64 (some 0)
def poisonSnap : List (Option Byte) := List.replicate 64 none
def pushMove (snap : List (Option Byte)) : Move := ⟨3, .toCard 0 0x200000000 snap, 0⟩
/-- A move of Stall 0 that has its Porter, the words it reads given, and the same card without the move. -/
def moveUp (m : Move) (lm : List (Nat × MemWord)) (p : List (Nat × Holder)) : State :=
  { (runs 0 (fun t => { t with moves := [m], lm := lm })) with porters := p }
def moveGone (s : State) : State := s.modStall 0 fun t => { t with moves := t.moves.filter fun y => y.id != 3 }
def clearWords : List (Nat × MemWord) := (List.range 8).map fun i => (i, ⟨0, 0⟩)
def pushed : State := moveUp (pushMove zeroSnap) clearWords [(0, .stall 0 3)]
def poisoned : State := moveUp (pushMove poisonSnap) [] [(0, .stall 0 3)]
def pushedBytes : List Byte × State :=
  let x := sourceBytes 0 0 zeroSnap (moveGone pushed)
  (x.1.getD [], x.2)
def emitUp (p : List (Nat × Holder)) : State := moveUp emitMove [] p

/-! Media, streams and Lots. -/

/-- A card with all of its hold-up budget. -/
def full : State := { up with hu := { up.hu with budget := 512 } }
def starved : State := { up with hu := { up.hu with budget := 0 } }
def cached : State := { full with med := { Media.reset with cache := [(slotKey 1 0, false)] } }
def ended : State := { full with med := { Media.reset with eol := true } }
def closedWin (s : State) : State := { s with therm := { s.therm with winHot := true } }
def wr (d12 : Nat) : Cmd := mkCmd 1 0x01 [(1, 1), (12, w32 d12)] []
def rd (opc : Nat) : Cmd := mkCmd 1 opc [(1, 1)] []
def dsm : Cmd := mkCmd 1 0x09 [(1, 1), (11, 4)] (leBytes 4 0 ++ (leBytes 4 8 ++ leBytes 8 0))
def append : Cmd := mkCmd 1 0x81 [(1, 2), (10, 32)] []
def withPi : State := { full with ns := [(1, { blockNs with fmt := 1, ext := true, prot := 1 })] }
def dirty (w : Nat) : State := { full with med := { Media.reset with held := [(slotKey 1 5, ⟨[1], [], 0, w, w, 0⟩)] } }
def waits (c : Cmd) (s : State) : State := { State.plus s c with waitq := [.write 0] }
def stored0 (p : Place) : Slot4k := ⟨[1], [], 0, 3, some p, 0⟩
def content (p : Place) (f : Blk → Blk) : State :=
  { full with med := { (Media.reset.modBlk p f) with content := [(slotKey 1 5, stored0 p)] } }
/-- A superblock of die 0's blocks 0, with its parity on die 1, and a one-bit program on it that the cores' Porter carries. -/
def aSuper : Super :=
  { grp := 0, kind := 0, parDie := 1, members := (List.finRange 4).map fun q => ⟨0, q, 0⟩, parity := [], fill := [(0, 16)], out := []
    rows := 0, closed := false, verify := false, failing := [] }
def aProg : Prog := ⟨0, 0, 0, 0, [[⟨[(slotKey 1 5, ⟨[1], [], 0, 3, none, 0⟩)], none, none⟩]]⟩
def programming (m : Media) : State :=
  { full with med := { m with progs := [aProg], supers := [(0, aSuper)] }, porters := [(0, .cores 0)] }
/-- A block that waits for its copies, and the superblock that takes them. -/
def copying : State :=
  let m := Media.reset.modBlk ⟨0, 0, 7⟩ fun b => { b with refresh := 1 }
  { full with med := { m with content := [(slotKey 1 5, stored0 ⟨0, 0, 7⟩)], supers := [(0, { aSuper with kind := 1, fill := [] })] } }
/-- A Result Read or Release Result of slot 0. -/
def result (opc : Nat) (off len : W32) : Cmd := mkCmd 1 opc [(1, 2), (12, off), (13, len)] []
def slot0 (st : SlotState) : Slot := ⟨0, st, 0, 64, 2, 0, List.replicate 16 1⟩
def slotted (st : SlotState) : State := { full with slots := [(0, slot0 st)] }
def query (opc : Nat) : Cmd := mkCmd 1 opc [(1, 2)] [1, 2, 3, 4, 5, 6, 7, 8]
def held1 : LotRec := aRecord
def lotOf (st : LotState) : Lot := { aLot with state := st }
/-- Lot 0 waits for the pipeline's Stall. -/
def lotUp (l : Lot) (p : Pipe) (n : Nat) (t : Stall) : State :=
  { full with lots := [l], pipes := [(0, p)], stalls := if h : n < 64 then (Vector.replicate 64 Stall.reset).set n t else up.stalls }
def aQuery : Query :=
  { id := 0, direct := false, slot := none, pipe := some 0, nsid := 2, floor := 0, lo := 0, hi := 10, rel := none, era := none, arc := none
    window := none, param := [], start := 10, size := 0, state := .waiting, cursor := 0, formed := false, ending := none, resume := 0
    endv := 0, unrec := 0, entered := 0, emitted := 0, media := 0, dec := 0, out := [], epoch := 0, releases := [] }
def asking (l : List Lot) : State := { full with pipes := [(0, { scanPipe with running := true })], queries := [aQuery], lots := l }
def copySpot0 : Nat × Place × Nat × Media := (copying.med.copySpot ⟨0, 0, 7⟩ 0).get (by decide +kernel)


/-- The example under R34 in 02_beacon.md: 310 ns into a period of 500 ns is fraction 158; after a reverse edge it is 0x61. -/
theorem test_fraction : edgeFrac false (256 * 310 / 500) = 158 ∧ edgeFrac true (256 * 310 / 500) = 0x61 := by decide

/-- The example under R157 in 06_power_loss_and_rebuild.md: E = 0.83 J computes to 815 MiB, is limited to 512 MiB, and V_B is
28.17 V, in mV 28,169. -/
theorem test_budget : budgetRaw 830000 = 815 ∧ budgetOf 830000 = 512 ∧ vbFor 830000 33000 512 = 28169 := by decide +kernel

/-- The worked program of 08_stall_code.md: the budget term of a record of 4,128 bytes with C_REC = 35 and C64 = 66; and the example
of 07_stalls.md, of 4,096 bytes with 40 and 60. -/
theorem test_term : ({ anImage with cRec := 35, c64 := 66 } : Image).term 4128 = 4325 ∧
    ({ anImage with cRec := 40, c64 := 60 } : Image).term 4096 = 3880 := by decide +kernel

/-- The example of 12_worlds_and_access.md: the detail of Stall 40 is 0x268. -/
theorem test_detail : stallDetail 40 = 0x268 := by decide

/-! Witnesses: for every statement with hypotheses, one conjunct for each of its clauses, in order, that gives states and
operands which meet the hypotheses of that clause together. -/

theorem witness_StepRunsFront :
    (∃ (s : State) (c : Instr) (rest : List Instr), s.pending = c :: rest) ∧
    (∃ (s : State), s.pending = []) :=
  ⟨⟨{ up with pending := [.lossDet] }, .lossDet, [], by decide +kernel⟩,
    ⟨up, by decide +kernel⟩⟩

theorem witness_SettleFrame :
    (∃ (s : State), (s.running && s.pwr.watch != .asleep) = false) ∧
    (∃ (s : State), s.running = false) ∧
    (∃ (s : State), (HeldSound s ∨ s.nv.shst ≠ 1)) ∧
    (∃ (s : State), s.nv.shst ≠ 1) :=
  ⟨⟨asleep, by decide +kernel⟩,
    ⟨aux, by decide +kernel⟩,
    ⟨up, by decide +kernel⟩,
    ⟨up, by decide +kernel⟩⟩

theorem witness_NoDeliverableWaits :
    (∃ (s t : State), NoDeliverable s ∧ step s = .next t) :=
  ⟨quiet, settle (tick quiet), fun _ v _ => by simp [State.deliverable, quiet], rfl⟩

theorem witness_HoldupRegistersFollow :
    (∃ (s t : State), HoldupShown s ∧ step s = .next t) :=
  ⟨up, settle (tick up), fun _ => by decide +kernel, rfl⟩

theorem witness_RailAndBankRows :
    (∃ (s : State), s.pwr.auxOn = false ∧ s.pwr.mainOn = false ∧ s.pwr.rail12 = false) ∧
    (∃ (s : State), s.canStart = false ∧ s.pwr.rail12 = false ∧ s.pwr.flush ≠ .running ∧ s.pwr.flush ≠ .railBack ∧ s.pwr.watch ≠
      .asleep ∧ s.pwr.auxOn = true ∧ s.pwr.mainOn = false ∧ s.pwr.railAux = true ∧ s.therm.held = false) ∧
    (∃ (s : State), (s.pwr.mainOn && (decide (s.pwr.step < 3) || s.pwr.watch == .asleep)) = false) ∧
    (∃ (s : State), s.pwr.mainOn = true ∧ (s.pwr.step < 3 ∨ s.pwr.watch = .asleep)) ∧
    (∃ (s : State), s.pwr.auxOn = true ∧ (s.pwr.mainOn = false ∨ s.pwr.watch = .asleep) ∧ s.hb.busy = none) ∧
    (∃ (s : State) (h : FwHeader), s.hb.bankA = .image h ∧ s.pwr.mainOn = true ∧ s.pwr.step = 2 ∧ s.therm.held = false ∧
      s.pwr.copied = true ∧ s.hotSensor = none ∧ s.hb.firstB = false ∧ (s.bankOk false).isSome = true ∧ s.therm.shutSrc = none ∧
      s.stalls = Vector.replicate 64 .reset) ∧
    (∃ (s : State) (a b : Bool), s.pwr.mainOn = true ∧ s.pwr.step = 2 ∧ s.therm.held = false ∧ s.pwr.copied = true ∧ s.hotSensor =
      none ∧ (a = false ∨ s.hb.bankA = .bad) ∧ (b = false ∨ s.hb.bankB = .bad)) ∧
    (∃ (s : State) (i : Nat), s.pwr.mainOn = true ∧ s.pwr.step = 2 ∧ s.therm.held = false ∧ s.pwr.copied = true ∧ s.hotSensor =
      some i) ∧
    (∃ (s : State), s.firmware = true ∧ s.pwr.charging = false ∧ s.pwr.flush = .idle ∧ s.pwr.watch ≠ .asleep ∧ s.hu.capOk ≠ 0) ∧
    (∃ (s : State), s.firmware = true ∧ s.pwr.flush = .idle ∧ 3 ≤ s.pwr.step ∧ s.pwr.step ≤ 4 ∧ s.med.intents = [] ∧ s.hb.toErase
      = []) ∧
    (∃ (s : State) (k : Nat), s.firmware = true ∧ s.pwr.flush = .idle ∧ 3 ≤ s.pwr.step ∧ s.pwr.step ≤ 4 ∧ s.med.intents = [] ∧
      s.hb.toErase = [k]) ∧
    (∃ (s : State) (k : Nat) (p : Place), s.firmware = true ∧ s.pwr.flush = .idle ∧ 3 ≤ s.pwr.step ∧ s.pwr.step ≤ 4 ∧
      s.med.intents = [k] ∧ placeOf k = some p ∧ s.hb.toErase = []) ∧
    (∃ (s : State), s.firmware = true ∧ s.pwr.charging = true ∧ s.hu.state = 0 ∧ s.pwr.flush = .idle ∧ s.pwr.watch ≠ .asleep) :=
  ⟨⟨State.reset, by decide +kernel⟩,
    ⟨aux, by decide +kernel⟩,
    ⟨up, by decide +kernel⟩,
    ⟨step2, by decide +kernel⟩,
    ⟨aux, by decide +kernel⟩,
    ⟨step2, factoryImage, rfl, by decide +kernel⟩,
    ⟨{ step2 with hb := { Harbour.reset with bankA := .bad, bankB := .bad } }, false, false, by decide +kernel⟩,
    ⟨{ step2 with therm := { Thermal.reset with state := Vector.replicate 11 3 } }, 0, by decide +kernel⟩,
    ⟨{ step4 with pwr := { step4.pwr with step := 3, charging := false } }, by decide +kernel⟩,
    ⟨step4, by decide +kernel⟩,
    ⟨{ step4 with hb := { step4.hb with marked := putBit step4.hb.marked 3 false } }, 3, by decide +kernel⟩,
    ⟨{ step4 with med := { Media.reset with intents := [16384] } }, 16384, ⟨1, 0, 0⟩, by decide +kernel⟩,
    ⟨step4, by decide +kernel⟩⟩

theorem witness_RebuildRows :
    (∃ (s : State), s.firmware = true ∧ s.pwr.flush = .idle ∧ s.pwr.step = 5 ∧ s.med.path = none ∧ s.med.clean = true ∧
      s.pwr.short = none) ∧
    (∃ (s : State), s.firmware = true ∧ s.pwr.flush = .idle ∧ s.pwr.step = 5 ∧ s.med.path = none ∧ s.med.clean = false ∧
      s.pwr.short = none ∧ s.ns = []) ∧
    (∃ (s : State) (path : Nat), s.firmware = true ∧ s.pwr.flush = .idle ∧ s.pwr.step = 5 ∧ s.med.path = some path ∧ s.compat =
      false ∧ s.nv.late = []) :=
  ⟨⟨step5, by decide +kernel⟩,
    ⟨{ step5 with med := { Media.reset with clean := false } }, by decide +kernel⟩,
    ⟨{ step5 with med := { Media.reset with path := some 2 } }, 2, by decide +kernel⟩⟩

theorem witness_FlushKeepsHeld :
    (∃ (s : State) (k : Nat) (x : HeldSlot), s.pwr.flush = .running ∧ (k, x) ∈ s.med.held ∧ x.err = 0 ∧ (s.med.held.map fun p =>
      p.1).Pairwise (· < ·) ∧ (∀ y ∈ s.med.copies k, y.wseq ≤ x.wseq ∧ (y.wseq = x.wseq → y.data = x.data ∧ y.pi = x.pi))) :=
  ⟨flushing, slotKey 1 5, ⟨[1], [], 0, 7, 7, 0⟩, by decide +kernel⟩

theorem witness_PowerLossRows :
    (∃ (s : State), s.pwr.rail12 = true ∧ s.pwr.watch ≠ .asleep ∧ s.pwr.mainOn = true ∧ 3 ≤ s.pwr.step ∧ s.pwr.recovery = false ∧
      s.pwr.detect = true ∧ s.pwr.flush = .idle ∧ s.hb.busy = none) ∧
    (∃ (s : State), s.pwr.watch = .asleep) ∧
    (∃ (s : State), s.pwr.rail12 = true ∧ s.pwr.watch ≠ .asleep ∧ s.pwr.mainOn = true ∧ (s.pwr.step < 3 ∨ s.pwr.recovery = true ∨
      s.pwr.detect = false) ∧ s.pwr.flush ≠ .railBack) ∧
    (∃ (s : State), s.pwr.rail12 = true ∧ s.pwr.watch ≠ .asleep ∧ s.pwr.mainOn = true ∧ s.pwr.flush = .railBack) ∧
    (∃ (s : State), s.pwr.flush = .running) ∧
    (∃ (s : State), s.pwr.flush = .railBack ∧ 6 ≤ s.pwr.step) ∧
    (∃ (s : State), s.pwr.flush = .running ∧ 6 ≤ s.pwr.step ∧ HeldSound s) ∧
    (∃ (s : State), s.pwr.rail12 = true ∧ s.firmware = true ∧ s.pwr.flush = .idle ∧ s.pwr.watch ≠ .asleep) ∧
    (∃ (s : State), s.mainAwake = true ∧ s.pwr.lossArmed = true ∧ s.pwr.lossHigh = false ∧ s.med.held = []) ∧
    (∃ (s : State), s.operating = true ∧ s.mainAwake = true ∧ s.pwr.lossArmed = true ∧ s.pwr.lossHigh = false ∧ s.med.held ≠ [] ∧
      HeldSound s) ∧
    (∃ (s : State), s.pwr.early = true) :=
  ⟨⟨up, by decide +kernel⟩,
    ⟨asleep, by decide +kernel⟩,
    ⟨step2, by decide +kernel⟩,
    ⟨withPwr fun p => { p with flush := .railBack }, by decide +kernel⟩,
    ⟨flushing, by decide +kernel⟩,
    ⟨withPwr fun p => { p with flush := .railBack }, by decide +kernel⟩,
    ⟨flushing, by decide +kernel⟩,
    ⟨up, by decide +kernel⟩,
    ⟨withPwr fun p => { p with lossArmed := true, lossHigh := false }, by decide +kernel⟩,
    ⟨{ withPwr fun p => { p with lossArmed := true, lossHigh := false } with med := flushing.med }, by decide +kernel⟩,
    ⟨withPwr fun p => { p with early := true }, by decide +kernel⟩⟩

theorem witness_ThermalRows :
    (∃ (s : State) (k : Sensor) (v : Int) (c : Nat), s.mainAwake = true ∧ s.therm.held = false ∧ sensorClass (sensorIndex k) =
      some c ∧ -960 ≤ v ∧ v ≤ 2400 ∧ v < s.limitOf c 3) ∧
    (∃ (lim : Nat → Int) (r : Int), ∃ st, lim 1 ≤ lim 2 ∧ lim 2 ≤ lim 3 ∧ st ≤ 3 ∧ lim 3 ≤ r) ∧
    (∃ (lim : Nat → Int) (r : Int), ∃ st, lim 1 ≤ lim 2 ∧ lim 2 ≤ lim 3 ∧ st ≤ 3 ∧ r < lim 1 - 80) ∧
    (∃ (lim : Nat → Int) (r : Int), ∃ st, lim 1 ≤ lim 2 ∧ lim 2 ≤ lim 3 ∧ st ≤ 3 ∧ st = 2 ∧ lim 2 - 80 ≤ r ∧ r < lim 3) ∧
    (∃ (lim : Nat → Int) (r : Int), ∃ st, lim 1 ≤ lim 2 ∧ lim 2 ≤ lim 3 ∧ st ≤ 3 ∧ st = 0 ∧ lim 1 ≤ r ∧ r < lim 2) ∧
    (∃ (s : State), s.mainAwake = true ∧ s.therm.request = true ∧ s.therm.graced = false ∧ s.anyAt 2 = false) ∧
    (∃ (s : State), s.mainAwake = true ∧ s.therm.request = true ∧ s.therm.graced = false ∧ s.anyAt 2 = true ∧ s.therm.cap = 0) ∧
    (∃ (s : State), s.mainAwake = true ∧ s.therm.cap ≠ 0 ∧ s.therm.cap ≤ 3) ∧
    (∃ (s : State), s.therm.shutting = true ∧ s.nv.inflight = [] ∧ s.hb.busy = none) ∧
    (∃ (s : State), s.therm.shutting = false ∧ s.therm.held = true) :=
  ⟨⟨up, .ctrl, -960, 0, by decide +kernel⟩,
    ⟨fun k => 100 * k, 300, 0, by decide +kernel⟩,
    ⟨fun k => 100 * k, 19, 3, by decide +kernel⟩,
    ⟨fun k => 100 * k, 120, 2, by decide +kernel⟩,
    ⟨fun k => 100 * k, 199, 0, by decide +kernel⟩,
    ⟨{ up with therm := { Thermal.reset with request := true } }, by decide +kernel⟩,
    ⟨hot, by decide +kernel⟩,
    ⟨{ hot with therm := { hot.therm with cap := 3 } }, by decide +kernel⟩,
    ⟨{ up with therm := { Thermal.reset with shutting := true } }, by decide +kernel⟩,
    ⟨{ up with therm := { Thermal.reset with held := true } }, by decide +kernel⟩⟩

theorem witness_MeasurementRows :
    (∃ (s : State), ∃ (dv : Nat), s.firmware = true ∧ s.hu.measuring = true ∧ dv ≠ 0) ∧
    (∃ (s : State), ∃ (sv i : Nat), s.firmware = true ∧ s.pwr.charging = true ∧ s.hu.state = 0 ∧ s.hu.midCharge = true ∧
      s.pwr.flush = .idle ∧ s.pwr.watch ≠ .asleep ∧ sv ≤ 20000 ∧ i ≠ 0) ∧
    (∃ (s : State), s.firmware = true ∧ s.hu.flushing = true ∧ s.pwr.flush = .idle ∧ HeldSound s) ∧
    (∃ (s : State), s.firmware = true ∧ s.pwr.watch = .asleep) ∧
    (∃ (s : State), s.firmware = true ∧ s.pwr.watch ≠ .asleep ∧ s.hu.state = 1 ∧ s.hu.measuring = false ∧ s.hu.lowered = none ∧
      s.pwr.flush = .idle ∧ s.vb + 1500 ≤ s.hu.vchg) ∧
    (∃ (s : State), s.firmware = true ∧ s.pwr.watch ≠ .asleep ∧ s.hu.state ≠ 1) ∧
    (∃ (s : State) (n : Fin 6), s.mainAwake = true ∧ bit s.hu.capOk n.val = true) ∧
    (∃ (s : State), s.firmware = true ∧ s.pwr.watch ≠ .asleep) :=
  ⟨⟨{ up with hu := { up.hu with measuring := true } }, 1, by decide +kernel⟩,
    ⟨{ up with hu := { up.hu with state := 0, midCharge := true } }, 19999, 1, by decide +kernel⟩,
    ⟨{ up with hu := { up.hu with flushing := true } }, by decide +kernel⟩,
    ⟨asleep, by decide +kernel⟩,
    ⟨up, by decide +kernel⟩,
    ⟨{ up with hu := { up.hu with state := 0 } }, by decide +kernel⟩,
    ⟨up, 5, by decide +kernel⟩,
    ⟨up, by decide +kernel⟩⟩

theorem witness_WatchRows :
    (∃ (s : State), s.watchReady = true) ∧
    (∃ (s : State), s.pwr.watch = .asleep ∧ s.pwr.wakeDue = true ∧ s.pwr.rail12 = true ∧ s.pwr.perst = false ∧ s.pwr.link = true ∧
      s.nv.late = [] ∧ s.queries = []) ∧
    (∃ (s : State) (c : Reading) (n : Vector Reading 8) (d h : Reading) (mv : Nat), s.pwr.watch = .asleep ∧ (takeSample (sampleOf
      c n d h) { s with hu := { s.hu with bankMv := mv, mVolt := s.hu.mVolt.publish mv } }).1 = none) ∧
    (∃ (s : State), s.pwr.watch = .asleep ∧ s.pwr.watchTimer ≠ 0 ∧ s.therm.held = false) :=
  ⟨⟨withPwr fun p => { p with watch := .requested }, by decide +kernel⟩,
    ⟨asleep, by decide +kernel⟩,
    ⟨{ asleep with therm := { Thermal.reset with temp := Vector.replicate 11 ⟨true, 1, 400⟩ } }, ⟨400, false⟩, Vector.replicate 8
      ⟨400, false⟩, ⟨400, false⟩, ⟨400, false⟩, 32000, by decide +kernel⟩,
    ⟨asleep, by decide +kernel⟩⟩

theorem witness_SelfDetectedFaults :
    (∃ (s : State) (i : Instr) (f b : Nat) (k : Fin 4) (out : BitVec 4), (i, f, b, out) ∈ [ (Instr.watchdogExpiry (.translation
      k), 0x20, 3, putBit s.pwr.pairsOut k.val true), (.watchdogExpiry .management, 0x21, 3, s.pwr.pairsOut), (.lockstepMismatch
      (.cores (.translation k)), 0x20, 2, putBit s.pwr.pairsOut k.val true), (.lockstepMismatch (.cores .management), 0x21, 2,
      s.pwr.pairsOut), (.lockstepMismatch (.eccUncorr 0x20 .core), 0x20, 1, s.pwr.pairsOut), (.clockLoss .main, 2, 5,
      s.pwr.pairsOut)] ∧ s.pwr.mainOn = true ∧ s.pwr.auxOn = true ∧ s.pwr.recovery = false ∧ s.pwr.watch ≠ .asleep ∧ s.pwr.fatal =
      none ∧ s.pwr.flush = .idle ∧ s.hb.busy = none) ∧
    (∃ (s : State), s.pwr.fatal ≠ none ∧ 6 ≤ s.pwr.step) ∧
    (∃ (s : State), s.mainAwake = true ∧ s.hb.busy = none ∧ s.bus.held = none) ∧
    (∃ (s : State), s.acc.mismatch = true) ∧
    (∃ (s : State) (f : Fin 64), s.mainAwake = true ∧ 0x28 ≤ f.val ∧ f.val ≤ 0x36) ∧
    (∃ (s : State) (f : Fin 64) (b : Nat), s.mainAwake = true ∧ eccBit f.val 0 = some b) ∧
    (∃ (s : State) (f : Fin 64) (nsid lba b : Nat) (x : HeldSlot), s.mainAwake = true ∧ look s.med.held (slotKey nsid lba) = some
      x ∧ eccBit f.val 1 = some b) ∧
    (∃ (s : State) (f : Fin 64) (nsid lba b : Nat) (x : HeldSlot), s.mainAwake = true ∧ look s.med.held (slotKey nsid lba) = some
      x ∧ eccBit f.val 2 = some b) ∧
    (∃ (s : State), s.beaconOn = true ∧ s.bcn.code = 0) ∧
    (∃ (s : State) (f b : Nat), s.frameOn f = true ∧ bit (frameBits f) b = true ∧ b < 32 ∧ f < 64) :=
  ⟨⟨up, .clockLoss .main, 2, 5, 0, up.pwr.pairsOut, by decide +kernel⟩,
    ⟨withPwr fun p => { p with fatal := some 69 }, by decide +kernel⟩,
    ⟨up, by decide +kernel⟩,
    ⟨{ up with acc := { Acc.reset with mismatch := true } }, by decide +kernel⟩,
    ⟨up, 0x36, by decide +kernel⟩,
    ⟨up, 8, 0, by decide +kernel⟩,
    ⟨{ up with med := { Media.reset with held := [(slotKey 1 5, ⟨[1], [], 0, 7, 7, 0⟩)] } }, 8, 1, 5, 1, ⟨[1], [], 0, 7, 7, 0⟩,
      by decide +kernel⟩,
    ⟨{ up with med := { Media.reset with held := [(slotKey 1 5, ⟨[1], [], 0, 7, 7, 0⟩)] } }, 8, 1, 5, 2, ⟨[1], [], 0, 7, 7, 0⟩,
      by decide +kernel⟩,
    ⟨up, by decide +kernel⟩,
    ⟨up, 2, 5, by decide +kernel⟩⟩

theorem witness_LinkAndResetRows :
    (∃ (s : State), s.pwr.watch = .asleep ∧ s.therm.held = false) ∧
    (∃ (s : State), s.firmware = true ∧ s.pwr.watch ≠ .asleep ∧ s.pwr.flush = .idle) ∧
    (∃ (s : State) (i : Instr), (i = .perstAssert ∨ i = .linkDown) ∧ s.pwr.mainOn = true ∧ s.pwr.rail12 = true ∧ s.pwr.watch ≠
      .asleep ∧ s.pwr.fatal = none ∧ s.pwr.flush = .idle ∧ (i = .linkDown → s.pwr.link = true) ∧ s.nv.inflight = [] ∧ (∀ q ∈
      s.queries, q.pipe = none → q.state ≠ .waiting)) ∧
    (∃ (s : State) (i : Instr), Up s ∧ (i = .controllerReset ∨ i = .functionLevelReset) ∧ s.pwr.link = true ∧ s.nv.en = true ∧
      s.nv.inflight = []) :=
  ⟨⟨asleep, by decide +kernel⟩,
    ⟨up, by decide +kernel⟩,
    ⟨up, .linkDown, by decide +kernel⟩,
    ⟨up, .functionLevelReset, isUp (by decide +kernel), by decide +kernel⟩⟩

theorem witness_EnableAndShutdownRows :
    (∃ (s : State) (ams : BitVec 3), Up s ∧ s.pwr.link = true ∧ s.nv.en = false ∧ s.ready = false ∧ ams.toNat ≤ 1) ∧
    (∃ (s : State) (ams : BitVec 3), Up s ∧ s.pwr.link = true ∧ s.nv.en = false ∧ s.ready = false ∧ 1 < ams.toNat) ∧
    (∃ (s : State) (i : Instr) (w : HostWrite), ((i, w) ∈ [(.controllerReset, .reset), (.functionLevelReset, .flr)] ∨ (∃ ams aqa
      asq acq, i = .controllerEnable ams aqa asq acq ∧ w = .enable ams.toNat aqa asq acq) ∨ (∃ shn, i = .shutdownNotification shn
      ∧ w = .shutdown shn.toNat)) ∧ s.pwr.link = true ∧ s.firmware = true ∧ s.pwr.step < 6 ∧ s.pwr.flush = .idle ∧ s.pwr.watch ≠
      .asleep) ∧
    (∃ (s : State) (i : Instr) (w : HostWrite), ((i, w) ∈ [(.controllerReset, .reset), (.functionLevelReset, .flr)] ∨ (∃ ams aqa
      asq acq, i = .controllerEnable ams aqa asq acq ∧ w = .enable ams.toNat aqa asq acq) ∨ (∃ shn, i = .shutdownNotification shn
      ∧ w = .shutdown shn.toNat)) ∧ s.pwr.link = true ∧ s.pwr.mainOn = true ∧ s.pwr.watch = .asleep ∧ s.therm.held = false) ∧
    (∃ (s : State) (shn : BitVec 2), Up s ∧ s.pwr.link = true ∧ s.nv.shst = 0 ∧ (shn = 1 ∨ shn = 2) ∧ s.nv.inflight = []) :=
  ⟨⟨{ up with nv := .reset }, 1, isUp (by decide +kernel), by decide +kernel⟩,
    ⟨{ up with nv := .reset }, 2, isUp (by decide +kernel), by decide +kernel⟩,
    ⟨withPwr fun p => { p with step := 5 }, .controllerReset, .reset, .inl (by decide +kernel), by decide +kernel⟩,
    ⟨{ asleep with pwr := { asleep.pwr with link := true } }, .functionLevelReset, .flr, .inl (by decide +kernel),
      by decide +kernel⟩,
    ⟨up, 2, isUp (by decide +kernel), by decide +kernel⟩⟩

theorem witness_FetchRows :
    (∃ (s : State) (y : Byte) (v : W32) (es : List Submission) (q : SubQueue), s.pwr.mainOn = true ∧ s.pwr.watch ≠ .asleep ∧
      s.pwr.link = true ∧ look s.nv.sqs y.toNat = some q ∧ s.deleting y.toNat = false ∧ fld v 15 0 < q.size ∧ es.length = (fld v
      15 0 + q.size - q.tail) % q.size) ∧
    (∃ (s : State) (y : Byte) (v : W32) (q : CompQueue), s.pwr.mainOn = true ∧ s.pwr.watch ≠ .asleep ∧ s.pwr.link = true ∧ look
      s.nv.cqs y.toNat = some q ∧ fld v 15 0 < q.size ∧ (fld v 15 0 + q.size - q.head) % q.size ≤ q.posted.length) ∧
    (∃ (s : State) (y : Byte), s.pwr.mainOn = true ∧ s.pwr.watch ≠ .asleep ∧ s.pwr.link = true ∧ look s.nv.sqs y.toNat = none) ∧
    (∃ (s : State) (y : Byte) (v : W32) (es : List Submission) (q : SubQueue), s.pwr.mainOn = true ∧ s.pwr.watch = .asleep ∧
      s.pwr.link = true ∧ s.therm.held = false ∧ look s.nv.sqs y.toNat = some q ∧ s.deleting y.toNat = false ∧ fld v 15 0 < q.size
      ∧ es.length = (fld v 15 0 + q.size - q.tail) % q.size) ∧
    (∃ (s : State), s.fetchable 0 = true) ∧
    (∃ (s : State) (q : Nat) (arb : Arbiter) (c : Cmd), s.fetching = true ∧ pickQueue s = some (q, arb) ∧ (q ≠ 0 → s.fetchingIo =
      true) ∧ headCmd s q = some c ∧ 1024 < s.locksUsed + (locksOf s c).length) ∧
    (∃ (s : State) (arb : Arbiter) (c : Cmd), s.fetching = true ∧ pickQueue s = some (0, arb) ∧ headCmd s 0 = some c ∧ s.locksUsed
      ≤ 1024 ∧ s.keeper.armed = [] ∧ checkAdmin c s = none ∧ (∀ x ∈ s.nv.inflight, x.h < s.nv.next)) ∧
    (∃ (s : State) (q : Nat) (arb : Arbiter) (c c' : Cmd) (u : State), ∃ v, c' =
      { c with locks := locksOf s c, granted := s.lockFree { c with locks := locksOf s c } } ∧ u =
      { s with nv := { s.nv with arb := { arb with stuck := none }, next := s.nv.next + 1, inflight := s.nv.inflight ++ [c'], sqs := adjust s.nv.sqs q fun x => { x with waiting := x.waiting.drop 1 } } }
      ∧ checkIo c' u = (none, v) ∧ s.fetching = true ∧ pickQueue s = some (q, arb) ∧ q ≠ 0 ∧ s.fetchingIo = true ∧ headCmd s q =
      some c ∧ s.locksUsed + (locksOf s c).length ≤ 1024 ∧ s.keeper.armed = []) ∧
    (∃ (s : State) (q : Nat) (arb : Arbiter) (c c' : Cmd) (u : State), ∃ v sct sc, c' =
      { c with locks := locksOf s c, granted := s.lockFree { c with locks := locksOf s c } } ∧ u =
      { s with nv := { s.nv with arb := { arb with stuck := none }, next := s.nv.next + 1, inflight := s.nv.inflight ++ [c'], sqs := adjust s.nv.sqs q fun x => { x with waiting := x.waiting.drop 1 } } }
      ∧ checkIo c' u = (some (sct, sc), v) ∧ s.fetching = true ∧ pickQueue s = some (q, arb) ∧ q ≠ 0 ∧ s.fetchingIo = true ∧
      headCmd s q = some c ∧ s.locksUsed + (locksOf s c).length ≤ 1024 ∧ s.keeper.armed = []) ∧
    (∃ (s : State) (q : Nat) (c : Cmd), headCmd s q = some c) :=
  ⟨⟨up, 1, 63, List.replicate 63 readEntry, ⟨64, 1, 0, 0, [], none⟩, by decide +kernel⟩,
    ⟨up, 1, 0, ⟨64, 1, true, 0, [], 0, false⟩, by decide +kernel⟩,
    ⟨up, 2, by decide +kernel⟩,
    ⟨asleep, 1, 1, [readEntry], ⟨64, 1, 0, 0, [], none⟩, by decide +kernel⟩,
    ⟨withQueue 0 abortEntry, by decide +kernel⟩,
    ⟨crowded, 1, ((pickQueue crowded).get (by decide +kernel)).2, (headCmd crowded 1).get (by decide +kernel), by decide +kernel⟩,
    ⟨withQueue 0 abortEntry, up.nv.arb, (headCmd (withQueue 0 abortEntry) 0).get (by decide +kernel), by decide +kernel⟩,
    ⟨reading, 1, ((pickQueue reading).get (by decide +kernel)).2, (headCmd reading 1).get (by decide +kernel), fetched reading,
      (plusFetched reading), (checkIo (fetched reading) (plusFetched reading)).2, rfl, rfl, Prod.ext (by decide +kernel) rfl,
      by decide +kernel⟩,
    ⟨refused, 1, ((pickQueue refused).get (by decide +kernel)).2, (headCmd refused 1).get (by decide +kernel), fetched refused,
      (plusFetched refused), (checkIo (fetched refused) (plusFetched refused)).2, 0, 0x80, rfl, rfl, Prod.ext (by decide +kernel)
      rfl, by decide +kernel⟩,
    ⟨withQueue 1 readEntry, 1, (headCmd (withQueue 1 readEntry) 1).get (by decide +kernel), by decide +kernel⟩⟩

theorem witness_RangeLocks :
    (∃ (x y : Lock), x.lo ≤ x.hi ∧ y.lo ≤ y.hi) ∧
    (∃ (s : State) (h : Nat) (c : Cmd), s.cmd h = some c ∧ s.lockFree c = true) ∧
    (∃ (s : State) (h : Nat) (c x : Cmd) (l m : Lock), s.cmd h = some c ∧ x ∈ s.nv.inflight ∧ x.h < c.h ∧ l ∈ x.locks ∧ m ∈
      c.locks ∧ l.overlaps m = true) ∧
    (∃ (s : State) (c : Cmd) (n : Ns), c.qid ≠ 0 ∧ s.active c.nsid = some n ∧ n.stream = false ∧ (c.opc = 0x01 ∨ c.opc = 0x02)) ∧
    (∃ (s : State) (c : Cmd) (n : Ns), s.active c.nsid = some n ∧ n.stream = true) :=
  ⟨⟨⟨1, 0, 0, false⟩, ⟨1, 0, 7, true⟩, by decide +kernel⟩,
    ⟨State.plus up (mkCmd 1 1 [(1, 1)] []), 0, mkCmd 1 1 [(1, 1)] [], by decide +kernel⟩,
    ⟨locked, 1, lockSecond, lockFirst, ⟨1, 0, 5, true⟩, ⟨1, 5, 9, false⟩, by decide +kernel⟩,
    ⟨up, mkCmd 1 1 [(1, 1)] [], blockNs, by decide +kernel⟩,
    ⟨up, mkCmd 1 1 [(1, 2)] [], streamNs, by decide +kernel⟩⟩

theorem witness_CompletionPosts :
    (∃ (s : State) (h : Nat) (c : Cmd) (sq : SubQueue) (q : CompQueue), s.cmd h = some c ∧ s.pwr.fatal = none ∧ look s.nv.sqs
      c.qid = some sq ∧ look s.nv.cqs sq.cq = some q ∧ (∀ x ∈ s.nv.inflight, x.phase ≠ .deleting)) :=
  ⟨State.plus up (admin 8 []), 0, admin 8 [], ⟨32, 0, 0, 0, [], none⟩, ⟨32, 0, true, 0, [], 0, false⟩, by decide +kernel⟩

theorem witness_QueueAndReportRows :
    (∃ (s : State) (h : Nat) (c : Cmd), s.admin h 0x05 = some c ∧ 1 ≤ c.queueId ∧ c.queueId ≤ 255 ∧ look s.nv.cqs c.queueId = none
      ∧ 2 ≤ c.queueSize ∧ bit (c.dword 11) 0 = true ∧ fld (c.dword 11) 31 16 ≤ 255) ∧
    (∃ (s : State) (h : Nat) (c : Cmd), s.admin h 0x01 = some c ∧ 1 ≤ c.queueId ∧ c.queueId ≤ 255 ∧ look s.nv.sqs c.queueId = none
      ∧ 1 ≤ fld (c.dword 11) 31 16 ∧ fld (c.dword 11) 31 16 ≤ 255 ∧ (look s.nv.cqs (fld (c.dword 11) 31 16)).isSome = true ∧ 2 ≤
      c.queueSize ∧ bit (c.dword 11) 0 = true) ∧
    (∃ (s : State) (h : Nat) (c : Cmd), s.admin h 0x04 = some c ∧ c.queueId ≠ 0 ∧ (look s.nv.cqs c.queueId).isSome = true ∧ (∀ x ∈
      s.nv.sqs, x.2.cq ≠ c.queueId)) ∧
    (∃ (s : State) (h : Nat) (c : Cmd) (q : SubQueue), s.admin h 0x00 = some c ∧ c.queueId ≠ 0 ∧ look s.nv.sqs c.queueId = some q
      ∧ s.deleting c.queueId = false ∧ (∀ x ∈ s.nv.inflight, x.qid ≠ c.queueId ∧ x.phase ≠ .deleting)) ∧
    (∃ (s : State) (h : Nat) (c : Cmd), s.admin h 0x08 = some c) ∧
    (∃ (s : State) (h : Nat) (c : Cmd), s.admin h 0x02 = some c ∧ fld (c.dword 10) 7 0 = 0xC4) ∧
    (∃ (s t : State) (h : Nat) (c : Cmd) (page : List Byte), s.logPage (fld (c.dword 10) 7 0) c.keeper = some (page, t) ∧ s.admin
      h 0x02 = some c ∧ fld (c.dword 10) 7 0 ≠ 0xC4 ∧ (fld (c.dword 10) 7 0 = 2 → c.nsid = 0 ∨ c.nsid = 0xFFFFFFFF) ∧ c.q64 12 ≤
      page.length) ∧
    (∃ (s : State) (h : Nat) (c : Cmd), s.admin h 0x06 = some c ∧ fld (c.dword 10) 7 0 = 0x01) ∧
    (∃ (s : State) (h : Nat) (c : Cmd), ∃ n, s.admin h 0x06 = some c ∧ fld (c.dword 10) 7 0 = 0x00 ∧ s.compat = false ∧ 1 ≤ c.nsid
      ∧ c.nsid ≤ 64 ∧ s.active c.nsid = some n) ∧
    (∃ (s : State) (h : Nat) (c : Cmd), s.admin h 0x06 = some c ∧ fld (c.dword 10) 7 0 = 0x00 ∧ s.compat = false ∧ 1 ≤ c.nsid ∧
      c.nsid ≤ 64 ∧ s.active c.nsid = none) ∧
    (∃ (s : State) (h : Nat) (c : Cmd), s.admin h 0x06 = some c ∧ fld (c.dword 10) 7 0 = 0x02 ∧ s.compat = false ∧ c.nsid <
      0xFFFFFFFE) ∧
    (∃ (s : State) (h : Nat) (c : Cmd), s.admin h 0x0C = some c ∧ (s.nv.inflight.filter fun x => x.phase == .event).length < 16 ∧
      s.nv.events = []) ∧
    (∃ (s : State) (h : Nat) (c : Cmd), s.admin h 0x14 = some c) :=
  ⟨⟨State.plus up (admin 5 [(10, 0x000100FF), (11, 0x00FF0001)]), 0, admin 5 [(10, 0x000100FF), (11, 0x00FF0001)],
      by decide +kernel⟩,
    ⟨State.plus up (admin 1 [(10, 0x000100FF), (11, 0x00010001)]), 0, admin 1 [(10, 0x000100FF), (11, 0x00010001)],
      by decide +kernel⟩,
    ⟨State.plus noIoSq (admin 4 [(10, 1)]), 0, admin 4 [(10, 1)], by decide +kernel⟩,
    ⟨State.plus up (admin 0 [(10, 1)]), 0, admin 0 [(10, 1)], ⟨64, 1, 0, 0, [], none⟩, by decide +kernel⟩,
    ⟨State.plus up (admin 8 []), 0, admin 8 [], by decide +kernel⟩,
    ⟨State.plus up (admin 2 [(10, 0x80C4)]), 0, admin 2 [(10, 0x80C4)], by decide +kernel⟩,
    ⟨State.plus up (admin 2 [(10, 0x8003)]), State.plus up (admin 2 [(10, 0x8003)]), 0, admin 2 [(10, 0x8003)], up.firmwarePage,
      rfl, by decide +kernel⟩,
    ⟨State.plus up (admin 6 [(10, 1)]), 0, admin 6 [(10, 1)], by decide +kernel⟩,
    ⟨State.plus up (admin 6 [(1, 1)]), 0, admin 6 [(1, 1)], blockNs, by decide +kernel⟩,
    ⟨State.plus up (admin 6 [(1, 64)]), 0, admin 6 [(1, 64)], by decide +kernel⟩,
    ⟨State.plus up (admin 6 [(10, 2)]), 0, admin 6 [(10, 2)], by decide +kernel⟩,
    ⟨State.plus up (admin 0x0C []), 0, admin 0x0C [], by decide +kernel⟩,
    ⟨State.plus up (admin 0x14 [(10, 1)]), 0, admin 0x14 [(10, 1)], by decide +kernel⟩⟩

theorem witness_FeatureRows :
    (∃ (s : State) (h : Nat) (c : Cmd), s.feature h 0x01 = some c) ∧
    (∃ (s : State) (h : Nat) (c : Cmd), s.feature h 0x05 = some c) ∧
    (∃ (s : State) (h : Nat) (c : Cmd), s.feature h 0x06 = some c ∧ bit (c.dword 11) 0 = true) ∧
    (∃ (s : State) (h : Nat) (c : Cmd), s.feature h 0x06 = some c ∧ bit (c.dword 11) 0 = false) ∧
    (∃ (s : State) (h : Nat) (c : Cmd), s.feature h 0x07 = some c) ∧
    (∃ (s : State) (h : Nat) (c : Cmd), s.feature h 0x08 = some c) ∧
    (∃ (s : State) (h : Nat) (c : Cmd), s.feature h 0x09 = some c ∧ fld (c.dword 11) 15 0 ≤ 255) ∧
    (∃ (s : State) (h : Nat) (c : Cmd), s.feature h 0x0A = some c) ∧
    (∃ (s : State) (h : Nat) (c : Cmd), s.feature h 0x0B = some c) ∧
    (∃ (s : State) (h : Nat) (c : Cmd), s.feature h 0x02 = some c ∧ fld (c.dword 11) 4 0 ≤ 3 ∧ fld (c.dword 11) 7 5 = 0) ∧
    (∃ (s : State) (h : Nat) (c : Cmd), s.feature h 0x02 = some c ∧ fld (c.dword 11) 4 0 = 4 ∧ fld (c.dword 11) 7 5 = 0) ∧
    (∃ (s : State) (h : Nat) (c : Cmd) (sel cls : Nat), s.feature h 0x04 = some c ∧ fld (c.dword 11) 19 16 = sel ∧ fld (c.dword
      11) 21 20 = 0 ∧ (sel, cls) ∈ [(0, 1), (1, 0), (3, 2)] ∧ ((fld (c.dword 11) 15 0 : Nat) : Int) ≤ s.warnDefault cls + 273) ∧
    (∃ (s : State) (h : Nat) (c : Cmd) (sel cls : Nat), s.feature h 0x04 = some c ∧ fld (c.dword 11) 19 16 = sel ∧ fld (c.dword
      11) 21 20 = 0 ∧ (sel, cls) ∈ [(0, 1), (1, 0), (3, 2)] ∧ s.warnDefault cls + 273 < ((fld (c.dword 11) 15 0 : Nat) : Int)) ∧
    (∃ (s : State) (h : Nat) (c : Cmd), s.feature h 0x04 = some c ∧ fld (c.dword 11) 19 16 ≤ 3 ∧ fld (c.dword 11) 21 20 = 1) ∧
    (∃ (s : State) (h : Nat) (c : Cmd), s.admin h 0x0A = some c ∧ fld (c.dword 10) 7 0 = 0x01) ∧
    (∃ (s : State) (h : Nat) (c : Cmd), s.admin h 0x0A = some c ∧ fld (c.dword 10) 7 0 = 0x02) ∧
    (∃ (s : State) (h : Nat) (c : Cmd), s.admin h 0x0A = some c ∧ fld (c.dword 10) 7 0 = 0x06) ∧
    (∃ (s : State) (h : Nat) (c : Cmd), s.admin h 0x0A = some c ∧ fld (c.dword 10) 7 0 = 0x0B) ∧
    (∃ (s : State) (h : Nat) (c : Cmd), ∃ v, s.admin h 0x0A = some c ∧ s.featureValue (fld (c.dword 10) 7 0) (c.dword 11) = some
      v) ∧
    (∃ (s : State) (h : Nat) (c : Cmd), s.admin h 0x0A = some c ∧ 0x0C ≤ fld (c.dword 10) 7 0) :=
  ⟨⟨State.plus up (feat 1 0), 0, feat 1 0, by decide +kernel⟩,
    ⟨State.plus up (feat 5 0), 0, feat 5 0, by decide +kernel⟩,
    ⟨State.plus up (feat 6 1), 0, feat 6 1, by decide +kernel⟩,
    ⟨State.plus up (feat 6 0), 0, feat 6 0, by decide +kernel⟩,
    ⟨State.plus up (feat 7 0), 0, feat 7 0, by decide +kernel⟩,
    ⟨State.plus up (feat 8 0), 0, feat 8 0, by decide +kernel⟩,
    ⟨State.plus up (feat 9 255), 0, feat 9 255, by decide +kernel⟩,
    ⟨State.plus up (feat 10 1), 0, feat 10 1, by decide +kernel⟩,
    ⟨State.plus up (feat 11 0), 0, feat 11 0, by decide +kernel⟩,
    ⟨State.plus up (feat 2 3), 0, feat 2 3, by decide +kernel⟩,
    ⟨State.plus up (feat 2 4), 0, feat 2 4, by decide +kernel⟩,
    ⟨State.plus up (feat 4 0), 0, feat 4 0, 0, 1, by decide +kernel⟩,
    ⟨State.plus up (feat 4 0x3FFFF), 0, feat 4 0x3FFFF, 3, 2, by decide +kernel⟩,
    ⟨State.plus up (feat 4 0x10FFFF), 0, feat 4 0x10FFFF, by decide +kernel⟩,
    ⟨State.plus up (admin 10 [(10, 1)]), 0, admin 10 [(10, 1)], by decide +kernel⟩,
    ⟨State.plus up (admin 10 [(10, 2)]), 0, admin 10 [(10, 2)], by decide +kernel⟩,
    ⟨State.plus up (admin 10 [(10, 6)]), 0, admin 10 [(10, 6)], by decide +kernel⟩,
    ⟨State.plus up (admin 10 [(10, 11)]), 0, admin 10 [(10, 11)], by decide +kernel⟩,
    ⟨State.plus up (admin 10 [(10, 5)]), 0, admin 10 [(10, 5)], 0, by decide +kernel⟩,
    ⟨State.plus up (admin 10 [(10, 12)]), 0, admin 10 [(10, 12)], by decide +kernel⟩⟩

theorem witness_NamespaceRows :
    (∃ (s : State) (h n : Nat) (c : Cmd), s.admin h 0x0D = some c ∧ fld (c.dword 10) 3 0 = 0 ∧ nsFieldsOk c.sub.buf = true ∧ u8At
      c.sub.buf 29 % 8 ≠ 2 ∧ (Nat.testBit (u8At c.sub.buf 3842) 2 = true → c.keeper = true) ∧ s.med.eol = false ∧ s.freeNsid =
      some n ∧ s.ncapSum + u64At c.sub.buf 8 ≤ 3000000000) ∧
    (∃ (s : State) (h : Nat) (c : Cmd), s.admin h 0x0D = some c ∧ fld (c.dword 10) 3 0 = 0 ∧ nsFieldsOk c.sub.buf = true ∧ u8At
      c.sub.buf 29 % 8 ≠ 2 ∧ Nat.testBit (u8At c.sub.buf 3842) 2 = true ∧ c.keeper = false) ∧
    (∃ (s : State) (h : Nat) (c : Cmd) (n : Ns), s.admin h 0x0D = some c ∧ fld (c.dword 10) 3 0 = 1 ∧ c.nsid ≠ 0xFFFFFFFF ∧ look
      s.ns c.nsid = some n ∧ (s.nsWorld c.nsid = true → c.keeper = true) ∧ s.nsBusy c.nsid = false) ∧
    (∃ (s : State) (h : Nat) (c : Cmd) (n : Ns), s.admin h 0x15 = some c ∧ look s.ns c.nsid = some n ∧ n.attached ≠ (fld (c.dword
      10) 3 0 == 0)) :=
  ⟨⟨State.plus up (mkCmd 0 0x0D [] (nsBuffer 0)), 0, 3, mkCmd 0 0x0D [] (nsBuffer 0), by decide +kernel⟩,
    ⟨State.plus up (mkCmd 0 0x0D [] (nsBuffer 4)), 0, mkCmd 0 0x0D [] (nsBuffer 4), by decide +kernel⟩,
    ⟨State.plus up (admin 0x0D [(1, 1), (10, 1)]), 0, admin 0x0D [(1, 1), (10, 1)], blockNs, by decide +kernel⟩,
    ⟨State.plus up (admin 0x15 [(1, 1), (10, 1)]), 0, admin 0x15 [(1, 1), (10, 1)], blockNs, by decide +kernel⟩⟩

/-- The clause of a successful commit is `witness_firmwareCommit`. -/
theorem witness_EraseAndFirmwareRows :
    (∃ (s : State) (h : Nat) (c : Cmd) (n : Ns), s.admin h 0x80 = some c ∧ s.compat = false ∧ fmtSes c ≤ 2 ∧ c.nsid ≠ 0xFFFFFFFF ∧
      look s.ns c.nsid = some n ∧ (fmtSes c = 2 → n.encrypt = true) ∧ formatOk c s [c.nsid] = true ∧ (s.nsWorld c.nsid = true →
      c.keeper = true) ∧ s.nsBusy c.nsid = false) ∧
    (∃ (s : State) (h act : Nat) (i : Instr) (c : Cmd), (act, i) ∈ [(2, Instr.sanitizeBlockErase h), (4, .sanitizeCryptoErase h)]
      ∧ s.admin h 0x84 = some c ∧ fld (c.dword 10) 2 0 = act ∧ (act = 4 → ∀ x ∈ s.ns, x.2.encrypt = true) ∧ c.keeper = false) ∧
    (∃ (s : State) (h act : Nat) (i : Instr) (c : Cmd), (act, i) ∈ [(2, Instr.sanitizeBlockErase h), (4, .sanitizeCryptoErase h)]
      ∧ s.admin h 0x84 = some c ∧ fld (c.dword 10) 2 0 = act ∧ (act = 4 → ∀ x ∈ s.ns, x.2.encrypt = true) ∧ c.keeper = true ∧ (∀ x
      ∈ s.nv.inflight, x.qid = 0) ∧ s.queries = []) ∧
    (∃ (s : State) (h : Nat) (c : Cmd), s.admin h 0x11 = some c ∧ 4 * (c.dword 11).toNat + 4 * ((c.dword 10).toNat + 1) ≤ 8388608) ∧
    (∃ (s : State) (h a : Nat) (i : Instr) (c : Cmd), (a, i) ∈ [(0, Instr.firmwareCommitReplace h), (1,
      .firmwareCommitReplaceActivate h), (2, .firmwareCommitActivate h)] ∧ s.admin h 0x10 = some c ∧ fwAction c = a ∧ c.keeper =
      false) ∧
    (∃ (s : State) (h a : Nat) (i : Instr) (c : Cmd), (a, i) ∈ [(0, Instr.firmwareCommitReplace h), (1,
      .firmwareCommitReplaceActivate h), (2, .firmwareCommitActivate h)] ∧ s.admin h 0x10 = some c ∧ fwAction c = a ∧ a ≤ 1 ∧
      c.keeper = true ∧ (fwSlot c = 1 ∨ fwSlot c = 2) ∧ s.hb.running = some (fwSlot c == 2)) ∧
    (∃ (s : State) (h a : Nat) (i : Instr) (c : Cmd), (a, i) ∈ [(0, Instr.firmwareCommitReplace h), (1,
      .firmwareCommitReplaceActivate h), (2, .firmwareCommitActivate h)] ∧ s.admin h 0x10 = some c ∧ fwAction c = a ∧ a = 2 ∧
      c.keeper = true ∧ (fwSlot c = 1 ∨ fwSlot c = 2)) :=
  ⟨⟨State.plus up (admin 0x80 [(1, 1), (10, 1)]), 0, admin 0x80 [(1, 1), (10, 1)], blockNs, by decide +kernel⟩,
    ⟨State.plus up (admin 0x84 [(10, 2)]), 0, 2, .sanitizeBlockErase 0, admin 0x84 [(10, 2)], by decide +kernel⟩,
    ⟨State.plus up (inSession (admin 0x84 [(10, 2)])), 0, 2, .sanitizeBlockErase 0, inSession (admin 0x84 [(10, 2)]),
      by decide +kernel⟩,
    ⟨State.plus up (admin 0x11 [(10, 0), (11, 2097151)]), 0, admin 0x11 [(10, 0), (11, 2097151)], by decide +kernel⟩,
    ⟨State.plus up (admin 0x10 [(10, 1)]), 0, 0, .firmwareCommitReplace 0, admin 0x10 [(10, 1)], by decide +kernel⟩,
    ⟨State.plus up (inSession (admin 0x10 [(10, 1)])), 0, 0, .firmwareCommitReplace 0, inSession (admin 0x10 [(10, 1)]),
      by decide +kernel⟩,
    ⟨State.plus up (inSession (admin 0x10 [(10, 18)])), 0, 2, .firmwareCommitActivate 0, inSession (admin 0x10 [(10, 18)]),
      by decide +kernel⟩⟩

set_option maxRecDepth 4096 in
theorem witness_KeeperRows :
    (∃ (s : State) (h : Nat) (c : Cmd), s.admin h 0xC9 = some c ∧ fld (c.dword 10) 3 0 = 0 ∧ keeperFields c = true ∧ s.helloOk
      s.keeper.nvme (slice c.sub.buf 0 384) = true) ∧
    (∃ (s : State) (h : Nat) (c : Cmd), s.admin h 0xC9 = some c ∧ fld (c.dword 10) 3 0 = 0 ∧ keeperFields c = true ∧ s.helloOk
      s.keeper.nvme (slice c.sub.buf 0 384) = false) ∧
    (∃ (s : State) (h : Nat) (c : Cmd) (x : Handshake), s.admin h 0xC9 = some c ∧ fld (c.dword 10) 3 0 = 1 ∧ keeperFields c = true
      ∧ s.keeper.nvme.hs = some x ∧ slice c.sub.buf 0 32 = x.proof) ∧
    (∃ (s : State) (h : Nat) (c : Cmd) (x : Handshake), s.admin h 0xC9 = some c ∧ fld (c.dword 10) 3 0 = 1 ∧ keeperFields c = true
      ∧ s.keeper.nvme.hs = some x ∧ slice c.sub.buf 0 32 ≠ x.proof) ∧
    (∃ (s : State) (h op : Nat) (i : Instr) (c : Cmd), (op, i) ∈ [(2, Instr.keeperClose h), (3, .keeperArm h), (4, .keeperRegister
      h), (5, .keeperCommitRules h)] ∧ s.admin h 0xC9 = some c ∧ fld (c.dword 10) 3 0 = op ∧ keeperFields c = true ∧ nvmeAuth
      c.sub.dw c.sub.buf s = none) ∧
    (∃ (s t : State) (h : Nat) (c : Cmd), nvmeAuth c.sub.dw c.sub.buf s = some t ∧ s.admin h 0xC9 = some c ∧ fld (c.dword 10) 3 0
      = 2 ∧ keeperFields c = true) ∧
    (∃ (s t : State) (h : Nat) (c : Cmd), nvmeAuth c.sub.dw c.sub.buf s = some t ∧ s.admin h 0xC9 = some c ∧ fld (c.dword 10) 3 0
      = 3 ∧ keeperFields c = true) ∧
    (∃ (s t : State) (h : Nat) (c : Cmd), ∃ st v t', nvmeAuth c.sub.dw c.sub.buf s = some t ∧ serveReg t.now .queue (fld (c.dword
      12) 15 0) (if bit (c.dword 12) 31 then some (c.dword 13) else none) t = (st, v, t') ∧ s.admin h 0xC9 = some c ∧ fld (c.dword
      10) 3 0 = 4 ∧ keeperFields c = true ∧ st ≠ statBusy) ∧
    (∃ (s t : State) (h : Nat) (c : Cmd), ∃ v t', nvmeAuth c.sub.dw c.sub.buf s = some t ∧ serveReg t.now .queue (fld (c.dword 12)
      15 0) (if bit (c.dword 12) 31 then some (c.dword 13) else none) t = (statBusy, v, t') ∧ s.admin h 0xC9 = some c ∧ fld
      (c.dword 10) 3 0 = 4 ∧ keeperFields c = true) ∧
    (∃ (s t : State) (h : Nat) (c : Cmd), nvmeAuth c.sub.dw c.sub.buf s = some t ∧ s.admin h 0xC9 = some c ∧ fld (c.dword 10) 3 0
      = 5 ∧ keeperFields c = true ∧ s.hb.recWorn 1 = false) ∧
    (∃ (s : State), s.keeper.nvme.session = none) ∧
    (∃ (s : State), ∃ ks last dw buf t, nvmeAuth dw buf s = some t ∧ s.keeper.nvme.session = some (ks, last)) :=
  ⟨⟨State.plus keyed (mkCmd 0 0xC9 [(10, 0)] (List.replicate 384 0)), 0, mkCmd 0 0xC9 [(10, 0)] (List.replicate 384 0),
      by decide +kernel⟩,
    ⟨State.plus up (mkCmd 0 0xC9 [(10, 0)] (List.replicate 384 0)), 0, mkCmd 0 0xC9 [(10, 0)] (List.replicate 384 0),
      by decide +kernel⟩,
    ⟨State.plus shaking (mkCmd 0 0xC9 [(10, 1)] (List.replicate 32 1)), 0, mkCmd 0 0xC9 [(10, 1)] (List.replicate 32 1),
      handshake, by decide +kernel⟩,
    ⟨State.plus shaking (mkCmd 0 0xC9 [(10, 1)] (List.replicate 32 0)), 0, mkCmd 0 0xC9 [(10, 1)] (List.replicate 32 0),
      handshake, by decide +kernel⟩,
    ⟨State.plus up (mkCmd 0 0xC9 [(10, 2)] ([])), 0, 2, .keeperClose 0, mkCmd 0 0xC9 [(10, 2)] ([]), by decide +kernel⟩,
    ⟨State.plus session (authed 2 0x3a566128e4bba8c7d958d189c2f6caa11787fdff01215a4ca8b87441ec552ed5), used (authed 2
      0x3a566128e4bba8c7d958d189c2f6caa11787fdff01215a4ca8b87441ec552ed5), 0, authed 2
      0x3a566128e4bba8c7d958d189c2f6caa11787fdff01215a4ca8b87441ec552ed5, authOk rfl (by decide +kernel), by decide +kernel⟩,
    ⟨State.plus session (authed 3 0xb6bf77fdb9eac0875d56859a5c67e78bb7015e3b59d4768c64663ba035541271), used (authed 3
      0xb6bf77fdb9eac0875d56859a5c67e78bb7015e3b59d4768c64663ba035541271), 0, authed 3
      0xb6bf77fdb9eac0875d56859a5c67e78bb7015e3b59d4768c64663ba035541271, authOk rfl (by decide +kernel), by decide +kernel⟩,
    ⟨State.plus session (authed 4 0x8026495c5269d6c1a0d786829a66a4dd46a5ba7773b9804b2ad6a617b544c584), used (authed 4
      0x8026495c5269d6c1a0d786829a66a4dd46a5ba7773b9804b2ad6a617b544c584), 0, authed 4
      0x8026495c5269d6c1a0d786829a66a4dd46a5ba7773b9804b2ad6a617b544c584, (serveReg 0 .queue 0 none (used (authed 4
      0x8026495c5269d6c1a0d786829a66a4dd46a5ba7773b9804b2ad6a617b544c584))).1, (serveReg 0 .queue 0 none (used (authed 4
      0x8026495c5269d6c1a0d786829a66a4dd46a5ba7773b9804b2ad6a617b544c584))).2.1, (serveReg 0 .queue 0 none (used (authed 4
      0x8026495c5269d6c1a0d786829a66a4dd46a5ba7773b9804b2ad6a617b544c584))).2.2, authOk rfl (by decide +kernel), rfl,
      by decide +kernel⟩,
    ⟨State.plus session authedWrite, after session authedWrite, 0, authedWrite, (serveReg 0 .queue 0x512 (some 1) (after session
      authedWrite)).2.1, (serveReg 0 .queue 0x512 (some 1) (after session authedWrite)).2.2, authOk rfl (by decide +kernel),
      Prod.ext (by decide +kernel) rfl, by decide +kernel⟩,
    ⟨State.plus session (authed 5 0x9a80af75d55cd8a30e53349f97e92fa4aa7e38f98587042cc29c021c649a4877), used (authed 5
      0x9a80af75d55cd8a30e53349f97e92fa4aa7e38f98587042cc29c021c649a4877), 0, authed 5
      0x9a80af75d55cd8a30e53349f97e92fa4aa7e38f98587042cc29c021c649a4877, authOk rfl (by decide +kernel), by decide +kernel⟩,
    ⟨up, by decide +kernel⟩,
    ⟨State.plus session (authed 2 0x3a566128e4bba8c7d958d189c2f6caa11787fdff01215a4ca8b87441ec552ed5), List.replicate 32 0, 0,
      (authed 2 0x3a566128e4bba8c7d958d189c2f6caa11787fdff01215a4ca8b87441ec552ed5).sub.dw, (authed 2
      0x3a566128e4bba8c7d958d189c2f6caa11787fdff01215a4ca8b87441ec552ed5).sub.buf, used (authed 2
      0x3a566128e4bba8c7d958d189c2f6caa11787fdff01215a4ca8b87441ec552ed5), authOk rfl (by decide +kernel), by decide +kernel⟩⟩

theorem witness_AttestAndMailboxRows :
    (∃ (s : State) (h : Nat) (c : Cmd), s.admin h 0xCA = some c ∧ bit (c.dword 10) 0 = false) ∧
    (∃ (s : State) (h : Nat) (c : Cmd), s.admin h 0xCA = some c ∧ bit (c.dword 10) 0 = true) ∧
    (∃ (s : State) (h : Nat) (c : Cmd), s.admin h 0xCC = some c ∧ mbxFields c = true ∧ s.mbxForeign c = false ∧ mbxOp c = 1 ∧
      readStat c.keeper false (mbxOff c) (mbxLen c) = statOk) ∧
    (∃ (s : State) (h : Nat) (c : Cmd), s.admin h 0xCC = some c ∧ mbxFields c = true ∧ s.mbxForeign c = false ∧ mbxOp c = 2 ∧
      programStat c.keeper (mbxOff c) (mbxLen c) s = statOk) ∧
    (∃ (s : State) (h : Nat) (c : Cmd), s.admin h 0xCC = some c ∧ mbxFields c = true ∧ s.mbxForeign c = false ∧ mbxOp c = 3 ∧
      eraseStat c.keeper (mbxOff c) s = statOk) ∧
    (∃ (s : State) (h : Nat) (c : Cmd), s.admin h 0xCC = some c ∧ mbxFields c = true ∧ s.mbxForeign c = false ∧ mbxOp c = 4 ∧
      readStat c.keeper false (mbxOff c) (mbxLen c) = statOk) ∧
    (∃ (s : State) (h : Nat) (c : Cmd), s.admin h 0xCC = some c ∧ mbxFields c = true ∧ s.mbxForeign c = false ∧ mbxOp c = 5) ∧
    (∃ (s : State) (h : Nat) (c : Cmd), s.admin h 0xCC = some c ∧ mbxFields c = true ∧ s.mbxForeign c = false ∧ mbxOp c = 6 ∧
      otpStat c.keeper (mbxOff c) (mbxLen c) s = statOk) ∧
    (∃ (s : State) (h : Nat) (c : Cmd), s.admin h 0xCC = some c ∧ mbxFields c = true ∧ s.mbxForeign c = true) :=
  ⟨⟨State.plus up (admin 0xCA []), 0, admin 0xCA [], by decide +kernel⟩,
    ⟨State.plus up (admin 0xCA [(10, 1)]), 0, admin 0xCA [(10, 1)], by decide +kernel⟩,
    ⟨State.plus up (mbx 1 0x01000000 8), 0, mbx 1 0x01000000 8, by decide +kernel⟩,
    ⟨State.plus up (mbx 2 0x01800000 8), 0, mbx 2 0x01800000 8, by decide +kernel⟩,
    ⟨State.plus up (mbx 3 0x01800000 0), 0, mbx 3 0x01800000 0, by decide +kernel⟩,
    ⟨State.plus up (mbx 4 0x01000000 8), 0, mbx 4 0x01000000 8, by decide +kernel⟩,
    ⟨State.plus up (mbx 5 4092 4), 0, mbx 5 4092 4, by decide +kernel⟩,
    ⟨State.plus up (inSession (mbx 6 0xD00 4)), 0, inSession (mbx 6 0xD00 4), by decide +kernel⟩,
    ⟨State.plus foreign (mbx 1 0x01000000 8), 0, mbx 1 0x01000000 8, by decide +kernel⟩⟩

theorem witness_StallLoadRunRows :
    (∃ (s : State) (h : Nat) (c : Cmd) (b : List Byte) (im : Image), s.admin h 0xC1 = some c ∧ s.imageOf c = some b ∧ (Nat.testBit
      (u16At b 6) 1 = true → ∀ n ∈ stallMask c, s.stallWorld n = true) ∧ s.stallsKeeper c = false ∧ (∀ n ∈ stallMask c, (s.stall
      n).state ≠ .off ∧ (s.stall n).state ≠ .running) ∧ loadImage b s.keyHash = .inr im ∧ (Nat.testBit (u16At b 6) 0 = true →
      im.signed = true) ∧ ((stallMask c).any s.stallWorld = true → im.signed = true ∧ im.keyOk = true) ∧ overBudget (u32At b 0x24)
      im = false) ∧
    (∃ (s : State) (h : Nat) (c : Cmd) (b : List Byte), s.admin h 0xC1 = some c ∧ s.imageOf c = some b ∧ (Nat.testBit (u16At b 6)
      1 = true → ∀ n ∈ stallMask c, s.stallWorld n = true) ∧ s.stallsKeeper c = false ∧ (∃ n ∈ stallMask c, (s.stall n).state =
      .off ∨ (s.stall n).state = .running)) ∧
    (∃ (s : State) (h : Nat) (c : Cmd), s.admin h 0xC2 = some c ∧ stallMask c ≠ [] ∧ c.allZero [1, 2, 3, 4, 5, 6, 7, 8, 9, 11, 14,
      15] = true ∧ fld (c.dword 10) 31 4 = 0 ∧ s.stallsKeeper c = false ∧ fld (c.dword 10) 3 0 = 0 ∧ (∀ n ∈ stallMask c, (s.stall
      n).lots = [] ∧ h ∉ (s.stall n).stops)) ∧
    (∃ (s : State) (h : Nat) (c : Cmd), s.admin h 0xC2 = some c ∧ stallMask c ≠ [] ∧ c.allZero [1, 2, 3, 4, 5, 6, 7, 8, 9, 11, 14,
      15] = true ∧ fld (c.dword 10) 31 4 = 0 ∧ s.stallsKeeper c = false ∧ fld (c.dword 10) 3 0 = 1 ∧ (∀ n ∈ stallMask c, (s.stall
      n).state = .stopped ∨ (s.stall n).state = .running)) ∧
    (∃ (s : State) (h : Nat) (c : Cmd), s.admin h 0xC2 = some c ∧ stallMask c ≠ [] ∧ c.allZero [1, 2, 3, 4, 5, 6, 7, 8, 9, 11, 14,
      15] = true ∧ fld (c.dword 10) 31 4 = 0 ∧ s.stallsKeeper c = false ∧ fld (c.dword 10) 3 0 = 1 ∧ (∃ n ∈ stallMask c, (s.stall
      n).state ≠ .stopped ∧ (s.stall n).state ≠ .running)) ∧
    (∃ (s : State) (h : Nat) (c : Cmd), ∃ (bad : List (Fin 64)), s.admin h 0xC2 = some c ∧ stallMask c ≠ [] ∧ c.allZero [1, 2, 3,
      4, 5, 6, 7, 8, 9, 11, 14, 15] = true ∧ fld (c.dword 10) 31 4 = 0 ∧ s.stallsKeeper c = false ∧ fld (c.dword 10) 3 0 = 2 ∧ (∀
      n ∈ stallMask c, (s.stall n).state = .stopped ∨ (s.stall n).state = .faulted) ∧ (∀ n ∈ stallMask c, (s.stall n).lots = [] ∧
      (s.stall n).stops = []) ∧ (∃ n ∈ stallMask c, ∃ b ∈ bad, b.val = n)) ∧
    (∃ (s : State) (h : Nat) (c : Cmd), s.admin h 0xC2 = some c ∧ stallMask c ≠ [] ∧ c.allZero [1, 2, 3, 4, 5, 6, 7, 8, 9, 11, 14,
      15] = true ∧ fld (c.dword 10) 31 4 = 0 ∧ s.stallsKeeper c = false ∧ fld (c.dword 10) 3 0 = 3) ∧
    (∃ (s : State) (h : Nat) (c : Cmd), s.admin h 0xC2 = some c ∧ stallMask c ≠ [] ∧ c.allZero [1, 2, 3, 4, 5, 6, 7, 8, 9, 11, 14,
      15] = true ∧ fld (c.dword 10) 31 4 = 0 ∧ s.stallsKeeper c = false ∧ fld (c.dword 10) 3 0 = 4 ∧ (∀ n ∈ stallMask c, (s.stall
      n).state ≠ .running)) ∧
    (∃ (s : State) (h : Nat) (c : Cmd), ∃ (bad : List (Fin 64)), s.admin h 0xC2 = some c ∧ stallMask c ≠ [] ∧ c.allZero [1, 2, 3,
      4, 5, 6, 7, 8, 9, 11, 14, 15] = true ∧ fld (c.dword 10) 31 4 = 0 ∧ s.stallsKeeper c = false ∧ fld (c.dword 10) 3 0 = 5 ∧ (∃
      n ∈ stallMask c, (s.stall n).state = .off ∧ ∃ b ∈ bad, b.val = n)) :=
  ⟨⟨State.plus (stallsIn .empty) (loadCmd), 0, loadCmd, dropImage, dropped, by decide +kernel⟩,
    ⟨State.plus up (loadCmd), 0, loadCmd, dropImage, by decide +kernel⟩,
    ⟨State.plus (stallsIn .running) (runStop 0), 0, runStop 0, by decide +kernel⟩,
    ⟨State.plus (stallsIn .running) (runStop 1), 0, runStop 1, by decide +kernel⟩,
    ⟨State.plus (stallsIn .empty) (runStop 1), 0, runStop 1, by decide +kernel⟩,
    ⟨State.plus (stallsIn .faulted) (runStop 2), 0, runStop 2, [0], by decide +kernel⟩,
    ⟨State.plus (stallsIn .running) (runStop 3), 0, runStop 3, by decide +kernel⟩,
    ⟨State.plus (stallsIn .off) (runStop 4), 0, runStop 4, by decide +kernel⟩,
    ⟨State.plus (stallsIn .off) (runStop 5), 0, runStop 5, [0], by decide +kernel⟩⟩

theorem witness_PipelineRows :
    (∃ (s : State) (h : Nat) (c : Cmd), s.admin h 0xC5 = some c ∧ pipeFields c = true ∧ pipeOp c = 0 ∧ descriptorOk (slice
      c.sub.buf 0 128) (pipeOf (slice c.sub.buf 0 128)) = true ∧ s.pipeFits c (pipeOf (slice c.sub.buf 0 128)) ((del s.pipes
      (pipeNo c)).map fun x => x.2) = true ∧ (∀ n ∈ (pipeOf (slice c.sub.buf 0 128)).names, s.isStream n = true) ∧ (c.secure =
      true → c.keeper = true) ∧ s.pipeStopped (pipeNo c) = true ∧ (∀ n ∈ setBits 64 (pipeOf (slice c.sub.buf 0 128)).stalls.toNat,
      (s.stall n).state = .stopped ∨ (s.stall n).state = .running) ∧ s.worstOutput (pipeOf (slice c.sub.buf 0 128)) ≤ 1048576) ∧
    (∃ (s : State) (h : Nat) (c : Cmd), s.admin h 0xC5 = some c ∧ pipeFields c = true ∧ pipeOp c = 0 ∧ descriptorOk (slice
      c.sub.buf 0 128) (pipeOf (slice c.sub.buf 0 128)) = false) ∧
    (∃ (s : State) (c : Cmd) (p : Pipe), s.admin c.h 0xC5 = some c ∧ pipeFields c = true ∧ s.pipe (pipeNo c) = some p ∧ (s.qWorld
      0 = true → c.keeper = true) ∧ pipeOp c = 1 ∧ p.running = false ∧ p.stops = []) ∧
    (∃ (s : State) (c : Cmd) (p : Pipe), s.admin c.h 0xC5 = some c ∧ pipeFields c = true ∧ s.pipe (pipeNo c) = some p ∧ (s.qWorld
      0 = true → c.keeper = true) ∧ pipeOp c = 1 ∧ p.running = true) ∧
    (∃ (s : State) (c : Cmd) (p : Pipe), s.admin c.h 0xC5 = some c ∧ pipeFields c = true ∧ s.pipe (pipeNo c) = some p ∧ (s.qWorld
      0 = true → c.keeper = true) ∧ pipeOp c = 2 ∧ p.running = true ∧ s.lots = [] ∧ (p.scan = true → s.queries = []) ∧ (p.scan =
      false → ∀ n, look s.ns p.source = some n → n.st.opened = [])) ∧
    (∃ (s : State) (c : Cmd) (p : Pipe), s.admin c.h 0xC5 = some c ∧ pipeFields c = true ∧ s.pipe (pipeNo c) = some p ∧ (s.qWorld
      0 = true → c.keeper = true) ∧ pipeOp c = 3 ∧ p.running = false ∧ p.stops = []) ∧
    (∃ (s : State) (c : Cmd) (p : Pipe), s.admin c.h 0xC5 = some c ∧ pipeFields c = true ∧ s.pipe (pipeNo c) = some p ∧ (s.qWorld
      0 = true → c.keeper = true) ∧ pipeOp c = 5 ∧ bit (c.dword 12) 0 = false) ∧
    (∃ (s : State) (c : Cmd) (p : Pipe), s.admin c.h 0xC5 = some c ∧ pipeFields c = true ∧ s.pipe (pipeNo c) = some p ∧ (s.qWorld
      0 = true → c.keeper = true) ∧ pipeOp c = 5 ∧ bit (c.dword 12) 0 = true) ∧
    (∃ (s : State) (h : Nat) (c : Cmd) (n : Ns), s.admin h 0xC5 = some c ∧ pipeFields c = true ∧ pipeOp c = 4 ∧ look s.ns c.nsid =
      some n ∧ n.stream = true ∧ (s.nsWorld c.nsid = true → c.keeper = true) ∧ n.st.recs = []) ∧
    (∃ (s : State) (h : Nat) (c : Cmd) (n : Ns), s.admin h 0xC5 = some c ∧ pipeFields c = true ∧ pipeOp c = 4 ∧ look s.ns c.nsid =
      some n ∧ n.stream = true ∧ (s.nsWorld c.nsid = true → c.keeper = true) ∧ n.st.recs ≠ []) :=
  ⟨⟨State.plus up (pipeCmd 0 0 0), 0, pipeCmd 0 0 0, by decide +kernel⟩,
    ⟨State.plus up (mkCmd 0 0xC5 [] [2]), 0, mkCmd 0 0xC5 [] [2], by decide +kernel⟩,
    ⟨State.plus (withPipe false) (pipeCmd 1 0 0), pipeCmd 1 0 0, { scanPipe with running := false }, by decide +kernel⟩,
    ⟨State.plus (withPipe true) (pipeCmd 1 0 0), pipeCmd 1 0 0, { scanPipe with running := true }, by decide +kernel⟩,
    ⟨State.plus (withPipe true) (pipeCmd 2 0 0), pipeCmd 2 0 0, { scanPipe with running := true }, by decide +kernel⟩,
    ⟨State.plus (withPipe false) (pipeCmd 3 0 0), pipeCmd 3 0 0, { scanPipe with running := false }, by decide +kernel⟩,
    ⟨State.plus (withPipe true) (pipeCmd 5 0 0), pipeCmd 5 0 0, { scanPipe with running := true }, by decide +kernel⟩,
    ⟨State.plus (withPipe true) (pipeCmd 5 1 0), pipeCmd 5 1 0, { scanPipe with running := true }, by decide +kernel⟩,
    ⟨State.plus up (pipeCmd 4 0 2), 0, pipeCmd 4 0 2, streamNs, by decide +kernel⟩,
    ⟨State.plus recorded (pipeCmd 4 0 2), 0, pipeCmd 4 0 2, { streamNs with st := { Stream.reset with recs := [stored] } },
      by decide +kernel⟩⟩

theorem witness_RegisterWriteRow :
    (∃ (s : State) (a : Actor), CanWrite a 0x0106 s) ∧
    (∃ (s : State) (a : Actor), CanWrite a 0x0302 s) ∧
    (∃ (s : State) (a : Actor), CanWrite a 0x0303 s) ∧
    (∃ (s : State) (a : Actor), CanWrite a 0x0321 s) ∧
    (∃ (s : State) (a : Actor), CanWrite a 0x0530 s) ∧
    (∃ (s : State) (a : Actor), CanWrite a 0x0531 s) ∧
    (∃ (s : State) (a : Actor), CanWrite a 0x0600 s) ∧
    (∃ (s : State) (a : Actor), CanWrite a 0x0701 s ∧ s.hb.busy = none) ∧
    (∃ (s : State) (a : Actor), CanWrite a 0x0900 s) ∧
    (∃ (s : State) (a : Actor) (reg : W16), a ≠ .host ∧ s.regAllowed a reg.toNat ≠ statOk) ∧
    (∃ (reg : Nat), reg / 256 = 5) ∧
    (∃ (s : State) (a : Actor) (reg : W16), a ≠ .host ∧ s.peek reg.toNat = none ∧ reg ≠ 0x0209) ∧
    (∃ (s : State) (a : Actor) (reg : W16), a ≠ .host ∧ s.regReady reg.toNat = false) ∧
    (∃ (s : State), ∃ (off : W16), s.pwr.link = true ∧ s.pwr.mainOn = true ∧ s.pwr.watch ≠ .asleep ∧ (off.toNat < 0x14 ∨ off =
      0x1C)) ∧
    (∃ (s : State), s.pwr.link = false) :=
  ⟨⟨up, .bus, canWrite (by decide +kernel)⟩,
    ⟨asleep, .bus, canWrite (by decide +kernel)⟩,
    ⟨up, .bus, canWrite (by decide +kernel)⟩,
    ⟨up, .bus, canWrite (by decide +kernel)⟩,
    ⟨up, .keeper, canWrite (by decide +kernel)⟩,
    ⟨up, .keeper, canWrite (by decide +kernel)⟩,
    ⟨up, .bus, canWrite (by decide +kernel)⟩,
    ⟨up, .bus, canWrite (by decide +kernel), by decide +kernel⟩,
    ⟨up, .keeper, canWrite (by decide +kernel)⟩,
    ⟨up, .mgmt, 0x0530, by decide +kernel⟩,
    ⟨0x53F, by decide +kernel⟩,
    ⟨up, .keeper, 0xFFFF, by decide +kernel⟩,
    ⟨aux, .bus, 0x0500, by decide +kernel⟩,
    ⟨up, 0x1C, by decide +kernel⟩,
    ⟨asleepLink, by decide +kernel⟩⟩

theorem witness_RuleRows :
    (∃ (s : State) (a : Actor) (v : W32), CanWrite a 0x0510 s ∧ s.bus.held = none ∧ v = s.acc.epoch + 1 ∧ s.stagedFault = none) ∧
    (∃ (s : State) (a : Actor) (v : W32), ∃ d, CanWrite a 0x0510 s ∧ s.bus.held = none ∧ v = s.acc.epoch + 1 ∧ s.stagedFault =
      some d) ∧
    (∃ (s : State) (a : Actor) (v : W32), CanWrite a 0x0510 s ∧ s.bus.held = none ∧ v ≠ s.acc.epoch + 1) ∧
    (∃ (s : State) (a : Actor) (v : W32), CanWrite a 0x0512 s ∧ bit v 0 = true ∧ s.hb.busy = none ∧ s.hb.recWorn 1 = false) ∧
    (∃ (s : State) (a : Actor), s.hb.busy = some (.saveRules, a) ∧ s.bus.held = none ∧ (∀ c ∈ s.nv.inflight, c.phase ≠ .rom)) ∧
    (∃ (s : State) (a : Actor), CanWrite a 0x051A s) :=
  ⟨⟨up, .keeper, 1, canWrite (by decide +kernel), by decide +kernel⟩,
    ⟨badRules, .keeper, 1, (badRules.stagedFault).get (by decide +kernel), canWrite (by decide +kernel), by decide +kernel⟩,
    ⟨up, .keeper, 0, canWrite (by decide +kernel), by decide +kernel⟩,
    ⟨up, .keeper, 1, canWrite (by decide +kernel), by decide +kernel⟩,
    ⟨busy .saveRules .keeper, .keeper, by decide +kernel⟩,
    ⟨up, .keeper, canWrite (by decide +kernel)⟩⟩

theorem witness_PowerAndPersistRows :
    (∃ (s : State) (a : Actor) (v : W32), CanWrite a 0x0300 s ∧ s.therm.held = false ∧ s.pwr.watch ≠ .asleep ∧ fld v 2 0 ≤ 3) ∧
    (∃ (s : State) (a : Actor) (v : W32), CanWrite a 0x0300 s ∧ s.therm.held = false ∧ s.pwr.watch ≠ .asleep ∧ 4 ≤ fld v 2 0 ∧
      s.pwr.cmd ≠ 4) ∧
    (∃ (s : State) (a : Actor) (v : W32), CanWrite a 0x0300 s ∧ s.therm.held = false ∧ s.pwr.watch = .asleep ∧ fld v 2 0 ≤ 3) ∧
    (∃ (s : State) (a : Actor) (v : W32), CanWrite a 0x0300 s ∧ s.therm.held = true ∧ s.cooled = false ∧ fld v 2 0 ≤ 3) ∧
    (∃ (s : State) (a : Actor) (v : W32), CanWrite a 0x0300 s ∧ s.therm.held = true ∧ s.cooled = false ∧ 4 ≤ fld v 2 0) ∧
    (∃ (s : State) (a : Actor), CanWrite a 0x0342 s ∧ s.pwr.op.direct = true ∧ s.pwr.op.moving = true) ∧
    (∃ (s : State) (a : Actor), CanWrite a 0x0343 s ∧ s.pwr.op.direct = true ∧ s.pwr.op.moving = true) ∧
    (∃ (s : State) (a : Actor) (v : W32), CanWrite a 0x0342 s ∧ s.pwr.op.direct = true ∧ s.pwr.op.moving = false ∧ s.pwr.op.reqs =
      [] ∧ (fld v 9 0 < nominal s.pwr.op.point + s.guardMv ∨ 880 < fld v 9 0)) ∧
    (∃ (s : State) (a : Actor) (v : W32), CanWrite a 0x0342 s ∧ s.pwr.op.direct = true ∧ s.pwr.op.moving = false ∧ s.pwr.op.reqs =
      [] ∧ nominal s.pwr.op.point + s.guardMv ≤ fld v 9 0 ∧ fld v 9 0 ≤ 880) ∧
    (∃ (s : State) (a : Actor) (v : W32), CanWrite a 0x0343 s ∧ s.pwr.op.direct = true ∧ s.pwr.op.moving = false ∧ s.pwr.op.reqs =
      [] ∧ fld v 1 0 = 3 ∧ s.boostAllowed = false) ∧
    (∃ (s : State) (a : Actor) (v : W32), CanWrite a 0x0343 s ∧ s.pwr.op.direct = true ∧ s.pwr.op.moving = false ∧ s.pwr.op.reqs =
      [] ∧ fld v 1 0 = 3 ∧ s.boostAllowed = true ∧ (s.pwr.op.railMv < nominal 3 + s.guardMv ∨ 60 < s.health.delta)) ∧
    (∃ (s : State) (a : Actor) (v : W32), CanWrite a 0x0343 s ∧ s.pwr.op.direct = true ∧ s.pwr.op.moving = false ∧ s.pwr.op.reqs =
      [] ∧ fld v 1 0 < 3 ∧ s.pwr.op.railMv < nominal (fld v 1 0) + s.guardMv) ∧
    (∃ (s : State) (a : Actor) (v : W32), CanWrite a 0x0343 s ∧ s.pwr.op.direct = true ∧ s.pwr.op.moving = false ∧ s.pwr.op.reqs =
      [] ∧ nominal (fld v 1 0) + s.guardMv ≤ s.pwr.op.railMv ∧ (fld v 1 0 = 3 → s.boostAllowed = true ∧ s.health.delta ≤ 60)) ∧
    (∃ (s : State), s.running = true ∧ s.pwr.op.moving = true ∧ s.pwr.op.reqs = []) ∧
    (∃ (s : State) (a : Actor) (n : Fin 256), CanWrite a (0x0800 + n.val) s ∧ s.hb.busy = none ∧ n.val ≠ 8 ∧ s.persistWorn n.val =
      false) ∧
    (∃ (s : State) (a : Actor), CanWrite a 0x0808 s ∧ s.hb.busy = none) ∧
    (∃ (s : State) (a : Actor) (n : Nat) (v : W32), s.hb.busy = some (.persist n v, a) ∧ s.bus.held = none ∧ (∀ c ∈ s.nv.inflight,
      c.phase ≠ .rom)) :=
  ⟨⟨up, .bus, 3, canWrite (by decide +kernel), by decide +kernel⟩,
    ⟨up, .bus, 4, canWrite (by decide +kernel), by decide +kernel⟩,
    ⟨asleep, .bus, 0, canWrite (by decide +kernel), by decide +kernel⟩,
    ⟨{ up with therm := { hot.therm with held := true } }, .bus, 3, canWrite (by decide +kernel), by decide +kernel⟩,
    ⟨{ up with therm := { hot.therm with held := true } }, .bus, 7, canWrite (by decide +kernel), by decide +kernel⟩,
    ⟨(withOp (fun o => { o with direct := true, moving := true })), .bus, canWrite (by decide +kernel), by decide +kernel⟩,
    ⟨(withOp (fun o => { o with direct := true, moving := true })), .bus, canWrite (by decide +kernel), by decide +kernel⟩,
    ⟨(withOp (fun o => { o with direct := true })), .bus, 749, canWrite (by decide +kernel), by decide +kernel⟩,
    ⟨(withOp (fun o => { o with direct := true })), .bus, 880, canWrite (by decide +kernel), by decide +kernel⟩,
    ⟨(withOp (fun o => { o with direct := true })), .bus, 3, canWrite (by decide +kernel), by decide +kernel⟩,
    ⟨{ (withOp (fun o => { o with direct := true, railMv := 849 })) with bus := { up.bus with token := true } }, .bus, 3, canWrite
      (by decide +kernel), by decide +kernel⟩,
    ⟨(withOp (fun o => { o with direct := true, railMv := 599 })), .bus, 0, canWrite (by decide +kernel), by decide +kernel⟩,
    ⟨(withOp (fun o => { o with direct := true, railMv := 600 })), .bus, 0, canWrite (by decide +kernel), by decide +kernel⟩,
    ⟨withOp fun o => { o with moving := true }, by decide +kernel⟩,
    ⟨up, .bus, 2, canWrite (by decide +kernel), by decide +kernel⟩,
    ⟨up, .bus, canWrite (by decide +kernel), by decide +kernel⟩,
    ⟨busy (.persist 2 1) .bus, .bus, 2, 1, by decide +kernel⟩⟩

theorem witness_WindowRows :
    (∃ (s : State) (a : Actor) (v : W32), CanWrite a 0x0700 s ∧ s.hb.busy = none ∧ fld v 31 28 = 1 ∧ lenOk 1 (fld v 8 0) = true ∧
      readStat (byKeeper a) s.pwr.recovery s.hb.addr.toNat (fld v 8 0) = statOk) ∧
    (∃ (s : State) (a : Actor) (v : W32), CanWrite a 0x0700 s ∧ s.hb.busy = none ∧ fld v 31 28 = 1 ∧ lenOk 1 (fld v 8 0) = true ∧
      readStat (byKeeper a) s.pwr.recovery s.hb.addr.toNat (fld v 8 0) ≠ statOk) ∧
    (∃ (s : State) (a : Actor) (v : W32), CanWrite a 0x0700 s ∧ s.hb.busy = none ∧ fld v 31 28 = 4 ∧ lenOk 4 (fld v 8 0) = true ∧
      readStat (byKeeper a) s.pwr.recovery s.hb.addr.toNat (fld v 8 0) = statOk) ∧
    (∃ (s : State) (a : Actor) (v : W32), CanWrite a 0x0700 s ∧ s.hb.busy = none ∧ fld v 31 28 = 2 ∧ lenOk 2 (fld v 8 0) = true ∧
      s.hb.addr.toNat % 256 + fld v 8 0 ≤ 256 ∧ programStat (byKeeper a) s.hb.addr.toNat (fld v 8 0) s = statOk) ∧
    (∃ (s : State) (a : Actor) (v : W32), CanWrite a 0x0700 s ∧ s.hb.busy = none ∧ fld v 31 28 = 3 ∧ eraseStat (byKeeper a)
      s.hb.addr.toNat s = statOk) ∧
    (∃ (s : State) (a : Actor) (v : W32), CanWrite a 0x0700 s ∧ s.hb.busy = none ∧ fld v 31 28 = 3 ∧ eraseStat (byKeeper a)
      s.hb.addr.toNat s ≠ statOk) ∧
    (∃ (s : State) (a : Actor) (v : W32), CanWrite a 0x0700 s ∧ s.hb.busy = none ∧ fld v 31 28 = 5 ∧ lenOk 5 (fld v 8 0) = true ∧
      s.hb.addr.toNat % 4 = 0 ∧ s.hb.addr.toNat + fld v 8 0 ≤ 0x1000) ∧
    (∃ (s : State) (a : Actor) (v : W32), CanWrite a 0x0700 s ∧ s.hb.busy = none ∧ fld v 31 28 = 6 ∧ fld v 8 0 = 4 ∧ otpStat
      (byKeeper a) s.hb.addr.toNat 4 s = statOk) ∧
    (∃ (s : State) (a : Actor) (v : W32), CanWrite a 0x0700 s ∧ s.hb.busy = none ∧ fld v 31 28 = 7) ∧
    (∃ (s : State) (a : Actor) (v : W32), s.hb.busy = some (.mailbox v, a) ∧ fld v 31 28 ≠ 3 ∧ s.bus.held = none ∧ (∀ c ∈
      s.nv.inflight, c.phase ≠ .rom)) ∧
    (∃ (keeper : Bool) (off len : Nat) (s : State) (k : Nat), otpStat keeper off len s = statOk ∧ k < len / 4) ∧
    (∃ (s : State) (a : Actor), CanWrite a 0x07FF s ∧ s.hb.busy = none ∧ s.pwr.recovery = false ∧ s.helloOk s.keeper.bus
      (s.keeper.kxBytes 0 384) = true) ∧
    (∃ (s : State) (a : Actor), CanWrite a 0x07FF s ∧ s.hb.busy = none ∧ s.pwr.recovery = false ∧ s.helloOk s.keeper.bus
      (s.keeper.kxBytes 0 384) = false) ∧
    (∃ (s : State) (a : Actor), ∃ x, CanWrite a 0x07FF s ∧ s.hb.busy = none ∧ s.pwr.recovery = false ∧ s.keeper.bus.hs = some x) ∧
    (∃ (s : State) (a : Actor), CanWrite a 0x07FF s ∧ s.hb.busy = none ∧ s.pwr.recovery = false ∧ s.keeper.bus.hs = none) ∧
    (∃ (s : State) (a : Actor), CanWrite a 0x07FF s ∧ s.hb.busy = none ∧ s.pwr.recovery = false ∧ a = .keeper) ∧
    (∃ (s : State) (a : Actor), CanWrite a 0x07FF s ∧ s.hb.busy = none ∧ s.pwr.recovery = false ∧ a ≠ .keeper) :=
  ⟨⟨at_ 0x01BFFFF8, .bus, 0x10000008, canWrite (by decide +kernel), by decide +kernel⟩,
    ⟨at_ 0x01FFFFF8, .bus, 0x10000010, canWrite (by decide +kernel), by decide +kernel⟩,
    ⟨at_ 0x01000000, .bus, 0x40000008, canWrite (by decide +kernel), by decide +kernel⟩,
    ⟨at_ 0x018000F8, .bus, 0x20000008, canWrite (by decide +kernel), by decide +kernel⟩,
    ⟨at_ 0x01800000, .bus, 0x30000000, canWrite (by decide +kernel), by decide +kernel⟩,
    ⟨at_ 0x01800001, .bus, 0x30000000, canWrite (by decide +kernel), by decide +kernel⟩,
    ⟨at_ 0xFFC, .bus, 0x50000004, canWrite (by decide +kernel), by decide +kernel⟩,
    ⟨at_ 0xC00, .keeper, 0x60000004, canWrite (by decide +kernel), by decide +kernel⟩,
    ⟨up, .keeper, 0x70000000, canWrite (by decide +kernel), by decide +kernel⟩,
    ⟨busy (.mailbox 0x20000008) .bus, .bus, 0x20000008, by decide +kernel⟩,
    ⟨true, 0xC00, 4, up, 0, by decide +kernel⟩,
    ⟨keyed, .bus, canWrite (by decide +kernel), by decide +kernel⟩,
    ⟨up, .bus, canWrite (by decide +kernel), by decide +kernel⟩,
    ⟨kxShaking, .bus, handshake, canWrite (by decide +kernel), by decide +kernel⟩,
    ⟨up, .bus, canWrite (by decide +kernel), by decide +kernel⟩,
    ⟨up, .keeper, canWrite (by decide +kernel), by decide +kernel⟩,
    ⟨up, .bus, canWrite (by decide +kernel), by decide +kernel⟩⟩

theorem witness_EventRows :
    (∃ (s : State) (a : Actor) (k : Fin 16), s.regReady (0x0602 + k.val) = true ∧ s.regAllowed a (0x0602 + k.val) = statOk) ∧
    (∃ (s : State) (a : Actor), CanWrite a 0x0645 s ∧ s.pwr.mainOn = true) ∧
    (∃ (s : State) (a : Actor), CanWrite a 0x0601 s ∧ s.ev.sel < 512) ∧
    (∃ (s : State), s.running = true ∧ s.pwr.watch ≠ .asleep) ∧
    (∃ (s : State), s.running = true ∧ s.pwr.watch = .asleep ∧ s.pwr.link = true ∧ s.therm.held = false) ∧
    (∃ (s : State) (a : Actor) (f : Fin 64), CanWrite a (0x0940 + f.val) s ∧ (s.ev.inject = true ∨ a = .mgmt)) ∧
    (∃ (s : State), (s.ev.jprev + s.ev.jdrops = 0 ∨ s.pwr.recovery = true)) ∧
    (∃ (s : State), 0 < s.ev.jprev + s.ev.jdrops ∧ s.pwr.recovery = false) ∧
    (∃ (s : State), s.running = true) ∧
    (∃ (s : State) (a : Actor) (v : W32), CanWrite a 0x0901 s ∧ bit v 0 = true) :=
  ⟨⟨up, .bus, 15, by decide +kernel⟩,
    ⟨up, .keeper, canWriteMirror (by decide +kernel), by decide +kernel⟩,
    ⟨up, .bus, canWrite (by decide +kernel), by decide +kernel⟩,
    ⟨up, by decide +kernel⟩,
    ⟨asleep, by decide +kernel⟩,
    ⟨{ up with ev := { Events.reset with inject := true } }, .keeper, 2, canWriteMirror (by decide +kernel), by decide +kernel⟩,
    ⟨up, by decide +kernel⟩,
    ⟨{ up with ev := { up.ev with jdrops := 1 } }, by decide +kernel⟩,
    ⟨up, by decide +kernel⟩,
    ⟨up, .bus, 1, canWrite (by decide +kernel), by decide +kernel⟩⟩

theorem witness_BusAccessRows :
    (∃ (s : State) (f : Frame) (reg : Nat), FrameTaken f s ∧ frameCode f = 1 ∧ frameKey f = false ∧ s.mine f = true ∧ frameReg f =
      some reg ∧ auxServed reg = true ∧ s.regAllowed .bus reg = statOk ∧ reg ≠ 0x0209 ∧ (s.peek reg).isSome = true) ∧
    (∃ (s : State) (f : Frame), FrameTaken f s ∧ frameCode f = 2 ∧ frameKey f = false ∧ s.mine f = true ∧ isBroadcast f = false ∧
      frameReg f = some 0x0106 ∧ s.regAllowed .bus 0x0106 = statOk) ∧
    (∃ (s : State) (f : Frame) (r : Response), FrameTaken f s ∧ frameCode f = 3 ∧ frameKey f = false ∧ s.mine f = true ∧
      s.bus.held = none ∧ s.bus.stored = some r ∧ r.session = none) ∧
    (∃ (s : State) (f : Frame), FrameTaken f s ∧ frameCode f = 3 ∧ frameKey f = false ∧ s.mine f = true ∧ (∃ h, s.bus.held = some
      h ∧ h.dropped = false)) ∧
    (∃ (s : State) (f : Frame) (reg : Nat), FrameTaken f s ∧ frameCode f = 1 ∧ frameKey f = false ∧ s.mine f = true ∧ frameReg f =
      some reg ∧ auxServed reg = false ∧ s.pwr.watch = .asleep ∧ s.therm.held = false) ∧
    (∃ (s : State) (f : Frame) (reg : Nat), FrameTaken f s ∧ frameCode f = 1 ∧ frameKey f = false ∧ s.mine f = true ∧ frameReg f =
      some reg ∧ auxServed reg = false ∧ s.coresServe = true ∧ s.therm.held = false ∧ s.bus.held = none ∧ s.regAllowed .bus reg =
      statOk ∧ (s.peek reg).isSome = true ∧ mirrorOf reg = none) ∧
    (∃ (s t : State) (f : Frame) (i : Instr), FrameTaken f s ∧ acceptMac f (silent s) = (none, t) ∧ (frameCode f, i) ∈ [(1,
      .busRead f none), (2, .busWrite f none), (3, .poll f none)] ∧ frameKey f = true ∧ isBroadcast f = false ∧ s.mine f = true ∧
      (frameReg f).isSome = true ∧ s.sessionServed = true) ∧
    (∃ (s : State) (f : Frame), ∃ k, s.pwr.auxOn = true ∧ s.bus.idleSeen = true ∧ s.bus.ignoring = false ∧ f.sync = s.compat ∧
      frameCrcOk f = false ∧ frameCode f = 2 ∧ s.mine f = true ∧ (k = 6 ∨ k = 7) ∧ s.bus.moor ≠ .unmoored) ∧
    (∃ (s : State) (f : Frame), s.pwr.auxOn = true ∧ s.bus.idleSeen = true ∧ s.bus.ignoring = false ∧ f.sync = s.compat ∧
      frameCrcOk f = false ∧ frameCode f = 2 ∧ s.mine f = false ∧ frameFast f = false) ∧
    (∃ (s : State) (f : Frame), s.pwr.auxOn = true ∧ s.bus.idleSeen = true ∧ s.bus.ignoring = false ∧ f.sync = s.compat ∧
      frameCrcOk f = false ∧ frameCode f = 10 ∧ s.mine f = true) :=
  ⟨⟨moored, frame 5 1 0x0106 0, 0x0106, taken (by decide +kernel), by decide +kernel⟩,
    ⟨moored, frame 5 2 0x0106 1000, taken (by decide +kernel), by decide +kernel⟩,
    ⟨{ moored with bus := { moored.bus with stored := some ⟨0, 7, none⟩ } }, frame 5 3 0 0, ⟨0, 7, none⟩, taken
      (by decide +kernel), by decide +kernel⟩,
    ⟨{ moored with bus := { moored.bus with held := some ⟨0x0300, none, none, false, false⟩ } }, frame 5 3 0 0, taken
      (by decide +kernel), by decide +kernel⟩,
    ⟨{ moored with pwr := asleep.pwr }, frame 5 1 0x0530 0, 0x0530, taken (by decide +kernel), by decide +kernel⟩,
    ⟨moored, frame 5 1 0x0342 0, 0x0342, taken (by decide +kernel), by decide +kernel⟩,
    ⟨moored, silent moored, keyFrame 5 0x41 0x106, .busRead (keyFrame 5 0x41 0x106) none, taken (by decide +kernel), rfl,
      by decide +kernel⟩,
    ⟨moored, badFrame 5 2, 6, by decide +kernel⟩,
    ⟨moored, badFrame 6 2, by decide +kernel⟩,
    ⟨moored, badFrame 5 10, by decide +kernel⟩⟩

theorem witness_MooringRows :
    (∃ (s : State) (f : Frame) (others : List W64), FrameTaken f s ∧ (∀ x ∈ others, s.uid ≤ x.toNat) ∧ frameCode f = 8 ∧
      s.bus.moor = .unmoored ∧ 1 ≤ f.reg.toNat % 256 ∧ f.reg.toNat % 256 ≤ 250) ∧
    (∃ (s : State) (f : Frame) (others : List W64), FrameTaken f s ∧ (∃ x ∈ others, x.toNat < s.uid) ∧ frameCode f = 8 ∧
      s.bus.moor = .unmoored ∧ 1 ≤ f.reg.toNat % 256 ∧ f.reg.toNat % 256 ≤ 250) ∧
    (∃ (s : State) (f : Frame), FrameTaken f s ∧ frameCode f = 9 ∧ s.pwr.copied = true ∧ s.bus.moor = .unmoored ∧ 1 ≤ fld
      s.hb.auxPref 7 0 ∧ fld s.hb.auxPref 7 0 ≤ 250) ∧
    (∃ (s : State) (f : Frame) (others : List W64), FrameTaken f s ∧ (∀ x ∈ others, x.toNat = s.uid) ∧ frameCode f = 10 ∧
      s.bus.moor ≠ .unmoored ∧ s.mine f = true) ∧
    (∃ (s : State) (f : Frame) (others : List W64), FrameTaken f s ∧ s.uid < 2 ^ 64 ∧ (∃ x ∈ others, x.toNat ≠ s.uid) ∧ frameCode
      f = 10 ∧ s.bus.moor ≠ .unmoored ∧ s.mine f = true) ∧
    (∃ (s : State) (f : Frame), FrameTaken f s ∧ frameCode f = 11 ∧ (isBroadcast f = true ∨ s.mine f = true)) ∧
    (∃ (s : State) (f : Frame), FrameTaken f s ∧ frameCode f = 12 ∧ (silent s).alertLow = true) ∧
    (∃ (s : State) (f : Frame), FrameTaken f s ∧ frameCode f = 16 ∧ s.groupWorld 2 = false) ∧
    (∃ (s : State) (f : Frame), FrameTaken f s ∧ frameCode f = 16 ∧ s.groupWorld 2 = true) ∧
    (∃ (s : State) (f : Frame), FrameTaken f s ∧ frameCode f = 17 ∧ s.bus.moor = .moored ∧ 1 ≤ fld f.reg 15 8 ∧ fld f.reg 15 8 ≤
      250 ∧ fld f.reg 15 8 ≤ s.bus.addr ∧ s.bus.addr ≤ fld f.reg 15 8 + 31) ∧
    (∃ (s : State), fld s.bus.lease 15 0 ≠ 0) ∧
    (∃ (s : State), fld s.bus.lease 15 0 = 0) ∧
    (∃ (s : State) (f : Frame), FrameTaken f s ∧ frameCode f = 18 ∧ isBroadcast f = true ∧ s.pwr.watch = .asleep ∧ s.therm.held =
      false) ∧
    (∃ (s : State), s.pwr.auxOn = true) :=
  ⟨⟨up, frame 255 8 250 0, [0x4F21000000001793], taken (by decide +kernel), by rw [uid_up]; simp, by decide +kernel⟩,
    ⟨up, frame 255 8 1 0, [1], taken (by decide +kernel), ⟨1, by simp, by rw [uid_up]; simp⟩, by decide +kernel⟩,
    ⟨{ up with hb := { up.hb with auxPref := 250 } }, frame 255 9 0 0, taken (by decide +kernel), by decide +kernel⟩,
    ⟨moored, frame 5 10 0 0, [0x4F21000000001793], taken (by decide +kernel), by rw [uid_moored]; simp, by decide +kernel⟩,
    ⟨moored, frame 5 10 0 0, [1], taken (by decide +kernel), by rw [uid_moored]; simp, by rw [uid_moored]; simp,
      by decide +kernel⟩,
    ⟨moored, frame 5 11 0 0, taken (by decide +kernel), by decide +kernel⟩,
    ⟨up, frame 255 12 0 0, taken (by decide +kernel), by decide +kernel⟩,
    ⟨up, frame 255 16 0 0xFFFFFF, taken (by decide +kernel), by decide +kernel⟩,
    ⟨misc 0x100, frame 255 16 0 0, taken (by decide +kernel), by decide +kernel⟩,
    ⟨moored, frame 255 17 0x0500 1, taken (by decide +kernel), by decide +kernel⟩,
    ⟨up, by decide +kernel⟩,
    ⟨{ up with bus := { up.bus with lease := 0 } }, by decide +kernel⟩,
    ⟨{ moored with pwr := asleep.pwr }, frame 255 18 0 0, taken (by decide +kernel), by decide +kernel⟩,
    ⟨up, by decide +kernel⟩⟩

theorem witness_CountRows :
    (∃ (s : State) (t : Nat) (q : QuadStep), s.inMode 1 = true ∧ q ≠ .both ∧ (∀ l ∈ s.bcn.inp.lastCounted, l + 25 ≤ max s.now t)) ∧
    (∃ (s : State) (t : Nat) (q : QuadStep), s.inMode 1 = true ∧ (q = .both ∨ (∃ l ∈ s.bcn.inp.lastCounted, max s.now t < l +
      25))) ∧
    (∃ (s : State), s.inMode 0 = true ∧ s.bcn.inp.rate ≠ 0) ∧
    (∃ (s : State), s.inMode 0 = true ∧ s.bcn.inp.rate = 0) ∧
    (∃ (s : State), s.beaconOn = true ∧ s.bcn.stillTime ≠ 0) ∧
    (∃ (s : State), (s.inMode 2 = true ∨ s.inMode 3 = true)) ∧
    (∃ (s : State), s.operating = true ∧ s.bcn.seqLimit ≤ s.bcn.seq + 2 ^ 25) :=
  ⟨⟨cfg 0x40000000, 0, .forward, by decide +kernel⟩,
    ⟨cfg 0x40000000, 0, .both, by decide +kernel⟩,
    ⟨up, by decide +kernel⟩,
    ⟨(withBcn fun b => { b with inp := { b.inp with rate := 0 } }), by decide +kernel⟩,
    ⟨up, by decide +kernel⟩,
    ⟨cfg 0xC0000000, by decide +kernel⟩,
    ⟨withBcn fun b => { b with seqLimit := 2 ^ 25 }, by decide +kernel⟩⟩

theorem witness_SampleRows :
    (∃ (s : State), s.ssiOn = true ∧ s.bcn.master = true ∧ s.bcn.extrapolates = false) ∧
    (∃ (s : State) (w : W32) (c : BitVec 6), s.ssiOn = true ∧ (s.bcn.master = true → s.bcn.inp.frame = true) ∧ s.bcn.wordGood w c
      = true ∧ s.bcn.code = 6 ∧ s.bcn.inp.reref = false) ∧
    (∃ (s : State) (w : W32) (c : BitVec 6), s.ssiOn = true ∧ (s.bcn.master = true → s.bcn.inp.frame = true) ∧ s.bcn.wordGood w c
      = false ∧ s.bcn.inp.errRun + 1 < s.bcn.errLimit) ∧
    (∃ (s : State) (w : W32) (c : BitVec 6), s.ssiOn = true ∧ (s.bcn.master = true → s.bcn.inp.frame = true) ∧ s.bcn.wordGood w c
      = false ∧ s.bcn.errLimit ≤ s.bcn.inp.errRun + 1) ∧
    (∃ (s : State) (t : Nat) (a : Actor), CanWrite a 0x0206 (s.at_ t) ∧ s.beaconOn = true ∧ s.bcn.mode = 3 ∧ s.bcn.code = 6 ∧
      s.bcn.inp.reref = false) ∧
    (∃ (s : State) (t : Nat) (a : Actor) (v : W32), CanWrite a 0x0206 (s.at_ t) ∧ s.beaconOn = true ∧ s.bcn.mode = 3 ∧ s.bcn.code
      = 0 ∧ s.bcn.extrapolates = false ∧ s.bcn.inp.resume = false ∧ s.bcn.within (shortest s.bcn.cpc (fmodNat s.bcn.anchor
      s.bcn.cpc) (s.bcn.sense v.toNat)) = false) ∧
    (∃ (s : State) (p : BcnPair), s.beaconOn = true ∧ s.bcn.pairUsed p = true) ∧
    (∃ (s : State), s.inMode 1 = true ∧ s.bcn.armed = false ∧ s.bcn.indexMode = 1 ∧ s.bcn.offZero ≤ s.bcn.indexTol) ∧
    (∃ (s : State), s.inMode 1 = true ∧ s.bcn.armed = false ∧ s.bcn.indexMode = 1 ∧ s.bcn.indexTol < s.bcn.offZero ∧ s.bcn.code =
      0) ∧
    (∃ (s : State), s.inMode 1 = true ∧ s.bcn.armed = false ∧ s.bcn.indexMode = 2) ∧
    (∃ (s : State) (a : Actor), CanWrite a 0x0207 s ∧ s.native = true ∧ s.beaconOn = true ∧ s.bcn.code ≠ 0) ∧
    (∃ (b : Bcn), b.code ≠ 0) ∧
    (∃ (b : Bcn), b.code ≠ 0) :=
  ⟨⟨(withBcn fun b =>
      { b with code := b.code, regs := { b.regs with cfg := 0x80000000, ssi := 0x80601403 }, inp := { b.inp with errRun := 0 } }),
      by decide +kernel⟩,
    ⟨(withBcn fun b =>
      { b with code := 6, regs := { b.regs with cfg := 0x80000000, ssi := 0x00601403 }, inp := { b.inp with errRun := 0 } }),
      0x1FFF, 0, by decide +kernel⟩,
    ⟨(withBcn fun b =>
      { b with code := b.code, regs := { b.regs with cfg := 0x80000000, ssi := 0x20601403 }, inp := { b.inp with errRun := 0 } }),
      1, 0, by decide +kernel⟩,
    ⟨(withBcn fun b =>
      { b with code := 0, regs := { b.regs with cfg := 0x80000000, ssi := 0x20601403 }, inp := { b.inp with errRun := 2 } }), 1,
      0, by decide +kernel⟩,
    ⟨faulted 0xC0000000 6, 9, .bus, canWrite (by decide +kernel), by decide +kernel⟩,
    ⟨(withBcn fun b => { b with regs := { b.regs with cfg := 0xC0000000, jump := 1 } }), 0, .bus, 2, canWrite (by decide +kernel),
      by decide +kernel⟩,
    ⟨cfg 0x40000000, .z, by decide +kernel⟩,
    ⟨cfg 0x50000000, by decide +kernel⟩,
    ⟨(withBcn fun b => { b with count := 1, regs := { b.regs with cfg := 0x50000000 } }), by decide +kernel⟩,
    ⟨cfg 0x60000000, by decide +kernel⟩,
    ⟨faulted 0x40000000 1, .bus, canWrite (by decide +kernel), by decide +kernel⟩,
    ⟨Bcn.reset, by decide +kernel⟩,
    ⟨Bcn.reset, by decide +kernel⟩⟩

theorem witness_BeaconRegisterRows :
    (∃ (s : State) (a : Actor), CanWrite a 0x0207 s ∧ s.native = true ∧ s.beaconOn = true ∧ s.bcn.mode = 1) ∧
    (∃ (s : State), s.inMode 1 = true ∧ s.bcn.armed = true) ∧
    (∃ (s : State) (a : Actor) (v : W32), CanWrite a 0x0200 s ∧ s.native = true ∧ (v ^^^ s.bcn.regs.cfg) &&& 0xFF000000 = 0) ∧
    (∃ (s : State) (a : Actor) (v : W32), CanWrite a 0x0200 s ∧ s.native = true ∧ (v ^^^ s.bcn.regs.cfg) &&& 0xFF000000 ≠ 0 ∧
      s.bcn.code = 0) ∧
    (∃ (s : State) (a : Actor) (v : W32), CanWrite a 0x0201 s ∧ s.native = true ∧ s.bcn.code = 0 ∧ (if v.toNat < 15 then 15 else
      v.toNat) ≠ s.bcn.regs.cpc.toNat) ∧
    (∃ (s : State) (a : Actor), CanWrite a 0x0205 s) ∧
    (∃ (s : State) (a : Actor) (n : Fin 64), CanWrite a (0x0240 + n.val) s) ∧
    (∃ (s : State) (a : Actor), CanWrite a 0x0211 s ∧ s.native = true) ∧
    (∃ (s : State) (a : Actor), s.regReady 0x0209 = true ∧ s.regAllowed a 0x0209 = statOk ∧ s.bcn.code ≠ 0) :=
  ⟨⟨cfg 0x40000000, .bus, canWrite (by decide +kernel), by decide +kernel⟩,
    ⟨(withBcn fun b => { b with armed := true, regs := { b.regs with cfg := 0x40000000 } }), by decide +kernel⟩,
    ⟨up, .bus, 0x00FF0000, canWrite (by decide +kernel), by decide +kernel⟩,
    ⟨up, .bus, 0x40000000, canWrite (by decide +kernel), by decide +kernel⟩,
    ⟨up, .bus, 0, canWrite (by decide +kernel), by decide +kernel⟩,
    ⟨up, .bus, canWrite (by decide +kernel)⟩,
    ⟨up, .bus, 63, canWrite (by decide +kernel)⟩,
    ⟨up, .bus, canWrite (by decide +kernel), by decide +kernel⟩,
    ⟨faulted 0 1, .bus, by decide +kernel⟩⟩

theorem witness_CommitRows :
    (∃ (m m' : Commits) (en : Bool) (every t : Nat) (ok : Bool) (c : Int) (f : Nat), m.cross en every t ok c = (m', some f)) ∧
    (∃ (m : Commits) (en : Bool) (c : Int), ((∃ l ∈ m.lastCycle, c ≤ l) ∨ c ∈ m.counted ∨ en = false)) ∧
    (∃ (s : State) (m : PendingMark) (rest : List PendingMark), s.med.pendMarks = m :: rest ∧ s.operating = true ∧ s.pwr.watch ≠
      .asleep ∧ s.windowClosed = false ∧ s.pendingBelow m.bound = false ∧ m.cmd = none) ∧
    (∃ (s : State) (m : PendingMark) (rest : List PendingMark), s.med.pendMarks = m :: rest ∧ (s.pendingBelow m.bound = true ∨
      s.pwr.watch = .asleep)) :=
  ⟨⟨{ Commits.reset with running := true, restart := true }, (Commits.cross
      { Commits.reset with running := true, restart := true } true 1 0 true 0).1, true, 1, 0, true, 0, 0, by decide +kernel⟩,
    ⟨{ Commits.reset with lastCycle := some 5 }, true, 5, by decide +kernel⟩,
    ⟨{ up with med := { Media.reset with pendMarks := [armedMark 1] } }, armedMark 1, [], by decide +kernel⟩,
    ⟨{ opened with med := { Media.reset with pendMarks := [armedMark 1] } }, armedMark 1, [], by decide +kernel⟩⟩

theorem witness_LandingRows :
    (∃ (s : State) (t h : Nat) (c : Cmd) (n : Ns), s.cmd h = some c ∧ look s.ns c.nsid = some n ∧ (s.at_ t).canLand c = true) ∧
    (∃ (s : State) (n : Nat) (x : Ns), s.operating = true ∧ look s.ns n = some x ∧ x.st.opened ≠ []) :=
  ⟨⟨State.plus up landCmd, 0, 0, landCmd, streamNs, by decide +kernel⟩,
    ⟨opened, 2, { streamNs with st := { Stream.reset with opened := [landed] } }, by decide +kernel⟩⟩

theorem witness_InstructionCourse :
    (∃ (s : State) (n : Fin 64), ∃ u, readWord true n.val ((s.stall n.val).core.pc / 2) s = (none, u) ∧ s.codeRuns n.val = true ∧
      (s.stall n.val).porterFault = none) ∧
    (∃ (s : State) (n : Fin 64) (o : Op), Fetches s n.val o.word ∧ (o.legal = false ∨ guardOk o.guard = false ∨ ((s.stall
      n.val).handlers ≠ [] ∧ o.handler = false ∧ guardTrue o.guard (s.stall n.val).core.p = true))) ∧
    (∃ (s : State) (n : Fin 64) (o : Op) (body : State → Flow × State), Fetches s n.val o.word ∧ o.legal = true ∧ guardOk o.guard
      = true ∧ ((s.stall n.val).handlers = [] ∨ o.handler = true) ∧ guardTrue o.guard (s.stall n.val).core.p = true ∧ (body s).1 =
      .fault 1) ∧
    (∃ (s : State) (n : Fin 64) (o : Op) (body : State → Flow × State), Fetches s n.val o.word ∧ o.legal = true ∧ guardOk o.guard
      = true ∧ (s.stall n.val).handlers = [] ∧ (guardTrue o.guard (s.stall n.val).core.p = true → (body s).1 ≠ .fault 1) ∧
      s.curTerm n.val < (s.stall n.val).cycles + (if guardTrue o.guard (s.stall n.val).core.p then o.cost else o.skip)) ∧
    (∃ (s : State) (n : Fin 64) (o : Op), Fetches s n.val o.word ∧ o.legal = true ∧ guardOk o.guard = true ∧ guardTrue o.guard
      (s.stall n.val).core.p = false ∧ ((s.stall n.val).handlers = [] → (s.stall n.val).cycles + o.skip ≤ s.curTerm n.val) ∧
      (CoreRegs.onward (!(s.stall n.val).handlers.isEmpty) (s.stall n.val).core.pc (s.stall n.val).core).wp < 2 ^ 21) :=
  ⟨⟨runs 0 (fun t => { t with pm := [] }), 0, runs 0 (fun t => { t with pm := [] }), rfl, by decide +kernel⟩,
    ⟨runs 0 id, 0, ⟨0, false, 1, 1, 0, false⟩, fetches (by decide +kernel), by decide +kernel⟩,
    ⟨runs 0 id, 0, ⟨0, true, 100002, 1, 0, false⟩, fun s => (.fault 1, s), fetches (by decide +kernel), by decide +kernel⟩,
    ⟨runs 0 id, 0, ⟨0, true, 100002, 1, 0, false⟩, fun s => (.next, s), fetches (by decide +kernel), by decide +kernel⟩,
    ⟨runs 0 id, 0, ⟨0, true, 1, 1, 8, false⟩, fetches (by decide +kernel), by decide +kernel⟩⟩

theorem witness_ComputeRows :
    (∃ (s : State) (n : Fin 64), ∃ (f : IFmt), Runs s n.val (iWord 0x02 f) f.g 1) ∧
    (∃ (s : State) (n : Fin 64), ∃ (f : IFmt), Runs s n.val (iWord 0x03 f) f.g 1) ∧
    (∃ (s : State) (n : Fin 64), ∃ (f : IFmt), Runs s n.val (iWord 0x04 f) f.g 1) ∧
    (∃ (s : State) (n : Fin 64), ∃ (f : IFmt), Runs s n.val (iWord 0x05 f) f.g 1) ∧
    (∃ (s : State) (n : Fin 64), ∃ (f : IFmt), Runs s n.val (iWord 0x06 f) f.g 1 ∧ fld f.imm 11 6 = 0) ∧
    (∃ (s : State) (n : Fin 64), ∃ (f : WFmt), Runs s n.val (wWord 0x07 f) f.g 1) ∧
    (∃ (s : State) (n : Fin 64), ∃ (f : WFmt), Runs s n.val (wWord 0x08 f) f.g 1) ∧
    (∃ (s : State) (n : Fin 64), ∃ (f : IFmt), Runs s n.val (iWord 0x09 f) f.g 1 ∧ bit f.imm 6 = false ∧ fld f.imm 13 8 + (fld
      f.imm 5 0 + 1) ≤ 64) ∧
    (∃ (s : State) (n : Fin 64), ∃ (f : IFmt), Runs s n.val (iWord 0x0A f) f.g 1 ∧ fld f.imm 7 6 = 0 ∧ fld f.imm 13 8 + (fld f.imm
      5 0 + 1) ≤ 64) ∧
    (∃ (s : State) (n : Fin 64), ∃ (f : RFmt), Runs s n.val (rWord 0x0B f) f.g 1 ∧ f.fn.toNat < 4) ∧
    (∃ (s : State) (n : Fin 64), ∃ (f : RFmt), Runs s n.val (rWord 0x0C f) f.g 1 ∧ f.fn.toNat < 12) ∧
    (∃ (s : State) (n : Fin 64), ∃ (f : IFmt), Runs s n.val (iWord 0x0D f) f.g 1 ∧ fld f.imm 13 10 < 12) ∧
    (∃ (s : State) (n : Fin 64), ∃ (f : RFmt), Runs s n.val (rWord 0x0E f) f.g 1 ∧ f.d.toNat < 4 ∧ f.a.toNat < 4 ∧ f.b.toNat < 4 ∧
      f.fn.toNat ≤ 6) ∧
    (∃ (s : State) (n : Fin 64), ∃ (f : IFmt), Runs s n.val (iWord 0x0F f) f.g 1 ∧ fld f.imm 13 6 = 0) ∧
    (∃ (s : State) (n : Fin 64), ∃ (f : RFmt), Runs s n.val (rWord 0x30 f) f.g 4 ∧ f.a = 0 ∧ f.b = 0 ∧ 1 ≤ f.fn.toNat ∧ f.fn.toNat
      ≤ 5) ∧
    (∃ (s : State) (n : Fin 64), ∃ (f : RFmt), Runs s n.val (rWord 0x30 f) f.g 4 ∧ f.a = 0 ∧ f.b = 0 ∧ f.fn = 0) ∧
    (∃ (s : State) (n : Fin 64), ∃ (f : IFmt), Runs s n.val (iWord 0x31 f) f.g 4 ∧ f.a = 0 ∧ fld f.imm 13 6 = 0) ∧
    (∃ (s : State) (n : Fin 64), ∃ (f : RFmt), ∃ h hs, Runs s n.val (rWord 0x29 f) f.g 1 ∧ f.a = 0 ∧ f.b = 0 ∧ f.fn = 0 ∧ (s.stall
      n.val).handlers = h :: hs) ∧
    (∃ (s : State) (n : Fin 64), ∃ (f : RFmt), Runs s n.val (rWord 0x29 f) f.g 1 ∧ f.a = 0 ∧ f.b = 0 ∧ f.fn = 0 ∧ (s.stall
      n.val).handlers = []) ∧
    (∃ (s : State) (n : Fin 64), ∃ (f : RFmt), Runs s n.val (rWord 0x3B f) f.g 1 ∧ f.d = 0 ∧ f.b = 0 ∧ f.fn = 0) :=
  ⟨⟨runs (iWord 0x02 ⟨0, 1, 2, 0x2000⟩) (id), 0, ⟨0, 1, 2, 0x2000⟩, runsWord (by decide +kernel) (by decide +kernel)⟩,
    ⟨runs (iWord 0x03 ⟨0, 1, 2, 0x2000⟩) (id), 0, ⟨0, 1, 2, 0x2000⟩, runsWord (by decide +kernel) (by decide +kernel)⟩,
    ⟨runs (iWord 0x04 ⟨0, 1, 2, 0x2000⟩) (id), 0, ⟨0, 1, 2, 0x2000⟩, runsWord (by decide +kernel) (by decide +kernel)⟩,
    ⟨runs (iWord 0x05 ⟨0, 1, 2, 0x2000⟩) (id), 0, ⟨0, 1, 2, 0x2000⟩, runsWord (by decide +kernel) (by decide +kernel)⟩,
    ⟨runs (iWord 0x06 ⟨0, 1, 2, 0x303F⟩) (id), 0, ⟨0, 1, 2, 0x303F⟩, runsWord (by decide +kernel) (by decide +kernel),
      by decide +kernel⟩,
    ⟨runs (wWord 0x07 ⟨0, 1, 3, 0xFFFF⟩) (id), 0, ⟨0, 1, 3, 0xFFFF⟩, runsWord (by decide +kernel) (by decide +kernel)⟩,
    ⟨runs (wWord 0x08 ⟨0, 1, 3, 0xFFFF⟩) (id), 0, ⟨0, 1, 3, 0xFFFF⟩, runsWord (by decide +kernel) (by decide +kernel)⟩,
    ⟨runs (iWord 0x09 ⟨0, 1, 2, 0x003F⟩) (id), 0, ⟨0, 1, 2, 0x003F⟩, runsWord (by decide +kernel) (by decide +kernel),
      by decide +kernel⟩,
    ⟨runs (iWord 0x0A ⟨0, 1, 2, 0x3F00⟩) (id), 0, ⟨0, 1, 2, 0x3F00⟩, runsWord (by decide +kernel) (by decide +kernel),
      by decide +kernel⟩,
    ⟨runs (rWord 0x0B ⟨0, 1, 2, 3, 3⟩) (id), 0, ⟨0, 1, 2, 3, 3⟩, runsWord (by decide +kernel) (by decide +kernel),
      by decide +kernel⟩,
    ⟨runs (rWord 0x0C ⟨0, 3, 2, 3, 11⟩) (id), 0, ⟨0, 3, 2, 3, 11⟩, runsWord (by decide +kernel) (by decide +kernel),
      by decide +kernel⟩,
    ⟨runs (iWord 0x0D ⟨0, 1, 2, 0x2E00⟩) (id), 0, ⟨0, 1, 2, 0x2E00⟩, runsWord (by decide +kernel) (by decide +kernel),
      by decide +kernel⟩,
    ⟨runs (rWord 0x0E ⟨0, 3, 2, 1, 6⟩) (id), 0, ⟨0, 3, 2, 1, 6⟩, runsWord (by decide +kernel) (by decide +kernel),
      by decide +kernel⟩,
    ⟨runs (iWord 0x0F ⟨0, 1, 2, 63⟩) (id), 0, ⟨0, 1, 2, 63⟩, runsWord (by decide +kernel) (by decide +kernel), by decide +kernel⟩,
    ⟨runs (rWord 0x30 ⟨0, 1, 0, 0, 5⟩) (id), 0, ⟨0, 1, 0, 0, 5⟩, runsWord (by decide +kernel) (by decide +kernel),
      by decide +kernel⟩,
    ⟨runs (rWord 0x30 ⟨0, 1, 0, 0, 0⟩) (id), 0, ⟨0, 1, 0, 0, 0⟩, runsWord (by decide +kernel) (by decide +kernel),
      by decide +kernel⟩,
    ⟨runs (iWord 0x31 ⟨0, 1, 0, 63⟩) (id), 0, ⟨0, 1, 0, 63⟩, runsWord (by decide +kernel) (by decide +kernel), by decide +kernel⟩,
    ⟨runs (rWord 0x29 ⟨0, 1, 0, 0, 0⟩) (inHandler), 0, ⟨0, 1, 0, 0, 0⟩, ⟨0, .normal, 0, 0, []⟩, [], runsWord (by decide +kernel)
      (by decide +kernel), by decide +kernel⟩,
    ⟨runs (rWord 0x29 ⟨0, 1, 0, 0, 0⟩) (id), 0, ⟨0, 1, 0, 0, 0⟩, runsWord (by decide +kernel) (by decide +kernel),
      by decide +kernel⟩,
    ⟨runs (rWord 0x3B ⟨0, 0, 2, 0, 0⟩) (id), 0, ⟨0, 0, 2, 0, 0⟩, runsWord (by decide +kernel) (by decide +kernel),
      by decide +kernel⟩⟩

theorem witness_AluFunctions :
    (∃ (s : State) (n : Fin 64) (f : RFmt), Runs s n.val (rWord 0x01 f) f.g (aluCycles f.fn.toNat) ∧ f.fn.toNat < 24 ∧ (f.fn.toNat
      < 21 ∨ f.b = 0)) ∧
    (∃ (s : State) (n : Fin 64) (f : RFmt), Fetches s n.val (rWord 0x01 f) ∧ (24 ≤ f.fn.toNat ∨ (21 ≤ f.fn.toNat ∧ f.b ≠ 0))) ∧
    (∃ k, 17 ≤ k ∧ k ≤ 20) ∧
    (∃ k, (k < 14 ∨ 20 < k)) ∧
    (∃ i, i < 64) ∧
    (∃ (a b : W64), b ≠ 0 ∧ ¬(a = BitVec.intMin 64 ∧ b = BitVec.allOnes 64)) ∧
    (∃ (a : W64), a = 0) ∧
    (∃ (a b : W64), ∃ i, 63 - (alu 22 a b).toNat < i ∧ a ≠ 0) ∧
    (∃ k, k < 8) :=
  ⟨⟨runs (rWord 0x01 ⟨0, 1, 2, 0, 23⟩) (id), 0, ⟨0, 1, 2, 0, 23⟩, runsWord (by decide +kernel) (by decide +kernel),
      by decide +kernel⟩,
    ⟨runs (rWord 0x01 ⟨0, 1, 2, 3, 21⟩) (id), 0, ⟨0, 1, 2, 3, 21⟩, fetches (by decide +kernel), by decide +kernel⟩,
    ⟨17, by decide +kernel⟩,
    ⟨21, by decide +kernel⟩,
    ⟨63, by decide +kernel⟩,
    ⟨5, 3, by decide +kernel⟩,
    ⟨0, by decide +kernel⟩,
    ⟨0x8000000000000000, 0, 64, by decide +kernel, by decide +kernel⟩,
    ⟨7, by decide +kernel⟩⟩

theorem witness_AccessRows :
    (∃ (s : State) (n : Fin 64), ∃ (f : XFmt), Runs s n.val (xWord 0x10 f) f.g 1 ∧ (s.stall n.val).handlers = [] ∧ f.z = 0 ∧
      f.off.toNat + 2 ^ f.wid.toNat ≤ 128) ∧
    (∃ (s : State) (n : Fin 64), ∃ (f : IFmt), Runs s n.val (iWord 0x11 f) f.g 1 ∧ (s.stall n.val).handlers = [] ∧ fld f.imm 9 0 =
      0) ∧
    (∃ (s : State) (n : Fin 64), ∃ (f : IFmt), Runs s n.val (iWord 0x12 f) f.g 1 ∧ (s.stall n.val).handlers = [] ∧ f.d = 0 ∧ f.a =
      0 ∧ 1 ≤ f.imm.toNat ∧ f.imm.toNat ≤ 4 ∧
      ({ (s.stall n.val).core with wp := (s.stall n.val).core.wp + 32 * f.imm.toNat }.advance (s.stall n.val).core.pc).wp < 2 ^
      21) ∧
    (∃ (s : State) (n : Fin 64), ∃ (f : RFmt), Runs s n.val (rWord 0x13 f) f.g 2 ∧ (s.stall n.val).handlers = [] ∧ f.d = 0 ∧ f.b =
      0 ∧ f.fn = 0 ∧
      ({ (s.stall n.val).core with wp := max (s.stall n.val).core.wp (((s.stall n.val).reg f.a).toNat / 32 * 32) }.advance
      (s.stall n.val).core.pc).wp < 2 ^ 21) ∧
    (∃ (s : State) (n : Fin 64), ∃ (f : RFmt), Runs s n.val (rWord 0x14 f) f.g 1 ∧ (s.stall n.val).handlers = [] ∧ f.a = 0 ∧ f.b =
      0 ∧ f.fn = 0) ∧
    (∃ (s : State) (n : Fin 64), ∃ (f : RFmt), Runs s n.val (rWord 0x15 f) f.g 1 ∧ (s.stall n.val).handlers = [] ∧ f.a = 0 ∧ f.b =
      0 ∧ f.fn.toNat ≤ 8) ∧
    (∃ (s : State) (n : Fin 64), ∃ (f : RFmt), Runs s n.val (rWord 0x2C f) f.g 2 ∧ (s.stall n.val).handlers = [] ∧ f.a = 0 ∧ f.b =
      0 ∧ f.fn.toNat < 2) ∧
    (∃ (s : State) (n : Fin 64), ∃ (f : IFmt) (bs : List Byte), Runs s n.val (iWord 0x2D f) f.g (1 + ceilDiv (8 * (fld f.imm 11 0
      + 1)) 32) ∧ loadLocal n.val ((s.stall n.val).reg f.a).toNat (8 * (fld f.imm 11 0 + 1)) s = (some bs, s) ∧ fld f.imm 13 12 =
      0 ∧ localRange ((s.stall n.val).reg f.a).toNat (8 * (fld f.imm 11 0 + 1)) 8 = true) ∧
    (∃ (s : State) (n : Fin 64), ∃ (f : IFmt), Runs s n.val (iWord 0x16 f) f.g 2 ∧ (s.stall n.val).handlers = [] ∧ f.d.toNat < 4 ∧
      localRange ((s.stall n.val).reg f.a + w64 (8 * f.imm.toNat)).toNat 32 8 = true) ∧
    (∃ (s : State) (n : Fin 64), ∃ (f : IFmt), Runs s n.val (iWord 0x16 f) f.g 2 ∧ (s.stall n.val).handlers = [] ∧ f.d.toNat < 4 ∧
      localRange ((s.stall n.val).reg f.a + w64 (8 * f.imm.toNat)).toNat 32 8 = false) ∧
    (∃ (s : State) (n : Fin 64), ∃ (f : IFmt) (k a : Nat), ∃ bs, loadLocal n.val a k s = (some bs, s) ∧ Runs s n.val (iWord 0x18
      f) f.g 2 ∧ k = 2 ^ fld f.imm 13 12 ∧ a = ((s.stall n.val).reg f.a + w64 (fld f.imm 11 0 * k)).toNat ∧ localRange a k k =
      true) ∧
    (∃ (s : State) (n : Fin 64), ∃ (f : IFmt) (k a : Nat), ∃ bs, loadLocal n.val a k s = (some bs, s) ∧ Runs s n.val (iWord 0x19
      f) f.g 2 ∧ k = 2 ^ fld f.imm 13 12 ∧ a = ((s.stall n.val).reg f.a + w64 (fld f.imm 11 0 * k)).toNat ∧ localRange a k k =
      true) ∧
    (∃ (s : State) (n : Fin 64), ∃ (f : IFmt) (k a : Nat), Runs s n.val (iWord 0x18 f) f.g 2 ∧ k = 2 ^ fld f.imm 13 12 ∧ a =
      ((s.stall n.val).reg f.a + w64 (fld f.imm 11 0 * k)).toNat ∧ 0x80000 ≤ a ∧ a < 0x81000 ∧ k = 4 ∧ a % 4 = 0) ∧
    (∃ (s : State) (n : Fin 64), ∃ (f : IFmt) (k a : Nat), Runs s n.val (iWord 0x1A f) f.g 1 ∧ k = 2 ^ fld f.imm 13 12 ∧ a =
      ((s.stall n.val).reg f.a + w64 (fld f.imm 11 0 * k)).toNat ∧ 0x80000 ≤ a ∧ a < 0x81000 ∧ k = 4 ∧ a % 4 = 0) ∧
    (∃ (s : State) (n : Fin 64), ∃ (f : IFmt) (k a : Nat), Runs s n.val (iWord 0x18 f) f.g 2 ∧ k = 2 ^ fld f.imm 13 12 ∧ a =
      ((s.stall n.val).reg f.a + w64 (fld f.imm 11 0 * k)).toNat ∧ localRange a k k = false ∧ ¬(0x80000 ≤ a ∧ a < 0x81000 ∧ k = 4
      ∧ a % 4 = 0)) ∧
    (∃ (s : State) (n : Fin 64), ∃ (f : IFmt) (k a : Nat), Runs s n.val (iWord 0x19 f) f.g 2 ∧ k = 2 ^ fld f.imm 13 12 ∧ a =
      ((s.stall n.val).reg f.a + w64 (fld f.imm 11 0 * k)).toNat ∧ localRange a k k = false ∧ ¬(0x80000 ≤ a ∧ a < 0x81000 ∧ k = 4
      ∧ a % 4 = 0)) ∧
    (∃ (s : State) (n : Fin 64), ∃ (f : IFmt) (k a : Nat), Runs s n.val (iWord 0x1A f) f.g 1 ∧ k = 2 ^ fld f.imm 13 12 ∧ a =
      ((s.stall n.val).reg f.a + w64 (fld f.imm 11 0 * k)).toNat ∧ localRange a k k = false ∧ ¬(0x80000 ≤ a ∧ a < 0x81000 ∧ k = 4
      ∧ a % 4 = 0)) ∧
    (∃ (s : State) (n : Fin 64), ∃ (f : IFmt) (k a : Nat), Runs s n.val (iWord 0x1A f) f.g 1 ∧ k = 2 ^ fld f.imm 13 12 ∧ a =
      ((s.stall n.val).reg f.a + w64 (fld f.imm 11 0 * k)).toNat ∧ localRange a k k = true ∧ k = 8) ∧
    (∃ (s : State) (n : Fin 64), ∃ (f : IFmt) (k a : Nat), ∃ v, Runs s n.val (iWord 0x1A f) f.g 1 ∧ readWord false n.val (a / 8) s
      = (some v, s) ∧ k = 2 ^ fld f.imm 13 12 ∧ a = ((s.stall n.val).reg f.a + w64 (fld f.imm 11 0 * k)).toNat ∧ localRange a k k
      = true ∧ k ≠ 8) ∧
    (∃ (s : State) (n : Fin 64), ∃ (f : IFmt) (k a : Nat), ∃ u, Runs s n.val (iWord 0x1A f) f.g 1 ∧ readWord false n.val (a / 8) s
      = (none, u) ∧ k = 2 ^ fld f.imm 13 12 ∧ a = ((s.stall n.val).reg f.a + w64 (fld f.imm 11 0 * k)).toNat ∧ localRange a k k =
      true ∧ k ≠ 8) :=
  ⟨⟨runs (xWord 0x10 ⟨0, 1, 120, 3, 1, 1, 0⟩) (id), 0, ⟨0, 1, 120, 3, 1, 1, 0⟩, runsWord (by decide +kernel) (by decide +kernel),
      by decide +kernel⟩,
    ⟨runs (iWord 0x11 ⟨0, 1, 2, 0x3C00⟩) (id), 0, ⟨0, 1, 2, 0x3C00⟩, runsWord (by decide +kernel) (by decide +kernel),
      by decide +kernel⟩,
    ⟨runs (iWord 0x12 ⟨0, 0, 0, 4⟩) (id), 0, ⟨0, 0, 0, 4⟩, runsWord (by decide +kernel) (by decide +kernel), by decide +kernel⟩,
    ⟨runs (rWord 0x13 ⟨0, 0, 2, 0, 0⟩) (regs [(2, 64)]), 0, ⟨0, 0, 2, 0, 0⟩, runsWord (by decide +kernel) (by decide +kernel),
      by decide +kernel⟩,
    ⟨runs (rWord 0x14 ⟨0, 1, 0, 0, 0⟩) (id), 0, ⟨0, 1, 0, 0, 0⟩, runsWord (by decide +kernel) (by decide +kernel),
      by decide +kernel⟩,
    ⟨runs (rWord 0x15 ⟨0, 1, 0, 0, 8⟩) (id), 0, ⟨0, 1, 0, 0, 8⟩, runsWord (by decide +kernel) (by decide +kernel),
      by decide +kernel⟩,
    ⟨runs (rWord 0x2C ⟨0, 1, 0, 0, 1⟩) (id), 0, ⟨0, 1, 0, 0, 1⟩, runsWord (by decide +kernel) (by decide +kernel),
      by decide +kernel⟩,
    ⟨runs (iWord 0x2D ⟨0, 1, 2, 3⟩) id, 0, ⟨0, 1, 2, 3⟩, (loadLocal 0 0 32 (runs (iWord 0x2D ⟨0, 1, 2, 3⟩) id)).1.get
      (by decide +kernel), runsWord (by decide +kernel) (by decide +kernel), Prod.ext (by decide +kernel) rfl, by decide +kernel⟩,
    ⟨runs (iWord 0x16 ⟨0, 3, 2, 0⟩) (regs [(2, 0x7FFE0)]), 0, ⟨0, 3, 2, 0⟩, runsWord (by decide +kernel) (by decide +kernel),
      by decide +kernel⟩,
    ⟨runs (iWord 0x16 ⟨0, 3, 2, 1⟩) (regs [(2, 0x7FFE0)]), 0, ⟨0, 3, 2, 1⟩, runsWord (by decide +kernel) (by decide +kernel),
      by decide +kernel⟩,
    ⟨runs (iWord 0x18 ⟨0, 1, 2, 0x3000⟩) (regs [(2, 8)]), 0, ⟨0, 1, 2, 0x3000⟩, 8, 8, (loadLocal 0 8 8 (runs (iWord 0x18 ⟨0, 1, 2,
      0x3000⟩) (regs [(2, 8)]))).1.get (by decide +kernel), Prod.ext (by decide +kernel) rfl, runsWord (by decide +kernel)
      (by decide +kernel), by decide +kernel⟩,
    ⟨runs (iWord 0x19 ⟨0, 1, 2, 0x1003⟩) (regs [(2, 0)]), 0, ⟨0, 1, 2, 0x1003⟩, 2, 6, (loadLocal 0 6 2 (runs (iWord 0x19 ⟨0, 1, 2,
      0x1003⟩) (regs [(2, 0)]))).1.get (by decide +kernel), Prod.ext (by decide +kernel) rfl, runsWord (by decide +kernel)
      (by decide +kernel), by decide +kernel⟩,
    ⟨runs (iWord 0x18 ⟨0, 1, 2, 0x2000⟩) (regs [(2, 0x80FFC)]), 0, ⟨0, 1, 2, 0x2000⟩, 4, 0x80FFC, runsWord (by decide +kernel)
      (by decide +kernel), by decide +kernel⟩,
    ⟨runs (iWord 0x1A ⟨0, 1, 2, 0x2000⟩) (regs [(2, 0x80088)]), 0, ⟨0, 1, 2, 0x2000⟩, 4, 0x80088, runsWord (by decide +kernel)
      (by decide +kernel), by decide +kernel⟩,
    ⟨runs (iWord 0x18 ⟨0, 1, 2, 0x3000⟩) (regs [(2, 0x80000)]), 0, ⟨0, 1, 2, 0x3000⟩, 8, 0x80000, runsWord (by decide +kernel)
      (by decide +kernel), by decide +kernel⟩,
    ⟨runs (iWord 0x19 ⟨0, 1, 2, 0x2000⟩) (regs [(2, 0x81000)]), 0, ⟨0, 1, 2, 0x2000⟩, 4, 0x81000, runsWord (by decide +kernel)
      (by decide +kernel), by decide +kernel⟩,
    ⟨runs (iWord 0x1A ⟨0, 1, 2, 0x2000⟩) (regs [(2, 2)]), 0, ⟨0, 1, 2, 0x2000⟩, 4, 2, runsWord (by decide +kernel)
      (by decide +kernel), by decide +kernel⟩,
    ⟨runs (iWord 0x1A ⟨0, 1, 2, 0x3000⟩) (regs [(2, 0x7FFF8)]), 0, ⟨0, 1, 2, 0x3000⟩, 8, 0x7FFF8, runsWord (by decide +kernel)
      (by decide +kernel), by decide +kernel⟩,
    ⟨runs (iWord 0x1A ⟨0, 1, 2, 0⟩) (regs [(2, 9)]), 0, ⟨0, 1, 2, 0⟩, 1, 9, (readWord false 0 1 (runs (iWord 0x1A ⟨0, 1, 2, 0⟩)
      (regs [(2, 9)]))).1.get (by decide +kernel), runsWord (by decide +kernel) (by decide +kernel), Prod.ext (by decide +kernel)
      rfl, by decide +kernel⟩,
    ⟨runs (iWord 0x1A ⟨0, 1, 2, 0⟩) (regs [(2, 0x100)]), 0, ⟨0, 1, 2, 0⟩, 1, 0x100, runs (iWord 0x1A ⟨0, 1, 2, 0⟩) (regs [(2,
      0x100)]), runsWord (by decide +kernel) (by decide +kernel), rfl, by decide +kernel⟩⟩

theorem witness_FlowRows :
    (∃ (s : State) (n : Fin 64), ∃ (f : BFmt), Runs s n.val (bWord 0x20 f) f.g 2 ∧ f.z = 0 ∧ 1 ≤ f.off.toNat) ∧
    (∃ (s : State) (n : Fin 64), ∃ (f : LFmt), Runs s n.val (lWord 0x21 f) 0 1 ∧ (s.stall n.val).handlers = [] ∧ 1 ≤ f.stop.toNat
      ∧ (s.stall n.val).core.loops.length < 4) ∧
    (∃ (s : State) (n : Fin 64), ∃ (f : LFmt), Runs s n.val (lWord 0x21 f) 0 1 ∧ (s.stall n.val).handlers = [] ∧ 1 ≤ f.stop.toNat
      ∧ 4 ≤ (s.stall n.val).core.loops.length) ∧
    (∃ (s : State) (n : Fin 64), ∃ (f : LFmt) (k : Nat), Runs s n.val (lWord 0x22 f) 0 1 ∧ (s.stall n.val).handlers = [] ∧ fld
      f.cnt 7 0 = 0 ∧ 1 ≤ f.stop.toNat ∧ k = min 4096 ((s.stall n.val).reg (BitVec.ofNat 4 (fld f.cnt 11 8))).toNat ∧ k ≠ 0 ∧
      (s.stall n.val).core.loops.length < 4) ∧
    (∃ (s : State) (n : Fin 64), ∃ (f : LFmt) (k : Nat), Runs s n.val (lWord 0x22 f) 0 1 ∧ (s.stall n.val).handlers = [] ∧ fld
      f.cnt 7 0 = 0 ∧ 1 ≤ f.stop.toNat ∧ k = min 4096 ((s.stall n.val).reg (BitVec.ofNat 4 (fld f.cnt 11 8))).toNat ∧ k = 0 ∧
      ((s.stall n.val).core.advance ((s.stall n.val).core.pc + f.stop.toNat)).wp < 2 ^ 21) ∧
    (∃ (s : State) (n : Fin 64), ∃ (f : LFmt) (k : Nat), Runs s n.val (lWord 0x17 f) 0 2 ∧ (s.stall n.val).handlers = [] ∧ f.cnt =
      0 ∧ 1 ≤ f.stop.toNat ∧ k = min 4096 (((s.curRecord n.val).length - (s.stall n.val).core.wp + 63) / 64) ∧ k ≠ 0 ∧ (s.stall
      n.val).core.loops.length < 4) ∧
    (∃ (s : State) (n : Fin 64), ∃ (f : LFmt) (k : Nat), Runs s n.val (lWord 0x17 f) 0 2 ∧ (s.stall n.val).handlers = [] ∧ f.cnt =
      0 ∧ 1 ≤ f.stop.toNat ∧ k = min 4096 (((s.curRecord n.val).length - (s.stall n.val).core.wp + 63) / 64) ∧ k = 0 ∧ ((s.stall
      n.val).core.advance ((s.stall n.val).core.pc + f.stop.toNat)).wp < 2 ^ 21) ∧
    (∃ (s : State) (n : Fin 64), ∃ (f : BFmt), Runs s n.val (bWord 0x23 f) f.g 2 ∧ (s.stall n.val).handlers = [] ∧ f.z = 0 ∧
      (s.stall n.val).core.calls.length < 4) ∧
    (∃ (s : State) (n : Fin 64), ∃ (f : BFmt), Runs s n.val (bWord 0x23 f) f.g 2 ∧ (s.stall n.val).handlers = [] ∧ f.z = 0 ∧ 4 ≤
      (s.stall n.val).core.calls.length) ∧
    (∃ (s : State) (n : Fin 64), ∃ (f : BFmt), Runs s n.val (bWord 0x24 f) f.g 2 ∧ (s.stall n.val).handlers = [] ∧ f.z = 0 ∧ f.off
      = 0 ∧ (s.stall n.val).core.calls = []) ∧
    (∃ (s : State) (n : Fin 64), ∃ (f : BFmt), ∃ r rest c, Runs s n.val (bWord 0x24 f) f.g 2 ∧ c =
      ({ (s.stall n.val).core with calls := rest, loops := (s.stall n.val).core.loops.dropWhile fun l => decide (rest.length < l.depth) }
      : CoreRegs) ∧ (s.stall n.val).handlers = [] ∧ f.z = 0 ∧ f.off = 0 ∧ (s.stall n.val).core.calls = r :: rest ∧ (c.advance (r -
      1)).wp < 2 ^ 21) ∧
    (∃ (s : State) (n : Fin 64), ∃ (f : BFmt), Runs s n.val (bWord 0x25 f) f.g 1 ∧ (s.stall n.val).handlers = [] ∧ f.z = 0 ∧ f.off
      = 0 ∧ s.stageIs n.val .pred = false) ∧
    (∃ (s : State) (n : Fin 64), ∃ (f : BFmt), ∃ im, ∃ x, Runs s n.val (bWord 0x25 f) f.g 1 ∧ (s.stall n.val).handlers = [] ∧ f.z
      = 0 ∧ f.off = 0 ∧ s.stageIs n.val .pred = true ∧ (s.stall n.val).image = some im ∧ im.xform = some x) ∧
    (∃ (s : State) (n : Fin 64), ∃ (f : BFmt), ∃ im, Runs s n.val (bWord 0x25 f) f.g 1 ∧ (s.stall n.val).handlers = [] ∧ f.z = 0 ∧
      f.off = 0 ∧ s.stageIs n.val .pred = true ∧ (s.stall n.val).image = some im ∧ im.xform = none ∧ (s.lotPipe n.val).any (fun p
      => p.defines 0) = false) ∧
    (∃ (s : State) (n : Fin 64), ∃ (f : BFmt), ∃ im, ∃ p, Runs s n.val (bWord 0x25 f) f.g 1 ∧ (s.stall n.val).handlers = [] ∧ f.z
      = 0 ∧ f.off = 0 ∧ s.stageIs n.val .pred = true ∧ (s.stall n.val).image = some im ∧ im.xform = none ∧ s.lotPipe n.val = some
      p ∧ p.defines 0 = true ∧ s.emitOk n.val 0 = false) ∧
    (∃ (s : State) (n : Fin 64), ∃ (f : BFmt), ∃ im, ∃ p, Runs s n.val (bWord 0x25 f) f.g 1 ∧ (s.stall n.val).handlers = [] ∧ f.z
      = 0 ∧ f.off = 0 ∧ s.stageIs n.val .pred = true ∧ (s.stall n.val).image = some im ∧ im.xform = none ∧ s.lotPipe n.val = some
      p ∧ p.defines 0 = true ∧ s.emitOk n.val 0 = true ∧ s.credit n.val = true) ∧
    (∃ (s : State) (n : Fin 64), ∃ (f : BFmt), ∃ im, ∃ p, Runs s n.val (bWord 0x25 f) f.g 1 ∧ (s.stall n.val).handlers = [] ∧ f.z
      = 0 ∧ f.off = 0 ∧ s.stageIs n.val .pred = true ∧ (s.stall n.val).image = some im ∧ im.xform = none ∧ s.lotPipe n.val = some
      p ∧ p.defines 0 = true ∧ s.emitOk n.val 0 = true ∧ s.credit n.val = false) ∧
    (∃ (s : State) (n : Fin 64), ∃ (f : BFmt), Runs s n.val (bWord 0x26 f) f.g 1 ∧ (s.stall n.val).handlers = [] ∧ f.z = 0 ∧ f.off
      = 0 ∧ s.stageIs n.val .pred = true) ∧
    (∃ (s : State) (n : Fin 64), ∃ (f : BFmt), Runs s n.val (bWord 0x26 f) f.g 1 ∧ (s.stall n.val).handlers = [] ∧ f.z = 0 ∧ f.off
      = 0 ∧ s.stageIs n.val .pred = false) ∧
    (∃ (s : State) (n : Fin 64), ∃ (f : BFmt), Runs s n.val (bWord 0x27 f) f.g 1 ∧ (s.stall n.val).handlers = [] ∧ f.z = 0 ∧ f.off
      = 0 ∧ s.stageIs n.val .xform = true) ∧
    (∃ (s : State) (n : Fin 64), ∃ (f : BFmt), Runs s n.val (bWord 0x27 f) f.g 1 ∧ (s.stall n.val).handlers = [] ∧ f.z = 0 ∧ f.off
      = 0 ∧ s.stageIs n.val .xform = false) ∧
    (∃ (s : State) (n : Fin 64), ∃ (f : BFmt), Runs s n.val (bWord 0x28 f) f.g 2 ∧ f.z = 0 ∧ f.off = 0 ∧ (s.stall n.val).handlers
      = []) ∧
    (∃ (s : State) (n : Fin 64), ∃ (f : BFmt), ∃ h hs, Runs s n.val (bWord 0x28 f) f.g 2 ∧ f.z = 0 ∧ f.off = 0 ∧ (s.stall
      n.val).handlers = h :: hs ∧ 2 ≤ (s.stall n.val).cycles) ∧
    (∃ (s : State) (n : Fin 64), ∃ (f : BFmt), Runs s n.val (bWord 0x3A f) f.g 1 ∧ f.z = 0) ∧
    (∃ (s : State) (n : Fin 64), ∃ (f : BFmt), Runs s n.val (bWord 0x38 f) f.g 1 ∧ (s.stall n.val).handlers = [] ∧ f.z = 0 ∧ f.off
      = 0) :=
  ⟨⟨runs (bWord 0x20 ⟨0, 0, 16383⟩) (id), 0, ⟨0, 0, 16383⟩, runsWord (by decide +kernel) (by decide +kernel), by decide +kernel⟩,
    ⟨runs (lWord 0x21 ⟨1, 4095⟩) (id), 0, ⟨1, 4095⟩, runsWord (by decide +kernel) (by decide +kernel), by decide +kernel⟩,
    ⟨runs (lWord 0x21 ⟨1, 4095⟩) (fun t => { t with core := { t.core with loops := List.replicate 4 ⟨0, 0, 0, false, 0⟩ } }), 0,
      ⟨1, 4095⟩, runsWord (by decide +kernel) (by decide +kernel), by decide +kernel⟩,
    ⟨runs (lWord 0x22 ⟨1, 0x200⟩) (regs [(2, 4097)]), 0, ⟨1, 0x200⟩, 4096, runsWord (by decide +kernel) (by decide +kernel),
      by decide +kernel⟩,
    ⟨runs (lWord 0x22 ⟨1, 0x200⟩) (id), 0, ⟨1, 0x200⟩, 0, runsWord (by decide +kernel) (by decide +kernel), by decide +kernel⟩,
    ⟨runs (lWord 0x17 ⟨1, 0⟩) (id), 0, ⟨1, 0⟩, 1, runsWord (by decide +kernel) (by decide +kernel), by decide +kernel⟩,
    ⟨runs (lWord 0x17 ⟨1, 0⟩) (fun t => { t with core := { t.core with wp := 32 } }), 0, ⟨1, 0⟩, 0, runsWord (by decide +kernel)
      (by decide +kernel), by decide +kernel⟩,
    ⟨runs (bWord 0x23 ⟨0, 0, 1⟩) (fun t => { t with core := { t.core with calls := [1, 2, 3] } }), 0, ⟨0, 0, 1⟩, runsWord
      (by decide +kernel) (by decide +kernel), by decide +kernel⟩,
    ⟨runs (bWord 0x23 ⟨0, 0, 1⟩) (fun t => { t with core := { t.core with calls := [1, 2, 3, 4] } }), 0, ⟨0, 0, 1⟩, runsWord
      (by decide +kernel) (by decide +kernel), by decide +kernel⟩,
    ⟨runs (bWord 0x24 ⟨0, 0, 0⟩) (id), 0, ⟨0, 0, 0⟩, runsWord (by decide +kernel) (by decide +kernel), by decide +kernel⟩,
    ⟨runs (bWord 0x24 ⟨0, 0, 0⟩) (fun t => { t with core := { t.core with calls := [1] } }), 0, ⟨0, 0, 0⟩, 1, [],
      { ((runs (bWord 0x24 ⟨0, 0, 0⟩) (fun t => { t with core := { t.core with calls := [1] } })).stall 0).core with calls := [] },
      runsWord (by decide +kernel) (by decide +kernel), by decide +kernel, by decide +kernel⟩,
    ⟨runs (bWord 0x25 ⟨0, 0, 0⟩) (fun t => { t with stage := .xform }), 0, ⟨0, 0, 0⟩, runsWord (by decide +kernel)
      (by decide +kernel), by decide +kernel⟩,
    ⟨runs (bWord 0x25 ⟨0, 0, 0⟩) (id), 0, ⟨0, 0, 0⟩, anImage, 1, runsWord (by decide +kernel) (by decide +kernel),
      by decide +kernel⟩,
    ⟨{ runs (bWord 0x25 ⟨0, 0, 0⟩) (fun t => { t with image := some { anImage with xform := none } }) with pipes := [(0, { aPipe with outs := #v[(0, 0), (1, 2), (0, 0), (0, 0)] })] },
      0, ⟨0, 0, 0⟩, { anImage with xform := none }, runsWord (by decide +kernel) (by decide +kernel), by decide +kernel⟩,
    ⟨{ runs (bWord 0x25 ⟨0, 0, 0⟩) (fun t => { t with image := some { anImage with xform := none }, nsOuts := [0] }) with pipes := [(0, { aPipe with outs := #v[(1, 2), (0, 0), (0, 0), (0, 0)] })] },
      0, ⟨0, 0, 0⟩, { anImage with xform := none }, { aPipe with outs := #v[(1, 2), (0, 0), (0, 0), (0, 0)] }, runsWord
      (by decide +kernel) (by decide +kernel), by decide +kernel⟩,
    ⟨runs (bWord 0x25 ⟨0, 0, 0⟩) (fun t => { t with image := some { anImage with xform := none } }), 0, ⟨0, 0, 0⟩,
      { anImage with xform := none }, aPipe, runsWord (by decide +kernel) (by decide +kernel), by decide +kernel⟩,
    ⟨runs (bWord 0x25 ⟨0, 0, 0⟩) (fun t =>
      { t with image := some { anImage with xform := none }, moves := List.replicate 8 ⟨0, .fromCard 0 0 64, 0⟩ }), 0, ⟨0, 0, 0⟩,
      { anImage with xform := none }, aPipe, runsWord (by decide +kernel) (by decide +kernel), by decide +kernel⟩,
    ⟨runs (bWord 0x26 ⟨0, 0, 0⟩) (id), 0, ⟨0, 0, 0⟩, runsWord (by decide +kernel) (by decide +kernel), by decide +kernel⟩,
    ⟨runs (bWord 0x26 ⟨0, 0, 0⟩) (fun t => { t with stage := .xform }), 0, ⟨0, 0, 0⟩, runsWord (by decide +kernel)
      (by decide +kernel), by decide +kernel⟩,
    ⟨runs (bWord 0x27 ⟨0, 0, 0⟩) (fun t => { t with stage := .xform }), 0, ⟨0, 0, 0⟩, runsWord (by decide +kernel)
      (by decide +kernel), by decide +kernel⟩,
    ⟨runs (bWord 0x27 ⟨0, 0, 0⟩) (id), 0, ⟨0, 0, 0⟩, runsWord (by decide +kernel) (by decide +kernel), by decide +kernel⟩,
    ⟨runs (bWord 0x28 ⟨0, 0, 0⟩) (id), 0, ⟨0, 0, 0⟩, runsWord (by decide +kernel) (by decide +kernel), by decide +kernel⟩,
    ⟨runs (bWord 0x28 ⟨0, 0, 0⟩) (fun t => inHandler { t with cycles := 2 }), 0, ⟨0, 0, 0⟩, ⟨0, .normal, 0, 0, []⟩, [], runsWord
      (by decide +kernel) (by decide +kernel), by decide +kernel⟩,
    ⟨runs (bWord 0x3A ⟨0, 0, 16383⟩) (id), 0, ⟨0, 0, 16383⟩, runsWord (by decide +kernel) (by decide +kernel), by decide +kernel⟩,
    ⟨runs (bWord 0x38 ⟨0, 0, 0⟩) (id), 0, ⟨0, 0, 0⟩, runsWord (by decide +kernel) (by decide +kernel), by decide +kernel⟩⟩

theorem witness_MoveRows :
    (∃ (s : State) (n : Fin 64), ∃ (f : RFmt), Runs s n.val (rWord 0x34 f) f.g 2 ∧ (s.stall n.val).handlers = [] ∧ f.d = 0 ∧ f.a =
      0 ∧ f.b = 0 ∧ f.fn.toNat < 4 ∧ s.emitOk n.val f.fn.toNat = false) ∧
    (∃ (s : State) (n : Fin 64), ∃ (f : RFmt), Runs s n.val (rWord 0x34 f) f.g 2 ∧ (s.stall n.val).handlers = [] ∧ f.d = 0 ∧ f.a =
      0 ∧ f.b = 0 ∧ f.fn.toNat < 4 ∧ s.emitOk n.val f.fn.toNat = true ∧ 8 ≤ (s.stall n.val).moves.length) ∧
    (∃ (s : State) (n : Fin 64), ∃ (f : RFmt), Runs s n.val (rWord 0x34 f) f.g 2 ∧ (s.stall n.val).handlers = [] ∧ f.d = 0 ∧ f.a =
      0 ∧ f.b = 0 ∧ f.fn.toNat < 4 ∧ s.emitOk n.val f.fn.toNat = true ∧ (s.stall n.val).moves.length < 8) ∧
    (∃ (s : State) (n : Fin 64), ∃ (f : RFmt) (out cls a len : Nat), Runs s n.val (rWord 0x35 f) f.g 2 ∧ (s.stall n.val).handlers
      = [] ∧ f.d = 0 ∧ fld f.fn 3 2 = 0 ∧ fld f.fn 9 8 = 0 ∧ cls = fld f.fn 7 4 ∧ cls ≤ 14 ∧ out = fld f.fn 1 0 ∧ a = ((s.stall
      n.val).reg f.a).toNat ∧ len = ((s.stall n.val).reg f.b).toNat ∧ (localRange a len 8 = false ∨ len < 32 ∨ 2 ^ (cls + 5) < len
      ∨ s.emitOk n.val out = false)) ∧
    (∃ (s : State) (n : Fin 64), ∃ (f : RFmt) (out cls a len : Nat), ∃ h, Runs s n.val (rWord 0x35 f) f.g 2 ∧ loadLocal n.val a 8
      s = (h, s) ∧ (s.stall n.val).handlers = [] ∧ f.d = 0 ∧ fld f.fn 3 2 = 0 ∧ fld f.fn 9 8 = 0 ∧ cls = fld f.fn 7 4 ∧ cls ≤ 14 ∧
      out = fld f.fn 1 0 ∧ a = ((s.stall n.val).reg f.a).toNat ∧ len = ((s.stall n.val).reg f.b).toNat ∧ localRange a len 8 = true
      ∧ 32 ≤ len ∧ len ≤ 2 ^ (cls + 5) ∧ s.emitOk n.val out = true ∧ h.any (fun b => recVersion b != 1 || recType b == 0) = true) ∧
    (∃ (s : State) (n : Fin 64), ∃ (f : RFmt) (out cls a len : Nat), ∃ h, Runs s n.val (rWord 0x35 f) f.g 2 ∧ loadLocal n.val a 8
      s = (h, s) ∧ (s.stall n.val).handlers = [] ∧ f.d = 0 ∧ fld f.fn 3 2 = 0 ∧ fld f.fn 9 8 = 0 ∧ cls = fld f.fn 7 4 ∧ cls ≤ 14 ∧
      out = fld f.fn 1 0 ∧ a = ((s.stall n.val).reg f.a).toNat ∧ len = ((s.stall n.val).reg f.b).toNat ∧ localRange a len 8 = true
      ∧ 32 ≤ len ∧ len ≤ 2 ^ (cls + 5) ∧ s.emitOk n.val out = true ∧ h.any (fun b => recVersion b != 1 || recType b == 0) = false
      ∧ 8 ≤ (s.stall n.val).moves.length) ∧
    (∃ (s : State) (n : Fin 64), ∃ (f : RFmt) (out cls a len : Nat), ∃ h, Runs s n.val (rWord 0x35 f) f.g 2 ∧ loadLocal n.val a 8
      s = (h, s) ∧ (s.stall n.val).handlers = [] ∧ f.d = 0 ∧ fld f.fn 3 2 = 0 ∧ fld f.fn 9 8 = 0 ∧ cls = fld f.fn 7 4 ∧ cls ≤ 14 ∧
      out = fld f.fn 1 0 ∧ a = ((s.stall n.val).reg f.a).toNat ∧ len = ((s.stall n.val).reg f.b).toNat ∧ localRange a len 8 = true
      ∧ 32 ≤ len ∧ len ≤ 2 ^ (cls + 5) ∧ s.emitOk n.val out = true ∧ h.any (fun b => recVersion b != 1 || recType b == 0) = false
      ∧ (s.stall n.val).moves.length < 8) ∧
    (∃ (s : State) (n : Fin 64), ∃ (f : RFmt) (card loc len : Nat), Runs s n.val (rWord 0x36 f) f.g 2 ∧ card = ((s.stall
      n.val).reg f.d).toNat ∧ loc = ((s.stall n.val).reg f.a).toNat ∧ len = ((s.stall n.val).reg f.b).toNat ∧ f.fn.toNat < 2 ∧
      (localRange loc len 64 = false ∨ card % 64 ≠ 0 ∨ len % 64 ≠ 0 ∨ len < 64 ∨ 65536 < len)) ∧
    (∃ (s : State) (n : Fin 64), ∃ (f : RFmt) (card loc len : Nat), Runs s n.val (rWord 0x36 f) f.g 2 ∧ card = ((s.stall
      n.val).reg f.d).toNat ∧ loc = ((s.stall n.val).reg f.a).toNat ∧ len = ((s.stall n.val).reg f.b).toNat ∧ f.fn.toNat < 2 ∧
      localRange loc len 64 = true ∧ card % 64 = 0 ∧ len % 64 = 0 ∧ 64 ≤ len ∧ len ≤ 65536 ∧ (s.stall n.val).moves.length < 8 ∧
      f.fn = 0) ∧
    (∃ (s : State) (n : Fin 64), ∃ (f : RFmt) (card loc len : Nat), Runs s n.val (rWord 0x36 f) f.g 2 ∧ card = ((s.stall
      n.val).reg f.d).toNat ∧ loc = ((s.stall n.val).reg f.a).toNat ∧ len = ((s.stall n.val).reg f.b).toNat ∧ f.fn.toNat < 2 ∧
      localRange loc len 64 = true ∧ card % 64 = 0 ∧ len % 64 = 0 ∧ 64 ≤ len ∧ len ≤ 65536 ∧ (s.stall n.val).moves.length < 8 ∧
      f.fn = 1) ∧
    (∃ (s : State) (n : Fin 64), ∃ (f : BFmt), Runs s n.val (bWord 0x39 f) f.g 1 ∧ f.z = 0 ∧ f.off = 0 ∧ (s.stall n.val).moves =
      []) ∧
    (∃ (s : State) (n : Fin 64), ∃ (f : BFmt), Runs s n.val (bWord 0x39 f) f.g 1 ∧ f.z = 0 ∧ f.off = 0 ∧ (s.stall n.val).moves ≠
      []) ∧
    (∃ (s : State) (n : Fin 64), ∃ (f : RFmt) (l : Lot) (p : Pipe) (i : Nat), Runs s n.val (rWord 0x2F f) f.g 1 ∧ (s.stall
      n.val).handlers = [] ∧ f.d = 0 ∧ f.fn.toNat < 4 ∧ s.curLot n.val = some l ∧ s.lotPipe n.val = some p ∧ i = ((s.stall
      n.val).reg f.b).toNat ∧ p.tallyCount ≤ i) ∧
    (∃ (s : State) (n : Fin 64), ∃ (f : RFmt) (l : Lot) (p : Pipe) (i : Nat), Runs s n.val (rWord 0x2F f) f.g 1 ∧ (s.stall
      n.val).handlers = [] ∧ f.d = 0 ∧ f.fn.toNat < 4 ∧ s.curLot n.val = some l ∧ s.lotPipe n.val = some p ∧ i = ((s.stall
      n.val).reg f.b).toNat ∧ i < p.tallyCount ∧ look l.tally i = none) ∧
    (∃ (s : State) (n : Fin 64), ∃ (f : RFmt) (l : Lot) (p : Pipe) (i : Nat), ∃ old, Runs s n.val (rWord 0x2F f) f.g 1 ∧ (s.stall
      n.val).handlers = [] ∧ f.d = 0 ∧ f.fn.toNat < 4 ∧ s.curLot n.val = some l ∧ s.lotPipe n.val = some p ∧ i = ((s.stall
      n.val).reg f.b).toNat ∧ i < p.tallyCount ∧ look l.tally i = some (f.fn.toNat, old)) ∧
    (∃ (s : State) (n : Fin 64), ∃ (f : RFmt) (l : Lot) (p : Pipe) (i : Nat), ∃ o old, Runs s n.val (rWord 0x2F f) f.g 1 ∧
      (s.stall n.val).handlers = [] ∧ f.d = 0 ∧ f.fn.toNat < 4 ∧ s.curLot n.val = some l ∧ s.lotPipe n.val = some p ∧ i =
      ((s.stall n.val).reg f.b).toNat ∧ i < p.tallyCount ∧ look l.tally i = some (o, old) ∧ o ≠ f.fn.toNat) ∧
    (∃ (s : State) (n : Fin 64), ∃ (f : RFmt), Runs s n.val (rWord 0x2E f) f.g 4 ∧ (s.stall n.val).handlers = [] ∧ f.d = 0 ∧ f.a =
      0 ∧ f.b = 0 ∧ f.fn.toNat < 32 ∧ fld f.fn 3 0 = 5) ∧
    (∃ (s : State) (n : Fin 64), ∃ (f : RFmt), Runs s n.val (rWord 0x2E f) f.g 4 ∧ (s.stall n.val).handlers = [] ∧ f.d = 0 ∧ f.a =
      0 ∧ f.b = 0 ∧ f.fn.toNat < 32 ∧ fld f.fn 3 0 = 4 ∧ fld f.fn 4 4 = 0 ∧ ((s.stall n.val).reg 1).toNat + ((s.stall n.val).reg
      2).toNat ≤ 0x80000 ∧ localRange ((s.stall n.val).reg 3).toNat 32 8 = true) ∧
    (∃ (s : State) (n : Fin 64), ∃ (f : RFmt), Runs s n.val (rWord 0x2E f) f.g 4 ∧ (s.stall n.val).handlers = [] ∧ f.d = 0 ∧ f.a =
      0 ∧ f.b = 0 ∧ f.fn.toNat < 32 ∧ fld f.fn 3 0 < 4 ∧ s.compressOn = false ∧ (fld f.fn 4 4 = 1 ∨ (s.peekLocal n.val ((s.stall
      n.val).reg 1).toNat ((s.stall n.val).reg 2).toNat).any Option.isNone = false)) :=
  ⟨⟨runs (rWord 0x34 ⟨0, 0, 0, 0, 2⟩) (id), 0, ⟨0, 0, 0, 0, 2⟩, runsWord (by decide +kernel) (by decide +kernel),
      by decide +kernel⟩,
    ⟨runs (rWord 0x34 ⟨0, 0, 0, 0, 0⟩) (fun t => { t with moves := List.replicate 8 ⟨0, .fromCard 0 0 64, 0⟩ }), 0, ⟨0, 0, 0, 0,
      0⟩, runsWord (by decide +kernel) (by decide +kernel), by decide +kernel⟩,
    ⟨runs (rWord 0x34 ⟨0, 0, 0, 0, 1⟩) (id), 0, ⟨0, 0, 0, 0, 1⟩, runsWord (by decide +kernel) (by decide +kernel),
      by decide +kernel⟩,
    ⟨runs (rWord 0x35 ⟨0, 0, 1, 2, 0⟩) (regs [(1, 8), (2, 33)]), 0, ⟨0, 0, 1, 2, 0⟩, 0, 0, 8, 33, runsWord (by decide +kernel)
      (by decide +kernel), by decide +kernel⟩,
    ⟨runs (rWord 0x35 ⟨0, 0, 1, 2, 0⟩) (regs [(1, 8), (2, 32)]), 0, ⟨0, 0, 1, 2, 0⟩, 0, 0, 8, 32, (loadLocal 0 8 8 (runs (rWord
      0x35 ⟨0, 0, 1, 2, 0⟩) (regs [(1, 8), (2, 32)]))).1, runsWord (by decide +kernel) (by decide +kernel), Prod.ext rfl rfl,
      by decide +kernel⟩,
    ⟨(runs (rWord 0x35 ⟨0, 0, 1, 2, 0⟩) (fun t => regs [(1, 0), (2, 32)]
      { t with moves := List.replicate 8 ⟨0, .fromCard 0 0 64, 0⟩ })), 0, ⟨0, 0, 1, 2, 0⟩, 0, 0, 0, 32, (loadLocal 0 0 8 (runs
      (rWord 0x35 ⟨0, 0, 1, 2, 0⟩) (fun t => regs [(1, 0), (2, 32)]
      { t with moves := List.replicate 8 ⟨0, .fromCard 0 0 64, 0⟩ }))).1, runsWord (by decide +kernel) (by decide +kernel),
      Prod.ext rfl rfl, by decide +kernel⟩,
    ⟨runs (rWord 0x35 ⟨0, 0, 1, 2, 0⟩) (regs [(1, 0), (2, 32)]), 0, ⟨0, 0, 1, 2, 0⟩, 0, 0, 0, 32, (loadLocal 0 0 8 (runs (rWord
      0x35 ⟨0, 0, 1, 2, 0⟩) (regs [(1, 0), (2, 32)]))).1, runsWord (by decide +kernel) (by decide +kernel), Prod.ext rfl rfl,
      by decide +kernel⟩,
    ⟨runs (rWord 0x36 ⟨0, 1, 2, 3, 0⟩) (regs [(1, 0), (2, 0), (3, 65600)]), 0, ⟨0, 1, 2, 3, 0⟩, 0, 0, 65600, runsWord
      (by decide +kernel) (by decide +kernel), by decide +kernel⟩,
    ⟨runs (rWord 0x36 ⟨0, 1, 2, 3, 0⟩) (regs [(1, 8589934592), (2, 0), (3, 64)]), 0, ⟨0, 1, 2, 3, 0⟩, 8589934592, 0, 64, runsWord
      (by decide +kernel) (by decide +kernel), by decide +kernel⟩,
    ⟨runs (rWord 0x36 ⟨0, 1, 2, 3, 1⟩) (regs [(1, 64), (2, 64), (3, 65536)]), 0, ⟨0, 1, 2, 3, 1⟩, 64, 64, 65536, runsWord
      (by decide +kernel) (by decide +kernel), by decide +kernel⟩,
    ⟨runs (bWord 0x39 ⟨0, 0, 0⟩) (id), 0, ⟨0, 0, 0⟩, runsWord (by decide +kernel) (by decide +kernel), by decide +kernel⟩,
    ⟨runs (bWord 0x39 ⟨0, 0, 0⟩) (fun t => { t with moves := [⟨0, .fromCard 0 0 64, 0⟩] }), 0, ⟨0, 0, 0⟩, runsWord
      (by decide +kernel) (by decide +kernel), by decide +kernel⟩,
    ⟨{ (runs (rWord 0x2F ⟨0, 0, 2, 3, 1⟩) (regs [(3, 2)])) with lots := [{ aLot with tally := [] }] }, 0, ⟨0, 0, 2, 3, 1⟩,
      { aLot with tally := [] }, aPipe, 2, runsWord (by decide +kernel) (by decide +kernel), by decide +kernel⟩,
    ⟨{ (runs (rWord 0x2F ⟨0, 0, 2, 3, 1⟩) (regs [(3, 1)])) with lots := [{ aLot with tally := [] }] }, 0, ⟨0, 0, 2, 3, 1⟩,
      { aLot with tally := [] }, aPipe, 1, runsWord (by decide +kernel) (by decide +kernel), by decide +kernel⟩,
    ⟨{ (runs (rWord 0x2F ⟨0, 0, 2, 3, 1⟩) (regs [(3, 1)])) with lots := [{ aLot with tally := [(1, 1, 7)] }] }, 0, ⟨0, 0, 2, 3,
      1⟩, { aLot with tally := [(1, 1, 7)] }, aPipe, 1, 7, runsWord (by decide +kernel) (by decide +kernel), by decide +kernel⟩,
    ⟨{ (runs (rWord 0x2F ⟨0, 0, 2, 3, 1⟩) (regs [(3, 1)])) with lots := [{ aLot with tally := [(1, 0, 7)] }] }, 0, ⟨0, 0, 2, 3,
      1⟩, { aLot with tally := [(1, 0, 7)] }, aPipe, 1, 0, 7, runsWord (by decide +kernel) (by decide +kernel), by decide +kernel⟩,
    ⟨runs (rWord 0x2E ⟨0, 0, 0, 0, 5⟩) (id), 0, ⟨0, 0, 0, 0, 5⟩, runsWord (by decide +kernel) (by decide +kernel),
      by decide +kernel⟩,
    ⟨runs (rWord 0x2E ⟨0, 0, 0, 0, 4⟩) (regs [(1, 0x7FFFF), (2, 1), (3, 0x7FFE0)]), 0, ⟨0, 0, 0, 0, 4⟩, runsWord
      (by decide +kernel) (by decide +kernel), by decide +kernel⟩,
    ⟨runs (rWord 0x2E ⟨0, 0, 0, 0, 3⟩) (id), 0, ⟨0, 0, 0, 0, 3⟩, runsWord (by decide +kernel) (by decide +kernel),
      by decide +kernel⟩⟩

set_option maxRecDepth 4096 in
theorem witness_StallEventRows :
    (∃ (s : State) (n : Fin 64), ∃ id l, (s.stall n.val).lots = [id] ∧ s.lot id = some l ∧ l.query = none ∧ (l.pipe.bind
      s.pipe).any (fun p => !p.running) = false ∧ l.issues < 2) ∧
    (∃ (s : State) (n : Fin 64), ∃ id l, (s.stall n.val).lots = [id] ∧ s.lot id = some l ∧ l.query = none ∧ (l.pipe.bind
      s.pipe).any (fun p => !p.running) = false ∧ 2 ≤ l.issues) ∧
    (∃ (n : Fin 64), ∃ m, m ≠ n.val) ∧
    (∃ (cause : Nat), 1 ≤ cause ∧ cause ≤ 5) ∧
    (∃ (s : State) (n : Fin 64), s.operating = true ∧ (s.stall n.val).state = .running ∧ ((s.stall n.val).stage = .pred ∨ (s.stall
      n.val).stage = .xform)) ∧
    (∃ (s : State) (n : Fin 64), s.operating = true ∧ (s.stall n.val).state = .running ∧ (s.stall n.val).lots ≠ [] ∧ (s.stall
      n.val).slow = false ∧ (∀ id ∈ (s.stall n.val).lots.drop 1, ∃ l, s.lot id = some l ∧ l.query = none ∧ (l.pipe.bind
      s.pipe).any (fun p => !p.running) = false)) ∧
    (∃ (s : State) (n : Fin 64) (id : Nat) (rest : List Nat) (l : Lot) (im : Image), ∃ x, s.operating = true ∧ s.pwr.watch ≠
      .asleep ∧ (s.stall n.val).state = .running ∧ (s.stall n.val).handlers = [] ∧ (s.stall n.val).lots = id :: rest ∧ s.lot id =
      some l ∧ (s.stall n.val).image = some im ∧ (s.stall n.val).stage = .kept ∧ im.xform = some x) ∧
    (∃ (s : State) (n : Fin 64) (id : Nat) (rest : List Nat) (l : Lot) (im : Image), ∃ r, s.operating = true ∧ s.pwr.watch ≠
      .asleep ∧ (s.stall n.val).state = .running ∧ (s.stall n.val).handlers = [] ∧ (s.stall n.val).lots = id :: rest ∧ s.lot id =
      some l ∧ (s.stall n.val).image = some im ∧ (s.stall n.val).stage = .idle ∧ ((l.recs.zipIdx.drop (s.stall n.val).rec_).filter
      fun r => r.1.parsed)[0]? = some r) ∧
    (∃ (s : State) (n : Fin 64) (c : UnitCall) (fr : Nat), ∃ bs, loadLocal n.val c.args[0].toNat c.args[1].toNat s = (some bs, s)
      ∧ s.operating = true ∧ s.pwr.watch ≠ .asleep ∧ (s.stall n.val).state = .running ∧ (s.stall n.val).handlers = [] ∧ (s.stall
      n.val).call = some c ∧ s.unitOf c.order = some fr ∧ c.unit = 4 ∧ c.src ≠ 1) ∧
    (∃ (s : State) (n : Fin 64) (c : UnitCall) (fr : Nat), s.operating = true ∧ s.pwr.watch ≠ .asleep ∧ (s.stall n.val).state =
      .running ∧ (s.stall n.val).handlers = [] ∧ (s.stall n.val).call = some c ∧ s.unitOf c.order = some fr ∧ c.unit = 5 ∧ look
      s.ns c.args[0].toNat = none) ∧
    (∃ (s : State) (n : Fin 64) (c : UnitCall), (s.stall n.val).call = some c ∧ s.unitOf c.order = none) ∧
    (∃ (s s1 : State) (n : Fin 64) (x : Move), s1 = s.modStall n.val (fun t =>
      { t with moves := t.moves.filter fun y => y.id != x.id }) ∧ (s.stall n.val).moves.find? (fun y => y.id == x.id) = some x ∧
      s.moving (.stall n.val x.id) = false) ∧
    (∃ (s s1 : State) (n : Fin 64) (x : Move), ∃ (l : Lot) (r : LotRec) (lot rec_ out : Nat) (w : Bool × State), s1 = s.modStall
      n.val (fun t => { t with moves := t.moves.filter fun y => y.id != x.id }) ∧ w = cardWriteIn (s.setOf x.epoch) false (.stall
      n.val) (outputArea n.val lot ((l.emits.map fun e => e.bytes.length).foldl (· + ·) 0)) r.bytes s1 ∧ (s.stall
      n.val).moves.find? (fun y => y.id == x.id) = some x ∧ s.operating = true ∧ s.moving (.stall n.val x.id) = true ∧ x.kind =
      .emitRecord lot rec_ out ∧ s.lot lot = some l ∧ l.recs[rec_]? = some r) ∧
    (∃ (s s1 : State) (n : Fin 64) (x : Move), ∃ (loc card : Nat) (snap : List (Option Byte)) (bs : List Byte) (s2 : State) (w :
      Bool × State), s1 = s.modStall n.val (fun t => { t with moves := t.moves.filter fun y => y.id != x.id }) ∧ sourceBytes n.val
      loc snap s1 = (some bs, s2) ∧ w = cardWriteIn (s.setOf x.epoch) false (.stall n.val) card bs s2 ∧ (s.stall
      n.val).moves.find? (fun y => y.id == x.id) = some x ∧ s.operating = true ∧ s.moving (.stall n.val x.id) = true ∧ x.kind =
      .toCard loc card snap) ∧
    (∃ (s s1 : State) (n : Fin 64) (x : Move), ∃ (loc card : Nat) (snap : List (Option Byte)) (s2 : State), s1 = s.modStall n.val
      (fun t => { t with moves := t.moves.filter fun y => y.id != x.id }) ∧ sourceBytes n.val loc snap s1 = (none, s2) ∧ (s.stall
      n.val).moves.find? (fun y => y.id == x.id) = some x ∧ s.operating = true ∧ s.moving (.stall n.val x.id) = true ∧ x.kind =
      .toCard loc card snap) ∧
    (∃ (s : State) (n : Fin 64) (e pc : Nat) (k : HandlerKind) (im : Image), s.operating = true ∧ s.pwr.watch ≠ .asleep ∧ (s.stall
      n.val).state = .running ∧ s.taken n.val = some (e, k) ∧ (s.stall n.val).image = some im ∧ (im.vector k).1 = some pc) ∧
    (∃ (s : State) (n : Fin 64) (id : Nat) (l : Lot), s.operating = true ∧ (s.stall n.val).state = .running ∧ (s.stall
      n.val).stage = .idle ∧ (s.stall n.val).handlers = [] ∧ (s.stall n.val).moves = [] ∧ (s.stall n.val).porterFault = none ∧
      (s.stall n.val).stops = [] ∧ (s.stall n.val).lots = [id] ∧ s.lot id = some l ∧ (l.recs.drop (s.stall n.val).rec_).any
      LotRec.parsed = false) :=
  ⟨⟨runs 0 id, 0, 0, aLot, by decide +kernel⟩,
    ⟨{ runs 0 id with lots := [{ aLot with issues := 2 }] }, 0, 0, { aLot with issues := 2 }, by decide +kernel⟩,
    ⟨0, 1, by decide +kernel⟩,
    ⟨5, by decide +kernel⟩,
    ⟨runs 0 id, 0, by decide +kernel⟩,
    ⟨runs 0 id, 0, by decide +kernel⟩,
    ⟨runs 0 (fun t => { t with stage := .kept }), 0, 0, [], aLot, anImage, 1, by decide +kernel⟩,
    ⟨{ (runs 0 (fun t => { t with stage := .idle })) with lots := [goodLot] }, 0, 0, [], goodLot, anImage, (goodRecord, 0),
      by decide +kernel⟩,
    ⟨unitCalled hashCall 0x30, 0, hashCall, 0x30, (loadLocal 0 0 8 (unitCalled hashCall 0x30)).1.get (by decide +kernel), Prod.ext
      (by decide +kernel) rfl, by decide +kernel⟩,
    ⟨unitCalled lookCall 0x34, 0, lookCall, 0x34, by decide +kernel⟩,
    ⟨runs 0 (fun t => { t with call := some lookCall }), 0, lookCall, by decide +kernel⟩,
    ⟨emitUp [], moveGone (emitUp []), 0, emitMove, rfl, by decide +kernel⟩,
    ⟨emitUp [(0, .stall 0 3)], moveGone (emitUp [(0, .stall 0 3)]), 0, emitMove, aLot, aRecord, 0, 0, 0, cardWrite false (.stall
      0) (outputArea 0 0 0) aRecord.bytes (moveGone (emitUp [(0, .stall 0 3)])), rfl, rfl, by decide +kernel⟩,
    ⟨pushed, moveGone pushed, 0, pushMove zeroSnap, 0, 0x200000000, zeroSnap, pushedBytes.1, pushedBytes.2, cardWrite false
      (.stall 0) 0x200000000 pushedBytes.1 pushedBytes.2, rfl, Prod.ext (by decide +kernel) rfl, rfl, by decide +kernel⟩,
    ⟨poisoned, moveGone poisoned, 0, pushMove poisonSnap, 0, 0x200000000, poisonSnap, (sourceBytes 0 0 poisonSnap (moveGone
      poisoned)).2, rfl, Prod.ext (by decide +kernel) rfl, by decide +kernel⟩,
    ⟨runs (bWord 0x38 ⟨0, 0, 0⟩) (fun t =>
      { t with ic := { t.ic with prio := false, disable := false, mask := 0, pending := 1 } }), 0, 0, 5, .normal, anImage,
      by decide +kernel⟩,
    ⟨{ (runs 0 (fun t => { t with stage := .idle, rec_ := 1 })) with lots := [goodLot] }, 0, 0, goodLot, by decide +kernel⟩⟩

theorem witness_ControlBlockRows :
    (∃ (s : State) (n : Fin 64) (m : CbMaster), CtlReach s n.val m 0x088) ∧
    (∃ (s : State) (n : Fin 64) (m : CbMaster), CtlReach s n.val m 0x08C) ∧
    (∃ (s : State) (n : Fin 64) (m : CbMaster), CtlReach s n.val m 0x094) ∧
    (∃ (s : State) (n : Fin 64) (m : CbMaster), CtlReach s n.val m 0x098) ∧
    (∃ (s : State) (n : Fin 64) (m : CbMaster), CtlReach s n.val m 0x084) ∧
    (∃ (s : State) (n : Fin 64) (m : CbMaster), CtlReach s n.val m 0x100 ∧ (s.stall n.val).state ≠ .off) ∧
    (∃ (s : State) (n : Fin 64) (m : CbMaster), CtlReach s n.val m 0x024) ∧
    (∃ (s : State) (n : Fin 64) (m : CbMaster), ∃ r, CtlReach s n.val m (flipOff r)) ∧
    (∃ (s : State) (n : Fin 64), s.running = true ∧ (s.stall n.val).state = .off ∧ (memAccess .mgmt 2 (0x04000000 + n.val * 0x1000
      + 0x088) 4 s).1 = []) ∧
    (∃ (i : Nat), ∃ j, j ≠ i) ∧
    (∃ (s : State) (pm : Bool) (n : Fin 64) (i : Nat) (w : MemWord), look ((s.stall n.val).mem pm) i = some w ∧ popcount 72
      w.flips.toNat = 0) ∧
    (∃ (s : State) (pm : Bool) (n : Fin 64) (i : Nat) (w : MemWord), look ((s.stall n.val).mem pm) i = some w ∧ popcount 72
      w.flips.toNat = 1 ∧ (s.stall n.val).state ≠ .off) ∧
    (∃ (s : State) (pm : Bool) (n : Fin 64) (i : Nat) (w : MemWord), look ((s.stall n.val).mem pm) i = some w ∧ popcount 72
      w.flips.toNat = 2) :=
  ⟨⟨runs 0 id, 0, .own, ctlOwn (by decide +kernel)⟩,
    ⟨runs 0 id, 0, .own, ctlOwn (by decide +kernel)⟩,
    ⟨runs 0 id, 0, .bar2, ctlBar2 (by decide +kernel)⟩,
    ⟨runs 0 id, 0, .porter 1, ctlPorter (by decide +kernel)⟩,
    ⟨runs 0 id, 0, .mgmt, ctlMgmt (by decide +kernel)⟩,
    ⟨runs 0 id, 0, .mgmt, ctlMgmt (by decide +kernel), by decide +kernel⟩,
    ⟨runs 0 id, 0, .own, ctlOwn (by decide +kernel)⟩,
    ⟨runs 0 id, 0, .own, .pmEcc, ctlOwn (by decide +kernel)⟩,
    ⟨up, 0, by decide +kernel⟩,
    ⟨0, 1, by decide +kernel⟩,
    ⟨runs 0 (fun t => { t with lm := [(65535, flipped 0)] }), false, 0, 65535, flipped 0, by decide +kernel⟩,
    ⟨runs 0 (fun t => { t with lm := [(65535, flipped 1)] }), false, 0, 65535, flipped 1, by decide +kernel⟩,
    ⟨runs 0 (fun t => { t with lm := [(65535, flipped 2)] }), false, 0, 65535, flipped 2, by decide +kernel⟩⟩

theorem witness_Bar2Rows :
    (∃ (s : State) (off n x : Nat) (bs : List Byte), s.bar2On = true ∧ bs.length = 8 ∧ off < 0x02000000 ∧ off = n * 0x80000 + x ∧
      x < 0x80000 ∧ off % 8 = 0 ∧ (s.stall n).state ≠ .off ∧ (memAccess (.queue 0) 2 off 8 s).1 = []) ∧
    (∃ (s : State) (off n x : Nat) (w : MemWord), s.bar2On = true ∧ off < 0x02000000 ∧ off = n * 0x80000 + x ∧ x < 0x80000 ∧ off %
      8 = 0 ∧ (s.stall n).state ≠ .off ∧ (memAccess (.queue 0) 1 off 8 s).1 = [] ∧ look (s.stall n).lm (x / 8) = some w ∧ w.flips
      = 0) ∧
    (∃ (s : State) (off n x : Nat) (w : MemWord), s.bar2On = true ∧ off < 0x02000000 ∧ off = n * 0x80000 + x ∧ x < 0x80000 ∧ off %
      8 = 0 ∧ (s.stall n).state ≠ .off ∧ (memAccess (.queue 0) 1 off 8 s).1 = [] ∧ look (s.stall n).lm (x / 8) = some w ∧ popcount
      72 w.flips.toNat = 2) ∧
    (∃ (s : State) (off : Nat), bar2Addr off = none ∧ s.bar2On = true) ∧
    (∃ (s : State), s.bar2On = false ∧ s.pwr.watch ≠ .asleep) ∧
    (∃ (s : State) (off a : Nat), s.pwr.watch = .asleep ∧ s.pwr.mainOn = true ∧ s.pwr.link = true ∧ s.native = true ∧ s.therm.held
      = false ∧ bar2Addr off = some a) ∧
    (∃ (s : State) (off a : Nat) (bs : List Byte), s.bar2On = true ∧ bar2Addr off = some a ∧ (∀ p ∈ wordParts (bs.length / 8 + 2)
      a bs.length, p.1 / 64 * 64 ∈ (memAccess (.queue 0) (writeNeed a) a bs.length s).1)) ∧
    (∃ (m : List Host.Cell) (a : Nat) (bs : List Byte), ∃ x, Memory.wf ramByte m ∧ (x < a ∨ a + bs.length ≤ x)) :=
  ⟨⟨runs 0 id, 8, 0, 8, List.replicate 8 1, by decide +kernel⟩,
    ⟨runs 0 id, 8, 0, 8, ⟨0, 0⟩, by decide +kernel⟩,
    ⟨runs 0 (fun t => { t with lm := [(65535, flipped 2)] }), 0x7FFF8, 0, 0x7FFF8, flipped 2, by decide +kernel⟩,
    ⟨up, 0x02040000, by decide +kernel⟩,
    ⟨asleepLink, by decide +kernel⟩,
    ⟨asleep, 8, 8, by decide +kernel⟩,
    ⟨denied, 8, 8, List.replicate 8 1, by decide +kernel⟩,
    ⟨[], 5, [1], 6, trivial, by decide +kernel⟩⟩

theorem witness_ReadRows :
    (∃ (s : State) (h : Nat) (c : Cmd), ∃ (move : Bool), s.io h (if move then 0x02 else 0x0C) = some c ∧ s.mapped c.nsid c.slba
      c.blocks = false) ∧
    (∃ (s : State) (h : Nat) (c : Cmd), ∃ (move : Bool), s.io h (if move then 0x02 else 0x0C) = some c ∧ s.mapped c.nsid c.slba
      c.blocks = true ∧ s.firstBad c.nsid c.slba c.blocks = none ∧ s.firstPi c (s.nsOf c) c.blocks = none) ∧
    (∃ (s : State) (h : Nat) (c : Cmd), ∃ (move : Bool) (i : Nat), s.io h (if move then 0x02 else 0x0C) = some c ∧ s.mapped c.nsid
      c.slba c.blocks = true ∧ s.firstBad c.nsid c.slba c.blocks = some i ∧ s.firstPi c (s.nsOf c) i = none) ∧
    (∃ (s : State) (h : Nat) (c : Cmd), s.io h 0x05 = some c ∧ s.mapped c.nsid c.slba c.blocks = true ∧ s.firstBad c.nsid c.slba
      c.blocks = none ∧ (s.nsOf c).fmt = 0) :=
  ⟨⟨State.plus up (rd 2), 0, (rd 2), true, by decide +kernel⟩,
    ⟨State.plus cached (rd 2), 0, (rd 2), true, by decide +kernel⟩,
    ⟨State.plus { cached with med := { cached.med with unrec := [slotKey 1 0] } } (rd 0x0C), 0, (rd 0x0C), false, 0,
      by decide +kernel⟩,
    ⟨State.plus cached (rd 5), 0, (rd 5), by decide +kernel⟩⟩

theorem witness_WriteRows :
    (∃ (s : State) (h : Nat) (c : Cmd), s.io h 0x01 = some c ∧ s.med.eol = true) ∧
    (∃ (s : State) (h : Nat) (c : Cmd), s.io h 0x01 = some c ∧ s.med.eol = false ∧ (hostBlocks c (s.nsOf c)).2 = none ∧ s.overCap
      c (s.nsOf c) = false ∧ s.programFirst c (s.nsOf c) = false ∧ s.waitq = [] ∧ s.room (s.newSlots c) = true) ∧
    (∃ (s : State) (h : Nat) (c : Cmd), s.io h 0x01 = some c ∧ s.med.eol = false ∧ (hostBlocks c (s.nsOf c)).2 = none ∧ s.overCap
      c (s.nsOf c) = false ∧ s.programFirst c (s.nsOf c) = false ∧ (s.waitq ≠ [] ∨ s.room (s.newSlots c) = false)) ∧
    (∃ (s : State) (h : Nat) (c : Cmd), s.io h 0x01 = some c ∧ s.med.eol = false ∧ (hostBlocks c (s.nsOf c)).2 = none ∧ s.overCap
      c (s.nsOf c) = false ∧ s.programFirst c (s.nsOf c) = true ∧ s.writesOpen = false) ∧
    (∃ (s : State) (h : Nat) (c : Cmd), s.io h 0x01 = some c ∧ s.med.eol = false ∧ (hostBlocks c (s.nsOf c)).2 = none ∧ s.overCap
      c (s.nsOf c) = false ∧ s.programFirst c (s.nsOf c) = true ∧ s.writesOpen = true) ∧
    (∃ (s : State) (h : Nat) (c : Cmd), ∃ a b, s.io h 0x01 = some c ∧ s.med.eol = false ∧ (hostBlocks c (s.nsOf c)).2 = some (a,
      b)) ∧
    (∃ (s : State) (h : Nat) (c : Cmd), s.io h 0x08 = some c ∧ s.med.eol = false ∧ s.windowClosed = false) ∧
    (∃ (s : State) (h : Nat) (c : Cmd), s.io h 0x09 = some c ∧ (bit (c.dword 11) 2 = false ∨ (s.med.eol = false ∧ c.ranges = []))) ∧
    (∃ (s : State) (h : Nat) (c : Cmd), s.io h 0x09 = some c ∧ bit (c.dword 11) 2 = true ∧ s.med.eol = true) ∧
    (∃ (s : State) (h : Nat) (c : Cmd), s.io h 0x09 = some c ∧ c.ranges ≠ [] ∧ s.med.eol = false) :=
  ⟨⟨State.plus ended (wr 0), 0, (wr 0), by decide +kernel⟩,
    ⟨State.plus full (wr 0), 0, (wr 0), by decide +kernel⟩,
    ⟨{ State.plus full (wr 0) with waitq := [.lot 0] }, 0, wr 0, by decide +kernel⟩,
    ⟨State.plus (closedWin full) (wr 0x40000000), 0, (wr 0x40000000), by decide +kernel⟩,
    ⟨State.plus full (wr 0x40000000), 0, (wr 0x40000000), by decide +kernel⟩,
    ⟨State.plus withPi (mkCmd 1 1 [(1, 1), (10, 5), (12, 0x04000000)] []), 0, (mkCmd 1 1 [(1, 1), (10, 5), (12, 0x04000000)] []),
      2, 0x84, by decide +kernel⟩,
    ⟨State.plus full (rd 8), 0, (rd 8), by decide +kernel⟩,
    ⟨State.plus full (rd 9), 0, (rd 9), by decide +kernel⟩,
    ⟨State.plus ended dsm, 0, dsm, by decide +kernel⟩,
    ⟨State.plus full dsm, 0, dsm, by decide +kernel⟩⟩

theorem witness_HeldRows :
    (∃ (s : State) (h : Nat) (c : Cmd) (rest : List Waiting), s.operating = true ∧ s.pwr.watch ≠ .asleep ∧ s.waitq = .write h ::
      rest ∧ s.cmd h = some c ∧ s.therm.shutting = false ∧ s.med.eol = false ∧ s.overCap c (s.nsOf c) = false ∧ s.programFirst c
      (s.nsOf c) = false ∧ s.room (s.newSlots c) = false) ∧
    (∃ (s : State) (h : Nat) (c : Cmd) (rest : List Waiting), s.operating = true ∧ s.pwr.watch ≠ .asleep ∧ s.waitq = .write h ::
      rest ∧ s.cmd h = some c ∧ s.therm.shutting = false ∧ s.med.eol = false ∧ s.overCap c (s.nsOf c) = false ∧ s.programFirst c
      (s.nsOf c) = false ∧ s.room (s.newSlots c) = true) ∧
    (∃ (s : State), s.operating = true ∧ s.windowClosed = false ∧ s.med.heldDue s.now = true ∧ (∀ x ∈ s.med.held, x.2.err = 0)) ∧
    (∃ (s : State), (s.windowClosed = true ∨ s.med.heldDue s.now = false)) ∧
    (∃ (s : State) (h : Nat) (c : Cmd), s.io h 0x00 = some c ∧ s.covered c = [] ∧ s.pagesDue c = false) ∧
    (∃ (s : State) (h : Nat) (c : Cmd), s.io h 0x00 = some c ∧ (s.covered c ≠ [] ∨ s.pagesDue c = true) ∧ (∀ x ∈ s.med.held,
      x.2.err = 0)) ∧
    (∃ (s : State) (h b : Nat) (c : Cmd), s.cmd h = some c ∧ c.phase = .flushing b ∧ s.operating = true ∧ s.covered c = [] ∧ (∀ r
      ∈ s.med.jrnl, c.describes r = true → s.med.ready r = true)) ∧
    (∃ (s : State) (h b : Nat) (c : Cmd), s.cmd h = some c ∧ c.phase = .flushing b ∧ s.operating = true ∧ (s.covered c ≠ [] ∨ (∃ r
      ∈ s.med.jrnl, c.describes r = true ∧ s.med.ready r = false))) ∧
    (∃ (s : State), s.operating = true ∧ s.med.jrnlDue s.now = true) ∧
    (∃ (s : State), s.operating = true ∧ s.med.jrnlDue s.now = false) ∧
    (∃ (s : State), s.operating = true ∧ s.med.ckptDue s.now = true) ∧
    (∃ (s : State), s.operating = true ∧ s.med.ckptDue s.now = false) ∧
    (∃ (s : State), s.mediaOn = true) ∧
    (∃ (s : State) (h : Nat) (c : Cmd), s.cmd h = some c ∧ s.windowClosed = true ∧ s.operating = true ∧ c.qid ≠ 0 ∧
      s.therm.shutting = false ∧ (c.opc = 0x01 ∨ c.opc = 0x08) ∧ c.started = false) ∧
    (∃ (s : State), s.windowClosed = false) :=
  ⟨⟨waits (wr 0) { full with hu := { full.hu with flushing := true } }, 0, wr 0, [], by decide +kernel⟩,
    ⟨waits (wr 0) full, 0, wr 0, [], by decide +kernel⟩,
    ⟨{ dirty 0 with now := 100000000 }, by decide +kernel⟩,
    ⟨full, by decide +kernel⟩,
    ⟨State.plus full (mkCmd 1 0 [(1, 1)] []), 0, (mkCmd 1 0 [(1, 1)] []), by decide +kernel⟩,
    ⟨State.plus (dirty 0) { mkCmd 1 0 [(1, 1)] [] with below := 1 }, 0, { mkCmd 1 0 [(1, 1)] [] with below := 1 },
      by decide +kernel⟩,
    ⟨State.plus full { mkCmd 1 0 [(1, 1)] [] with phase := .flushing 1, below := 1 }, 0, 1,
      { mkCmd 1 0 [(1, 1)] [] with phase := .flushing 1, below := 1 }, by decide +kernel⟩,
    ⟨State.plus (dirty 0) { mkCmd 1 0 [(1, 1)] [] with phase := .flushing 1, below := 1 }, 0, 1,
      { mkCmd 1 0 [(1, 1)] [] with phase := .flushing 1, below := 1 }, by decide +kernel⟩,
    ⟨{ full with now := 100000000, med := { Media.reset with jrnl := [⟨[slotKey 1 5], 0, 0⟩] } }, by decide +kernel⟩,
    ⟨{ full with now := 99999999, med := { Media.reset with jrnl := [⟨[slotKey 1 5], 0, 0⟩] } }, by decide +kernel⟩,
    ⟨{ full with now := 60000000000 }, by decide +kernel⟩,
    ⟨{ full with now := 59999999999 }, by decide +kernel⟩,
    ⟨full, by decide +kernel⟩,
    ⟨State.plus (closedWin full) (wr 0), 0, wr 0, by decide +kernel⟩,
    ⟨full, by decide +kernel⟩⟩

theorem witness_ProgramRows :
    (∃ (s : State) (id : Nat), s.moving (.cores id) = false) ∧
    (∃ (s : State) (p : Prog) (sb : Super), ∃ (k : Nat) (x : Slot4k), s.running = true ∧ s.moving (.cores p.id) = true ∧
      s.med.progs.filter (fun x => x.id == p.id) = [p] ∧ s.med.partials = [] ∧ look s.med.supers p.sb = some sb ∧ p.pages =
      [[⟨[(k, x)], none, none⟩]] ∧ look s.med.held k = none ∧ (∀ y, look s.med.content k = some y → y.wseq ≤ x.wseq)) ∧
    (∃ (s : State) (p : Prog) (sb : Super), s.running = true ∧ s.moving (.cores p.id) = true ∧ s.med.progs.filter (fun x => x.id
      == p.id) = [p] ∧ s.med.partials = [] ∧ look s.med.supers p.sb = some sb ∧ p.pages.length ≤ 4) ∧
    (∃ (s : State) (k : Nat) (m : Super), s.med.supers.filter (fun x => x.1 == k) = [(k, m)] ∧ s.mediaOn = true ∧ m.closed = true
      ∧ m.verify = true) ∧
    (∃ (s : State) (pl : Place), s.mediaOn = true ∧ blkKey pl ∈ s.med.intents) ∧
    (∃ (s : State) (pl : Place), s.mediaOn = true ∧ blkKey pl ∉ s.med.intents) ∧
    (∃ (s : State) (d : Fin 64), s.running = true ∧ (s.med.die d.val).failed = false) :=
  ⟨⟨up, 0, by decide +kernel⟩,
    ⟨programming .reset, aProg, aSuper, slotKey 1 5, ⟨[1], [], 0, 3, none, 0⟩, by decide +kernel⟩,
    ⟨programming .reset, aProg, aSuper, by decide +kernel⟩,
    ⟨{ full with med := { Media.reset with supers := [(0, { aSuper with closed := true, verify := true })] } }, 0,
      { aSuper with closed := true, verify := true }, by decide +kernel⟩,
    ⟨{ full with med := { Media.reset with intents := [0] } }, ⟨0, 0, 0⟩, by decide +kernel⟩,
    ⟨full, ⟨0, 0, 0⟩, by decide +kernel⟩,
    ⟨full, 0, by decide +kernel⟩⟩

theorem witness_MediaRows :
    (∃ (s : State) (pl : Place) (nsid lba : Nat) (x : Slot4k), ∃ around, s.mediaOn = true ∧ look s.med.content (slotKey nsid lba)
      = some x ∧ x.place = some pl ∧ s.med.readAround pl around = true) ∧
    (∃ (s : State) (pl : Place), s.mediaOn = true ∧ (s.med.blk pl).reads < (if (s.med.blk pl).tlc then 60000 else 200000)) ∧
    (∃ (s : State) (pl : Place), s.mediaOn = true ∧ (if (s.med.blk pl).tlc then 60000 else 200000) ≤ (s.med.blk pl).reads) ∧
    (∃ (s : State), s.mediaOn = true) ∧
    (∃ (s : State) (src : Place) (die : Fin 64), s.mediaOn = true ∧ s.windowClosed = false ∧ s.med.copySpot src die = none) ∧
    (∃ (s : State) (nsid lba : Nat) (src : Place) (die : Fin 64), ∃ (sb pos : Nat) (dst : Place) (m : Media), ∃ x, s.mediaOn =
      true ∧ s.windowClosed = false ∧ s.med.copySpot src die = some (sb, dst, pos, m) ∧ look s.med.content (slotKey nsid lba) =
      some x) ∧
    (∃ (s : State) (pl : Place), s.mediaOn = true ∧ s.med.patrolNext pl = false) ∧
    (∃ (s : State) (pl : Place) (dec : Nat), s.mediaOn = true ∧ s.med.patrolNext pl = true ∧ dec ≤ 8 ∧ (s.med.blk pl).tlc = true ∧
      24 ≤ (s.med.blk pl).age ∧ (s.med.blk pl).patrol + 1 < 24) ∧
    (∃ (s : State), s.operating = true) ∧
    (∃ (s : State), s.operating = true ∧ s.pwr.watch ≠ .asleep) :=
  ⟨⟨{ full with med := { Media.reset with dies := Media.reset.dies.set 0 { Die.reset with detoured := true }, content := [(slotKey 1 5, stored0 ⟨0, 0, 0⟩)] } },
      ⟨0, 0, 0⟩, 1, 5, stored0 ⟨0, 0, 0⟩, some (201, 200), by decide +kernel⟩,
    ⟨full, ⟨0, 0, 0⟩, by decide +kernel⟩,
    ⟨content ⟨0, 0, 0⟩ (fun b => { b with reads := 200000 }), ⟨0, 0, 0⟩, by decide +kernel⟩,
    ⟨full, by decide +kernel⟩,
    ⟨full, ⟨0, 0, 0⟩, 0, by decide +kernel⟩,
    ⟨copying, 1, 5, ⟨0, 0, 7⟩, 0, copySpot0.1, copySpot0.2.2.1, copySpot0.2.1, copySpot0.2.2.2, stored0 ⟨0, 0, 7⟩,
      by decide +kernel⟩,
    ⟨full, ⟨0, 0, 0⟩, by decide +kernel⟩,
    ⟨content ⟨0, 0, 0⟩ (fun b => { b with closed := true, tlc := true, age := 50 }), ⟨0, 0, 0⟩, 3, by decide +kernel⟩,
    ⟨full, by decide +kernel⟩,
    ⟨full, by decide +kernel⟩⟩

theorem witness_StreamRows :
    (∃ (s : State) (h : Nat) (c : Cmd), s.io h 0x81 = some c ∧ s.med.eol = true) ∧
    (∃ (s : State) (h : Nat) (c : Cmd), s.io h 0x81 = some c ∧ s.med.eol = false ∧ ((s.needs c).map s.withTail).all s.fits = true) ∧
    (∃ (s : State) (h : Nat) (c : Cmd), s.io h 0x81 = some c ∧ s.med.eol = false ∧ (∃ r ∈ (s.needs c).map s.withTail, s.fits r =
      false ∧ s.isRing r.1 = false)) ∧
    (∃ (s : State) (h : Nat) (c : Cmd), ∃ p, s.io h 0x82 = some c ∧ c.qRel = false ∧ c.qPipe = p ∧ p ≠ 0xFF ∧ s.pipe p = none) ∧
    (∃ (s : State) (h : Nat) (c : Cmd), ∃ p, ∃ x, s.io h 0x82 = some c ∧ c.qRel = false ∧ c.qPipe = p ∧ p ≠ 0xFF ∧ s.pipe p = some
      x ∧ s.pipeUp x = false) ∧
    (∃ (s : State) (h : Nat) (c : Cmd), ∃ p, ∃ x, s.io h 0x82 = some c ∧ c.qRel = false ∧ c.qPipe = p ∧ p ≠ 0xFF ∧ s.pipe p = some
      x ∧ s.pipeUp x = true ∧ c.slotted = false ∧ (s.queries.filter fun q => q.pipe.isSome && q.pipe == some p && q.state ==
      .waiting).length < 64) ∧
    (∃ (s : State) (h k : Nat) (c : Cmd) (x : Slot), s.io h 0x85 = some c ∧ s.resultTurn c = true ∧ s.slotOf (c.dword 10) = some
      (k, x) ∧ x.nsid = c.nsid ∧ c.allZero [2, 3, 4, 5, 14, 15] = true ∧ fld (c.dword 11) 31 1 = 0 ∧ (c.dword 12).toNat % 8 = 0 ∧
      (c.dword 13).toNat % 8 = 0 ∧ 8 ≤ (c.dword 13).toNat ∧ (c.dword 13).toNat ≤ 2097152 ∧ x.state = .ready ∧ (c.dword 12).toNat <
      x.answer.length ∧ s.slotWorldAt c.epoch k = c.secure) ∧
    (∃ (s : State) (h k : Nat) (c : Cmd) (x : Slot), s.io h 0x85 = some c ∧ s.resultTurn c = true ∧ s.slotOf (c.dword 10) = some
      (k, x) ∧ x.nsid = c.nsid ∧ c.allZero [2, 3, 4, 5, 14, 15] = true ∧ fld (c.dword 11) 31 1 = 0 ∧ (c.dword 12).toNat % 8 = 0 ∧
      (c.dword 13).toNat % 8 = 0 ∧ 8 ≤ (c.dword 13).toNat ∧ (c.dword 13).toNat ≤ 2097152 ∧ s.slotWorldAt c.epoch k ≠ c.secure ∧
      x.state ≠ .ready) ∧
    (∃ (s : State) (h k : Nat) (c : Cmd) (x : Slot), s.io h 0x85 = some c ∧ s.resultTurn c = true ∧ s.slotOf (c.dword 10) = some
      (k, x) ∧ x.nsid = c.nsid ∧ c.allZero [2, 3, 4, 5, 14, 15] = true ∧ fld (c.dword 11) 31 1 = 0 ∧ (c.dword 12).toNat % 8 = 0 ∧
      (c.dword 13).toNat % 8 = 0 ∧ 8 ≤ (c.dword 13).toNat ∧ (c.dword 13).toNat ≤ 2097152 ∧ s.slotWorldAt c.epoch k = c.secure ∧
      x.state = .running) ∧
    (∃ (s : State) (h k : Nat) (c : Cmd) (x : Slot), s.io h 0x86 = some c ∧ s.resultTurn c = true ∧ s.slotOf (c.dword 10) = some
      (k, x) ∧ x.nsid = c.nsid ∧ c.allZero [2, 3, 4, 5, 6, 7, 8, 9, 11, 12, 13, 14, 15] = true ∧ s.slotWorldAt c.epoch k =
      c.secure ∧ x.state = .ready) ∧
    (∃ (s : State) (h : Nat) (c : Cmd), s.io h 0x85 = some c ∧ s.resultTurn c = true ∧ s.slotOf (c.dword 10) = none ∧ c.allZero
      [2, 3, 4, 5, 14, 15] = true ∧ fld (c.dword 11) 31 1 = 0 ∧ (c.dword 12).toNat % 8 = 0 ∧ (c.dword 13).toNat % 8 = 0 ∧ 8 ≤
      (c.dword 13).toNat ∧ (c.dword 13).toNat ≤ 2097152 ∧ s.slotWorldAt c.epoch (fld (c.dword 10) 7 0) = c.secure) ∧
    (∃ (s : State) (h : Nat) (c : Cmd), s.io h 0x89 = some c ∧ s.med.eol = false) ∧
    (∃ (s : State) (h : Nat) (c : Cmd), ∃ kind, s.io h 0x8A = some c ∧ kind = fld (c.dword 10) 3 0 ∧ (2 ≤ kind ∨ s.lotsMeeting
      c.nsid (fun r => c.meets kind r.seq (recStamp r.bytes) r.era) = false)) ∧
    (∃ (s : State) (h : Nat) (c : Cmd), ∃ kind, s.io h 0x8A = some c ∧ kind = fld (c.dword 10) 3 0 ∧ kind ≤ 1 ∧ s.lotsMeeting
      c.nsid (fun r => c.meets kind r.seq (recStamp r.bytes) r.era) = true) :=
  ⟨⟨State.plus ended append, 0, append, by decide +kernel⟩,
    ⟨State.plus full append, 0, append, by decide +kernel⟩,
    ⟨State.plus { full with ns := [(2, { streamNs with nsze := 1 })] } append, 0, append, by decide +kernel⟩,
    ⟨State.plus full (query 0x82), 0, (query 0x82), 0, by decide +kernel⟩,
    ⟨State.plus (withPipe false) (query 0x82), 0, (query 0x82), 0, { scanPipe with running := false }, by decide +kernel⟩,
    ⟨State.plus (lotUp aLot { aPipe with scan := true } 0 (runStall 0)) (mkCmd 1 0x82 [(1, 2), (6, 64)] []), 0, (mkCmd 1 0x82 [(1,
      2), (6, 64)] []), 0, { aPipe with scan := true }, by decide +kernel⟩,
    ⟨State.plus (slotted .ready) (result 0x85 0 8), 0, 0, (result 0x85 0 8), slot0 .ready, by decide +kernel⟩,
    ⟨{ State.plus (slotted .running) (result 0x85 0 8) with acc := { Acc.reset with active := { RuleSet.reset with slot := 1 } } },
      0, 0, (result 0x85 0 8), slot0 .running, by decide +kernel⟩,
    ⟨State.plus (slotted .running) (result 0x85 0 8), 0, 0, (result 0x85 0 8), slot0 .running, by decide +kernel⟩,
    ⟨State.plus (slotted .ready) (mkCmd 1 0x86 [(1, 2)] []), 0, 0, (mkCmd 1 0x86 [(1, 2)] []), slot0 .ready, by decide +kernel⟩,
    ⟨State.plus full (result 0x85 0 8), 0, (result 0x85 0 8), by decide +kernel⟩,
    ⟨State.plus full (mkCmd 1 0x89 [(1, 2)] []), 0, (mkCmd 1 0x89 [(1, 2)] []), by decide +kernel⟩,
    ⟨State.plus full (mkCmd 1 0x8A [(1, 2), (10, 2)] []), 0, (mkCmd 1 0x8A [(1, 2), (10, 2)] []), 2, by decide +kernel⟩,
    ⟨State.plus { full with lots := [{ aLot with pipe := none }] } { mkCmd 1 0x8A [(1, 2), (10, 1), (14, 9)] [] with bound := 5 },
      0, { mkCmd 1 0x8A [(1, 2), (10, 1), (14, 9)] [] with bound := 5 }, 1, by decide +kernel⟩⟩

theorem witness_LotRows :
    (∃ (s : State) (lot : Nat) (l : Lot) (p : Pipe), ∃ ts, s.operating = true ∧ s.pwr.watch = .awake ∧ s.lot lot = some l ∧
      l.pipe.bind s.pipe = some p ∧ l.state = .waiting ∧ p.gateOnly = false ∧ p.running = true ∧ s.therm.shutting = false ∧
      ((s.lots.filter fun x => x.pipe == l.pipe && x.state == .waiting)[0]?) = some l ∧ ts = (s.takers p).filter (fun n =>
      !l.tried.contains n) ∧ ts = []) ∧
    (∃ (s : State) (lot : Nat) (l : Lot) (p : Pipe), ∃ ts, s.operating = true ∧ s.pwr.watch = .awake ∧ s.lot lot = some l ∧
      l.pipe.bind s.pipe = some p ∧ l.state = .waiting ∧ p.gateOnly = false ∧ p.running = true ∧ s.therm.shutting = false ∧
      ((s.lots.filter fun x => x.pipe == l.pipe && x.state == .waiting)[0]?) = some l ∧ ts = (s.takers p).filter (fun n =>
      !l.tried.contains n) ∧ ts ≠ [] ∧ pickStall s ts = none) ∧
    (∃ (s : State) (lot : Nat) (l : Lot) (p : Pipe), ∃ ts, ∃ (n : Fin 64), s.operating = true ∧ s.pwr.watch = .awake ∧ s.lot lot =
      some l ∧ l.pipe.bind s.pipe = some p ∧ l.state = .waiting ∧ p.gateOnly = false ∧ p.running = true ∧ s.therm.shutting = false
      ∧ ((s.lots.filter fun x => x.pipe == l.pipe && x.state == .waiting)[0]?) = some l ∧ ts = (s.takers p).filter (fun n =>
      !l.tried.contains n) ∧ pickStall s ts = some n.val) ∧
    (∃ (s : State) (ns : List Nat) (n : Nat), pickStall s ns = some n) ∧
    (∃ (s : State) (k : Fin 32) (p : Pipe) (q : Query), s.operating = true ∧ s.pwr.watch = .awake ∧ s.pipe k.val = some p ∧
      p.running = true ∧ (s.queries.filter fun q => q.pipe == some k.val).any (fun q => q.state == .running) = false ∧
      (((s.queries.filter fun q => q.pipe == some k.val).filter fun q => q.state == .waiting)[0]?) = some q ∧ (s.lotsBelow q.start
      = true ∨ s.queryBefore k.val q.id = true)) ∧
    (∃ (s : State) (k : Fin 32) (p : Pipe) (q : Query), s.operating = true ∧ s.pwr.watch = .awake ∧ s.pipe k.val = some p ∧
      p.running = true ∧ (s.queries.filter fun q => q.pipe == some k.val).any (fun q => q.state == .running) = false ∧
      (((s.queries.filter fun q => q.pipe == some k.val).filter fun q => q.state == .waiting)[0]?) = some q ∧ s.lotsBelow q.start
      = false ∧ s.queryBefore k.val q.id = false) ∧
    (∃ (s : State) (lot : Nat) (l : Lot), s.operating = true ∧ s.pwr.watch = .awake ∧ s.lot lot = some l ∧ s.lotReady l = true ∧
      s.lotFirst l = true ∧ s.lotLanded l = true ∧ (l.query ≠ none ∨ s.stores l = [] ∨ (s.lotDram l = [] ∧ s.lotNand l = false))) ∧
    (∃ (s : State) (lot : Nat) (l : Lot), s.operating = true ∧ s.pwr.watch = .awake ∧ s.lot lot = some l ∧ s.lotReady l = true ∧
      s.lotFirst l = true ∧ s.lotLanded l = true ∧ s.lotNand l = true ∧ s.writesOpen = false) ∧
    (∃ (s : State) (lot : Nat) (l : Lot), s.operating = true ∧ s.pwr.watch = .awake ∧ s.lot lot = some l ∧ s.lotReady l = true ∧
      s.lotFirst l = true ∧ s.lotLanded l = true ∧ l.query = none ∧ (s.lotNand l = false ∨ s.writesOpen = true) ∧ s.lotDram l ≠ []
      ∧ s.waitq = [] ∧ s.room (s.lotSlots l) = true) ∧
    (∃ (s : State) (lot : Nat) (l : Lot), s.operating = true ∧ s.pwr.watch = .awake ∧ s.lot lot = some l ∧ s.lotReady l = true ∧
      s.lotFirst l = true ∧ s.lotLanded l = true ∧ l.query = none ∧ (s.lotNand l = false ∨ s.writesOpen = true) ∧ s.lotDram l ≠ []
      ∧ (s.waitq ≠ [] ∨ s.room (s.lotSlots l) = false) ∧ Waiting.lot lot ∉ s.waitq) ∧
    (∃ (s : State), s.operating = false) :=
  ⟨⟨lotUp (lotOf .waiting) aPipe 0 Stall.reset, 0, lotOf .waiting, aPipe, [], by decide +kernel⟩,
    ⟨lotUp (lotOf .waiting) aPipe 0 { runStall 0 with lots := [1, 2] }, 0, lotOf .waiting, aPipe, [0], by decide +kernel⟩,
    ⟨lotUp (lotOf .waiting) aPipe 0 { runStall 0 with lots := [] }, 0, lotOf .waiting, aPipe, [0], 0, by decide +kernel⟩,
    ⟨lotUp (lotOf .waiting) aPipe 0 { runStall 0 with lots := [] }, [0], 0, by decide +kernel⟩,
    ⟨asking [aLot], 0, { scanPipe with running := true }, aQuery, by decide +kernel⟩,
    ⟨asking [], 0, { scanPipe with running := true }, aQuery, by decide +kernel⟩,
    ⟨lotUp (lotOf (.done 0)) aPipe 0 Stall.reset, 0, lotOf (.done 0), by decide +kernel⟩,
    ⟨closedWin { full with lots := [{ aLot with pipe := none }] }, 0, { aLot with pipe := none }, by decide +kernel⟩,
    ⟨{ full with lots := [{ aLot with pipe := none, nsid := 1, recs := [{ aRecord with nsid := 1 }] }] }, 0,
      { aLot with pipe := none, nsid := 1, recs := [{ aRecord with nsid := 1 }] }, by decide +kernel⟩,
    ⟨{ full with lots := [{ aLot with pipe := none, nsid := 1, recs := [{ aRecord with nsid := 1 }] }], waitq := [.write 9] }, 0,
      { aLot with pipe := none, nsid := 1, recs := [{ aRecord with nsid := 1 }] }, by decide +kernel⟩,
    ⟨flushing, by decide +kernel⟩⟩

theorem witness_ThinProvisioning :
    (∃ (s : State) (h : Nat) (c : Cmd) (n : Ns), look s.ns c.nsid = some n ∧ s.med.eol = false ∧ s.io h 0x01 = some c ∧
      (hostBlocks c n).2 = none ∧ n.ncap < n.nsze ∧ n.ncap < s.nuse c.nsid + ((List.range c.blocks).filter fun i =>
      !s.med.allocated.contains (slotKey c.nsid (c.slba + i))).length) ∧
    (∃ (s : State) (h : Nat) (c : Cmd) (n : Ns), look s.ns c.nsid = some n ∧ s.med.eol = false ∧ s.io h 0x01 = some c ∧
      (hostBlocks c n).2 = none ∧ n.ncap = n.nsze) ∧
    (∃ (s : State) (h : Nat) (c : Cmd) (n : Ns), look s.ns c.nsid = some n ∧ s.med.eol = false ∧ s.io h 0x09 = some c ∧ c.ranges ≠
      []) :=
  ⟨⟨State.plus { full with ns := [(1, { blockNs with ncap := 0 })] } (wr 0), 0, (wr 0), { blockNs with ncap := 0 },
      by decide +kernel⟩,
    ⟨State.plus full (wr 0), 0, (wr 0), blockNs, by decide +kernel⟩,
    ⟨State.plus full dsm, 0, dsm, blockNs, by decide +kernel⟩⟩

theorem witness_CyclesPerCount :
    (∃ (s : State) (a : Actor), CanWrite a 0x0201 s) ∧
    (∃ (c : Nat), ∃ (s : State) (a : Actor), CanWrite a 0x0201 s ∧ 16 ≤ c ∧ c ≤ 2 ^ 32) :=
  ⟨⟨up, .bus, canWrite (by decide +kernel)⟩,
    ⟨16, up, .bus, canWrite (by decide +kernel), by decide +kernel⟩⟩

theorem witness_StreamRowsAct :
    (∃ (s : State) (h : Nat) (c : Cmd), s.io h 0x81 = some c ∧ s.med.eol = false ∧ ((s.needs c).map s.withTail).all s.fits = true) ∧
    (∃ (s : State) (h : Nat) (c : Cmd), s.io h 0x82 = some c ∧ c.qPipe = 0xFF ∧ c.qRel = false ∧ c.slotted = false) ∧
    (∃ (s : State) (h : Nat) (c : Cmd), ∃ k, s.io h 0x82 = some c ∧ c.qPipe = 0xFF ∧ c.qRel = false ∧ c.slotted = true ∧
      s.freeSlotOf c.secure = some k ∧ s.poolUsed + (c.dword 11).toNat ≤ 1073741824) ∧
    (∃ (s : State) (h : Nat) (c : Cmd), ∃ k x, s.resultTurn c = true ∧ s.slotOf (c.dword 10) = some (k, x) ∧ x.nsid = c.nsid ∧
      s.slotWorldAt c.epoch k = c.secure ∧ x.state = .ready ∧ s.io h 0x85 = some c ∧ c.allZero [2, 3, 4, 5, 14, 15] = true ∧ fld
      (c.dword 11) 31 1 = 0 ∧ (c.dword 12).toNat % 8 = 0 ∧ (c.dword 12).toNat < x.answer.length ∧ (c.dword 13).toNat % 8 = 0 ∧ 8 ≤
      (c.dword 13).toNat ∧ (c.dword 13).toNat ≤ 2097152) ∧
    (∃ (s : State) (h : Nat) (c : Cmd), ∃ k x, s.resultTurn c = true ∧ s.slotOf (c.dword 10) = some (k, x) ∧ x.nsid = c.nsid ∧
      s.slotWorldAt c.epoch k = c.secure ∧ x.state = .ready ∧ s.io h 0x86 = some c ∧ c.allZero [2, 3, 4, 5, 6, 7, 8, 9, 11, 12,
      13, 14, 15] = true) ∧
    (∃ (s : State) (h : Nat) (c : Cmd), s.io h 0x89 = some c ∧ s.med.eol = false) ∧
    (∃ (s : State) (h : Nat) (c : Cmd), s.io h 0x8A = some c ∧ (2 ≤ fld (c.dword 10) 3 0 ∨ s.lotsMeeting c.nsid (fun r => c.meets
      (fld (c.dword 10) 3 0) r.seq (recStamp r.bytes) r.era) = false)) ∧
    (∃ (s : State) (lot : Nat) (l : Lot) (p : Pipe) (n : Fin 64), s.operating = true ∧ s.pwr.watch = .awake ∧ s.lot lot = some l ∧
      l.pipe.bind s.pipe = some p ∧ p.gateOnly = false ∧ p.running = true ∧ s.therm.shutting = false ∧ l.state = .waiting ∧
      ((s.lots.filter fun x => x.pipe == l.pipe && x.state == .waiting)[0]?) = some l ∧ pickStall s ((s.takers p).filter fun n =>
      !l.tried.contains n) = some n.val) ∧
    (∃ (s : State) (lot : Nat) (l : Lot), s.operating = true ∧ s.pwr.watch = .awake ∧ s.lot lot = some l ∧ l.query = none ∧ l.pipe
      = none ∧ l.state = .waiting ∧ s.lotFirst l = true ∧ s.lotLanded l = true ∧ (s.lotNand l = false ∨ s.writesOpen = true) ∧
      s.waitq = [] ∧ s.room (s.lotSlots l) = true) ∧
    (∃ (s : State) (k : Fin 32) (p : Pipe) (q : Query), s.operating = true ∧ s.pwr.watch = .awake ∧ s.pipe k.val = some p ∧
      p.running = true ∧ s.queries.filter (fun x => x.pipe == some k.val) = [q] ∧ q.state = .waiting ∧ s.lotsBelow q.start = false
      ∧ s.queryBefore k.val q.id = false) :=
  ⟨⟨State.plus full append, 0, append, by decide +kernel⟩,
    ⟨State.plus full (mkCmd 1 0x82 [(1, 2), (10, 0xFF), (6, 64)] [1, 2, 3, 4, 5, 6, 7, 8]), 0, (mkCmd 1 0x82 [(1, 2), (10, 0xFF),
      (6, 64)] [1, 2, 3, 4, 5, 6, 7, 8]), by decide +kernel⟩,
    ⟨State.plus full (mkCmd 1 0x82 [(1, 2), (10, 0xFF), (11, 64)] [1, 2, 3, 4, 5, 6, 7, 8]), 0, (mkCmd 1 0x82 [(1, 2), (10, 0xFF),
      (11, 64)] [1, 2, 3, 4, 5, 6, 7, 8]), 0, by decide +kernel⟩,
    ⟨State.plus (slotted .ready) (result 0x85 0 8), 0, (result 0x85 0 8), 0, slot0 .ready, by decide +kernel⟩,
    ⟨State.plus (slotted .ready) (mkCmd 1 0x86 [(1, 2)] []), 0, (mkCmd 1 0x86 [(1, 2)] []), 0, slot0 .ready, by decide +kernel⟩,
    ⟨State.plus full (mkCmd 1 0x89 [(1, 2)] []), 0, (mkCmd 1 0x89 [(1, 2)] []), by decide +kernel⟩,
    ⟨State.plus full (mkCmd 1 0x8A [(1, 2), (10, 2)] []), 0, (mkCmd 1 0x8A [(1, 2), (10, 2)] []), by decide +kernel⟩,
    ⟨lotUp (lotOf .waiting) aPipe 0 { runStall 0 with lots := [] }, 0, lotOf .waiting, aPipe, 0, by decide +kernel⟩,
    ⟨{ full with lots := [{ aLot with pipe := none, nsid := 1, state := .waiting, recs := [{ aRecord with nsid := 1 }] }] }, 0,
      { aLot with pipe := none, nsid := 1, state := .waiting, recs := [{ aRecord with nsid := 1 }] }, by decide +kernel⟩,
    ⟨asking [], 0, { scanPipe with running := true }, aQuery, by decide +kernel⟩⟩

theorem witness_MovesAndPositionAct :
    (∃ (s : State) (n : Fin 64), ∃ (f : RFmt), Runs s n.val (rWord 0x34 f) f.g 2 ∧ (s.stall n.val).handlers = [] ∧ f.d = 0 ∧ f.a =
      0 ∧ f.b = 0 ∧ f.fn.toNat < 4 ∧ s.emitOk n.val f.fn.toNat = true ∧ (s.stall n.val).moves.length < 8) ∧
    (∃ (s : State) (n : Fin 64), ∃ (f : RFmt) (h : List Byte), Runs s n.val (rWord 0x35 f) f.g 2 ∧ loadLocal n.val ((s.stall
      n.val).reg f.a).toNat 8 s = (some h, s) ∧ (s.stall n.val).handlers = [] ∧ f.d = 0 ∧ fld f.fn 3 2 = 0 ∧ fld f.fn 9 8 = 0 ∧
      fld f.fn 7 4 ≤ 14 ∧ localRange ((s.stall n.val).reg f.a).toNat ((s.stall n.val).reg f.b).toNat 8 = true ∧ 32 ≤ ((s.stall
      n.val).reg f.b).toNat ∧ ((s.stall n.val).reg f.b).toNat ≤ 2 ^ (fld f.fn 7 4 + 5) ∧ s.emitOk n.val (fld f.fn 1 0) = true ∧
      recVersion h = 1 ∧ recType h ≠ 0 ∧ (s.stall n.val).moves.length < 8) ∧
    (∃ (s : State) (n : Fin 64), ∃ (f : RFmt) (card loc len : Nat), Runs s n.val (rWord 0x36 f) f.g 2 ∧ card = ((s.stall
      n.val).reg f.d).toNat ∧ loc = ((s.stall n.val).reg f.a).toNat ∧ len = ((s.stall n.val).reg f.b).toNat ∧ f.fn.toNat < 2 ∧
      localRange loc len 64 = true ∧ card % 64 = 0 ∧ len % 64 = 0 ∧ 64 ≤ len ∧ len ≤ 65536 ∧ (s.stall n.val).moves.length < 8) ∧
    (∃ (s : State) (n : Fin 64), ∃ (f : BFmt), Runs s n.val (bWord 0x39 f) f.g 1 ∧ f.z = 0 ∧ f.off = 0 ∧ (s.stall n.val).moves =
      []) ∧
    (∃ (s : State) (n : Fin 64), ∃ (f : RFmt) (l : Lot) (p : Pipe), Runs s n.val (rWord 0x2F f) f.g 1 ∧ (s.stall n.val).handlers =
      [] ∧ f.d = 0 ∧ f.fn.toNat < 4 ∧ s.curLot n.val = some l ∧ s.lotPipe n.val = some p ∧ ((s.stall n.val).reg f.b).toNat <
      p.tallyCount ∧ look l.tally ((s.stall n.val).reg f.b).toNat = none) ∧
    (∃ (s : State) (n : Fin 64), ∃ (f : RFmt), Runs s n.val (rWord 0x2E f) f.g 4 ∧ (s.stall n.val).handlers = [] ∧ f.d = 0 ∧ f.a =
      0 ∧ f.b = 0 ∧ f.fn.toNat < 32 ∧ fld f.fn 3 0 = 5) ∧
    (∃ (s : State), s.ssiOn = true ∧ s.bcn.master = true ∧ s.bcn.extrapolates = false) ∧
    (∃ (s : State) (w : W32) (k : BitVec 6), s.ssiOn = true ∧ (s.bcn.master = true → s.bcn.inp.frame = true) ∧ s.bcn.wordGood w k
      = true ∧ s.bcn.code = 6 ∧ s.bcn.inp.reref = false) ∧
    (∃ (s : State) (t : Nat) (a : Actor), CanWrite a 0x0206 (s.at_ t) ∧ s.beaconOn = true ∧ s.bcn.mode = 3 ∧ s.bcn.code = 6 ∧
      s.bcn.inp.reref = false) ∧
    (∃ (s : State) (p : BcnPair), s.beaconOn = true ∧ s.bcn.pairUsed p = true) ∧
    (∃ (s : State), s.inMode 1 = true ∧ s.bcn.armed = false ∧ s.bcn.indexMode = 2) ∧
    (∃ (s : State) (a : Actor), CanWrite a 0x0207 s ∧ s.native = true ∧ s.beaconOn = true ∧ s.bcn.code ≠ 0) ∧
    (∃ (s : State) (a : Actor), CanWrite a 0x0207 s ∧ s.native = true ∧ s.beaconOn = true ∧ s.bcn.mode = 1) ∧
    (∃ (s : State) (a : Actor), CanWrite a 0x0200 s ∧ s.native = true) ∧
    (∃ (s : State) (a : Actor), CanWrite a 0x0205 s ∧ s.native = true) ∧
    (∃ (s : State) (a : Actor), CanWrite a 0x0211 s ∧ s.native = true) ∧
    (∃ (s : State) (a : Actor), ∃ (k : Fin 64), CanWrite a (0x0240 + k.val) s ∧ s.native = true) ∧
    (∃ (s : State) (a : Actor), s.regReady 0x0209 = true ∧ s.regAllowed a 0x0209 = statOk ∧ s.bcn.code ≠ 0) :=
  ⟨⟨runs (rWord 0x34 ⟨0, 0, 0, 0, 1⟩) (id), 0, ⟨0, 0, 0, 0, 1⟩, runsWord (by decide +kernel) (by decide +kernel),
      by decide +kernel⟩,
    ⟨runs (rWord 0x35 ⟨0, 0, 1, 2, 0⟩) (regs [(1, 0), (2, 32)]), 0, ⟨0, 0, 1, 2, 0⟩, (loadLocal 0 0 8 (runs (rWord 0x35 ⟨0, 0, 1,
      2, 0⟩) (regs [(1, 0), (2, 32)]))).1.get (by decide +kernel), runsWord (by decide +kernel) (by decide +kernel), Prod.ext
      (by decide +kernel) rfl, by decide +kernel⟩,
    ⟨runs (rWord 0x36 ⟨0, 1, 2, 3, 0⟩) (regs [(1, 8589934592), (2, 0), (3, 64)]), 0, ⟨0, 1, 2, 3, 0⟩, 8589934592, 0, 64, runsWord
      (by decide +kernel) (by decide +kernel), by decide +kernel⟩,
    ⟨runs (bWord 0x39 ⟨0, 0, 0⟩) (id), 0, ⟨0, 0, 0⟩, runsWord (by decide +kernel) (by decide +kernel), by decide +kernel⟩,
    ⟨{ (runs (rWord 0x2F ⟨0, 0, 2, 3, 1⟩) (regs [(3, 1)])) with lots := [{ aLot with tally := [] }] }, 0, ⟨0, 0, 2, 3, 1⟩,
      { aLot with tally := [] }, aPipe, runsWord (by decide +kernel) (by decide +kernel), by decide +kernel⟩,
    ⟨runs (rWord 0x2E ⟨0, 0, 0, 0, 5⟩) (id), 0, ⟨0, 0, 0, 0, 5⟩, runsWord (by decide +kernel) (by decide +kernel),
      by decide +kernel⟩,
    ⟨(withBcn fun b =>
      { b with code := b.code, regs := { b.regs with cfg := 0x80000000, ssi := 0x80601403 }, inp := { b.inp with errRun := 0 } }),
      by decide +kernel⟩,
    ⟨(withBcn fun b =>
      { b with code := 6, regs := { b.regs with cfg := 0x80000000, ssi := 0x00601403 }, inp := { b.inp with errRun := 0 } }),
      0x1FFF, 0, by decide +kernel⟩,
    ⟨faulted 0xC0000000 6, 9, .bus, canWrite (by decide +kernel), by decide +kernel⟩,
    ⟨cfg 0x40000000, .z, by decide +kernel⟩,
    ⟨cfg 0x60000000, by decide +kernel⟩,
    ⟨faulted 0x40000000 1, .bus, canWrite (by decide +kernel), by decide +kernel⟩,
    ⟨cfg 0x40000000, .bus, canWrite (by decide +kernel), by decide +kernel⟩,
    ⟨up, .bus, canWrite (by decide +kernel), by decide +kernel⟩,
    ⟨up, .bus, canWrite (by decide +kernel), by decide +kernel⟩,
    ⟨up, .bus, canWrite (by decide +kernel), by decide +kernel⟩,
    ⟨up, .bus, 63, canWrite (by decide +kernel), by decide +kernel⟩,
    ⟨faulted 0 1, .bus, by decide +kernel⟩⟩

/-! An image that passes the checks of R297 needs the private half of the ROM's key, which no model holds: the witness of the commit
takes such an image and meets every other hypothesis. -/

def loaded (parts : List (Nat × List Byte)) : State :=
  State.plus { up with hb := { up.hb with download := parts } } (inSession (admin 0x10 [(10, 2)]))
theorem loaded_admin (parts : List (Nat × List Byte)) : (loaded parts).admin 0 0x10 = some (inSession (admin 0x10 [(10, 2)])) := by
  have h : (loaded parts).admin 0 0x10 = (loaded []).admin 0 0x10 := rfl
  rw [h]; decide +kernel
theorem witness_firmwareCommit (parts : List (Nat × List Byte))
    (h : (fwValid (loaded parts).rollback (loaded parts).hb.downloaded).isSome = true) :
    ∃ (s : State) (c : Cmd), s.admin 0 0x10 = some c ∧ fwAction c = 0 ∧ c.keeper = true ∧ (fwSlot c = 1 ∨ fwSlot c = 2) ∧
      s.hb.running ≠ some (fwSlot c == 2) ∧ (fwValid s.rollback s.hb.downloaded).isSome = true := by
  refine ⟨loaded parts, inSession (admin 0x10 [(10, 2)]), loaded_admin parts, by decide +kernel, rfl, by decide +kernel, ?_, h⟩
  have h : (loaded parts).hb.running = (loaded []).hb.running := rfl
  rw [h]; decide +kernel

end Sys2Proof.Tests
end

section
/-! A write of BCN_CPC (R28): the value it stores, and what it leaves as it is. -/

namespace Sys2Proof.Proofs

open Sys2Proof Sys2Proof.Machine

/-! The value that BCN_CPC holds after a write. -/

/-- What a write of v stores in BCN_CPC (R28). -/
def storedCpc (v : W32) : W32 := if v.toNat < 15 then 15 else v

theorem fifteen_le_storedCpc (v : W32) : 15 ≤ (storedCpc v).toNat := by
  unfold storedCpc
  split
  · decide
  · omega

theorem storedCpc_of_fifteen_le {v : W32} (h : 15 ≤ v.toNat) : storedCpc v = v := if_neg (Nat.not_lt.2 h)

/-- CPC − 1 fits BCN_CPC and is stored as it is, for every CPC from 16 to 2^32. -/
theorem storedCpc_pred {c : Nat} (h16 : 16 ≤ c) (hc : c ≤ 2 ^ 32) : (storedCpc (BitVec.ofNat 32 (c - 1))).toNat = c - 1 := by
  have hv : (BitVec.ofNat 32 (c - 1)).toNat = c - 1 := by
    rw [BitVec.toNat_ofNat]
    exact Nat.mod_eq_of_lt (by omega)
  rw [storedCpc_of_fifteen_le (by omega), hv]

theorem cpc_bounds_of_stored {b : Bcn} {v : W32} (h : b.regs.cpc = storedCpc v) : 16 ≤ b.cpc ∧ b.cpc ≤ 2 ^ 32 := by
  have hlo := fifteen_le_storedCpc v
  have hhi := (storedCpc v).isLt
  unfold Bcn.cpc
  rw [h]
  omega

/-! The Beacon unit. -/

@[simp] theorem enterFault_net (b : Bcn) (k : Nat) : (b.enterFault k).net = b.net := by
  unfold Bcn.enterFault Bcn.mark
  dsimp only
  split <;> rfl

theorem writeCpc_regs_cpc (b : Bcn) (v : W32) : (b.writeCpc v).regs.cpc = storedCpc v := by
  by_cases h : storedCpc v = b.regs.cpc
  · rw [show b.writeCpc v = b from if_pos h, h]
  · exact congrArg (fun x : Bcn => x.regs.cpc) (if_neg h)

theorem writeCpc_net (b : Bcn) (v : W32) : (b.writeCpc v).net = b.net := by
  by_cases h : storedCpc v = b.regs.cpc
  · rw [show b.writeCpc v = b from if_pos h]
  · exact (congrArg Bcn.net (if_neg h)).trans (enterFault_net b 7)

theorem storeOnly_cpc (b : Bcn) (v : W32) : b.storeOnly 0x0201 v = { b with regs := { b.regs with cpc := storedCpc v } } := rfl

/-! The update of the Beacon on the card. -/

@[simp] theorem bcnApply_bcn (s : State) (r : Bcn × List BcnEvent) : (bcnApply r s).bcn = r.1 := by
  unfold bcnApply
  dsimp only
  rw [foldl_keep (fun u : State => u.bcn) _ bcnEvent_bcn]
  (repeat' split) <;> simp [foldl_keep (fun u : State => u.bcn)]

/-- Only an event reaches the media: the journal and the Stall interrupts do not. -/
@[simp] theorem bcnApply_nil_med (s : State) (b : Bcn) : (bcnApply (b, []) s).med = s.med := by
  unfold bcnApply
  dsimp only [List.foldl_nil]
  (repeat' split) <;> simp [foldl_keep (fun u : State => u.med)]

/-! The register write. -/

/-- A write of BCN_CPC is stored without effect in Compat mode (R61), and reaches the Beacon in native mode. -/
theorem writeBeacon_cpc (t : Nat) (v : W32) (s : State) :
    writeBeacon t 0x0201 v s =
      if s.compat then { s with bcn := s.bcn.storeOnly 0x0201 v } else bcnApply (s.bcn.writeCpc v, []) s := rfl

theorem writeBeacon_cpc_bcn (t : Nat) (v : W32) (s : State) :
    (writeBeacon t 0x0201 v s).bcn.regs.cpc = storedCpc v ∧ (writeBeacon t 0x0201 v s).bcn.net = s.bcn.net := by
  rw [writeBeacon_cpc]
  split
  · simp [storeOnly_cpc]
  · simp [writeCpc_regs_cpc, writeCpc_net]

theorem writeBeacon_cpc_frame (t : Nat) (v : W32) (s : State) :
    let u := writeBeacon t 0x0201 v s
    u.ram = s.ram ∧ u.acc = s.acc ∧ u.hb = s.hb ∧ u.nv = s.nv ∧ u.med = s.med := by
  rw [writeBeacon_cpc]
  split <;> simp

/-- Where BCN_CPC can be written, BCN_CONFIG_WRITE is that write. -/
theorem exec_bcnConfigWrite_cpc {s : State} {a : Actor} (h : CanWrite a 0x0201 s) (v : W32) :
    exec (.bcnConfigWrite a true v) s = .next (settle (writeBeacon s.now 0x0201 v s)) := by
  show done (access s.now a 0x0201 v s) = _
  have hw : (regWrite s.now a 0x0201 v s).2 = writeBeacon s.now 0x0201 v s := by
    unfold regWrite
    rw [h.stat]
    rfl
  rw [access, if_pos h.ready, hw, done]

/-- Settles O57: a write of BCN_CPC stores its value raised to at least 15, so CPC lies from 16 to 2^32 and every value between
is reached; the net cycle and the rest of the card stay. -/
theorem cyclesPerCount : Obligations.CyclesPerCount := by
  unfold Obligations.CyclesPerCount
  refine ⟨fun s => rfl, fun s a v hw => ?_, fun c h16 hc s a hw => ?_⟩
  · obtain ⟨hcpc, hnet⟩ := writeBeacon_cpc_bcn s.now v s
    obtain ⟨hram, hacc, hhb, hnv, hmed⟩ := writeBeacon_cpc_frame s.now v s
    obtain ⟨hlo, hhi⟩ := cpc_bounds_of_stored hcpc
    exact ⟨_, exec_bcnConfigWrite_cpc hw v, hcpc, hlo, hhi, hnet, hram, hacc, hhb, hnv, by rw [hmed]⟩
  · obtain ⟨hcpc, -⟩ := writeBeacon_cpc_bcn s.now (BitVec.ofNat 32 (c - 1)) s
    refine ⟨_, exec_bcnConfigWrite_cpc hw _, ?_⟩
    rw [Bcn.cpc, hcpc, storedCpc_pred h16 hc]
    omega

end Sys2Proof.Proofs
end

section
/-! Thin provisioning (R79): what a trim leaves of the slots of the media, and how a Write ends. -/

namespace Sys2Proof.Proofs

open Sys2Proof Sys2Proof.Machine Sys2Proof.Laws

/-! Where the media hold slots. The map, its journal and its marks hold none, so what changes only these keeps the stores. -/

/-- Every part of the media that holds slots: DRAM, NAND, the queue, the programs on the dies, and the writes not yet whole. -/
def slotStores (m : Media) : AMap HeldSlot × AMap Slot4k × List Chunk × List Prog × AMap (List (Nat × Slot4k)) :=
  (m.held, m.content, m.queue, m.progs, m.partials)

@[simp] theorem remap_slotStores (m : Media) (k : Nat) : slotStores (m.remap k) = slotStores m := by
  unfold Media.remap
  dsimp only
  (repeat' split) <;> rfl

@[simp] theorem makeDurable_slotStores (m : Media) (p : Nat → Bool) : slotStores (m.makeDurable p) = slotStores m := rfl

@[simp] theorem addRec_slotStores (m : Media) (ks : List Nat) (t : Nat) : slotStores (m.addRec ks t) = slotStores m := rfl

@[simp] theorem programJournal_slotStores (m : Media) : slotStores m.programJournal = slotStores m := rfl

@[simp] theorem cleanPages_slotStores (m : Media) (p : Nat → Bool) : slotStores (m.cleanPages p) = slotStores m := rfl

@[simp] theorem checkpoint_slotStores (m : Media) (p : Nat → Bool) (t : Nat) : slotStores (m.checkpoint p t) = slotStores m := rfl

/-- The map that a trim programs after shutdown processing (R172) holds no slot. -/
@[simp] theorem programMap_slotStores (s : State) : slotStores (programMap s).med = slotStores s.med := by
  unfold programMap
  split <;> simp

@[simp] theorem wrote_unclean_slotStores (s : State) : slotStores (wrote (unclean s)).med = slotStores s.med := by
  unfold wrote unclean
  split <;> rfl

theorem slot_of_slotStores {m m' : Media} (h : slotStores m = slotStores m') (k : Nat) : m.slot k = m'.slot k := by
  simp only [slotStores, Prod.mk.injEq] at h
  obtain ⟨hheld, hcontent, -, -, -⟩ := h
  unfold Media.slot
  rw [hheld, hcontent]

theorem allocated_of_slotStores {m m' : Media} (h : slotStores m = slotStores m') : m.allocated = m'.allocated := by
  simp only [slotStores, Prod.mk.injEq] at h
  obtain ⟨hheld, hcontent, hqueue, hprogs, hpartials⟩ := h
  unfold Media.allocated Media.chunks
  rw [hheld, hcontent, hqueue, hprogs, hpartials]

/-! A trim. -/

/-- The stores of the media without the slots of a trim. -/
def withoutSlots (ks : Nat → Bool) (m : Media) : Media :=
  { m with held := m.held.filter fun x => !ks x.1
           content := m.content.filter fun x => !ks x.1
           queue := m.queue.map fun c => c.without ks
           partials := m.partials.map fun x => (x.1, x.2.filter fun y => !ks y.1)
           progs := m.progs.map fun p => { p with pages := p.pages.map fun cs => cs.map fun c => c.without ks } }

theorem withoutSlots_slotStores {m m' : Media} (h : slotStores m = slotStores m') (ks : Nat → Bool) :
    slotStores (withoutSlots ks m) = slotStores (withoutSlots ks m') := by
  simp only [slotStores, Prod.mk.injEq] at h
  obtain ⟨hheld, hcontent, hqueue, hprogs, hpartials⟩ := h
  simp only [slotStores, withoutSlots, hheld, hcontent, hqueue, hprogs, hpartials]

theorem media_trim_slotStores (m : Media) (ks : Nat → Bool) (held : Bool) (t : Nat) :
    slotStores (m.trim ks held t) = slotStores (withoutSlots ks m) := by
  have hmap (l : List Nat) : slotStores (l.foldl Media.remap m) = slotStores m := foldl_keep slotStores _ remap_slotStores l m
  rw [← withoutSlots_slotStores (hmap ((m.content.map fun x => x.1).filter ks)) ks]
  unfold Media.trim
  split <;> rfl

theorem trim_slotStores (nsid : Nat) (ks : Nat → Bool) (s : State) : slotStores (trim nsid ks s).med = slotStores (withoutSlots ks s.med) := by
  unfold trim
  rw [programMap_slotStores, media_trim_slotStores]
  rfl

/-- What a trim names holds nothing after it; every other slot is as it was. -/
theorem slot_trim (nsid : Nat) (ks : Nat → Bool) (s : State) (k : Nat) :
    (trim nsid ks s).med.slot k = if ks k then none else s.med.slot k := by
  rw [slot_of_slotStores (trim_slotStores nsid ks s)]
  show Media.slot { s.med with held := s.med.held.filter fun x => !ks x.1, content := s.med.content.filter fun x => !ks x.1 } k = _
  unfold Media.slot
  dsimp only
  cases hk : ks k with
  | true => simp [look_filter_none _ (fun i => !ks i) k (by simp [hk])]
  | false => simp [look_filter _ (fun i => !ks i) k (by simp [hk])]

theorem withoutSlots_chunks (ks : Nat → Bool) (m : Media) : (withoutSlots ks m).chunks = m.chunks.map fun c => c.without ks := by
  simp [Media.chunks, withoutSlots, List.flatMap_map, List.map_flatMap, List.map_flatten]

theorem withoutSlots_allocated (ks : Nat → Bool) (m : Media) : (withoutSlots ks m).allocated = m.allocated.filter fun k => !ks k := by
  unfold Media.allocated
  rw [withoutSlots_chunks]
  simp [withoutSlots, Chunk.without, List.filter_map, List.filter_flatMap, List.flatMap_map, Function.comp_def]

theorem trim_allocated (nsid : Nat) (ks : Nat → Bool) (s : State) :
    (trim nsid ks s).med.allocated = s.med.allocated.filter fun k => !ks k := by
  rw [allocated_of_slotStores (trim_slotStores nsid ks s), withoutSlots_allocated]

/-- NUSE grows only with what the media hold. -/
theorem nuse_le_of_allocated_subset {s t : State} (h : t.med.allocated ⊆ s.med.allocated) (nsid : Nat) : t.nuse nsid ≤ s.nuse nsid := by
  have hsub : (t.med.allocated.filter fun k => keyNs k == nsid) ⊆ s.med.allocated.filter fun k => keyNs k == nsid :=
    List.filter_subset _ h
  exact ((List.nodup_dedup _).subperm fun k hk => List.mem_dedup.2 (hsub (List.mem_dedup.1 hk))).length_le

/-! Dataset Management. -/

/-- A trim of each range of a Dataset Management (R79). -/
def deallocate (nsid : Nat) (rs : List (Nat × Nat)) (s : State) : State :=
  rs.foldl (fun s r => trim nsid (inRange nsid r.1 r.2) s) s

theorem slot_deallocate (nsid : Nat) (rs : List (Nat × Nat)) (s : State) (k : Nat) :
    (deallocate nsid rs s).med.slot k = if rs.any fun r => inRange nsid r.1 r.2 k then none else s.med.slot k := by
  induction rs generalizing s with
  | nil => rfl
  | cons r rs ih =>
    show (deallocate nsid rs (trim nsid (inRange nsid r.1 r.2) s)).med.slot k = _
    rw [ih, slot_trim, List.any_cons]
    cases inRange nsid r.1 r.2 k with
    | true => simp
    | false => rw [Bool.false_or]; rfl

theorem deallocate_allocated_subset (nsid : Nat) (rs : List (Nat × Nat)) (s : State) :
    (deallocate nsid rs s).med.allocated ⊆ s.med.allocated := by
  induction rs generalizing s with
  | nil => exact List.Subset.refl _
  | cons r rs ih =>
    refine List.Subset.trans (ih _) ?_
    rw [trim_allocated]
    exact List.filter_subset_self _

/-- A command whose Deallocate is clear has no ranges. -/
theorem deallocate_set_of_ranges {c : Cmd} (h : c.ranges ≠ []) : bit (c.dword 11) 2 = true := by
  by_contra hbit
  exact h (if_neg hbit)

theorem exec_datasetManagement {s : State} {h : Nat} {c : Cmd} (hio : s.io h 0x09 = some c) (heol : s.med.eol = false)
    (hr : c.ranges ≠ []) :
    exec (.datasetManagement h) s = .next (settle (succeed h (deallocate c.nsid c.ranges (wrote (unclean s))))) := by
  show execDatasetManagement h s = _
  simp [execDatasetManagement, hio, deallocate_set_of_ranges hr, heol, hr, done, deallocate]

/-! Write. -/

/-- A row finds its command among the fetched ones. -/
theorem inflight_of_io {s : State} {h opc : Nat} {c : Cmd} (hio : s.io h opc = some c) : c ∈ s.nv.inflight ∧ c.h = h := by
  have hcmd : s.cmd h = some c := by
    unfold State.io at hio
    split at hio
    · next x hx =>
      split at hio
      · exact hx.trans hio
      · contradiction
    · contradiction
  exact ⟨List.mem_of_find?_eq_some hcmd, by simpa using List.find?_some hcmd⟩

theorem inflight_modCmd {s : State} {c : Cmd} (hc : c ∈ s.nv.inflight) {f : Cmd → Cmd} (hf : (f c).h = c.h) :
    ∃ x ∈ (s.modCmd c.h f).nv.inflight, x.h = c.h :=
  ⟨f c, List.mem_map.2 ⟨c, hc, if_pos rfl⟩, hf⟩

theorem nsOf_of_look {s : State} {c : Cmd} {n : Ns} (h : look s.ns c.nsid = some n) : s.nsOf c = n := by
  rw [State.nsOf, h, Option.getD_some]

theorem exec_write {s : State} {h : Nat} {c : Cmd} (hio : s.io h 0x01 = some c) :
    exec (.write h) s = .next (settle (writeCmd c s)) := by
  show done ((s.io h 0x01).elim s fun c => writeCmd c s) = _
  rw [hio]
  rfl

/-- A Write whose blocks pass their checks, on media that still take writes: over NCAP it ends with Capacity Exceeded. -/
theorem writeCmd_of_checked {s : State} {c : Cmd} {n : Ns} (hn : look s.ns c.nsid = some n) (heol : s.med.eol = false)
    (hpi : (hostBlocks c n).2 = none) :
    writeCmd c s =
      if s.overCap c n then fail c.h 0 0x81 s
      else if s.programFirst c n then (if s.writesOpen then programWrite c n (hostBlocks c n).1 s else s)
      else if s.waitq.isEmpty && s.room (s.newSlots c) then acceptWrite c (hostBlocks c n).1 s
      else { s.modCmd c.h fun x => { x with phase := .room } with waitq := insertWrite c.h s.waitq } := by
  simp [writeCmd, nsOf_of_look hn, heol, hpi]

@[simp] theorem submit_nv (s : State) (cs : List Chunk) : (submit cs s).nv = s.nv := rfl

@[simp] theorem writeSlots_nv (c : Cmd) (bs : List (List Byte × List Byte)) (s : State) : (writeSlots c bs s).2.nv = s.nv := rfl

@[simp] theorem unclean_nv (s : State) : (unclean s).nv = s.nv := by
  unfold unclean
  split <;> rfl

/-- A Write that is programmed stays fetched until its slots are in NAND. -/
theorem programWrite_inflight {s : State} {c : Cmd} (hc : c ∈ s.nv.inflight) (n : Ns) (bs : List (List Byte × List Byte)) :
    ∃ x ∈ (programWrite c n bs s).nv.inflight, x.h = c.h := by
  unfold programWrite
  refine inflight_modCmd ?_ rfl
  simpa using hc

/-- Within NCAP a Write ends with success, or is still fetched. -/
theorem writeCmd_within_cap {s : State} {c : Cmd} {n : Ns} (hn : look s.ns c.nsid = some n) (heol : s.med.eol = false)
    (hpi : (hostBlocks c n).2 = none) (hcap : s.overCap c n = false) (hc : c ∈ s.nv.inflight) :
    (∃ v, writeCmd c s = succeed c.h v) ∨ ∃ x ∈ (writeCmd c s).nv.inflight, x.h = c.h := by
  rw [writeCmd_of_checked hn heol hpi, hcap, if_neg Bool.false_ne_true]
  split
  · split
    · exact .inr (programWrite_inflight hc n _)
    · exact .inr ⟨c, hc, rfl⟩
  · split
    · exact .inl ⟨_, rfl⟩
    · exact .inr (inflight_modCmd hc rfl)

/-- Settles O56: over NCAP a Write is refused, and with NCAP = NSZE it is never over; each range of a Dataset Management is trimmed,
and a trim takes its slots from every store of the media. -/
theorem thinProvisioning : Obligations.ThinProvisioning := by
  unfold Obligations.ThinProvisioning
  refine fun s h c n hn heol => ⟨fun hio hpi => ?_, fun hio hr => ?_⟩
  · obtain ⟨hc, rfl⟩ := inflight_of_io hio
    refine ⟨fun hthin hfull => ⟨?_, fail_med ..⟩, fun hthick => ?_⟩
    · have hover : s.overCap c n = true := by simp only [State.overCap, hthin, hfull, decide_true, Bool.and_self]
      rw [exec_write hio, writeCmd_of_checked hn heol hpi, if_pos hover]
    · have hcap : s.overCap c n = false := by simp [State.overCap, hthick]
      exact ⟨_, exec_write hio, writeCmd_within_cap hn heol hpi hcap hc⟩
  · refine ⟨_, exec_datasetManagement hio heol hr, nuse_le_of_allocated_subset ?_ _, fun r hmem k hk => ?_⟩
    · rw [← allocated_of_slotStores (wrote_unclean_slotStores s)]
      exact deallocate_allocated_subset _ _ _
    · rw [slot_deallocate, if_pos (List.any_eq_true.2 ⟨r, hmem, hk⟩)]

end Sys2Proof.Proofs
end

section
/-! ALU functions (R228, Table 8-5): what the instruction does to its Stall, and what each function computes. -/

namespace Sys2Proof.Proofs

open Sys2Proof Sys2Proof.Machine Sys2Proof.Laws

/-! The instruction. -/

/-- An instruction with a field that Table 8-4 reserves is ILLEGAL. -/
theorem runOp_illegal {s : State} {n : Nat} {o : Op} (body : State → Flow × State) (h : Fetches s n o.word)
    (hl : o.legal = false) : runOp n o body s = stallFault n 1 s := by
  obtain ⟨hcode, hquiet, v, hread, hword⟩ := h
  unfold runOp
  simp only [hcode, hquiet, hread, Bool.not_true, Bool.false_eq_true, ↓reduceIte, ← hword, ne_eq, not_true_eq_false, hl,
    Bool.not_false, Bool.true_or]

/-- ALU as an instruction: its word, its reserved encodings and its cycles. -/
def aluOp (f : RFmt) : Op where
  word := rWord 0x01 f
  legal := decide (f.fn.toNat < 24) && (decide (f.fn.toNat < 21) || f.b == 0)
  cost := aluCycles f.fn.toNat
  skip := aluCycles f.fn.toNat
  guard := f.g
  handler := true

/-- What ALU does to its Stall. -/
def aluWrite (f : RFmt) (t : Stall) : Stall := t.setReg f.d (alu f.fn.toNat (t.reg f.a) (t.reg f.b))

theorem exec_alu (n : Fin 64) (f : RFmt) (s : State) :
    exec (.alu n f) s = .next (settle (runOp n.val (aluOp f) (onStall n.val (aluWrite f)) s)) := rfl

theorem aluOp_legal_iff (f : RFmt) : (aluOp f).legal = true ↔ f.fn.toNat < 24 ∧ (f.fn.toNat < 21 ∨ f.b = 0) := by
  simp [aluOp]

theorem aluOp_reserved {f : RFmt} (h : 24 ≤ f.fn.toNat ∨ (21 ≤ f.fn.toNat ∧ f.b ≠ 0)) : (aluOp f).legal = false := by
  rw [Bool.eq_false_iff, ne_eq, aluOp_legal_iff]
  rintro ⟨hfn, hb⟩
  rcases h with hfn' | ⟨hfn', hb'⟩
  · omega
  · exact hb' (hb.resolve_left (by omega))

theorem exec_alu_of_runs {s : State} {n : Fin 64} {f : RFmt} (r : Runs s n.val (rWord 0x01 f) f.g (aluCycles f.fn.toNat))
    (hl : (aluOp f).legal = true) :
    exec (.alu n f) s = .next (settle (s.ran n.val (aluCycles f.fn.toNat) (aluWrite f))) := by
  rw [exec_alu, runOp_plain (o := aluOp f) r hl (.inr rfl) n.isLt (aluWrite f) rfl (setReg_wp ..) (setReg_loops ..) (setReg_calls ..)]
  rfl

/-! Cycles. -/

theorem aluCycles_divide {k : Nat} (hlo : 17 ≤ k) (hhi : k ≤ 20) : aluCycles k = 20 := by
  rw [aluCycles, if_neg (by omega), if_neg (by omega), if_pos ⟨hlo, hhi⟩]

theorem aluCycles_single {k : Nat} (h : k < 14 ∨ 20 < k) : aluCycles k = 1 := by
  rw [aluCycles, if_neg (by omega), if_neg (by omega), if_neg (by omega)]

/-! Shifts and rotations. -/

theorem alu_sar_toInt (a b : W64) : (alu 8 a b).toInt = a.toInt / 2 ^ (b.toNat % 64) := by
  show (a.sshiftRight (b.toNat % 64)).toInt = _
  rw [BitVec.toInt_sshiftRight, Int.shiftRight_eq_div_pow]
  norm_cast

/-- Bits that a rotation moves past bit 0 come in at the top. -/
theorem alu_ror_getLsbD (a b : W64) {i : Nat} (hi : i < 64) :
    (alu 9 a b).getLsbD i = a.getLsbD ((i + b.toNat % 64) % 64) := by
  show (a.rotateRight (b.toNat % 64)).getLsbD i = _
  have hr : b.toNat % 64 < 64 := Nat.mod_lt _ (by decide)
  rw [BitVec.getLsbD_rotateRight_of_lt hr]
  by_cases hin : i < 64 - b.toNat % 64
  · rw [Nat.mod_eq_of_lt (by omega : i + b.toNat % 64 < 64), Nat.add_comm]
    simp [hin]
  · rw [show (i + b.toNat % 64) % 64 = i - (64 - b.toNat % 64) by omega]
    simp [hin, hi]

/-! The smaller and the larger of two words, under the reading f of a word as a number. -/

theorem smaller_eq_min {α : Type} [LinearOrder α] (f : W64 → α) (a b : W64) :
    f (if f b < f a then b else a) = min (f a) (f b) := by
  split
  · next h => exact (min_eq_right h.le).symm
  · next h => exact (min_eq_left (not_lt.1 h)).symm

theorem larger_eq_max {α : Type} [LinearOrder α] (f : W64 → α) (a b : W64) :
    f (if f a < f b then b else a) = max (f a) (f b) := by
  split
  · next h => exact (max_eq_right h.le).symm
  · next h => exact (max_eq_left (not_lt.1 h)).symm

/-! Products. -/

theorem w64_toNat {v : Nat} (h : v < 2 ^ 64) : (w64 v).toNat = v := by
  rw [w64, BitVec.toNat_ofNat, Nat.mod_eq_of_lt h]

theorem alu_mulhu_toNat (a b : W64) : (alu 15 a b).toNat = a.toNat * b.toNat / 2 ^ 64 :=
  w64_toNat (Nat.div_lt_of_lt_mul (Nat.mul_lt_mul'' a.isLt b.isLt))

/-- The high half of a signed product is a signed word: the product lies between −2^126 and 2^126. -/
theorem alu_mulhs_toInt (a b : W64) : (alu 16 a b).toInt = a.toInt * b.toInt / 2 ^ 64 := by
  have hlo : -2 ^ 126 ≤ a.toInt * b.toInt := BitVec.le_toInt_mul_toInt
  have hhi : a.toInt * b.toInt ≤ 2 ^ 126 := BitVec.toInt_mul_toInt_le
  exact BitVec.toInt_ofInt_eq_self (by decide) (by omega) (by omega)

/-! Quotients and remainders. -/

theorem alu_divu_toNat (a : W64) {b : W64} (hb : b ≠ 0) : (alu 17 a b).toNat = a.toNat / b.toNat := by
  rw [show alu 17 a b = w64 (a.toNat / b.toNat) from if_neg hb]
  exact w64_toNat (Nat.lt_of_le_of_lt (Nat.div_le_self ..) a.isLt)

theorem alu_remu_toNat (a : W64) {b : W64} (hb : b ≠ 0) : (alu 18 a b).toNat = a.toNat % b.toNat := by
  rw [show alu 18 a b = w64 (a.toNat % b.toNat) from if_neg hb]
  exact w64_toNat (Nat.lt_of_le_of_lt (Nat.mod_le ..) a.isLt)

theorem divS_of_ne_zero (a : W64) {b : W64} (hb : b ≠ 0) : divS a b = a.sdiv b := if_neg hb

theorem remS_of_ne_zero (a : W64) {b : W64} (hb : b ≠ 0) : remS a b = a.srem b := if_neg hb

/-- Only the most negative word divided by −1 leaves the signed words. -/
theorem alu_divs_toInt {a b : W64} (hb : b ≠ 0) (h : ¬(a = BitVec.intMin 64 ∧ b = BitVec.allOnes 64)) :
    (alu 19 a b).toInt = Int.tdiv a.toInt b.toInt := by
  show (divS a b).toInt = _
  rw [divS_of_ne_zero a hb]
  exact BitVec.toInt_sdiv_of_ne_or_ne a b (not_and_or.1 h)

theorem alu_rems_toInt (a : W64) {b : W64} (hb : b ≠ 0) : (alu 20 a b).toInt = Int.tmod a.toInt b.toInt := by
  show (remS a b).toInt = _
  rw [remS_of_ne_zero a hb, BitVec.toInt_srem]

/-! Bits set, and leading zeros. -/

theorem alu_popc_toNat (a b : W64) : (alu 21 a b).toNat = ((List.range 64).filter fun i => a.getLsbD i).length := by
  refine w64_toNat (Nat.lt_of_le_of_lt (List.length_filter_le ..) ?_)
  rw [List.length_range]
  decide

theorem log2_toNat_lt {a : W64} (ha : a ≠ 0) : Nat.log2 a.toNat < 64 :=
  (Nat.log2_lt (BitVec.toNat_pos_of_ne_zero ha).ne').2 a.isLt

/-- The leading zeros of a word stand above its highest bit set, whose number is its binary logarithm. -/
theorem alu_clz_toNat {a : W64} (b : W64) (ha : a ≠ 0) : (alu 22 a b).toNat = 63 - Nat.log2 a.toNat := by
  have hclz : clz64 a.toNat = 63 - Nat.log2 a.toNat := by
    rw [clz64, if_neg (BitVec.toNat_pos_of_ne_zero ha).ne']
    omega
  show (w64 (clz64 a.toNat)).toNat = _
  rw [w64_toNat (by omega), hclz]

theorem getLsbD_log2 {a : W64} (ha : a ≠ 0) : a.getLsbD (Nat.log2 a.toNat) = true :=
  Nat.testBit_log2 (BitVec.toNat_pos_of_ne_zero ha).ne'

theorem getLsbD_of_log2_lt {a : W64} {i : Nat} (hi : Nat.log2 a.toNat < i) : a.getLsbD i = false :=
  Nat.testBit_lt_two_pow (Nat.lt_of_lt_of_le Nat.lt_log2_self (Nat.pow_le_pow_right (by decide) hi))

theorem alu_clz_highest {a : W64} (b : W64) (ha : a ≠ 0) :
    (alu 22 a b).toNat < 64 ∧ a.getLsbD (63 - (alu 22 a b).toNat) = true ∧
      ∀ i, 63 - (alu 22 a b).toNat < i → a.getLsbD i = false := by
  have hlog := log2_toNat_lt ha
  have htop : 63 - (alu 22 a b).toNat = Nat.log2 a.toNat := by
    rw [alu_clz_toNat b ha]
    omega
  rw [htop]
  refine ⟨?_, getLsbD_log2 ha, fun i => getLsbD_of_log2_lt⟩
  rw [alu_clz_toNat b ha]
  omega

/-! Bytes. -/

/-- Byte k of the number that bytes spell is the k-th of them. -/
theorem byte_ofLe (bs : List Byte) (k : Nat) : b8 (ofLe bs >>> (8 * k)) = (bs[k]?).getD 0 := by
  induction bs generalizing k with
  | nil => simp [ofLe, b8]
  | cons b bs ih =>
    cases k with
    | zero =>
      apply BitVec.eq_of_toNat_eq
      simpa [ofLe, b8] using b.isLt
    | succ k =>
      have hdrop : (b.toNat + 256 * ofLe bs) >>> 8 = ofLe bs := by
        rw [Nat.shiftRight_eq_div_pow]
        omega
      rw [ofLe, Nat.mul_succ, Nat.add_comm (8 * k), Nat.shiftRight_add, hdrop, ih, List.getElem?_cons_succ]

theorem leBytes_getElem? {n k : Nat} (h : k < n) (v : Nat) : (leBytes n v)[k]? = some (b8 (v >>> (8 * k))) := by
  induction n generalizing k v with
  | zero => contradiction
  | succ n ih =>
    cases k with
    | zero => rfl
    | succ k =>
      rw [leBytes, List.getElem?_cons_succ, ih (by omega), ← Nat.shiftRight_add, Nat.mul_succ, Nat.add_comm 8]

@[simp] theorem leBytes_length (n v : Nat) : (leBytes n v).length = n := by
  induction n generalizing v with
  | zero => rfl
  | succ n ih => rw [leBytes, List.length_cons, ih]

theorem byte_w64 {k : Nat} (hk : k < 8) (v : Nat) : (w64 v).extractLsb' (8 * k) 8 = b8 (v >>> (8 * k)) := by
  ext i hi
  have hin : 8 * k + i < 64 := by omega
  simp [w64, b8, hin, hi, Nat.testBit_shiftRight, ← BitVec.getLsbD_eq_getElem, BitVec.getLsbD_ofNat]

theorem alu_bswap_byte (a b : W64) {k : Nat} (hk : k < 8) :
    (alu 23 a b).extractLsb' (8 * k) 8 = a.extractLsb' (8 * (7 - k)) 8 := by
  calc (alu 23 a b).extractLsb' (8 * k) 8
      = b8 (ofLe (leBytes 8 a.toNat).reverse >>> (8 * k)) := byte_w64 hk _
    _ = ((leBytes 8 a.toNat).reverse[k]?).getD 0 := byte_ofLe _ k
    _ = b8 (a.toNat >>> (8 * (7 - k))) := by
      rw [List.getElem?_reverse (by simpa using hk), leBytes_length, leBytes_getElem? (by omega)]
      rfl

/-- Settles O42: an encoding that Table 8-5 lists runs as an instruction that only writes its register, a reserved one is ILLEGAL, and
each function gives the result and takes the cycles of its row. -/
theorem aluFunctions : Obligations.AluFunctions := by
  unfold Obligations.AluFunctions
  refine ⟨fun s n f r hfn hb => exec_alu_of_runs r ((aluOp_legal_iff f).2 ⟨hfn, hb⟩), fun s n f h hres => ?_,
    ⟨rfl, rfl, rfl, fun k => aluCycles_divide, fun k => aluCycles_single⟩, fun a b => ?_⟩
  · rw [exec_alu, runOp_illegal (o := aluOp f) _ h (aluOp_reserved hres)]
  · exact ⟨rfl, rfl, rfl, rfl, rfl, rfl, rfl, rfl, alu_sar_toInt a b, fun i => alu_ror_getLsbD a b,
      smaller_eq_min BitVec.toNat a b, larger_eq_max BitVec.toNat a b,
      smaller_eq_min BitVec.toInt a b, larger_eq_max BitVec.toInt a b,
      rfl, alu_mulhu_toNat a b, alu_mulhs_toInt a b,
      fun hb => ⟨alu_divu_toNat a hb, alu_remu_toNat a hb, alu_rems_toInt a hb, alu_divs_toInt hb⟩,
      rfl, rfl, rfl, rfl, BitVec.intMin_sdiv_neg_one, by decide,
      alu_popc_toNat a b, fun ha => by rw [ha]; rfl, alu_clz_highest b, fun k => alu_bswap_byte a b⟩

end Sys2Proof.Proofs
end

section
/-! States that agree in every field, and what a keyed list holds. -/

namespace Sys2Proof.Proofs

open Sys2Proof Sys2Proof.Machine Sys2Proof.Laws

theorem state_ext {s t : State} (pending : s.pending = t.pending) (now : s.now = t.now) (fresh : s.fresh = t.fresh)
    (pwr : s.pwr = t.pwr) (therm : s.therm = t.therm) (hu : s.hu = t.hu) (health : s.health = t.health) (bcn : s.bcn = t.bcn)
    (bus : s.bus = t.bus) (keeper : s.keeper = t.keeper) (acc : s.acc = t.acc) (ev : s.ev = t.ev) (hb : s.hb = t.hb)
    (nv : s.nv = t.nv) (ns : s.ns = t.ns) (med : s.med = t.med) (stalls : s.stalls = t.stalls) (lots : s.lots = t.lots)
    (nextLot : s.nextLot = t.nextLot) (pipes : s.pipes = t.pipes) (queries : s.queries = t.queries) (slots : s.slots = t.slots)
    (waitq : s.waitq = t.waitq) (opens : s.opens = t.opens) (porters : s.porters = t.porters) (units : s.units = t.units)
    (nextCall : s.nextCall = t.nextCall) (offReports : s.offReports = t.offReports) (ram : s.ram = t.ram)
    (dataOut : s.dataOut = t.dataOut) : s = t := by
  cases s
  cases t
  simp_all

theorem mem_of_look {α : Type} {m : AMap α} {i : Nat} {x : α} (h : look m i = some x) : (i, x) ∈ m := by
  induction m with
  | nil => contradiction
  | cons p m ih =>
    rw [look] at h
    split at h
    · next hk =>
      obtain rfl := Option.some.inj h
      exact hk ▸ List.mem_cons_self
    · exact List.mem_cons_of_mem _ (ih h)

end Sys2Proof.Proofs
end

section
/-! The event router (R358 to R361): what the end of a command brings, and that no message that can go out waits. -/

namespace Sys2Proof.Proofs

open Sys2Proof Sys2Proof.Machine Sys2Proof.Laws

/-! Messages of the event sources. -/

theorem foldl_add_eq_sum (l : List Nat) : l.foldl (· + ·) 0 = l.sum := List.sum_eq_foldl.symm

theorem setBits_filter_sorted (n v : Nat) (p : Nat → Bool) : ((setBits n v).filter p).SortedLT :=
  ((List.pairwise_lt_range.filter _).filter _).sortedLT

/-- The word whose bits are the numbers of a rising list holds exactly those. -/
theorem testBit_sum_two_pow {l : List Nat} (h : l.SortedLT) (i : Nat) :
    Nat.testBit ((l.map fun k => 2 ^ k).foldl (· + ·) 0) i = decide (i ∈ l) := by
  rw [foldl_add_eq_sum, Bool.eq_iff_iff, ← Nat.mem_bitIndices, Nat.bitIndices_sum_map_two_pow h, decide_eq_true_iff]

theorem mem_setBits {n v i : Nat} : i ∈ setBits n v ↔ i < n ∧ Nat.testBit v i = true := by
  simp [setBits]

/-- A source of the event router waits for its message (R360). -/
def sourceWaits (e : Events) (src : Nat) : Prop := (e.due ||| (e.pulse &&& (e.en &&& ~~~e.alert))).getLsbD src = true

/-- Of the sources that are ready, those whose vector can be sent go. -/
theorem sendEvents_go {s : State} {ready : BitVec 512} (hlink : s.pwr.link = true) (hmask : s.ev.fmask = false) (p : Nat → Bool) :
    (if ready = 0 ∨ !s.pwr.link ∨ s.ev.fmask then [] else (setBits 512 ready.toNat).filter p) = (setBits 512 ready.toNat).filter p := by
  split
  · next h =>
    have h0 : ready = 0 := by simpa [hlink, hmask] using h
    have hnone : setBits 512 (ready.toNat) = [] := by
      rw [h0]
      exact List.filter_eq_nil_iff.2 fun i _ => by simp only [BitVec.testBit_toNat, BitVec.ofNat_eq_ofNat, BitVec.getLsbD_zero, Bool.false_eq_true, not_false_eq_true]
    rw [hnone, List.filter_nil]
  · rfl

/-- What the router sends is what waits and can be sent: none of those that can go out waits after it. -/
theorem sendEvents_sourceWaits {s : State} {src : Nat} (h : sourceWaits (sendEvents s).ev src) :
    s.deliverable ((sendEvents s).ev.vec src) = false := by
  have hsrc : src < 512 := BitVec.lt_of_getLsbD h
  rw [show (sendEvents s).ev.vec src = s.ev.vec src from rfl]
  by_contra hd
  simp only [State.deliverable, Bool.not_eq_false, Bool.and_eq_true, Bool.not_eq_true'] at hd
  obtain ⟨⟨hlink, hf⟩, hm⟩ := hd
  unfold sourceWaits sendEvents at h
  dsimp only at h
  rw [sendEvents_go hlink hf] at h
  generalize s.ev.en &&& ~~~s.ev.alert = msix at h
  generalize (s.ev.due ||| s.levels &&& ~~~s.ev.level) &&& s.levels &&& msix = due at h
  simp only [BitVec.getLsbD_or, BitVec.getLsbD_and, BitVec.getLsbD_not, BitVec.getLsbD_ofNat,
    testBit_sum_two_pow (setBits_filter_sorted _ _ _), List.mem_filter, mem_setBits, BitVec.testBit_toNat, hsrc, hm] at h
  cases hdue : due.getLsbD src <;> cases hp : s.ev.pulse.getLsbD src <;> cases hx : msix.getLsbD src <;> simp_all

theorem sendEvents_deliverable (s : State) (v : Nat) : (sendEvents s).deliverable v = s.deliverable v := rfl

/-! Messages of completion queues. -/

theorem sendCompletions_cqs {s : State} {q : Nat × CompQueue} (h : q ∈ (sendCompletions s).nv.cqs) (hirq : q.2.irq = true) :
    s.deliverable q.2.vector = false := by
  unfold sendCompletions at h
  dsimp only at h
  split at h
  · next hnone =>
    have := (List.filter_eq_nil_iff.1 (List.isEmpty_iff.1 hnone)) q h
    simpa [hirq] using this
  · obtain ⟨q', -, rfl⟩ := List.mem_map.1 h
    split at hirq
    · simp at hirq
    · next hno => 
      simp_all

theorem sendCompletions_ev (s : State) : (sendCompletions s).ev = { s.ev with sent := (sendCompletions s).ev.sent } := by
  unfold sendCompletions
  dsimp only
  split <;> rfl

/-- Once both have been sent, no vector that can be delivered has a message waiting (R361). -/
theorem publish_noDeliverable {s : State} {v : Nat} (h : (sendCompletions (sendEvents s)).pba v = true) :
    (sendCompletions (sendEvents s)).deliverable v = false := by
  have hd : (sendCompletions (sendEvents s)).deliverable v = s.deliverable v := by
    unfold State.deliverable
    rw [sendCompletions_ev, sendCompletions_pwr]
    rfl
  rw [hd]
  simp only [State.pba, Bool.or_eq_true, List.any_eq_true, Bool.and_eq_true, beq_iff_eq] at h
  rcases h with ⟨src, -, hw, rfl⟩ | ⟨q, hq, hirq, rfl⟩
  · rw [sendCompletions_ev] at hw ⊢
    rw [BitVec.testBit_toNat, BitVec.and_assoc] at hw
    exact sendEvents_sourceWaits hw
  · exact sendCompletions_cqs (s := sendEvents s) hq hirq

theorem settle_noDeliverable (s : State) : NoDeliverable (settle s) := by
  intro hr v hv
  rw [RouterOn, State.running, settle_pwr] at hr
  have hp : publish s = sendCompletions (sendEvents (publishHoldup (critEvents (endShutdown s)))) := if_pos hr
  change (publish s).pba v = true at hv
  change (publish s).deliverable v = false
  rw [hp] at hv ⊢
  exact publish_noDeliverable hv

/-- Settles O4: every step ends with the router's update, which sends every message that can go out. -/
theorem noDeliverableWaits : Obligations.NoDeliverableWaits := by
  unfold Obligations.NoDeliverableWaits
  intro s t _ ht
  obtain ⟨u, hu⟩ := step_settles s
  obtain rfl : settle u = t := Host.Outcome.next.inj (hu.symm.trans ht)
  exact settle_noDeliverable u

/-- Settles O5: at reset the router does not run. -/
theorem resetNoDeliverable : Obligations.ResetNoDeliverable := fun h =>
  absurd (show (State.reset.running && State.reset.pwr.watch != .asleep) = true from h) (by decide)

/-! The hold-up registers (Table 6-5). -/

theorem follow_shows (m : Meas) (v : Int) : (m.follow v).valid = true ∧ (m.follow v).value = v := by
  unfold Meas.follow
  split
  · next h => simpa using h
  · exact ⟨rfl, rfl⟩

theorem settle_holdupShown (s : State) : HoldupShown (settle s) := by
  intro hr
  rw [RouterOn, State.running, settle_pwr] at hr
  have hp : publish s = sendCompletions (sendEvents (publishHoldup (critEvents (endShutdown s)))) := if_pos hr
  change (publish s).hu.mVolt.valid = true ∧ (publish s).hu.mVolt.value = (publish s).hu.bankMv ∧ (publish s).hu.mDirty.valid = true ∧
    (publish s).hu.mDirty.value = 4 * ((publish s).med.held.length : Int)
  rw [hp, sendCompletions_hu, sendCompletions_med, sendEvents_hu, sendEvents_med]
  obtain ⟨hv, hval⟩ := follow_shows (endShutdown s).hu.mVolt (endShutdown s).hu.bankMv
  obtain ⟨hdv, hdval⟩ := follow_shows (endShutdown s).hu.mDirty (4 * (endShutdown s).med.held.length : Nat)
  push_cast at hdv hdval
  simp [publishHoldup, hv, hval, hdv, hdval]

/-- Settles O6: the router's update writes both registers, and nothing after it changes the bank or the dirty amount. -/
theorem holdupRegistersFollow : Obligations.HoldupRegistersFollow := by
  unfold Obligations.HoldupRegistersFollow
  intro s t _ ht
  obtain ⟨u, hu⟩ := step_settles s
  obtain rfl : settle u = t := Host.Outcome.next.inj (hu.symm.trans ht)
  exact settle_holdupShown u

/-! What the router changes. -/

theorem settle_of_router_off {s : State} (h : (s.running && s.pwr.watch != .asleep) = false) :
    settle s = { s with porters := (settle s).porters, units := (settle s).units } := by
  have hp : publish s = s := by rw [publish, h, if_neg Bool.false_ne_true]
  unfold settle
  rw [hp]
  rfl

/-- The event registers without the journal and what counts it. -/
def quietEvents (e : Events) : Events :=
  { e with journal := [], jnext := 0, jcount := 0, jdrops := 0, jprev := 0, dropped := 0, status := Vector.replicate 64 0 }

theorem events_eq_of_quiet {e e' : Events} (h : quietEvents e = quietEvents e') :
    e = { e' with journal := e.journal, jnext := e.jnext, jcount := e.jcount, jdrops := e.jdrops, jprev := e.jprev, dropped := e.dropped
                  status := e.status } := by
  cases e
  cases e'
  simp_all [quietEvents]

@[simp] theorem journal_quiet (k o c d : Nat) (s : State) : quietEvents (journal k o c d s).ev = quietEvents s.ev := by
  unfold journal
  dsimp only
  (repeat' split) <;> rfl

@[simp] theorem mediaEvent_quiet (c d : Nat) (s : State) : quietEvents (mediaEvent c d s).ev = quietEvents s.ev :=
  journal_quiet ..

/-- The health registers without the bytes programmed and the LBAs lost. -/
def soundHealth (h : Health) : Health := { h with nandBytes := 0, unrecEver := 0 }

theorem health_eq_of_sound {h h' : Health} (e : soundHealth h = soundHealth h') :
    h = { h' with nandBytes := h.nandBytes, unrecEver := h.unrecEver } := by
  cases h
  cases h'
  simp_all [soundHealth]

theorem loseHeld_quiet (s : State) (k : Nat) : quietEvents (loseHeld k s).ev = quietEvents s.ev := by
  unfold loseHeld markUnrec
  (repeat' split) <;> simp

theorem loseHeld_soundHealth (s : State) (k : Nat) : soundHealth (loseHeld k s).health = soundHealth s.health := by
  unfold loseHeld markUnrec
  (repeat' split) <;> simp [soundHealth]

theorem dropSpoiled_quiet (s : State) (ks : List Nat) : quietEvents (dropSpoiled ks s).ev = quietEvents s.ev :=
  foldl_keep (fun u : State => quietEvents u.ev) _ loseHeld_quiet _ _

theorem dropSpoiled_soundHealth (s : State) (ks : List Nat) : soundHealth (dropSpoiled ks s).health = soundHealth s.health :=
  foldl_keep (fun u : State => soundHealth u.health) _ loseHeld_soundHealth _ _

/-- Sound Held data loses nothing (R371). -/
theorem dropSpoiled_of_sound {s : State} (h : HeldSound s) (ks : List Nat) : dropSpoiled ks s = s := by
  have hnone : (ks.filter fun k => (look s.med.held k).any fun x => x.err != 0) = [] := by
    refine List.filter_eq_nil_iff.2 fun k _ hk => ?_
    obtain ⟨x, hx, herr⟩ := (Option.any_eq_true _ _).1 hk
    have h0 : x.err = 0 := h _ (mem_of_look hx)
    simp [h0] at herr
  rw [dropSpoiled, hnone, List.foldl_nil]

theorem setMedia_health (n : Nat) (m : Media) (s : State) :
    (setMedia n m s).health = { s.health with nandBytes := (setMedia n m s).health.nandBytes } := rfl

theorem flushHeld_ev (k : Nat) (s : State) : (flushHeld k s).ev = (dropSpoiled s.med.heldOrder s).ev := by
  unfold flushHeld
  simp

theorem flushHeld_health (k : Nat) (s : State) :
    (flushHeld k s).health =
      { (dropSpoiled s.med.heldOrder s).health with nandBytes := (flushHeld k s).health.nandBytes } := by
  unfold flushHeld
  dsimp only
  rw [startLowered_health, setMedia_health]

theorem flushHeld_soundHealth (k : Nat) (s : State) : soundHealth (flushHeld k s).health = soundHealth s.health := by
  rw [flushHeld_health]
  exact dropSpoiled_soundHealth s _

/-- A measurement that waited for the flush starts (R401). -/
theorem startLowered_hu (s : State) :
    (startLowered s).hu = { s.hu with measuring := (startLowered s).hu.measuring, due := (startLowered s).hu.due } := by
  unfold startLowered
  split <;> rfl

theorem flushHeld_hu (k : Nat) (s : State) :
    (flushHeld k s).hu = { s.hu with flushing := false, measuring := (flushHeld k s).hu.measuring, due := (flushHeld k s).hu.due } := by
  unfold flushHeld
  dsimp only
  rw [startLowered_hu, setMedia_hu, dropSpoiled_hu]

/-! The end of a shutdown (R110). -/

theorem endShutdown_of_none {s : State} (h : s.nv.shst ≠ 1) : endShutdown s = s := if_pos (.inl h)

theorem endShutdown_quiet (s : State) : quietEvents (endShutdown s).ev = quietEvents s.ev := by
  unfold endShutdown
  split
  · rfl
  · simp [flushHeld_ev, dropSpoiled_quiet]

theorem endShutdown_soundHealth (s : State) : soundHealth (endShutdown s).health = soundHealth s.health := by
  unfold endShutdown
  split
  · rfl
  · simp [flushHeld_soundHealth]

theorem endShutdown_hu (s : State) :
    (endShutdown s).hu = { s.hu with flushing := (endShutdown s).hu.flushing, measuring := (endShutdown s).hu.measuring
                                     due := (endShutdown s).hu.due } := by
  unfold endShutdown
  split
  · rfl
  · dsimp only
    rw [cleanStop_hu, flushHeld_hu]

theorem endShutdown_of_sound {s : State} (h : HeldSound s) :
    (endShutdown s).ev = s.ev ∧ (endShutdown s).health = { s.health with nandBytes := (endShutdown s).health.nandBytes } := by
  unfold endShutdown
  split
  · exact ⟨rfl, rfl⟩
  · dsimp only
    rw [cleanStop_ev, cleanStop_health, flushHeld_ev, flushHeld_health, dropSpoiled_of_sound h]
    exact ⟨rfl, rfl⟩

/-! Completions leave the shutdown as it stands. -/

/-- How far a shutdown is, and whether Held writes are written through after it (R110). -/
def shutdownPart (n : Nvme) : Nat × Bool := (n.shst, n.wtHold)

theorem dropCmd_shutdownPart (h : Nat) (s : State) : shutdownPart (dropCmd h s).nv = shutdownPart s.nv := rfl

theorem postEntry_shutdownPart (e : Completion) (s : State) : shutdownPart (postEntry e s).nv = shutdownPart s.nv := by
  unfold postEntry
  split <;> rfl

theorem endDeletes_shutdownPart (s : State) : shutdownPart (endDeletes s).nv = shutdownPart s.nv := by
  unfold endDeletes
  refine foldl_keep (fun u : State => shutdownPart u.nv) _ (fun t c => ?_) _ _
  dsimp only
  split
  · rfl
  · exact postEntry_shutdownPart _ _

theorem complete_shutdownPart (h sct sc : Nat) (d0 d1 : W32) (data : List Byte) (s : State) :
    shutdownPart (complete h sct sc d0 d1 data s).nv = shutdownPart s.nv := by
  unfold complete
  split
  · rfl
  · dsimp only
    split
    · rfl
    · rw [endDeletes_shutdownPart, postEntry_shutdownPart, dropCmd_shutdownPart]

theorem asyncEvent_shutdownPart (ty info page : Nat) (s : State) : shutdownPart (asyncEvent ty info page s).nv = shutdownPart s.nv := by
  unfold asyncEvent
  split
  · split
    · rfl
    · exact complete_shutdownPart ..
  · rfl

theorem critEvents_shutdownPart (s : State) : shutdownPart (critEvents s).nv = shutdownPart s.nv := by
  unfold critEvents
  exact foldl_keep (fun u : State => shutdownPart u.nv) _ (fun t b => asyncEvent_shutdownPart ..) _ _

theorem sendCompletions_shutdownPart (s : State) : shutdownPart (sendCompletions s).nv = shutdownPart s.nv := by
  unfold sendCompletions
  dsimp only
  split <;> rfl

/-! The router's update as a whole. -/

theorem publish_of_router_on {s : State} (h : (s.running && s.pwr.watch != .asleep) = true) :
    publish s = sendCompletions (sendEvents (publishHoldup (critEvents (endShutdown s)))) := if_pos h

theorem sendEvents_ev (s : State) :
    (sendEvents s).ev = { s.ev with level := (sendEvents s).ev.level, due := (sendEvents s).ev.due, pulse := (sendEvents s).ev.pulse
                                    sent := (sendEvents s).ev.sent } := rfl

/-- The router's own registers follow the shutdown that it ends. -/
theorem publish_ev (s : State) :
    (publish s).ev = { (endShutdown s).ev with level := (publish s).ev.level, due := (publish s).ev.due, pulse := (publish s).ev.pulse
                                               sent := (publish s).ev.sent } ∨ (publish s).ev = s.ev := by
  cases h : s.running && s.pwr.watch != .asleep with
  | true =>
    rw [publish_of_router_on h, sendCompletions_ev, sendEvents_ev]
    simp
  | false =>
    rw [publish, h, if_neg Bool.false_ne_true]
    exact .inr rfl

theorem settle_hu (s : State) :
    (settle s).hu = { s.hu with flushing := (settle s).hu.flushing, measuring := (settle s).hu.measuring, due := (settle s).hu.due
                                mVolt := (settle s).hu.mVolt, mDirty := (settle s).hu.mDirty } := by
  change (publish s).hu = { s.hu with flushing := (publish s).hu.flushing, measuring := (publish s).hu.measuring
                                      due := (publish s).hu.due, mVolt := (publish s).hu.mVolt, mDirty := (publish s).hu.mDirty }
  cases h : s.running && s.pwr.watch != .asleep with
  | true =>
    rw [publish_of_router_on h, sendCompletions_hu, sendEvents_hu, publishHoldup, critEvents_hu, endShutdown_hu]
  | false =>
    rw [publish, h, if_neg Bool.false_ne_true]

theorem publish_health (s : State) : (publish s).health = (endShutdown s).health ∨ (publish s).health = s.health := by
  cases h : s.running && s.pwr.watch != .asleep with
  | true =>
    rw [publish_of_router_on h]
    exact .inl (by simp)
  | false =>
    rw [publish, h, if_neg Bool.false_ne_true]
    exact .inr rfl

theorem settle_health (s : State) :
    (settle s).health = { s.health with nandBytes := (settle s).health.nandBytes, unrecEver := (settle s).health.unrecEver } := by
  apply health_eq_of_sound
  change soundHealth (publish s).health = _
  rcases publish_health s with h | h <;> rw [h]
  exact endShutdown_soundHealth s

theorem settle_ev (s : State) :
    (settle s).ev = { s.ev with level := (settle s).ev.level, due := (settle s).ev.due, pulse := (settle s).ev.pulse
                                sent := (settle s).ev.sent, journal := (settle s).ev.journal, jnext := (settle s).ev.jnext
                                jcount := (settle s).ev.jcount, jdrops := (settle s).ev.jdrops, jprev := (settle s).ev.jprev
                                dropped := (settle s).ev.dropped, status := (settle s).ev.status } := by
  change (publish s).ev = { s.ev with level := (publish s).ev.level, due := (publish s).ev.due, pulse := (publish s).ev.pulse
                                      sent := (publish s).ev.sent, journal := (publish s).ev.journal, jnext := (publish s).ev.jnext
                                      jcount := (publish s).ev.jcount, jdrops := (publish s).ev.jdrops
                                      jprev := (publish s).ev.jprev, dropped := (publish s).ev.dropped
                                      status := (publish s).ev.status }
  rcases publish_ev s with h | h
  · rw [h, events_eq_of_quiet (endShutdown_quiet s)]
  · rw [h]

theorem settle_frame (s : State) :
    settle s = { s with hu := (settle s).hu, health := (settle s).health, ev := (settle s).ev, nv := (settle s).nv, med := (settle s).med
                        porters := (settle s).porters, units := (settle s).units } := by
  apply state_ext <;> simp

/-- Settles O2: the frame of each part of the router's update, in its order. -/
theorem settleFrame : Obligations.SettleFrame := by
  unfold Obligations.SettleFrame
  refine ⟨fun s h => ⟨_, rfl, settle_of_router_off h⟩, fun s h => ?_, fun s => ⟨_, rfl, settle_frame s, settle_hu s, settle_health s, settle_ev s⟩,
    fun s h => ⟨_, rfl, ?_⟩, fun s h => ?_⟩
  · have hr : (publish s).running = false := by rw [State.running, publish_pwr]; exact h
    exact ⟨if_neg (by simpa using hr), if_neg (by simpa [State.running] using hr)⟩
  · have hend : (endShutdown s).ev = s.ev ∧
        (endShutdown s).health = { s.health with nandBytes := (endShutdown s).health.nandBytes } := by
      rcases h with h | h
      · exact endShutdown_of_sound h
      · rw [endShutdown_of_none h]
        exact ⟨rfl, rfl⟩
    obtain ⟨hev, hhealth⟩ := hend
    change (publish s).health = { s.health with nandBytes := (publish s).health.nandBytes } ∧
      (publish s).ev = { s.ev with level := (publish s).ev.level, due := (publish s).ev.due, pulse := (publish s).ev.pulse
                                   sent := (publish s).ev.sent }
    constructor
    · rcases publish_health s with h | h <;> rw [h]
      exact hhealth
    · rcases publish_ev s with h | h <;> rw [h]
      rw [hev]
  · change (publish s).med = s.med ∧ (publish s).health = s.health ∧
      (publish s).hu = { s.hu with mVolt := (publish s).hu.mVolt, mDirty := (publish s).hu.mDirty } ∧
      (publish s).nv.shst = s.nv.shst ∧ (publish s).nv.wtHold = s.nv.wtHold
    cases hr : s.running && s.pwr.watch != .asleep with
    | true =>
      have hnv : shutdownPart (publish s).nv = shutdownPart s.nv := by
        rw [publish_of_router_on hr, sendCompletions_shutdownPart, sendEvents_nv, publishHoldup_nv, critEvents_shutdownPart,
          endShutdown_of_none h]
      simp only [shutdownPart, Prod.mk.injEq] at hnv
      obtain ⟨hshst, hwt⟩ := hnv
      refine ⟨?_, ?_, ?_, hshst, hwt⟩ <;> rw [publish_of_router_on hr, endShutdown_of_none h]
      · simp
      · simp
      · rw [sendCompletions_hu, sendEvents_hu, publishHoldup, critEvents_hu]
    | false =>
      rw [publish, hr, if_neg Bool.false_ne_true]
      exact ⟨rfl, rfl, rfl, rfl, rfl⟩

/-! A step. -/

/-- Settles O58: every meaning ends with the router's update of some state. -/
theorem everyCommandAnswers : Obligations.EveryCommandAnswers := by
  unfold Obligations.EveryCommandAnswers
  intro i s
  obtain ⟨u, hu⟩ := exec_settles i s
  exact ⟨_, hu⟩

/-! The position: what a count change reaches (R46 to R51, R214, R257, R380). -/

/-- The media without the marks that wait. -/
def markless (m : Media) : Media := { m with pendMarks := [] }

/-- The power state without the wakes recorded. -/
def wakeless (p : Power) : Power := { p with wakeSrc := 0, wakeDue := false }

/-- A namespace without its open Lot. -/
def lotless (n : Ns) : Ns := { n with st := { n.st with opened := [] } }

/-- The namespaces by number without their open Lots. -/
def lotlessNs (s : State) (k : Nat) : Option Ns := (look s.ns k).map lotless

theorem closeLot_lotlessNs (n : Nat) (s : State) : lotlessNs (closeLot n s) = lotlessNs s := by
  unfold closeLot
  split
  · rfl
  · next x hx =>
    split
    · rfl
    · funext k
      unfold lotlessNs
      dsimp only
      by_cases hk : k = n
      · rw [hk, look_put_self, hx]
        rfl
      · rw [look_put_ne _ _ _ _ hk]

theorem closeLots_lotlessNs (s : State) : lotlessNs (closeLots s) = lotlessNs s :=
  foldl_keep lotlessNs _ (fun t n => closeLot_lotlessNs n t) _ _

theorem wake_wakeless (k : Nat) (s : State) : wakeless (wake k s).pwr = wakeless s.pwr := by
  unfold wake
  split <;> rfl

theorem lotlessNs_congr {s t : State} (h : s.ns = t.ns) : lotlessNs s = lotlessNs t := by
  unfold lotlessNs
  rw [h]

theorem bcnEvent_lotlessNs (s : State) (e : BcnEvent) : lotlessNs (bcnEvent s e) = lotlessNs s := by
  cases e with
  | enter n =>
    unfold bcnEvent
    dsimp only
    split <;> exact lotlessNs_congr (by simp)
  | leave n => exact lotlessNs_congr (by simp [bcnEvent])
  | crossing c m =>
    rw [← closeLots_lotlessNs s]
    cases m <;> exact lotlessNs_congr (by simp [bcnEvent])

theorem bcnEvent_markless (s : State) (e : BcnEvent) : markless (bcnEvent s e).med = markless s.med := by
  cases e with
  | enter n =>
    unfold bcnEvent
    dsimp only
    split <;> simp
  | leave n => simp [bcnEvent]
  | crossing c m =>
    cases m with
    | none => simp [bcnEvent]
    | some f => simp [bcnEvent, pendMark, markless]

theorem bcnEvent_wakeless (s : State) (e : BcnEvent) : wakeless (bcnEvent s e).pwr = wakeless s.pwr := by
  cases e with
  | enter n =>
    unfold bcnEvent
    dsimp only
    split <;> simp [wake_wakeless]
  | leave n => simp [bcnEvent]
  | crossing c m => cases m <;> simp [bcnEvent]

/-- The events of a Beacon update keep what each of them keeps, once the journal and the Stall interrupts have been seen to. -/
theorem bcnApply_keep {α : Type} (p : State → α) (r : Bcn × List BcnEvent) (s : State) (hbcn : ∀ u b, p { u with bcn := b } = p u)
    (hjournal : ∀ (u : State) (b : Nat), p (journal 0 0 b 0 u) = p u) (hpend : ∀ (u : State) (k : Nat), p (pendAll k u) = p u)
    (hevent : ∀ u e, p (bcnEvent u e) = p u) : p (bcnApply r s) = p s := by
  unfold bcnApply
  dsimp only
  rw [foldl_keep p _ hevent]
  have hj (l : List Nat) : p (l.foldl (fun u b => journal 0 0 b 0 u) { s with bcn := r.1 }) = p s := by
    rw [foldl_keep p _ hjournal, hbcn]
  split
  · rw [hpend, hj]
  · split
    · rw [hpend, hj]
    · rw [hj]

theorem bcnApply_onlyPosition (r : Bcn × List BcnEvent) (s : State) : OnlyPosition s (bcnApply r s) := by
  have hmed : markless (bcnApply r s).med = markless s.med := by
    apply bcnApply_keep (fun u => markless u.med) <;> simp [bcnEvent_markless]
  have hpwr : wakeless (bcnApply r s).pwr = wakeless s.pwr := by
    apply bcnApply_keep (fun u => wakeless u.pwr) <;> simp [bcnEvent_wakeless]
  have hns : lotlessNs (bcnApply r s) = lotlessNs s :=
    bcnApply_keep lotlessNs r s (fun _ _ => rfl) (fun _ _ => lotlessNs_congr (by simp)) (fun _ _ => rfl) bcnEvent_lotlessNs
  refine ⟨by apply state_ext <;> simp, ?_, ?_, fun n => congrFun hns n⟩
  · cases hm : (bcnApply r s).med
    cases hs : s.med
    simp_all [markless]
  · cases hm : (bcnApply r s).pwr
    cases hs : s.pwr
    simp_all [wakeless]

theorem follow_onlyPosition (s : State) : OnlyPosition s s.follow := by
  unfold State.follow
  split
  · exact bcnApply_onlyPosition _ s
  · exact ⟨rfl, rfl, rfl, fun _ => rfl⟩

theorem onlyPosition_of_time {s u : State} {t : Nat} (h : OnlyPosition { s with now := t } u) : OnlyPosition s u := by
  obtain ⟨hu, hmed, hpwr, hns⟩ := h
  exact ⟨hu, hmed, hpwr, hns⟩

/-- Settles O1: a step runs the front command, or lets 1 ns pass, with which the position follows. -/
theorem stepRunsFront : Obligations.StepRunsFront := by
  unfold Obligations.StepRunsFront
  refine ⟨fun s c rest h => by rw [step, h], fun s h => ⟨tick s, by rw [step, h], by simp, ?_, tick_of_not_extrapolates s⟩⟩
  exact onlyPosition_of_time (follow_onlyPosition _)

/-- Settles O3: the values of reset, field by field. -/
theorem resetState : Obligations.ResetState := by
  unfold Obligations.ResetState
  refine ⟨rfl, fun k => ?_, rfl, rfl, rfl, rfl, rfl, rfl, rfl, rfl, rfl, rfl, fun k => ?_, rfl, rfl, rfl, fun k => ?_⟩
  · exact Vector.getElem_replicate ..
  · exact congrArg Stall.state (Vector.getElem_replicate ..)
  · exact Vector.getElem_replicate ..

end Sys2Proof.Proofs
end

section
/-! Stall Code: the course of an instruction (R225, R243), and how its body and its effect go together. -/

namespace Sys2Proof.Proofs

open Sys2Proof Sys2Proof.Machine Sys2Proof.Laws

/-- Two rows that leave the same state answer the same. -/
theorem next_settle {a b : State} (h : a = b) :
    (Host.Outcome.next (settle a) : Host.Outcome State Fault Refusal) = .next (settle b) := by rw [h]

/-! The course of an instruction. -/

theorem runOp_unreadable {s u : State} {n : Nat} {o : Op} {body : State → Flow × State} (hcode : s.codeRuns n = true)
    (hquiet : (s.stall n).porterFault = none) (hread : readWord true n ((s.stall n).core.pc / 2) s = (none, u)) :
    runOp n o body s = stallFault n (if 2 ^ 14 ≤ (s.stall n).core.pc then 1 else 3) u := by
  unfold runOp
  simp only [hcode, hquiet, hread, Bool.not_true, Bool.false_eq_true, ↓reduceIte]

/-- What is left of an instruction's course once its word has been fetched: the causes in the order of R243, and `run` where none
ends it before its body. -/
def courseOp (n : Nat) (o : Op) (body : State → Flow × State) (s run : State) : State :=
  let t := s.stall n
  let inH := !t.handlers.isEmpty
  let on := guardTrue o.guard t.core.p
  if !o.legal || !guardOk o.guard || (inH && !o.handler && on) then stallFault n 1 s
  else if on && (body s).1 == .fault 1 then stallFault n 1 (body s).2
  else if !inH && decide (s.curTerm n < t.cycles + if on then o.cost else o.skip) then stallFault n 4 s
  else if !on then holdWp n t.core.wp (s.modStall n fun u => (u.charge o.skip).modCore (CoreRegs.onward inH t.core.pc))
  else run

theorem runOp_eq_courseOp {s : State} {n : Nat} {o : Op} (body : State → Flow × State) (h : Fetches s n o.word) :
    ∃ run, runOp n o body s = courseOp n o body s run := by
  obtain ⟨hcode, hquiet, v, hread, hword⟩ := h
  refine ⟨runOp n o body s, ?_⟩
  unfold runOp courseOp
  simp only [hcode, hquiet, hread, Bool.not_true, Bool.false_eq_true, ↓reduceIte, ← hword, ne_eq, not_true_eq_false]
  cases hon : guardTrue o.guard (s.stall n).core.p <;> split_ifs <;> simp_all

/-- Settles O40: the causes of R243 in their order. -/
theorem instructionCourse : Obligations.InstructionCourse := by
  unfold Obligations.InstructionCourse
  refine fun s n o body => ⟨fun hc hq u hr => runOp_unreadable hc hq hr, fun hf => ?_⟩
  obtain ⟨run, hrun⟩ := runOp_eq_courseOp body hf
  rw [hrun]
  unfold courseOp
  refine ⟨fun h => if_pos ?_, fun hl hg hh hon hbody => ?_, fun hl hg hh hbody hpay => ?_, fun hl hg hoff hpay hroom => ?_⟩
  · rcases h with h | h | ⟨hh, hno, hon⟩
    · simp [h]
    · simp [h]
    · simp [hno, hon, hh]
  · rcases hh with hh | hh <;> simp [hl, hg, hh, hon, hbody]
  · simp only [hl, hg, hh, List.isEmpty_nil, Bool.not_true, Bool.false_and, Bool.or_self, Bool.false_eq_true, ↓reduceIte]
    rw [if_neg (by simpa using hbody)]
    simp [hpay]
  · simp only [hl, hg, hoff, Bool.not_true, Bool.and_false, Bool.or_self, Bool.false_eq_true, ↓reduceIte, Bool.false_and,
      Bool.not_false]
    rw [if_neg (by simpa using hpay), holdWp_room]
    · exact modStall_congr _ _ _ _ rfl
    · simpa [Stall.modCore] using hroom

/-! What an instruction that comes to its body leaves (R190, R231). -/

section
variable {s u : State} {n : Nat} {o : Op} {body : State → Flow × State}

/-- An instruction that goes on in order, after a body that leaves the Stall's registers and handlers, and then f. -/
theorem runOp_next (f : Stall → Stall) (r : Runs s n o.word o.guard o.cost) (hl : o.legal = true)
    (hh : (s.stall n).handlers = [] ∨ o.handler = true) (hn : n < 64) (hb : body s = (.next, u.modStall n f))
    (hcore : (u.stall n).core = (s.stall n).core) (hhand : (u.stall n).handlers = (s.stall n).handlers)
    (hroom : (CoreRegs.onward (!(s.stall n).handlers.isEmpty) (s.stall n).core.pc (f (u.stall n)).core).wp < 2 ^ 21) :
    runOp n o body s = u.ran n o.cost f := by
  rw [runOp_body body r hl hh, hb]
  simp only [modStall_modStall]
  rw [holdWp_room]
  · refine modStall_congr _ _ _ _ ?_
    rw [hcore, hhand]
  · simpa [hn, Stall.charge, Stall.modCore] using hroom

/-- An instruction whose body leaves the Stall's registers and handlers, and that goes on in order. -/
theorem runOp_next_id (r : Runs s n o.word o.guard o.cost) (hl : o.legal = true)
    (hh : (s.stall n).handlers = [] ∨ o.handler = true) (hn : n < 64) (hb : body s = (.next, u))
    (hcore : (u.stall n).core = (s.stall n).core) (hhand : (u.stall n).handlers = (s.stall n).handlers) :
    runOp n o body s = u.ran n o.cost id := by
  have hid : u.modStall n id = u := by
    simp [State.modStall, vmod]
  refine runOp_next id r hl hh hn (by rw [hb, hid]) hcore hhand ?_
  rw [id_eq, hcore]
  exact r.room

/-- An instruction that places the PC itself, after a body that ends with f. -/
theorem runOp_stay_after (f : Stall → Stall) (r : Runs s n o.word o.guard o.cost) (hl : o.legal = true)
    (hh : (s.stall n).handlers = [] ∨ o.handler = true) (hn : n < 64) (hb : body s = (.stay, u.modStall n f))
    (hwp : (f (u.stall n)).core.wp < 2 ^ 21) : runOp n o body s = u.ranTo n o.cost f := by
  rw [runOp_body body r hl hh, hb]
  simp only [modStall_modStall]
  rw [holdWp_room]
  · rfl
  · simpa [hn, Stall.charge] using hwp

theorem runOp_stay_id (r : Runs s n o.word o.guard o.cost) (hl : o.legal = true)
    (hh : (s.stall n).handlers = [] ∨ o.handler = true) (hn : n < 64) (hb : body s = (.stay, u))
    (hcore : (u.stall n).core = (s.stall n).core) : runOp n o body s = u.ranTo n o.cost id := by
  have hid : u.modStall n id = u := by
    simp [State.modStall, vmod]
  refine runOp_stay_after id r hl hh hn (by rw [hb, hid]) ?_
  rw [id_eq, hcore]
  exact runs_wp r

/-- A taken branch. -/
theorem runOp_jump (p : CoreRegs → Nat) (r : Runs s n o.word o.guard o.cost) (hl : o.legal = true)
    (hh : (s.stall n).handlers = [] ∨ o.handler = true) (hn : n < 64) (hb : body s = (.jump (p (s.stall n).core), s)) :
    runOp n o body s = s.ranTo n o.cost fun t => t.modCore fun c => c.branchTo (!t.handlers.isEmpty) (p c) := by
  rw [runOp_body body r hl hh, hb]
  dsimp only
  rw [holdWp_room]
  · exact modStall_congr _ _ _ _ rfl
  · have hwp := runs_wp r
    simp only [hn, stall_modStall_self, Stall.modCore, CoreRegs.branchTo]
    split <;> simpa [CoreRegs.branch] using hwp

end

/-! Instructions that write one register or one predicate. -/

theorem runOp_setReg {s : State} {n : Nat} {o : Op} {d : BitVec 4} {v w : Stall → W64} (r : Runs s n o.word o.guard o.cost)
    (hl : o.legal = true) (hh : (s.stall n).handlers = [] ∨ o.handler = true) (hn : n < 64) (hv : v (s.stall n) = w (s.stall n)) :
    runOp n o (onStall n fun t => t.setReg d (v t)) s = s.ran n o.cost fun t => t.setReg d (w t) := by
  rw [runOp_plain r hl hh hn (fun t => t.setReg d (v t)) rfl (setReg_wp ..) (setReg_loops ..) (setReg_calls ..)]
  exact modStall_congr _ _ _ _ (by simp only [hv])

/-- The same of a body that looks at the card before it writes the register. -/
theorem runOp_setReg_of {s : State} {n : Nat} {o : Op} {body : State → Flow × State} {d : BitVec 4} {v : Stall → W64}
    (r : Runs s n o.word o.guard o.cost) (hl : o.legal = true) (hh : (s.stall n).handlers = [] ∨ o.handler = true) (hn : n < 64)
    (hb : body s = onStall n (fun t => t.setReg d (v t)) s) : runOp n o body s = s.ran n o.cost fun t => t.setReg d (v t) :=
  runOp_plain r hl hh hn _ hb (setReg_wp ..) (setReg_loops ..) (setReg_calls ..)

theorem runOp_setPred {s : State} {n : Nat} {o : Op} {body : State → Flow × State} {d : BitVec 4} {v : Stall → Bool}
    (r : Runs s n o.word o.guard o.cost) (hl : o.legal = true) (hh : (s.stall n).handlers = [] ∨ o.handler = true) (hn : n < 64)
    (hb : body s = onStall n (fun t => t.setPred d (v t)) s) : runOp n o body s = s.ran n o.cost fun t => t.setPred d (v t) :=
  runOp_plain r hl hh hn _ hb rfl rfl rfl

/-! Immediate operands. -/

theorem sext64_toNat {k : Nat} (v : BitVec k) : sext64 k v.toNat = v.signExtend 64 := by
  unfold sext64 sext
  rw [BitVec.signExtend]
  congr 1
  rw [Nat.mod_eq_of_lt v.isLt, BitVec.toInt_eq_msb_cond, BitVec.msb_eq_getLsbD_last, BitVec.getLsbD]

theorem w64_toNat_eq_setWidth {k : Nat} (v : BitVec k) : w64 v.toNat = v.setWidth 64 := by
  apply BitVec.eq_of_toNat_eq
  simp [w64]

theorem w32_toNat_eq_setWidth {k : Nat} (v : BitVec k) : w32 v.toNat = v.setWidth 32 := by
  apply BitVec.eq_of_toNat_eq
  simp [w32]

theorem w64_shiftLeft {k : Nat} (v : BitVec k) (i : Nat) : w64 (v.toNat <<< i) = v.setWidth 64 <<< i := by
  apply BitVec.eq_of_toNat_eq
  simp [w64, Nat.shiftLeft_eq, Nat.mul_mod]

theorem fld_low {k : Nat} (v : BitVec k) (hi : Nat) : fld v hi 0 = v.toNat % 2 ^ (hi + 1) := by
  simp [fld]

theorem fld_low_of_lt {k : Nat} {v : BitVec k} {hi : Nat} (h : v.toNat < 2 ^ (hi + 1)) : fld v hi 0 = v.toNat := by
  rw [fld_low, Nat.mod_eq_of_lt h]

/-- The low ten bits of an immediate, sign-extended. -/
theorem sext64_fld_ten (v : BitVec 14) : sext64 10 (fld v 9 0) = (v.setWidth 10).signExtend 64 := by
  rw [← sext64_toNat, fld_low, BitVec.toNat_setWidth]

/-! A stamp taken by an instruction moves the position, which leaves the Stall's registers. -/

/-- What the Stall Code of Stall n goes on with. -/
def codeState (n : Nat) (s : State) : CoreRegs × List HandlerFrame := ((s.stall n).core, (s.stall n).handlers)

@[simp] theorem pend_core (k : Nat) (t : Stall) : (t.pend k).core = t.core := by
  unfold Stall.pend
  split <;> rfl

@[simp] theorem pend_handlers (k : Nat) (t : Stall) : (t.pend k).handlers = t.handlers := by
  unfold Stall.pend
  split <;> rfl

/-- An Arc's event keeps of a Stall what a source that pends keeps. -/
theorem arcPend_keep {α : Type} (p : Stall → α) (h : ∀ k t, p (t.pend k) = p t) (a : Nat) (e : Bool) (t : Stall) :
    p (t.arcPend a e) = p t := by
  refine foldl_keep p _ (fun t k => ?_) _ _
  dsimp only
  split_ifs <;> simp only [h]

theorem stall_pendAll {n : Nat} (hn : n < 64) (k : Nat) (s : State) : (pendAll k s).stall n = (s.stall n).pend k := by
  simp [pendAll, State.stall, hn]

theorem stall_arcPendAll {n : Nat} (hn : n < 64) (a : Nat) (e : Bool) (s : State) :
    (s.arcPendAll a e).stall n = if s.stallWorld n == s.arcWorld a then (s.stall n).arcPend a e else s.stall n := by
  simp [State.arcPendAll, State.stall, vmapi, hn]

theorem codeState_congr {n : Nat} {s t : State} (h : s.stalls = t.stalls) : codeState n s = codeState n t := by
  unfold codeState State.stall
  rw [h]

theorem codeState_pendAll {n : Nat} (hn : n < 64) (k : Nat) (s : State) : codeState n (pendAll k s) = codeState n s := by
  unfold codeState
  rw [stall_pendAll hn, pend_core, pend_handlers]

theorem codeState_arcPendAll {n : Nat} (hn : n < 64) (a : Nat) (e : Bool) (s : State) : codeState n (s.arcPendAll a e) = codeState n s := by
  unfold codeState
  rw [stall_arcPendAll hn]
  split
  · rw [arcPend_keep _ pend_core, arcPend_keep _ pend_handlers]
  · rfl

theorem codeState_bcnEvent {n : Nat} (hn : n < 64) (s : State) (e : BcnEvent) : codeState n (bcnEvent s e) = codeState n s := by
  cases e with
  | enter k =>
    unfold bcnEvent
    dsimp only
    split
    · rw [codeState_congr (wake_stalls _ _), codeState_arcPendAll hn, codeState_congr (raisePulse_stalls _ _ _ _)]
    · rw [codeState_arcPendAll hn, codeState_congr (raisePulse_stalls _ _ _ _)]
  | leave k =>
    unfold bcnEvent
    dsimp only
    rw [codeState_arcPendAll hn, codeState_congr (raisePulse_stalls _ _ _ _)]
  | crossing c m =>
    have hclose : codeState n (clearDec (closeLots s)) = codeState n s := codeState_congr (by simp)
    cases m with
    | none =>
      unfold bcnEvent
      dsimp only
      rw [codeState_pendAll hn, hclose]
    | some f =>
      unfold bcnEvent
      dsimp only
      rw [codeState_congr (pendMark_stalls _ _), codeState_pendAll hn, hclose]

theorem codeState_bcnApply {n : Nat} (hn : n < 64) (r : Bcn × List BcnEvent) (s : State) : codeState n (bcnApply r s) = codeState n s :=
  bcnApply_keep (codeState n) r s (fun _ _ => rfl) (fun u b => codeState_congr (journal_stalls u 0 0 b 0)) (fun u k => codeState_pendAll hn k u)
    (codeState_bcnEvent hn)

theorem codeState_stampNow {n : Nat} (hn : n < 64) (t : Nat) (s : State) : codeState n (stampNow t s).2 = codeState n s := by
  unfold stampNow
  dsimp only
  split
  · exact codeState_bcnApply hn _ s
  · rfl

/-- A body that has moved the position, and then writes a register. -/
theorem runOp_setReg_after {s u : State} {n : Nat} {o : Op} {body : State → Flow × State} {d : BitVec 4} {v : Stall → W64}
    (r : Runs s n o.word o.guard o.cost) (hl : o.legal = true) (hh : (s.stall n).handlers = [] ∨ o.handler = true) (hn : n < 64)
    (hb : body s = onStall n (fun t => t.setReg d (v t)) u) (hu : codeState n u = codeState n s) :
    runOp n o body s = u.ran n o.cost fun t => t.setReg d (v t) := by
  simp only [codeState, Prod.mk.injEq] at hu
  obtain ⟨hcore, hhand⟩ := hu
  refine runOp_next _ r hl hh hn hb hcore hhand ?_
  rw [onward_wp_congr _ _ _ (s.stall n).core (by rw [setReg_wp, hcore]) (by rw [setReg_loops, hcore]) (by rw [setReg_calls, hcore])]
  exact r.room

theorem bcn_value {f : RFmt} (s : State) (n : Nat) :
    (if f.fn.toNat = 1 then w64 (s.bcn.status s.compat).toNat else if f.fn.toNat = 2 then w64 (s.stallArcs n)
      else if f.fn.toNat = 3 then w64 s.bcn.regs.cpc.toNat else if f.fn.toNat = 4 then s.bcn.com.num else w64 s.bcn.seq) =
    (if f.fn = 1 then (s.bcn.status s.compat).setWidth 64 else if f.fn = 2 then w64 (s.stallArcs n)
      else if f.fn = 3 then s.bcn.regs.cpc.setWidth 64 else if f.fn = 4 then s.bcn.com.num else w64 s.bcn.seq) := by
  have hfn (k : Nat) (hk : k < 1024) : f.fn.toNat = k ↔ f.fn = BitVec.ofNat 10 k := by
    rw [← BitVec.toNat_inj, BitVec.toNat_ofNat, Nat.mod_eq_of_lt hk]
  simp only [hfn 1 (by decide), hfn 2 (by decide), hfn 3 (by decide), hfn 4 (by decide), w64_toNat_eq_setWidth]
  rfl

/-- Settles O41: each instruction is legal under the conditions of its clause, and its body writes one register or predicate. -/
theorem computeRows : Obligations.ComputeRows := by
  unfold Obligations.ComputeRows
  intro s n
  have hn := n.isLt
  refine ⟨fun f r => ?_, fun f r => ?_, fun f r => ?_, fun f r => ?_, fun f r h => ?_, fun f r => ?_, fun f r => ?_, fun f r h hw => ?_,
    fun f r h hw => ?_, fun f r h => ?_, fun f r h => ?_, fun f r h => ?_, fun f r hd ha hb hf => ?_, fun f r h => ?_,
    fun f r ha hb h1 h5 => ?_, fun f r ha hb hf => ?_, fun f r ha h => ?_, fun f r ha hb hf => ⟨fun h hs hh => ?_, fun hh => ?_⟩,
    fun f r hd hb hf => ?_⟩
  · exact next_settle (runOp_setReg r rfl (.inr rfl) hn (by rw [sext64_toNat]))
  · exact next_settle (runOp_setReg r rfl (.inr rfl) hn (by rw [w64_toNat_eq_setWidth]))
  · exact next_settle (runOp_setReg r rfl (.inr rfl) hn (by rw [w64_toNat_eq_setWidth]))
  · exact next_settle (runOp_setReg r rfl (.inr rfl) hn (by rw [w64_toNat_eq_setWidth]))
  · exact next_settle (runOp_setReg r (by simpa using h) (.inr rfl) hn rfl)
  · exact next_settle (runOp_setReg r rfl (.inr rfl) hn (w64_shiftLeft _ _))
  · exact next_settle (runOp_setReg r rfl (.inr rfl) hn rfl)
  · exact next_settle (runOp_setReg r (by simp [h, hw]) (.inr rfl) hn rfl)
  · exact next_settle (runOp_setReg r (by simp [h, hw]) (.inr rfl) hn rfl)
  · exact next_settle (runOp_setReg r (by simpa using h) (.inr rfl) hn (by rw [fld_low_of_lt (by omega)]))
  · exact next_settle (runOp_setPred r (by simpa using h) (.inr rfl) hn rfl)
  · refine next_settle (runOp_setPred r (by simpa using h) (.inr rfl) hn ?_)
    rw [sext64_fld_ten]
  · exact next_settle (runOp_plain r (by simp [hd, ha, hb, hf]) (.inr rfl) hn _ rfl rfl rfl rfl)
  · exact next_settle (runOp_setPred r (by simpa using h) (.inr rfl) hn rfl)
  · refine next_settle (runOp_setReg_of r (by simp [ha, hb, h5]) (.inr rfl) hn ?_)
    rw [← bcn_value s n.val]
    dsimp only
    rw [if_neg (by omega)]
  · refine next_settle (runOp_setReg_after r (by simp [ha, hb, hf]) (.inr rfl) hn ?_ (codeState_stampNow hn s.now s))
    dsimp only
    rw [hf, if_pos (by rfl)]
  · exact next_settle (runOp_setPred r (by simp [ha, h]) (.inr rfl) hn rfl)
  · refine next_settle (runOp_setReg_of r (by simp [ha, hb, hf]) (.inr rfl) hn ?_)
    simp only [hh]
  · refine ⟨(freeWord s).1, next_settle (runOp_setReg_after r (by simp [ha, hb, hf]) (.inr rfl) hn ?_ rfl)⟩
    simp only [hh]
    rfl
  · refine next_settle (runOp_plain r (by simp [hd, hb, hf]) (.inr rfl) hn _ ?_ rfl rfl rfl)
    simp only [w32_toNat_eq_setWidth]
    rfl

end Sys2Proof.Proofs
end

section
/-! Stall Code: the window, memory, control flow, emits, moves and unit calls (R221 to R243). -/

namespace Sys2Proof.Proofs

open Sys2Proof Sys2Proof.Machine Sys2Proof.Laws

/-! What leaves the registers and handlers of a Stall. -/

theorem core_of_codeState {s t : State} {n : Nat} (h : codeState n s = codeState n t) : (s.stall n).core = (t.stall n).core :=
  congrArg Prod.fst h

theorem handlers_of_codeState {s t : State} {n : Nat} (h : codeState n s = codeState n t) :
    (s.stall n).handlers = (t.stall n).handlers := congrArg Prod.snd h

theorem codeState_modStall {f : Stall → Stall} (n m : Nat) (s : State) (hcore : ∀ t, (f t).core = t.core := by intro t; rfl)
    (hhand : ∀ t, (f t).handlers = t.handlers := by intro t; rfl) : codeState m (s.modStall n f) = codeState m s := by
  by_cases hm : m = n
  · subst hm
    by_cases hn : m < 64
    · simp [codeState, hn, hcore, hhand]
    · simp [codeState, State.stall, hn]
  · simp [codeState, stall_modStall_ne _ _ _ _ hm]

theorem codeState_raiseStall (k n b m : Nat) (s : State) : codeState m (raiseStall k n b s) = codeState m s := by
  unfold raiseStall
  dsimp only
  split
  · rfl
  · rw [codeState_congr (journal_stalls _ _ _ _ _)]
    by_cases hm : m = n
    · subst hm
      by_cases hn : m < 64
      · simp [codeState, hn]
      · simp [codeState, State.stall, hn]
    · simp [codeState, stall_setStall_ne _ _ _ _ hm]

theorem codeState_forceStall (n : Nat) (v : W32) (m : Nat) (s : State) : codeState m (forceStall n v s) = codeState m s :=
  foldl_keep (codeState m) _ (fun t b => codeState_raiseStall 1 n b m t) _ _

theorem codeState_clearStall (n : Nat) (v : W32) (m : Nat) (s : State) : codeState m (clearStall n v s) = codeState m s := by
  have hclear : codeState m (s.modStall n fun t => { t with fstat := t.fstat &&& ~~~(b8 v.toNat) }) = codeState m s :=
    codeState_modStall n m s
  unfold clearStall
  dsimp only
  split
  · exact hclear
  · exact hclear

/-- A choice keeps what both its branches keep. -/
theorem keep_ite {α β : Type} (p : α → β) {x : β} {c : Prop} [Decidable c] {a b : α} (ha : p a = x) (hb : p b = x) :
    p (if c then a else b) = x := by
  split
  · exact ha
  · exact hb

/-- A write of a control register leaves the registers and handlers (Table 7-4). -/
theorem codeState_ctlWrite (n off : Nat) (v : W32) (m : Nat) (s : State) : codeState m (ctlWrite n off v s) = codeState m s := by
  unfold ctlWrite
  dsimp only
  repeat' with_reducible refine keep_ite (codeState m) ?_ ?_
  rotate_right
  · rfl
  · exact codeState_clearStall n v m s
  · exact codeState_forceStall n v m s
  all_goals exact codeState_modStall n m s (fun t => by simp [Stall.setFlip]) (fun t => by simp [Stall.setFlip])

/-! Memory. -/

@[simp] theorem writeWord_core (pm : Bool) (i : Nat) (v : W64) (t : Stall) : (t.writeWord pm i v).core = t.core := by
  cases pm <;> rfl

@[simp] theorem writeBytes_core (a : Nat) (bs : List Byte) (t : Stall) : (t.writeBytes a bs).core = t.core := by
  unfold Stall.writeBytes
  exact foldl_keep Stall.core _ (fun t c => writeWord_core false _ _ t) _ _

theorem localRange_of_high {a k : Nat} (h : 0x80000 ≤ a) (hk : 0 < k) : localRange a k k = false := by
  have hout : ¬ a + k ≤ 0x80000 := by omega
  simp [localRange, hout]

section
variable {s : State} {n : Nat} {f : IFmt} {k a : Nat}

/-- A load from local memory. -/
theorem load_local (hk : k = 2 ^ fld f.imm 13 12) (ha : a = ((s.stall n).reg f.a + w64 (fld f.imm 11 0 * k)).toNat) {bs : List Byte}
    (hr : localRange a k k = true) (hl : loadLocal n a k s = (some bs, s)) (signed : Bool) :
    load n f signed s = onStall n (fun t => t.setReg f.d (byteField bs signed false)) s := by
  subst hk ha
  unfold load
  simp only [hr, hl, ↓reduceIte]

/-- A load from the Stall's own control block. -/
theorem load_ctl (hk : k = 2 ^ fld f.imm 13 12) (ha : a = ((s.stall n).reg f.a + w64 (fld f.imm 11 0 * k)).toNat)
    (hlo : 0x80000 ≤ a) (hhi : a < 0x81000) (h4 : k = 4) (hal : a % 4 = 0) :
    load n f false s = onStall n (fun t => t.setReg f.d (w64 (s.ctlRead n (a - 0x80000)).toNat)) s := by
  have hr : localRange a k k = false := localRange_of_high hlo (by omega)
  subst hk ha
  unfold load
  simp only [hr, Bool.false_eq_true, ↓reduceIte]
  rw [if_pos ⟨hlo, hhi, h4, hal⟩]

/-- A load from anywhere else. -/
theorem load_outside (hk : k = 2 ^ fld f.imm 13 12) (ha : a = ((s.stall n).reg f.a + w64 (fld f.imm 11 0 * k)).toNat)
    (hr : localRange a k k = false) (hc : ¬(0x80000 ≤ a ∧ a < 0x81000 ∧ k = 4 ∧ a % 4 = 0)) (signed : Bool) :
    load n f signed s = (.fault 2, s) := by
  subst hk ha
  unfold load
  simp only [hr, Bool.false_eq_true, ↓reduceIte]
  rw [if_neg hc]

/-- A store of a whole word. -/
theorem store_word (hk : k = 2 ^ fld f.imm 13 12) (ha : a = ((s.stall n).reg f.a + w64 (fld f.imm 11 0 * k)).toNat)
    (hr : localRange a k k = true) (h8 : k = 8) : store n f s = onStall n (Stall.writeWord false (a / 8) ((s.stall n).reg f.d)) s := by
  subst hk ha
  unfold store
  simp only [hr, ↓reduceIte]
  rw [if_pos h8]

/-- A narrower store into a word that reads. -/
theorem store_part (hk : k = 2 ^ fld f.imm 13 12) (ha : a = ((s.stall n).reg f.a + w64 (fld f.imm 11 0 * k)).toNat)
    (hr : localRange a k k = true) (h8 : k ≠ 8) {v : W64} (hv : readWord false n (a / 8) s = (some v, s)) :
    store n f s = onStall n (Stall.writeWord false (a / 8)
      (w64 (ofLe (patch (leBytes 8 v.toNat) (a % 8) (leBytes k ((s.stall n).reg f.d).toNat))))) s := by
  subst hk ha
  unfold store
  simp only [hr, ↓reduceIte]
  rw [if_neg h8, hv]

/-- A narrower store into a word that fails its check. -/
theorem store_unreadable (hk : k = 2 ^ fld f.imm 13 12) (ha : a = ((s.stall n).reg f.a + w64 (fld f.imm 11 0 * k)).toNat)
    (hr : localRange a k k = true) (h8 : k ≠ 8) {u : State} (hv : readWord false n (a / 8) s = (none, u)) :
    store n f s = (.fault 3, u) := by
  subst hk ha
  unfold store
  simp only [hr, ↓reduceIte]
  rw [if_neg h8, hv]

/-- A store into the Stall's own control block. -/
theorem store_ctl (hk : k = 2 ^ fld f.imm 13 12) (ha : a = ((s.stall n).reg f.a + w64 (fld f.imm 11 0 * k)).toNat)
    (hlo : 0x80000 ≤ a) (hhi : a < 0x81000) (h4 : k = 4) (hal : a % 4 = 0) :
    store n f s = (.next, ctlWrite n (a - 0x80000) (w32 ((s.stall n).reg f.d).toNat) s) := by
  have hr : localRange a k k = false := localRange_of_high hlo (by omega)
  subst hk ha
  unfold store
  simp only [hr, Bool.false_eq_true, ↓reduceIte]
  rw [if_pos ⟨hlo, hhi, h4, hal⟩]

/-- A store anywhere else. -/
theorem store_outside (hk : k = 2 ^ fld f.imm 13 12) (ha : a = ((s.stall n).reg f.a + w64 (fld f.imm 11 0 * k)).toNat)
    (hr : localRange a k k = false) (hc : ¬(0x80000 ≤ a ∧ a < 0x81000 ∧ k = 4 ∧ a % 4 = 0)) : store n f s = (.fault 2, s) := by
  subst hk ha
  unfold store
  simp only [hr, Bool.false_eq_true, ↓reduceIte]
  rw [if_neg hc]

end

/-- A body that changes local memory alone. -/
theorem runOp_memory {s : State} {n : Nat} {o : Op} {body : State → Flow × State} {f g : Stall → Stall}
    (r : Runs s n o.word o.guard o.cost) (hl : o.legal = true) (hh : (s.stall n).handlers = [] ∨ o.handler = true) (hn : n < 64)
    (hb : body s = onStall n f s) (hcore : ∀ t, (f t).core = t.core) (hg : f (s.stall n) = g (s.stall n)) :
    runOp n o body s = s.ran n o.cost g := by
  rw [runOp_plain r hl hh hn f hb (by rw [hcore]) (by rw [hcore]) (by rw [hcore])]
  exact modStall_congr _ _ _ _ (by rw [hg])

theorem onward_outside {s : State} {n : Nat} (h : (s.stall n).handlers = []) (c : CoreRegs) (pc : Nat) :
    CoreRegs.onward (!(s.stall n).handlers.isEmpty) pc c = c.advance pc := by
  simp [CoreRegs.onward, h]

theorem bit_zero_eq (v : BitVec 1) : bit v 0 = (v == 1) := by
  revert v
  decide

/-- Settles O43: the access that each body makes, by its address. -/
theorem accessRows : Obligations.AccessRows := by
  unfold Obligations.AccessRows
  intro s n
  have hn := n.isLt
  refine ⟨fun f r hh hz hoff => ?_, fun f r hh h0 => ?_, fun f r hh hd ha h1 h4 hroom => ?_, fun f r hh hd hb hf hroom => ?_,
    fun f r hh ha hb hf => ?_, fun f r hh ha hb hf => ?_, fun f r hh ha hb hf => ?_, fun f bs r h0 hr hl => ?_,
    fun f r hh hd => ⟨fun hr => ?_, fun hr => ?_⟩,
    fun f k a hk ha => ⟨fun bs hr hl => ⟨fun r => ?_, fun r => ?_⟩, fun hlo hhi h4 hal => ⟨fun r => ?_, fun r => ?_⟩,
      fun hr hc => ⟨fun r => ?_, fun r => ?_, fun r => ?_⟩, fun hr r => ⟨fun h8 => ?_, fun v h8 hv => ?_, fun u h8 hv => ?_⟩⟩⟩
  · refine next_settle (runOp_setReg_of r (by simp [hz, hoff]) (.inl hh) hn ?_)
    simp only [bit_zero_eq]
  · exact next_settle (runOp_setReg_of r (by simpa using h0) (.inl hh) hn rfl)
  · refine next_settle (runOp_ran r (by simp [hd, ha, h1, h4]) (.inl hh) hn _ rfl ?_)
    rw [onward_outside hh]
    exact hroom
  · refine next_settle (runOp_ran r (by simp [hd, hb, hf]) (.inl hh) hn _ rfl ?_)
    rw [onward_outside hh]
    exact hroom
  · exact next_settle (runOp_setReg_of r (by simp [ha, hb, hf]) (.inl hh) hn rfl)
  · exact next_settle (runOp_setReg_of r (by simp [ha, hb, hf]) (.inl hh) hn rfl)
  · exact next_settle (runOp_setReg_of r (by simp [ha, hb, hf]) (.inl hh) hn rfl)
  · refine next_settle (runOp_setReg_of r (by simpa using h0) (.inr rfl) hn ?_)
    simp only [hr, hl, Bool.not_true, Bool.false_eq_true, ↓reduceIte]
  · refine next_settle (runOp_memory r (by simpa using hd) (.inl hh) hn ?_ (writeBytes_core _ _) rfl)
    simp only [hr, ↓reduceIte]
  · refine next_settle (runOp_fault r (by simpa using hd) (.inl hh) ?_)
    simp only [hr, Bool.false_eq_true, ↓reduceIte]
  · exact next_settle (runOp_setReg_of r rfl (.inr rfl) hn (load_local hk ha hr hl false))
  · exact next_settle (runOp_setReg_of r rfl (.inr rfl) hn (load_local hk ha hr hl true))
  · exact next_settle (runOp_setReg_of r rfl (.inr rfl) hn (load_ctl hk ha hlo hhi h4 hal))
  · have hcode := codeState_ctlWrite n.val (a - 0x80000) (w32 ((s.stall n.val).reg f.d).toNat) n.val s
    exact next_settle (runOp_next_id r rfl (.inr rfl) hn (store_ctl hk ha hlo hhi h4 hal) (core_of_codeState hcode)
      (handlers_of_codeState hcode))
  · exact next_settle (runOp_fault r rfl (.inr rfl) (load_outside hk ha hr hc false))
  · exact next_settle (runOp_fault r rfl (.inr rfl) (load_outside hk ha hr hc true))
  · exact next_settle (runOp_fault r rfl (.inr rfl) (store_outside hk ha hr hc))
  · exact next_settle (runOp_memory r rfl (.inr rfl) hn (store_word hk ha hr h8) (writeWord_core _ _ _) rfl)
  · exact next_settle (runOp_memory r rfl (.inr rfl) hn (store_part hk ha hr h8 hv) (writeWord_core _ _ _) rfl)
  · exact next_settle (runOp_fault r rfl (.inr rfl) (store_unreadable hk ha hr h8 hv))

end Sys2Proof.Proofs
end

section
/-! Stall Code: control flow, emits, moves and unit calls (R231 to R240). -/

namespace Sys2Proof.Proofs

open Sys2Proof Sys2Proof.Machine Sys2Proof.Laws

/-! What the ends of a stage, waiting and starting a move leave of the registers and handlers. -/

theorem codeState_endRecord (n m : Nat) (s : State) : codeState m (endRecord n s) = codeState m s := codeState_modStall n m s

theorem codeState_waited (n m : Nat) (s : State) : codeState m (waited n s) = codeState m s := codeState_modStall n m _

theorem codeState_startMove (n : Nat) (k : MoveKind) (m : Nat) (s : State) : codeState m (startMove n k s) = codeState m s :=
  codeState_modStall n m s

theorem codeState_emitRecord (n out m : Nat) (s : State) : codeState m (emitRecord n out s) = codeState m s :=
  (codeState_modStall n m _).trans (codeState_startMove n _ m s)

theorem codeState_withdraw (n m : Nat) (s : State) : codeState m (withdraw n s) = codeState m s := codeState_modStall n m _

/-! The bodies of the loops (R231). -/

section
variable {s : State} {n : Nat} {o : Op} {body : State → Flow × State} {len count : Nat} {chunk : Bool}

/-- A loop that starts: its frame goes on the stack. -/
theorem runOp_startLoop (r : Runs s n o.word o.guard o.cost) (hl : o.legal = true) (hh : (s.stall n).handlers = []) (hn : n < 64)
    (hb : body s = startLoop n len count chunk s) (hc : count ≠ 0) (hroom : (s.stall n).core.loops.length < 4) :
    runOp n o body s = s.ranTo n o.cost fun t => t.modCore fun c => { c with
      pc := c.pc + 1, loops := ⟨c.pc + 1, c.pc + len, count - 1, chunk, c.calls.length⟩ :: c.loops } := by
  refine runOp_stay r hl (.inl hh) hn _ ?_ (runs_wp r)
  rw [hb]
  unfold startLoop
  simp only [hc, Nat.not_le.mpr hroom, ↓reduceIte]

/-- A fifth loop is a stack overflow. -/
theorem runOp_startLoop_full (r : Runs s n o.word o.guard o.cost) (hl : o.legal = true) (hh : (s.stall n).handlers = [])
    (hb : body s = startLoop n len count chunk s) (hc : count ≠ 0) (hfull : 4 ≤ (s.stall n).core.loops.length) :
    runOp n o body s = stallFault n 1 s := by
  refine runOp_fault r hl (.inl hh) (u := s) ?_
  rw [hb]
  unfold startLoop
  simp only [hc, hfull, ↓reduceIte]

/-- A loop of no iterations: its body is passed over. -/
theorem runOp_startLoop_none (r : Runs s n o.word o.guard o.cost) (hl : o.legal = true) (hh : (s.stall n).handlers = []) (hn : n < 64)
    (hb : body s = startLoop n len count chunk s) (hc : count = 0) (hroom : ((s.stall n).core.advance ((s.stall n).core.pc + len)).wp < 2 ^ 21) :
    runOp n o body s = s.ranTo n o.cost fun t => t.modCore fun c => c.advance (c.pc + len) :=
  runOp_stay r hl (.inl hh) hn _ (by rw [hb, hc]; rfl) hroom

end

/-- A return: the call leaves the stack with the loops of its subroutine. -/
theorem runOp_return {s : State} {n : Nat} {o : Op} {body : State → Flow × State} {p : Nat} {c : CoreRegs}
    (r : Runs s n o.word o.guard o.cost) (hl : o.legal = true) (hh : (s.stall n).handlers = [] ∨ o.handler = true) (hn : n < 64)
    (f : CoreRegs → CoreRegs) (hb : body s = (.ret p, s.modStall n fun t => t.modCore f)) (hc : c = f (s.stall n).core)
    (hroom : (c.advance (p - 1)).wp < 2 ^ 21) :
    runOp n o body s = s.ranTo n o.cost fun t => { t with core := c.advance (p - 1) } := by
  rw [runOp_body body r hl hh, hb]
  simp only [modStall_modStall]
  rw [holdWp_room]
  · exact modStall_congr _ _ _ _ (by rw [hc]; rfl)
  · simpa [hn, Stall.charge, Stall.modCore, ← hc] using hroom

/-! The return from a handler (R218, R242). -/

/-- Writes of g8 to g15 leave g0 to g7. -/
theorem foldl_vput_low (saved : List W64) (k : Fin 16) (hk : k.val < 8) (is : List Nat) (g : Vector W64 16) :
    (is.foldl (fun g i => vput g (8 + i) ((saved[i]?).getD 0)) g)[k] = g[k] := by
  refine foldl_keep (fun g : Vector W64 16 => g[k]) _ (fun g i => ?_) is g
  exact Vector.getElem_setIfInBounds_ne (by omega) (by omega)

theorem leave_frame {t : Stall} {h : HandlerFrame} {hs : List HandlerFrame} (e : t.handlers = h :: hs) :
    t.leave.handlers = hs ∧ t.leave.core.pc = h.pc ∧ t.leave.core.p = h.p ∧ t.leave.core.wp = t.core.wp ∧
      t.leave.cycles = t.cycles ∧ t.leave.elapsed = t.elapsed ∧ t.leave.lots = t.lots := by
  unfold Stall.leave
  simp [e]

theorem leave_low {t : Stall} (k : Fin 16) (hk : k.val < 8) : t.leave.core.g[k] = t.core.g[k] := by
  unfold Stall.leave
  split
  · rfl
  · dsimp only
    split
    · exact foldl_vput_low _ k hk _ _
    · rfl

/-- IRET inside a handler. -/
theorem iret_inside {s : State} (n : Fin 64) {f : BFmt} {h : HandlerFrame} {hs : List HandlerFrame}
    (r : Runs s n.val (bWord 0x28 f) f.g 2) (hz : f.z = 0) (ho : f.off = 0) (hh : (s.stall n.val).handlers = h :: hs)
    (hcyc : 2 ≤ (s.stall n.val).cycles) :
    ∃ u, exec (.iret n f) s = .next (settle u) ∧ u = { s with stalls := u.stalls } ∧ (∀ m, m ≠ n.val → u.stall m = s.stall m) ∧
      (u.stall n.val).handlers = hs ∧ (u.stall n.val).core.pc = h.pc ∧ (u.stall n.val).core.p = h.p ∧
      (u.stall n.val).core.wp = (s.stall n.val).core.wp ∧ (u.stall n.val).cycles = (s.stall n.val).cycles ∧
      (u.stall n.val).elapsed = (s.stall n.val).elapsed + (if (s.stall n.val).lots = [] then 0 else 2) ∧
      (∀ k : Fin 16, k.val < 8 → (u.stall n.val).core.g[k] = (s.stall n.val).core.g[k]) := by
  have hn := n.isLt
  obtain ⟨hhand, hpc, hp, hwp, hcy, hel, hlots⟩ := leave_frame hh
  refine ⟨s.ranTo n.val 2 fun t => { t.leave with cycles := t.cycles - (if t.handlers.length = 1 then 2 else 0) },
    next_settle (runOp_stay r (by simp [hz, ho]) (.inr rfl) hn _ ?_ ?_), rfl, fun m hm => stall_modStall_ne _ _ _ _ hm, ?_⟩
  · simp only [hh, List.isEmpty_cons, Bool.false_eq_true, ↓reduceIte]
  · exact hwp.trans_lt (runs_wp r)
  · simp only [Machine.State.ranTo, hn, stall_modStall_self, charge_core]
    refine ⟨hhand, hpc, hp, hwp, ?_, ?_, fun k hk => leave_low k hk⟩
    · cases hs <;> simp [Stall.charge, Stall.pass, hhand, hh, hcyc]
    · cases hl : (s.stall n.val).lots <;> simp [Stall.charge, Stall.pass, hel, hlots, hl]

/-- Settles O44: each body by its condition, and the course of an instruction that comes to it. -/
theorem flowRows : Obligations.FlowRows := by
  unfold Obligations.FlowRows
  intro s n
  have hn := n.isLt
  refine ⟨fun f r hz h1 => ?_, fun f r hh h1 => ⟨fun hroom => ?_, fun hfull => ?_⟩,
    fun f k r hh h0 h1 hk => ⟨fun h hroom => ?_, fun h hroom => ?_⟩, fun f k r hh h0 h1 hk => ⟨fun h hroom => ?_, fun h hroom => ?_⟩,
    fun f r hh hz => ⟨fun hroom => ?_, fun hfull => ?_⟩, fun f r hh hz ho => ⟨fun hc => ?_, fun ret rest c hc hcc hroom => ?_⟩,
    fun f r hh hz ho => ⟨fun hs => ?_, fun hs im him => ⟨fun x hx => ?_, fun hx hp => ?_,
      fun p hx hp hd => ⟨fun he => ?_, fun he hc => ?_, fun he hc => ?_⟩⟩⟩,
    fun f r hh hz ho => ⟨fun hs => ?_, fun hs => ?_⟩, fun f r hh hz ho => ⟨fun hs => ?_, fun hs => ?_⟩,
    fun f r hz ho => ⟨fun hh => ?_, fun h hs hh hcyc => ?_⟩, fun f r hz => ?_, fun f r hh hz ho => ?_⟩
  · exact next_settle (runOp_jump (fun c => c.pc + f.off.toNat) r (by simp [hz, h1]) (.inr rfl) hn rfl)
  · exact next_settle (runOp_startLoop (count := f.cnt.toNat + 1) r (by simpa using h1) hh hn rfl (by omega) hroom)
  · exact next_settle (runOp_startLoop_full (count := f.cnt.toNat + 1) r (by simpa using h1) hh rfl (by omega) hfull)
  · exact next_settle (runOp_startLoop (count := k) r (by simp [h0, h1]) hh hn (by rw [hk]) h hroom)
  · exact next_settle (runOp_startLoop_none r (by simp [h0, h1]) hh hn rfl (by rw [← hk, h]) hroom)
  · exact next_settle (runOp_startLoop (count := k) r (by simp [h0, h1]) hh hn (by rw [hk]; rfl) h hroom)
  · exact next_settle (runOp_startLoop_none r (by simp [h0, h1]) hh hn rfl (by rw [← h, hk]; rfl) hroom)
  · refine next_settle (runOp_stay r (by simpa using hz) (.inl hh) hn _ ?_ (runs_wp r))
    simp only [Nat.not_le.mpr hroom, ↓reduceIte]
  · refine next_settle (runOp_fault r (by simpa using hz) (.inl hh) (u := s) ?_)
    simp only [hfull, ↓reduceIte]
  · refine next_settle (runOp_fault r (by simp [hz, ho]) (.inl hh) (u := s) ?_)
    simp only [hc]
  · refine next_settle (runOp_return r (by simp [hz, ho]) (.inl hh) hn (fun c => { c with
      calls := rest, loops := c.loops.dropWhile fun l => decide (rest.length < l.depth) }) ?_ hcc hroom)
    simp only [hc]
  · refine next_settle (runOp_fault r (by simp [hz, ho]) (.inl hh) (u := s) ?_)
    simp only [hs, Bool.not_false, ↓reduceIte]
  · refine next_settle (runOp_stay r (by simp [hz, ho]) (.inl hh) hn _ ?_ (runs_wp r))
    simp only [hs, him, hx, Option.bind_some, Option.isSome_some, Bool.not_true, Bool.false_eq_true, ↓reduceIte]
  · refine next_settle (runOp_stay_id r (by simp [hz, ho]) (.inl hh) hn ?_ (core_of_codeState (codeState_endRecord _ _ _)))
    simp only [hs, him, hx, hp, Option.bind_some, Option.isSome_none, Bool.not_true, Bool.not_false, Bool.false_eq_true, ↓reduceIte]
  · refine next_settle (runOp_fault r (by simp [hz, ho]) (.inl hh) (u := s) ?_)
    simp only [hs, him, hx, hp, hd, he, Option.bind_some, Option.isSome_none, Option.any_some, Bool.not_true, Bool.not_false,
      Bool.false_eq_true, ↓reduceIte]
  · refine next_settle (runOp_stay_id r (by simp [hz, ho]) (.inl hh) hn ?_ (core_of_codeState ((codeState_endRecord _ _ _).trans
      ((codeState_emitRecord _ _ _ _).trans (codeState_waited _ _ _)))))
    simp only [hs, him, hx, hp, hd, he, hc, Option.bind_some, Option.isSome_none, Option.any_some, Bool.not_true,
      Bool.false_eq_true, ↓reduceIte]
  · refine next_settle (runOp_wait r (by simp [hz, ho]) (.inl hh) (u := s) ?_)
    simp only [hs, him, hx, hp, hd, he, hc, Option.bind_some, Option.isSome_none, Option.any_some, Bool.not_true, Bool.not_false,
      Bool.false_eq_true, ↓reduceIte]
  · refine next_settle (runOp_stay_id r (by simp [hz, ho]) (.inl hh) hn ?_ (core_of_codeState ((codeState_endRecord _ _ _).trans
      (codeState_withdraw _ _ _))))
    simp only [hs, ↓reduceIte]
  · refine next_settle (runOp_fault r (by simp [hz, ho]) (.inl hh) (u := s) ?_)
    simp only [hs, Bool.false_eq_true, ↓reduceIte]
  · refine next_settle (runOp_stay_id r (by simp [hz, ho]) (.inl hh) hn ?_ (core_of_codeState (codeState_endRecord _ _ _)))
    simp only [hs, ↓reduceIte]
  · refine next_settle (runOp_fault r (by simp [hz, ho]) (.inl hh) (u := s) ?_)
    simp only [hs, Bool.false_eq_true, ↓reduceIte]
  · refine next_settle (runOp_fault r (by simp [hz, ho]) (.inr rfl) (u := s) ?_)
    simp only [hh, List.isEmpty_nil, ↓reduceIte]
  · exact iret_inside n r hz ho hh hcyc
  · exact next_settle (runOp_fault r (by simpa using hz) (.inr rfl) rfl)
  · exact next_settle (runOp_next_id r (by simp [hz, ho]) (.inl hh) hn rfl rfl rfl)

/-! Emits, moves, ordering, Tally and unit calls. -/

/-- A credit is free below eight moves (R193). -/
theorem credit_of_lt {s : State} {n : Nat} (h : (s.stall n).moves.length < 8) : s.credit n = true := decide_eq_true h

theorem credit_of_le {s : State} {n : Nat} (h : 8 ≤ (s.stall n).moves.length) : s.credit n = false :=
  decide_eq_false (Nat.not_lt.mpr h)

/-- An instruction that goes on in order, after a body that changes neither the registers nor the handlers. -/
theorem runOp_next_code {s u : State} {n : Nat} {o : Op} {body : State → Flow × State} (f : Stall → Stall)
    (r : Runs s n o.word o.guard o.cost) (hl : o.legal = true) (hh : (s.stall n).handlers = [] ∨ o.handler = true) (hn : n < 64)
    (hb : body s = (.next, u.modStall n f)) (hcode : codeState n u = codeState n s) (hf : (f (u.stall n)).core = (u.stall n).core) :
    runOp n o body s = u.ran n o.cost f := by
  refine runOp_next f r hl hh hn hb (core_of_codeState hcode) (handlers_of_codeState hcode) ?_
  rw [hf, core_of_codeState hcode]
  exact r.room

/-- Settles O45: the branch of each body that the clause's conditions pick. -/
theorem moveRows : Obligations.MoveRows := by
  unfold Obligations.MoveRows
  intro s n
  have hn := n.isLt
  refine ⟨fun f r hh hd ha hb hf => ⟨fun he => ?_, fun he hm => ?_, fun he hm => ?_⟩,
    fun f out cls a len r hh hd h3 h9 hcls h14 hout ha hlen => ⟨fun hbad => ?_, fun h hr h32 hmax he hl =>
      ⟨fun hv => ?_, fun hv => ⟨fun hm => ?_, fun hm => ?_⟩⟩⟩,
    fun f card loc len r hcard hloc hlen hf => ⟨fun hbad => ?_, fun hr hc hl h64 hmax hm => ⟨fun h0 => ?_, fun h1 => ?_⟩⟩,
    fun f r hz ho => ⟨fun hm => ?_, fun hm => ?_⟩,
    fun f l p i r hh hd hf hl hp hi => ⟨fun hc => ?_, fun hc ht => ?_, fun old hc ht => ?_, fun o old hc ht hne => ?_⟩,
    fun f r hh hd ha hb hf => ⟨fun h5 => ?_, fun h4 h0 hsrc hdst => ?_, fun h4 hoff hq => ?_⟩⟩
  · refine next_settle (runOp_fault r (by simp [hd, ha, hb, hf]) (.inl hh) (u := s) ?_)
    simp only [he, Bool.not_false, ↓reduceIte]
  · refine next_settle (runOp_wait r (by simp [hd, ha, hb, hf]) (.inl hh) (u := s) ?_)
    simp only [he, credit_of_le hm, Bool.not_true, Bool.not_false, Bool.false_eq_true, ↓reduceIte]
  · have hcode := (codeState_emitRecord n.val f.fn.toNat n.val (waited n.val s)).trans (codeState_waited n.val n.val s)
    refine next_settle (runOp_next_id r (by simp [hd, ha, hb, hf]) (.inl hh) hn ?_ (core_of_codeState hcode) (handlers_of_codeState hcode))
    simp only [he, credit_of_lt hm, Bool.not_true, Bool.false_eq_true, ↓reduceIte]
  · subst hcls hout ha hlen
    refine next_settle (runOp_fault r (by simp [hd, h3, h9, h14]) (.inl hh) (u := s) ?_)
    refine if_pos ?_
    simpa [or_assoc] using hbad
  · subst hcls hout ha hlen
    refine next_settle (runOp_fault r (by simp [hd, h3, h9, h14]) (.inl hh) (u := s) ?_)
    simp only [hr, he, hl, hv, Nat.not_lt.mpr h32, Nat.not_lt.mpr hmax, decide_false, Bool.not_true, Bool.or_false,
      Bool.false_eq_true, ↓reduceIte]
  · subst hcls hout ha hlen
    refine next_settle (runOp_wait r (by simp [hd, h3, h9, h14]) (.inl hh) (u := s) ?_)
    simp only [hr, he, hl, hv, credit_of_le hm, Nat.not_lt.mpr h32, Nat.not_lt.mpr hmax, decide_false, Bool.not_true, Bool.not_false,
      Bool.or_false, Bool.false_eq_true, ↓reduceIte]
  · subst hcls hout ha hlen
    have hcode := (codeState_startMove n.val (.emitMemory (((s.stall n.val).lots[0]?).getD 0) (s.stall n.val).rec_ (fld f.fn 1 0)
      ((s.stall n.val).reg f.a).toNat (s.peekLocal n.val ((s.stall n.val).reg f.a).toNat ((s.stall n.val).reg f.b).toNat))
      n.val (waited n.val s)).trans (codeState_waited n.val n.val s)
    refine next_settle (runOp_next_code _ r (by simp [hd, h3, h9, h14]) (.inl hh) hn ?_ hcode rfl)
    simp only [hr, he, hl, hv, credit_of_lt hm, Nat.not_lt.mpr h32, Nat.not_lt.mpr hmax, decide_false, Bool.not_true,
      Bool.or_false, Bool.false_eq_true, ↓reduceIte]
  · subst hcard hloc hlen
    refine next_settle (runOp_fault r (by simpa using hf) (.inr rfl) (u := s) ?_)
    refine if_pos ?_
    simpa [or_assoc] using hbad
  · subst hcard hloc hlen
    have hcode := (codeState_startMove n.val (.toCard ((s.stall n.val).reg f.a).toNat ((s.stall n.val).reg f.d).toNat
      (s.peekLocal n.val ((s.stall n.val).reg f.a).toNat ((s.stall n.val).reg f.b).toNat)) n.val (waited n.val s)).trans
      (codeState_waited n.val n.val s)
    refine next_settle (runOp_next_id r (by simpa using hf) (.inr rfl) hn ?_ (core_of_codeState hcode) (handlers_of_codeState hcode))
    simp only [hr, hc, hl, h0, credit_of_lt hm, Nat.not_lt.mpr h64, Nat.not_lt.mpr hmax, ne_eq, not_true_eq_false, decide_false,
      Bool.not_true, Bool.or_false, Bool.false_eq_true, ↓reduceIte]
  · subst hcard hloc hlen
    have hcode := (codeState_startMove n.val (.fromCard ((s.stall n.val).reg f.a).toNat ((s.stall n.val).reg f.d).toNat
      ((s.stall n.val).reg f.b).toNat) n.val (waited n.val s)).trans (codeState_waited n.val n.val s)
    have hne : f.fn ≠ 0 := by rw [h1]; decide
    refine next_settle (runOp_next_code _ r (by simpa using hf) (.inr rfl) hn ?_ hcode rfl)
    simp only [hr, hc, hl, hne, credit_of_lt hm, Nat.not_lt.mpr h64, Nat.not_lt.mpr hmax, ne_eq, not_true_eq_false, decide_false,
      Bool.not_true, Bool.or_false, Bool.false_eq_true, ↓reduceIte]
  · refine next_settle (runOp_next_code _ r (by simp [hz, ho]) (.inr rfl) hn ?_ (codeState_waited n.val n.val s) rfl)
    simp only [hm, List.isEmpty_nil, ↓reduceIte]
  · refine next_settle (runOp_wait r (by simp [hz, ho]) (.inr rfl) (u := s) ?_)
    simp only [List.isEmpty_eq_false_iff.mpr hm, Bool.false_eq_true, ↓reduceIte]
  · subst hi
    refine next_settle (runOp_fault r (by simp [hd, hf]) (.inl hh) (u := s) ?_)
    simp only [hl, hp, hc, ↓reduceIte]
  · subst hi
    refine next_settle (runOp_next_id r (by simp [hd, hf]) (.inl hh) hn ?_ rfl rfl)
    simp only [hl, hp, Nat.not_le.mpr hc, ht, ↓reduceIte]
  · subst hi
    refine next_settle (runOp_next_id r (by simp [hd, hf]) (.inl hh) hn ?_ rfl rfl)
    simp only [hl, hp, Nat.not_le.mpr hc, ht, ne_eq, not_true_eq_false, ↓reduceIte]
  · subst hi
    refine next_settle (runOp_fault r (by simp [hd, hf]) (.inl hh) (u := s) ?_)
    simp only [hl, hp, Nat.not_le.mpr hc, ht, ne_eq, hne, not_false_eq_true, ↓reduceIte]
  · refine next_settle (runOp_stay_after _ r (by simp [hd, ha, hb, hf, h5]) (.inl hh) hn ?_ (show (s.stall n.val).core.wp < 2 ^ 21 from runs_wp r))
    refine (if_neg (by simp [h5])).trans (congrArg (Prod.mk _) (modStall_congr _ _ _ _ ?_))
    simp only [h5]
    rfl
  · refine next_settle (runOp_stay_after _ r (by simp [hd, ha, hb, hf, h4]) (.inl hh) hn ?_ (show (s.stall n.val).core.wp < 2 ^ 21 from runs_wp r))
    refine (if_neg ?_).trans (congrArg (Prod.mk _) (modStall_congr _ _ _ _ ?_))
    · simp [h4, h0]
      exact ⟨hsrc, hdst⟩
    · simp only [h4, h0]
      rfl
  · refine next_settle (runOp_fault r ?_ (.inl hh) (u := s) ?_)
    · simp [hd, ha, hb, hf, Nat.le_of_lt (Nat.lt_succ_of_lt h4)]
    · refine (if_pos (by simp [h4, hoff])).trans (congrArg (fun c => (Flow.fault c, s)) (if_neg ?_))
      intro hecc
      simp only [Bool.and_eq_true, decide_eq_true_eq] at hecc
      obtain ⟨⟨⟨_, h0⟩, _⟩, hbad⟩ := hecc
      rcases hq with h1 | hq
      · omega
      · exact Bool.false_ne_true (hq.symm.trans hbad)

end Sys2Proof.Proofs
end

section
/-! Events of a running Stall (R22, R190 to R195, R215 to R218, R241, R243): what the dispatcher's operations leave of the Stalls and
of RAM, and the course of a fault. -/

namespace Sys2Proof.Proofs

open Sys2Proof Sys2Proof.Machine Sys2Proof.Laws

/-! Stores, trims, completions and queries leave the Stalls and RAM. -/

/-- The Stalls and RAM. -/
def tiles (s : State) : Vector Stall 64 × List Host.Cell := (s.stalls, s.ram)

theorem tiles_of_eq {s t : State} (hs : s.stalls = t.stalls) (hr : s.ram = t.ram) : tiles s = tiles t := by
  rw [tiles, tiles, hs, hr]

theorem trim_tiles (k : Nat) (p : Nat → Bool) (s : State) : tiles (trim k p s) = tiles s :=
  tiles_of_eq (trim_stalls ..) (trim_ram ..)

theorem succeed_tiles (h : Nat) (s : State) : tiles (succeed h s) = tiles s := tiles_of_eq (succeed_stalls ..) (succeed_ram ..)

theorem complete_tiles (h sct sc : Nat) (d0 d1 : W32) (a : List Byte) (s : State) : tiles (complete h sct sc d0 d1 a s) = tiles s :=
  tiles_of_eq (complete_stalls ..) (complete_ram ..)

theorem storeStage_tiles (st : Staged) (s : State) : tiles (storeStage st s) = tiles s := by
  unfold storeStage
  dsimp only
  split <;> split <;> rfl

theorem discardRun_tiles (k : Nat) (rs : List Stored) (next : Nat) (run : Nat × Nat) (s : State) :
    tiles (discardRun k rs next run s) = tiles s := by
  unfold discardRun
  rw [storeStage_tiles]
  exact keep_ite tiles (trim_tiles _ _ _) rfl

theorem eraseSpan_tiles (k lo hi : Nat) (s : State) : tiles (eraseSpan k lo hi s) = tiles s := by
  unfold eraseSpan
  rw [storeStage_tiles]
  exact keep_ite tiles (trim_tiles _ _ _) rfl

theorem discardStored_tiles (k : Nat) (bad : Nat → Bool) (s : State) : tiles (discardStored k bad s) = tiles s := by
  unfold discardStored
  split
  · rfl
  · exact foldl_keep tiles _ (fun s r => discardRun_tiles ..) _ _

theorem giveSpace_tiles (k next took : Nat) (bad : Nat → Bool) (s : State) : tiles (giveSpace k next took bad s) = tiles s := by
  unfold giveSpace
  split
  · rfl
  · exact (eraseSpan_tiles ..).trans (eraseSpan_tiles ..)

theorem unstoreIn_tiles (c : Cmd) (k : Nat) (s : State) : tiles (unstoreIn c k s) = tiles s := by
  unfold unstoreIn
  split
  · rfl
  · dsimp only
    split
    · exact keep_ite tiles (giveSpace_tiles ..) (discardStored_tiles ..)
    · exact discardStored_tiles ..

theorem unstore_tiles (c : Cmd) (s : State) : tiles (unstore c s) = tiles s := by
  unfold unstore
  refine foldl_keep tiles _ (fun s k => ?_) _ _
  exact keep_ite tiles (unstoreIn_tiles ..) (unstoreIn_tiles ..)

theorem discard_tiles (h : Nat) (s : State) : tiles (discard h s) = tiles s := by
  unfold Machine.discard
  exact foldl_keep tiles (fun (s : State) (r : LotRec) => outcome r.nsid r.seq false s) (fun _ _ => rfl) _ (latchFull s)

theorem endQuery_tiles (id e r : Nat) (s : State) : tiles (endQuery id e r s) = tiles s := by
  unfold endQuery
  split
  · rfl
  · dsimp only
    split
    · exact keep_ite tiles (complete_tiles ..) (complete_tiles ..)
    · split
      · rfl
      · refine keep_ite tiles ?_ (tiles_of_eq (raisePulse_stalls ..) (raisePulse_ram ..))
        exact foldl_keep tiles _ (fun s h => succeed_tiles ..) _ _

/-- A query without a pipeline has no Stalls to write its parameters to. -/
theorem startQuery_tiles {q : Query} (hq : q.pipe = none) (s : State) : tiles (startQuery q s) = tiles s := by
  unfold startQuery
  split
  · exact endQuery_tiles ..
  · simp only [hq, Option.bind_none, List.foldl_nil]
    exact keep_ite tiles (endQuery_tiles ..) rfl

/-- A fold that keeps something wherever its list's elements do. -/
theorem foldl_keep_mem {α β γ : Type} (p : β → γ) (f : β → α → β) (l : List α) (h : ∀ x ∈ l, ∀ s, p (f s x) = p s) (s : β) :
    p (l.foldl f s) = p s := by
  induction l generalizing s with
  | nil => rfl
  | cons x xs ih =>
    rw [List.foldl_cons, ih (fun y hy => h y (List.mem_cons_of_mem _ hy)), h x List.mem_cons_self]

theorem runFree_tiles (s : State) : tiles (runFree s) = tiles s := by
  unfold runFree
  refine foldl_keep_mem tiles _ _ (fun q hq u => ?_) s
  have hpipe : q.pipe = none := by
    rw [List.mem_filter] at hq
    simpa using (Bool.and_elim_left (Bool.and_elim_left hq.2))
  exact keep_ite tiles rfl (startQuery_tiles hpipe u)

theorem failAppend_tiles (h sct sc : Nat) (a : Bool) (s : State) : tiles (failAppend h sct sc a s) = tiles s := by
  unfold failAppend
  split
  · rfl
  · refine (runFree_tiles _).trans ((complete_tiles ..).trans ?_)
    exact keep_ite tiles (discard_tiles ..) ((unstore_tiles ..).trans (discard_tiles ..))

theorem endDead_tiles (id : Nat) (s : State) : tiles (endDead id s) = tiles s := by
  unfold endDead
  split
  · exact keep_ite tiles (endQuery_tiles ..) rfl
  · rfl

theorem failLot_tiles (l : Lot) (a : Bool) (s : State) : tiles (failLot l a s) = tiles s := by
  unfold failLot
  split
  · exact endDead_tiles ..
  · exact foldl_keep tiles (fun s h => failAppend h 7 0x87 a s) (fun s h => failAppend_tiles ..) _ s

theorem endIdle_tiles (id : Nat) (s : State) : tiles (endIdle id s) = tiles s := by
  unfold endIdle
  split
  · split
    · exact keep_ite tiles rfl (endQuery_tiles ..)
    · rfl
  · rfl

theorem giveBack_tiles (id : Nat) (by_ : Option Nat) (s : State) : tiles (giveBack id by_ s) = tiles s := by
  unfold giveBack
  split
  · rfl
  · dsimp only
    split
    · exact keep_ite tiles rfl (endIdle_tiles ..)
    · exact keep_ite tiles (failLot_tiles ..) rfl

theorem abandon_tiles (l : Lot) (s : State) : tiles (abandon l s) = tiles s :=
  (failLot_tiles ..).trans (tiles_of_eq (raiseFault_stalls ..) (raiseFault_ram ..))

theorem endPipeStop_tiles (k : Nat) (s : State) : tiles (endPipeStop k s) = tiles s := by
  unfold endPipeStop
  split
  · rfl
  · refine keep_ite tiles rfl ?_
    exact foldl_keep tiles (fun s h => succeed h s) (fun s h => succeed_tiles ..) _ (s.modPipe k _)

theorem returnSecond_tiles (n : Nat) (s : State) :
    tiles (returnSecond n s) = tiles (s.setStall n { (s.stall n) with lots := (s.stall n).lots.take 1 }) :=
  foldl_keep tiles (fun s id => giveBack id none s) (fun _ _ => giveBack_tiles ..) _ _

theorem endStops_tiles (n : Nat) (s : State) : tiles (endStops n s) = tiles (s.modStall n fun t => { t with stops := [] }) :=
  foldl_keep tiles (fun s h => if (List.range 64).any (fun k => (s.stall k).stops.contains h) then s else succeed h s)
    (fun _ _ => keep_ite tiles rfl (succeed_tiles ..)) _ _

theorem stall_of_tiles {s t : State} (h : tiles s = tiles t) (k : Nat) : s.stall k = t.stall k := by
  have hs : s.stalls = t.stalls := congrArg Prod.fst h
  rw [State.stall, State.stall, hs]

theorem ram_of_tiles {s t : State} (h : tiles s = tiles t) : s.ram = t.ram := congrArg Prod.snd h

/-! A Stall's own fault sources (R203). -/

theorem getLsbD_putBit {n : Nat} (w : BitVec n) (i : Nat) (v : Bool) (j : Nat) :
    (putBit w i v).getLsbD j = if j = i ∧ j < n then v else w.getLsbD j := by
  by_cases hj : j < n
  · have hbit : (BitVec.ofNat n (2 ^ i)).getLsbD j = decide (j = i) := by
      rw [BitVec.getLsbD_ofNat, Nat.testBit_two_pow, decide_eq_true hj, Bool.true_and, decide_eq_decide]
      exact eq_comm
    unfold putBit
    cases v
    · simp only [Bool.false_eq_true, ↓reduceIte, BitVec.getLsbD_and, BitVec.getLsbD_not, hbit, hj, and_true]
      by_cases h : j = i <;> simp [h]
    · simp only [↓reduceIte, BitVec.getLsbD_or, hbit, hj, and_true]
      by_cases h : j = i <;> simp [h]
  · simp [hj, BitVec.getLsbD_of_ge _ _ (Nat.le_of_not_lt hj)]

theorem bit_putBit_self {n : Nat} (w : BitVec n) {i : Nat} (v : Bool) (h : i < n) : bit (putBit w i v) i = v :=
  (getLsbD_putBit w i v i).trans (if_pos ⟨rfl, h⟩)

theorem bit_putBit_ne {n : Nat} (w : BitVec n) {i j : Nat} (v : Bool) (h : j ≠ i) : bit (putBit w i v) j = bit w j :=
  (getLsbD_putBit w i v j).trans (if_neg fun e => h e.1)

theorem putBit_of_bit {n : Nat} {w : BitVec n} {i : Nat} {v : Bool} (h : bit w i = v) : putBit w i v = w := by
  apply BitVec.eq_of_getLsbD_eq
  intro j _
  rw [getLsbD_putBit]
  split
  · next e => rw [e.1, ← h]; rfl
  · rfl

/-- A fault source rises in one Stall, and is journalled. -/
theorem raiseStall_frame (k n b : Nat) (s : State) :
    raiseStall k n b s = { s with stalls := (raiseStall k n b s).stalls, ev := (raiseStall k n b s).ev } := by
  unfold raiseStall
  dsimp only
  split
  · rfl
  · apply state_ext <;> simp

theorem raiseStall_stalls {n : Nat} (hn : n < 64) (k b : Nat) (s : State) :
    (raiseStall k n b s).stalls = (s.modStall n fun t => { t with fstat := putBit t.fstat b true }).stalls := by
  unfold raiseStall
  dsimp only
  split
  · next h =>
    rw [modStall_congr s n (fun t => { t with fstat := putBit t.fstat b true }) id (by rw [putBit_of_bit h]; rfl)]
    simp [State.modStall, vmod]
  · rw [journal_stalls, setStall_eq_modStall _ _ _ hn]
    exact congrArg State.stalls (modStall_congr s n _ _ rfl)

theorem tiles_modStall {s t : State} (h : tiles s = tiles t) (n : Nat) (f : Stall → Stall) :
    tiles (s.modStall n f) = tiles (t.modStall n f) := by
  have hs : s.stalls = t.stalls := congrArg Prod.fst h
  exact tiles_of_eq (by rw [State.modStall, State.modStall, hs]) (congrArg Prod.snd h : s.ram = t.ram)

theorem raiseStall_tiles {n : Nat} (hn : n < 64) (k b : Nat) (s : State) :
    tiles (raiseStall k n b s) = tiles (s.modStall n fun t => { t with fstat := putBit t.fstat b true }) := by
  refine tiles_of_eq (raiseStall_stalls hn k b s) ?_
  rw [raiseStall_frame]
  rfl

@[simp] theorem raiseStall_med (k n b : Nat) (s : State) : (raiseStall k n b s).med = s.med := by rw [raiseStall_frame]
@[simp] theorem raiseStall_lots (k n b : Nat) (s : State) : (raiseStall k n b s).lots = s.lots := by rw [raiseStall_frame]
@[simp] theorem raiseStall_pipes (k n b : Nat) (s : State) : (raiseStall k n b s).pipes = s.pipes := by rw [raiseStall_frame]

/-! A fault stops its own Stall (R202, R243). -/

@[simp] theorem countLot_core (t : Stall) : t.countLot.core = t.core := by
  unfold Stall.countLot
  split <;> rfl

@[simp] theorem countLot_lm (t : Stall) : t.countLot.lm = t.lm := by
  unfold Stall.countLot
  split <;> rfl

/-- What a fault makes of a Stall that runs a Lot, its fault source apart; bytes of the window are shown. -/
def faultStall (cause : Nat) (lot : Option Nat) (shown : List Byte) (t : Stall) : Stall := { t.countLot with
  state := .faulted, slow := false, cause := cause, faultPc := t.core.pc, lots := [], stage := .idle, call := none
  porterFault := none, nsOuts := [], dbgW := if t.stage == .idle then t.dbgW else shown
  moves := t.moves.filter fun m => match m.kind with | .toCard .. => true | .fromCard .. => true | _ => false
  stats := { t.countLot.stats with faulted := t.stats.faulted + (if lot.isSome then 1 else 0) } }

/-- The Stall of a state in which a fault has been noted, before its Lot goes. -/
def faultNoted (n cause : Nat) (s : State) : State :=
  raiseStall 0 n (cause - 1) ((returnSecond n s).modStall n (faultStall cause (s.stall n).lots[0]? ((returnSecond n s).window n 0 128)))

/-- The Lot that a Stall faulted on goes back, or is abandoned (R191). -/
def faultLot (n : Nat) (lot : Option Nat) (u : State) : State :=
  match lot with
  | none => u
  | some id => match u.lot id with
    | none => u
    | some l => if 2 ≤ l.issues ∧ (l.query.all fun q => (u.query q).isSome) then abandon l u else giveBack id (some n) u

/-- The commands that waited for a Stall's Lots. -/
def faultStops (n : Nat) (lots : List Nat) (u : State) : State :=
  match lots with
  | [] => u
  | _ => match u.pipeOf n with
    | some k => endPipeStop k u
    | none => u

theorem stallFault_eq (n cause : Nat) (s : State) : stallFault n cause s =
    endStops n (faultStops n (s.stall n).lots (faultLot n (s.stall n).lots[0]? (faultNoted n cause s))) := rfl

theorem faultLot_tiles (n : Nat) (lot : Option Nat) (u : State) : tiles (faultLot n lot u) = tiles u := by
  unfold faultLot
  split
  · rfl
  · split
    · rfl
    · exact keep_ite tiles (abandon_tiles ..) (giveBack_tiles ..)

theorem faultStops_tiles (n : Nat) (lots : List Nat) (u : State) : tiles (faultStops n lots u) = tiles u := by
  unfold faultStops
  split
  · rfl
  · split
    · exact endPipeStop_tiles ..
    · rfl

/-- The Stalls and RAM after a fault. -/
theorem stallFault_tiles {n : Nat} (hn : n < 64) (cause : Nat) (s : State) : ∃ shown,
    tiles (stallFault n cause s) = tiles (s.modStall n fun t =>
      let u := faultStall cause (s.stall n).lots[0]? shown { t with lots := t.lots.take 1 }
      { u with fstat := putBit u.fstat (cause - 1) true, stops := [] }) := by
  refine ⟨(returnSecond n s).window n 0 128, ?_⟩
  rw [stallFault_eq, endStops_tiles]
  refine (tiles_modStall ((faultStops_tiles ..).trans (faultLot_tiles ..)) n _).trans ?_
  refine (tiles_modStall ((raiseStall_tiles hn ..).trans (tiles_modStall (tiles_modStall (returnSecond_tiles n s) n _) n _)) n _).trans ?_
  rw [setStall_eq_modStall _ _ _ hn]
  simp only [modStall_modStall]
  exact congrArg tiles (modStall_congr _ _ _ _ rfl)

/-! Lots by their number. -/

theorem lot_id {s : State} {id : Nat} {l : Lot} (h : s.lot id = some l) : l.id = id := by
  simpa using List.find?_some h

theorem lot_modLot {f : Lot → Lot} (hf : ∀ x, (f x).id = x.id) (s : State) (id k : Nat) :
    (s.modLot id f).lot k = (s.lot k).map fun l => if l.id = id then f l else l := by
  have hid : ((fun l : Lot => l.id == k) ∘ fun l => if l.id = id then f l else l) = fun l => l.id == k := by
    funext l
    by_cases h : l.id = id <;> simp [h, hf]
  rw [State.lot, State.modLot, List.find?_map, hid, State.lot]

theorem lot_modLot_self {s : State} {id : Nat} {l : Lot} {f : Lot → Lot} (h : s.lot id = some l) (hf : ∀ x, (f x).id = x.id) :
    (s.modLot id f).lot id = some (f l) := by
  rw [lot_modLot hf, h, Option.map_some, if_pos (lot_id h)]

theorem lot_modLot_ne {s : State} {id k : Nat} {f : Lot → Lot} (hk : k ≠ id) (hf : ∀ x, (f x).id = x.id) :
    (s.modLot id f).lot k = s.lot k := by
  rw [lot_modLot hf]
  cases h : s.lot k with
  | none => rfl
  | some l => rw [Option.map_some, if_neg (lot_id h ▸ hk)]

theorem lot_dropLot_self (s : State) (id : Nat) : (s.dropLot id).lot id = none := by
  simp [State.lot, State.dropLot, List.find?_filter]

theorem lot_congr {s t : State} (h : s.lots = t.lots) (id : Nat) : s.lot id = t.lot id := by rw [State.lot, State.lot, h]

/-- The end of commands that waited for a Stall leaves what completions leave. -/
theorem endStops_keep {α : Type} (p : State → α) (hs : ∀ u n f, p (State.modStall u n f) = p u) (hc : ∀ u h, p (succeed h u) = p u)
    (n : Nat) (s : State) : p (endStops n s) = p s :=
  (foldl_keep p (fun s h => if (List.range 64).any (fun k => (s.stall k).stops.contains h) then s else succeed h s)
    (fun _ _ => keep_ite p rfl (hc ..)) _ _).trans (hs ..)

theorem endPipeStop_keep {α : Type} (p : State → α) (hs : ∀ u k f, p (State.modPipe u k f) = p u) (hc : ∀ u h, p (succeed h u) = p u)
    (k : Nat) (s : State) : p (endPipeStop k s) = p s := by
  unfold endPipeStop
  split
  · rfl
  · exact keep_ite p rfl ((foldl_keep p (fun s h => succeed h s) (fun _ _ => hc ..) _ _).trans (hs ..))

/-- What a fault leaves outside its Stall once its Lot has gone. -/
theorem stallFault_keep {α : Type} (p : State → α) (hs : ∀ u n f, p (State.modStall u n f) = p u)
    (hp : ∀ u k f, p (State.modPipe u k f) = p u) (hc : ∀ u h, p (succeed h u) = p u) (n cause : Nat) (s : State) :
    p (stallFault n cause s) = p (faultLot n (s.stall n).lots[0]? (faultNoted n cause s)) := by
  rw [stallFault_eq, endStops_keep p hs hc]
  unfold faultStops
  split
  · rfl
  · split
    · exact endPipeStop_keep p hp hc ..
    · rfl

/-- A Lot that goes back with no query, to a pipeline that is not stopped. -/
theorem giveBack_ingest {s : State} {id : Nat} {l : Lot} (by_ : Option Nat) (hl : s.lot id = some l) (hq : l.query = none)
    (hp : (l.pipe.bind s.pipe).any (fun p => !p.running) = false) : giveBack id by_ s = s.modLot id fun l => l.back by_ := by
  unfold giveBack
  simp only [hl, hq]
  exact if_neg (ne_of_eq_of_ne hp Bool.false_ne_true)

section
variable {s u : State} {n id : Nat} {l : Lot}

theorem faultLot_of_first (hl : u.lot id = some l) (hq : l.query = none)
    (hp : (l.pipe.bind u.pipe).any (fun p => !p.running) = false) (h2 : l.issues < 2) :
    faultLot n (some id) u = u.modLot id fun l => l.back (some n) := by
  simp only [faultLot, hl, hq, Nat.not_le.mpr h2, false_and, ↓reduceIte]
  exact giveBack_ingest _ hl hq hp

theorem faultLot_of_second (hl : u.lot id = some l) (hq : l.query = none) (h2 : 2 ≤ l.issues) :
    (faultLot n (some id) u).lot id = none := by
  simp only [faultLot, hl, hq, h2, Option.all_none, and_self, ↓reduceIte, abandon, failLot, lot_id hl]
  exact lot_dropLot_self _ _

/-- A Stall with one Lot has no second to give back. -/
theorem returnSecond_single (h : (s.stall n).lots = [id]) : returnSecond n s = s.setStall n { (s.stall n) with lots := [id] } := by
  simp [returnSecond, h]

end

/-! A fault stops its Stall, and no other. -/

section
variable {s : State} {n : Nat}

theorem faultNoted_lots {id cause : Nat} (h : (s.stall n).lots = [id]) : (faultNoted n cause s).lots = s.lots ∧
    (faultNoted n cause s).pipes = s.pipes ∧ (faultNoted n cause s).med = s.med := by
  simp [faultNoted, returnSecond_single h]

/-- A fault in the only Lot of a Stall gives it back, or abandons it after its second issue. -/
theorem stallFault_lot {id cause : Nat} {l : Lot} (hs : (s.stall n).lots = [id]) (hl : s.lot id = some l) (hq : l.query = none)
    (hp : (l.pipe.bind s.pipe).any (fun p => !p.running) = false) :
    (l.issues < 2 → (stallFault n cause s).med = s.med ∧ (stallFault n cause s).lot id = some (l.back (some n))) ∧
    (2 ≤ l.issues → (stallFault n cause s).lot id = none) := by
  obtain ⟨hlots, hpipes, hmed⟩ := faultNoted_lots (cause := cause) hs
  have hl' : (faultNoted n cause s).lot id = some l := (lot_congr hlots id).trans hl
  have hp' : (l.pipe.bind (faultNoted n cause s).pipe).any (fun p => !p.running) = false := by
    rw [show (faultNoted n cause s).pipe = s.pipe from funext fun k => by rw [State.pipe, State.pipe, hpipes]]
    exact hp
  have hkeep := stallFault_keep State.lots modStall_lots modPipe_lots succeed_lots n cause s
  have hfirst : (s.stall n).lots[0]? = some id := by rw [hs]; rfl
  rw [hfirst] at hkeep
  refine ⟨fun h2 => ?_, fun h2 => (lot_congr hkeep id).trans (faultLot_of_second hl' hq h2)⟩
  have hback := faultLot_of_first (n := n) hl' hq hp' h2
  rw [hback] at hkeep
  refine ⟨?_, (lot_congr hkeep id).trans (lot_modLot_self hl' fun _ => rfl)⟩
  rw [stallFault_keep State.med modStall_med modPipe_med succeed_med, hfirst, hback]
  exact hmed

theorem stallFault_stall_self (hn : n < 64) (cause : Nat) (s : State) : ∃ shown,
    (stallFault n cause s).stall n =
      let u := faultStall cause (s.stall n).lots[0]? shown { (s.stall n) with lots := (s.stall n).lots.take 1 }
      { u with fstat := putBit u.fstat (cause - 1) true, stops := [] } := by
  obtain ⟨shown, h⟩ := stallFault_tiles hn cause s
  exact ⟨shown, (stall_of_tiles h n).trans (stall_modStall_self _ _ _ hn)⟩

theorem stallFault_stall_ne (hn : n < 64) (cause : Nat) (s : State) {m : Nat} (hm : m ≠ n) :
    (stallFault n cause s).stall m = s.stall m := by
  obtain ⟨_, h⟩ := stallFault_tiles hn cause s
  exact (stall_of_tiles h m).trans (stall_modStall_ne _ _ _ _ hm)

theorem stallFault_ram (hn : n < 64) (cause : Nat) (s : State) : (stallFault n cause s).ram = s.ram := by
  obtain ⟨_, h⟩ := stallFault_tiles hn cause s
  exact (ram_of_tiles h).trans (modStall_ram ..)

end

/-! A slow Stall gives its second Lot back (R190). -/

/-- Lots that go back with no query, to pipelines that are not stopped. -/
theorem foldl_giveBack {ids : List Nat} {u : State}
    (h : ∀ id ∈ ids, ∃ l, u.lot id = some l ∧ l.query = none ∧ (l.pipe.bind u.pipe).any (fun p => !p.running) = false) :
    ∃ lots, ids.foldl (fun s id => giveBack id none s) u = { u with lots := lots } ∧
      ∀ k l, u.lot k = some l → State.lot { u with lots := lots } k = some (if k ∈ ids then l.back none else l) := by
  induction ids generalizing u with
  | nil => exact ⟨u.lots, rfl, fun k l hl => hl⟩
  | cons id ids ih =>
    obtain ⟨l, hl, hq, hp⟩ := h id List.mem_cons_self
    have hone := giveBack_ingest none hl hq hp
    have hlot := lot_modLot (f := fun l => l.back none) (fun _ => rfl) u id
    obtain ⟨lots, hfold, hback⟩ := ih (u := u.modLot id fun l => l.back none) (by
      intro k hk
      obtain ⟨m, hm, hmq, hmp⟩ := h k (List.mem_cons_of_mem _ hk)
      refine ⟨_, by rw [hlot, hm]; rfl, ?_, ?_⟩
      · exact keep_ite Lot.query hmq hmq
      · exact keep_ite (c := m.id = id) (a := m.back none) (fun m : Lot => (m.pipe.bind u.pipe).any fun p => !p.running) hmp hmp)
    refine ⟨lots, by rw [List.foldl_cons, hone, hfold]; rfl, fun k m hm => ?_⟩
    have := hback k _ (by rw [hlot, hm]; rfl)
    refine this.trans (congrArg some ?_)
    have hid := lot_id hm
    by_cases hk : k = id <;> by_cases hki : k ∈ ids <;> simp [hid, hk, hki, Lot.back]

theorem returnSecond_ingest {s : State} {n : Nat} (h : ∀ id ∈ (s.stall n).lots.drop 1, ∃ l, s.lot id = some l ∧ l.query = none ∧
      (l.pipe.bind s.pipe).any (fun p => !p.running) = false) :
    ∃ lots, returnSecond n s = { s.setStall n { (s.stall n) with lots := (s.stall n).lots.take 1 } with lots := lots } ∧
      ∀ k l, s.lot k = some l → State.lot { s with lots := lots } k = some (if k ∈ (s.stall n).lots.drop 1 then l.back none else l) :=
  foldl_giveBack (u := s.setStall n { (s.stall n) with lots := (s.stall n).lots.take 1 }) h

end Sys2Proof.Proofs
end

section
/-! Events of a running Stall, its control block, and BAR2 (R91, R92, R200 to R203, R217, R223, R236). -/

namespace Sys2Proof.Proofs

open Sys2Proof Sys2Proof.Machine Sys2Proof.Laws

/-- What a Stall is once it is flagged SLOW (R190). -/
def slowStall (t : Stall) : Stall := { t with
  lots := t.lots.take 1, slow := true, elapsed := max t.elapsed (4 * t.budget + 1)
  stats := { t.stats with slows := t.stats.slows + 1 }, fstat := putBit t.fstat 6 true }

/-- A Stall is flagged, its second Lot with no query going back to a pipeline that is not stopped. -/
theorem flagSlow_ingest {s : State} {n : Nat} (hn : n < 64) (h : ∀ id ∈ (s.stall n).lots.drop 1, ∃ l, s.lot id = some l ∧ l.query = none ∧
      (l.pipe.bind s.pipe).any (fun p => !p.running) = false) :
    ∃ lots ev, flagSlow n s = { s.modStall n slowStall with lots := lots, ev := ev } ∧
      ∀ k l, s.lot k = some l → State.lot { s with lots := lots } k = some (if k ∈ (s.stall n).lots.drop 1 then l.back none else l) := by
  obtain ⟨lots, hr, hback⟩ := returnSecond_ingest h
  refine ⟨lots, (flagSlow n s).ev, ?_, hback⟩
  have htiles : tiles (flagSlow n s) = tiles (s.modStall n slowStall) := by
    refine (raiseStall_tiles hn ..).trans ((tiles_modStall (tiles_modStall (returnSecond_tiles n s) n _) n _).trans ?_)
    rw [setStall_eq_modStall _ _ _ hn, modStall_modStall, modStall_modStall]
    exact congrArg tiles (modStall_congr _ _ _ _ rfl)
  have hst : (flagSlow n s).stalls = (s.modStall n slowStall).stalls := congrArg Prod.fst htiles
  unfold flagSlow at hst ⊢
  rw [raiseStall_frame, hst, hr]
  rfl

/-- A lookup in a namespace that does not exist finds nothing (R261). -/
theorem answerLookup_none {s : State} {nsid : Nat} (n : Nat) (c : UnitCall) (stamp : Nat) (h : look s.ns nsid = none) :
    answerLookup n c nsid stamp s = endCall n [4, 0] s := by
  simp [answerLookup, h, Media.touchIndex]

/-- An emit lands in a Lot that is still there. -/
theorem landEmit_of_lot {s : State} {lot : Nat} {l : Lot} (hl : s.lot lot = some l) (r : RuleSet) (n rec_ out : Nat) (bytes : List Byte) :
    landEmit r n lot rec_ out bytes s =
      let w := cardWriteIn r false (.stall n) (outputArea n lot ((l.emits.map fun e => e.bytes.length).foldl (· + ·) 0)) bytes s
      if w.1 then porterFault n 2 w.2 else w.2.modLot lot fun l => { l with emits := l.emits ++ [⟨out, rec_, bytes⟩] } := by
  simp only [landEmit, hl]
  split
  · next h => rw [if_neg (by simpa using h)]
  · next h => rw [if_pos (by simpa using h)]

/-- A Stall that has claimed source e for a handler at pc (R216, R242). -/
def claimedStall (e pc cost : Nat) (k : HandlerKind) (t : Stall) : Stall := { t.pass 2 with
  ic := { t.ic with pending := putBit t.ic.pending e false, active := putBit t.ic.active e true }
  handlers := ⟨e, k, t.core.pc, t.core.p, (List.range 8).map fun i => (t.core.g[8 + i]?).getD 0⟩ :: t.handlers
  core := { t.core with pc := pc }, budget := if t.lots.isEmpty then t.budget else t.budget + cost }

/-! The end of a Lot (R190). -/

/-- On the way to the end of the Lot on Stall n: the Lot has its end, and only it, the Stall and what the Stall reports have changed. -/
structure LotEnding (s : State) (n id : Nat) (l : Lot) (u : State) : Prop where
  frame : u = { s with stalls := u.stalls, lots := u.lots, fresh := u.fresh, ev := u.ev }
  lot : u.lot id = some l
  others : ∀ m, m ≠ n → u.stall m = s.stall m

theorem LotEnding.modStall {s u : State} {n id : Nat} {l : Lot} (h : LotEnding s n id l u) (f : Stall → Stall) :
    LotEnding s n id l (u.modStall n f) where
  frame := by rw [State.modStall, h.frame]
  lot := h.lot
  others m hm := (stall_modStall_ne _ _ _ _ hm).trans (h.others m hm)

theorem LotEnding.flagSlow {s u : State} {n id : Nat} {l : Lot} (hn : n < 64) (h : LotEnding s n id l u)
    (hs : (u.stall n).lots = [id]) : LotEnding s n id l (flagSlow n u) ∧ (flagSlow n u).stall n = slowStall (u.stall n) := by
  have hnone : ∀ k ∈ (u.stall n).lots.drop 1, ∃ l, u.lot k = some l ∧ l.query = none ∧
      (l.pipe.bind u.pipe).any (fun p => !p.running) = false := by
    rw [hs]
    intro k hk
    simp at hk
  obtain ⟨lots, ev, hu, hback⟩ := flagSlow_ingest hn hnone
  have hsl := h.modStall slowStall
  rw [hu]
  refine ⟨⟨?_, ?_, hsl.others⟩, stall_modStall_self _ _ _ hn⟩
  · rw [hsl.frame]
  · refine (hback id l h.lot).trans ?_
    rw [hs]
    rfl

/-- Stall n leaves its Lot, flagged SLOW by then if its count has passed the mark. -/
def leaveLot (bytes outb n : Nat) (u : State) : State :=
  startLot n ((if !(u.stall n).slow && (u.stall n).isSlow then flagSlow n u else u).modStall n fun t => { t.countLot with
    lots := t.lots.drop 1
    stats := { t.countLot.stats with inBytes := t.stats.inBytes + bytes, outBytes := t.stats.outBytes + outb } })

@[simp] theorem countLot_fstat (t : Stall) : t.countLot.fstat = t.fstat := by
  unfold Stall.countLot
  split <;> rfl

/-- A Stall that holds no Lot is idle. -/
theorem startLot_empty {s : State} {n : Nat} (h : (s.stall n).lots = []) :
    startLot n s = s.setStall n { (s.stall n) with idleAt := s.now } := by
  simp only [startLot, h]
  rfl

theorem leaveLot_ended {s u : State} {n id : Nat} {l : Lot} (bytes outb : Nat) (hn : n < 64) (h : LotEnding s n id l u)
    (hs : (u.stall n).lots = [id]) :
    LotEnding s n id l (leaveLot bytes outb n u) ∧ ((leaveLot bytes outb n u).stall n).lots = [] ∧
      ((leaveLot bytes outb n u).stall n).idleAt = s.now ∧
      ((u.stall n).slow = false → 4 * (u.stall n).budget < (u.stall n).elapsed →
        bit ((leaveLot bytes outb n u).stall n).fstat 6 = true) := by
  have hflag : ∃ v, leaveLot bytes outb n u = startLot n (v.modStall n fun t => { t.countLot with
        lots := t.lots.drop 1
        stats := { t.countLot.stats with inBytes := t.stats.inBytes + bytes, outBytes := t.stats.outBytes + outb } }) ∧
      LotEnding s n id l v ∧ (v.stall n).lots = [id] ∧
      ((u.stall n).slow = false → 4 * (u.stall n).budget < (u.stall n).elapsed → bit (v.stall n).fstat 6 = true) := by
    refine ⟨_, rfl, ?_⟩
    split
    · obtain ⟨hend, hst⟩ := h.flagSlow hn hs
      refine ⟨hend, by rw [hst, slowStall, hs]; rfl, fun _ _ => ?_⟩
      rw [hst]
      exact bit_putBit_self _ _ (by decide)
    · next hnot =>
      refine ⟨h, hs, fun hslow hover => absurd ?_ hnot⟩
      simp [Stall.isSlow, hslow, hs, hover]
  obtain ⟨v, hv, hend, hlots, hbit⟩ := hflag
  rw [hv, startLot_empty (by simp [hn, hlots]), setStall_eq_modStall _ _ _ hn, modStall_modStall]
  refine ⟨hend.modStall _, ?_⟩
  rw [stall_modStall_self _ _ _ hn, stall_modStall_self _ _ _ hn]
  refine ⟨by rw [hlots]; rfl, ?_, fun hslow hover => (congrArg (bit · 6) (countLot_fstat _)).trans (hbit hslow hover)⟩
  rw [modStall_now, hend.frame]

/-- Settles O46: each row's branch, and what a fault, a slow Lot and the end of a Lot leave. -/
theorem stallEventRows : Obligations.StallEventRows := by
  unfold Obligations.StallEventRows
  refine ⟨fun s n cause => ?_, fun s n ho hst hstage => ?_, fun s n ho hst hl hslow hids => ?_,
    fun s n id rest l im ho hw hst hh hlots hl him => ⟨fun x hstage hx => ?_, fun r hstage hr => ?_⟩,
    fun s n c fr ho hw hst hh hc hu => ⟨fun bs h4 hsrc hload => ?_, fun h5 hns => ?_, fun h5 hns => ?_⟩,
    fun s n c hc hu e => ?_, fun s s1 n x hx hs1 => ⟨fun hm => ?_, fun ho hm => ⟨fun l r lot rec_ out w hk hl hr hw => ?_,
      fun loc card snap bs s2 w hk hsrc hw => ?_, fun loc card snap s2 hk hsrc => ?_⟩⟩,
    fun s n e pc k im ho hw hst ht him hv => ?_, fun s n id l ho hst hstage hh hm hpf hstops hlots hl hrecs => ?_⟩
  · refine ⟨fun id l hs hl hq hp => stallFault_lot hs hl hq hp, stallFault_ram n.isLt .., fun m hm => stallFault_stall_ne n.isLt _ _ hm, ?_⟩
    obtain ⟨shown, h⟩ := stallFault_stall_self n.isLt cause s
    rw [h]
    refine ⟨rfl, rfl, rfl, rfl, countLot_core _, countLot_lm _, fun h1 h5 => bit_putBit_self _ _ (by omega)⟩
  · refine next_settle (if_pos ?_)
    rcases hstage with h | h <;> simp [ho, hst, h]
  · obtain ⟨lots, ev, hu, hback⟩ := flagSlow_ingest n.isLt hids
    refine ⟨_, next_settle (if_neg (by simp [ho, hst, hl, hslow])), ?_⟩
    rw [hu]
    refine ⟨rfl, fun id hid l hl => ?_, ?_⟩
    · exact (hback id l hl).trans (by rw [if_pos hid])
    have hself : (s.modStall n.val slowStall).stall n.val = slowStall (s.stall n.val) := stall_modStall_self _ _ _ n.isLt
    change ((s.modStall n.val slowStall).stall n.val).slow = true ∧ ((s.modStall n.val slowStall).stall n.val).state = .running ∧
      ((s.modStall n.val slowStall).stall n.val).lots = _ ∧ bit ((s.modStall n.val slowStall).stall n.val).fstat 6 = true ∧
      ∀ m, m ≠ n.val → (s.modStall n.val slowStall).stall m = s.stall m
    rw [hself]
    exact ⟨rfl, hst, rfl, bit_putBit_self _ _ (by decide), fun m hm => stall_modStall_ne _ _ _ _ hm⟩
  · refine next_settle ?_
    simp only [hlots, him, hl, ho, hw, hst, hh, hstage, hx]
    rfl
  · refine next_settle ?_
    simp only [hlots, him, hl, ho, hw, hst, hh, hstage, hr]
    rfl
  · refine next_settle ?_
    have hg1 : ((c.args[1 - 1]?).getD 0).toNat = c.args[0].toNat := rfl
    simp only [hc, hu, ho, hw, hst, hh, h4, hsrc]
    exact (congrArg (fun x : Option (List Byte) × State => match x.1 with
      | none => stallFault n.val 3 x.2
      | some bs => answerCall n.val c bs x.2) hload).trans (if_pos h4)
  · refine next_settle ?_
    have hns' : look s.ns ((c.args[1 - 1]?).getD 0).toNat = none := hns
    simp only [hc, hu, ho, hw, hst, hh, h5, hns']
    exact answerLookup_none _ _ _ hns
  · refine next_settle ?_
    have hns' : look s.ns ((c.args[1 - 1]?).getD 0).toNat = none := hns
    simp only [hc, hu, ho, hw, hst, hh, h5, hns']
    simp [failCall, h5]
  · refine next_settle ?_
    simp only [hc, hu]
  · refine next_settle ?_
    simp only [hx, hm]
    simp
  · have hl' : s1.lot lot = some l := by rw [hs1]; exact hl
    subst hw
    refine next_settle ?_
    simp only [hx, hm, ho, ← hs1, hk, hl', hr, Option.bind_some, Bool.not_true, Bool.or_false, Bool.false_eq_true, ↓reduceIte]
    exact landEmit_of_lot hl' ..
  · refine next_settle ?_
    simp only [hx, hm, ho, ← hs1, hk, hsrc, Bool.not_true, Bool.or_false, Bool.false_eq_true, ↓reduceIte]
    rw [hw]
  · refine next_settle ?_
    simp only [hx, hm, ho, ← hs1, hk, hsrc, Bool.not_true, Bool.or_false, Bool.false_eq_true, ↓reduceIte]
  · have hself : (s.setStall n.val (claimedStall e pc (im.vector k).2 k (s.stall n.val))).stall n.val =
        claimedStall e pc (im.vector k).2 k (s.stall n.val) := stall_setStall_self _ _ _ n.isLt
    refine ⟨s.setStall n.val (claimedStall e pc (im.vector k).2 k (s.stall n.val)), next_settle ?_, rfl,
      fun m hm => stall_setStall_ne _ _ _ _ hm, ?_⟩
    · simp only [ho, hw, hst, ht, him, hv]
      rfl
    rw [hself]
    refine ⟨rfl, rfl, rfl, ⟨_, rfl, rfl, rfl, rfl, rfl⟩, ?_⟩
    cases hlots : (s.stall n.val).lots <;> simp [claimedStall, Stall.pass, hlots]
  · have hmark : LotEnding s n.val id { l with state := .done n.val } (s.modLot id fun l => { l with state := .done n.val }) :=
      ⟨rfl, lot_modLot_self hl fun _ => rfl, fun _ _ => rfl⟩
    have hwait : ∃ k v, (if l.emits.isEmpty then (0, s.modLot id fun l => { l with state := .done n.val })
        else (Config.waitCycles (s.modLot id fun l => { l with state := .done n.val }).fresh, (s.modLot id fun l => { l with state := .done n.val }).take.2)) = (k, v) ∧
        LotEnding s n.val id { l with state := .done n.val } v ∧ v.stall n.val = s.stall n.val := by
      cases l.emits.isEmpty
      · exact ⟨_, _, rfl, ⟨rfl, hmark.lot, fun _ _ => rfl⟩, rfl⟩
      · exact ⟨_, _, rfl, hmark, rfl⟩
    obtain ⟨k, v, hkv, hend, hv⟩ := hwait
    have hself : ((v.modStall n.val fun t => { t with elapsed := t.elapsed + k }).stall n.val) =
        { (s.stall n.val) with elapsed := (s.stall n.val).elapsed + k } := by rw [stall_modStall_self _ _ _ n.isLt, hv]
    obtain ⟨hended, hempty, hidle, hslow⟩ := leaveLot_ended (((l.recs.filter fun r => r.pass).map fun r => r.bytes.length).foldl (· + ·) 0)
      ((l.emits.map fun e => e.bytes.length).foldl (· + ·) 0) n.isLt (hend.modStall fun t => { t with elapsed := t.elapsed + k })
      (by rw [hself]; exact hlots)
    refine ⟨_, next_settle ?_, hended.frame, hempty, fun h0 h4 => hslow ?_ ?_, hidle, hended.lot, hended.others⟩
    · simp only [hlots, hl, ho, hst, hstage, hh, hm, hrecs, hpf, hstops]
      simp only [List.any_nil, List.isEmpty_nil, bne_self_eq_false, Bool.not_true, Bool.or_false, Bool.false_eq_true, ↓reduceIte, hkv]
      rfl
    · rw [hself]; exact h0
    · rw [hself]
      exact Nat.lt_add_right _ h4

end Sys2Proof.Proofs
end

section
/-! The control block of a Stall, its memories, BAR2 and RAM (R91, R92, R200 to R203, R217, R236, R341). -/

namespace Sys2Proof.Proofs

open Sys2Proof Sys2Proof.Machine Sys2Proof.Laws

/-! The checker on an access to memory (R341). -/

theorem beats_ne_nil {a len : Nat} (h : 0 < len) : beats a len ≠ [] := by
  have h64 : a / 64 ≤ (a + len - 1) / 64 := Nat.div_le_div_right (by omega)
  simp only [beats, Nat.ne_of_gt h, ↓reduceIte, ne_eq, List.map_eq_nil_iff, List.range_eq_nil]
  omega

/-- An access that the checker lets through leaves the state as it is. -/
theorem memAccess_clear {m : Master} {need a len : Nat} {s : State} (hlen : 0 < len) (h : (memAccess m need a len s).1 = []) :
    memAccess m need a len s = ([], s) := by
  unfold memAccess memAccessIn at h ⊢
  by_cases hm : s.acc.mismatch = true
  · rw [if_pos hm] at h
    exact absurd h (beats_ne_nil hlen)
  · rw [if_neg hm] at h ⊢
    dsimp only at h ⊢
    split at h
    · rfl
    · next hb => exact absurd (hb.symm.trans h) (List.cons_ne_nil _ _)

/-- What an access may change when the checker stops it: the violation registers and the fault they raise. -/
theorem memAccess_keep {α : Type} (p : State → α) (hacc : ∀ u a, p { u with acc := a } = p u)
    (hraise : ∀ f b u, p (raiseFault f b u) = p u) (m : Master) (need a len : Nat) (s : State) :
    p (memAccess m need a len s).2 = p s := by
  unfold memAccess memAccessIn
  split
  · exact hacc ..
  · dsimp only
    split
    · rfl
    · exact (hraise ..).trans (hacc ..)

/-- A tile that has power takes the access. -/
theorem tileOff_of_on {s : State} {n : Nat} (h : (s.stall n).state ≠ .off) : tileOff n s = none := if_neg h

theorem throughCtl_of_reach {s : State} {n off : Nat} {m : CbMaster} (h : CtlReach s n m off) (f : State → State) :
    throughCtl n m off f s = f s := by
  cases m with
  | own => exact if_pos (by simp [h.1, h.2])
  | bar2 =>
    obtain ⟨hon, hacc, hoff⟩ := h
    simp only [throughCtl, hon, memAccess_clear (by decide) hacc, tileOff_of_on hoff, List.isEmpty_nil, ↓reduceIte]
  | porter k =>
    obtain ⟨hon, hacc, hoff⟩ := h
    simp only [throughCtl, hon, memAccess_clear (by decide) hacc, tileOff_of_on hoff, List.isEmpty_nil, ↓reduceIte]
  | mgmt =>
    obtain ⟨hon, hacc, hoff⟩ := h
    simp only [throughCtl, hon, memAccess_clear (by decide) hacc, tileOff_of_on hoff, List.isEmpty_nil, ↓reduceIte]

/-! FAULT_FORCE: the bits written as 1 rise (R203). -/

theorem foldl_putBit_getLsbD {n : Nat} (is : List Nat) (w : BitVec n) {j : Nat} (hj : j < n) :
    (is.foldl (fun w i => putBit w i true) w).getLsbD j = (decide (j ∈ is) || w.getLsbD j) := by
  induction is generalizing w with
  | nil => simp
  | cons i is ih =>
    rw [List.foldl_cons, ih, getLsbD_putBit]
    by_cases h : j = i
    · subst h
      simp [hj]
    · simp [h]

theorem foldl_putBit_setBits (w : Byte) (v : W32) :
    (setBits 8 v.toNat).foldl (fun w i => putBit w i true) w = w ||| v.setWidth 8 := by
  apply BitVec.eq_of_getLsbD_eq
  intro j hj
  rw [foldl_putBit_getLsbD _ _ hj, BitVec.getLsbD_or, BitVec.getLsbD_setWidth, Bool.or_comm]
  simp [mem_setBits, hj, BitVec.getLsbD]

theorem modStall_id (s : State) (n : Nat) : s.modStall n id = s := by
  simp [State.modStall, vmod]

theorem stalls_modStall {s t : State} (h : s.stalls = t.stalls) (n : Nat) (f : Stall → Stall) :
    (s.modStall n f).stalls = (t.modStall n f).stalls := by rw [State.modStall, State.modStall, h]

theorem foldl_raiseStall_stalls {n : Nat} (hn : n < 64) (bs : List Nat) (s : State) :
    (bs.foldl (fun s b => raiseStall 1 n b s) s).stalls =
      (s.modStall n fun t => { t with fstat := bs.foldl (fun w i => putBit w i true) t.fstat }).stalls := by
  induction bs generalizing s with
  | nil => exact congrArg State.stalls (modStall_id s n).symm
  | cons b bs ih =>
    rw [List.foldl_cons, ih, stalls_modStall (raiseStall_stalls hn 1 b s), modStall_modStall]
    rfl

theorem foldl_raiseStall_frame (n : Nat) (bs : List Nat) (s : State) :
    ∃ st ev, bs.foldl (fun s b => raiseStall 1 n b s) s = { s with stalls := st, ev := ev } := by
  induction bs generalizing s with
  | nil => exact ⟨_, _, rfl⟩
  | cons b bs ih =>
    obtain ⟨st, ev, h⟩ := ih (raiseStall 1 n b s)
    refine ⟨st, ev, ?_⟩
    rw [List.foldl_cons, h, raiseStall_frame]

/-- What FAULT_FORCE leaves. -/
theorem forceStall_rises {s : State} {n : Nat} (hn : n < 64) (v : W32) :
    forceStall n v s = { s with stalls := (forceStall n v s).stalls, ev := (forceStall n v s).ev } ∧
    (forceStall n v s).stall n = { (s.stall n) with fstat := (s.stall n).fstat ||| v.setWidth 8 } ∧
    ∀ k, k ≠ n → (forceStall n v s).stall k = s.stall k := by
  have hst : (forceStall n v s).stalls = (s.modStall n fun t => { t with fstat := t.fstat ||| v.setWidth 8 }).stalls := by
    refine (foldl_raiseStall_stalls hn _ s).trans ?_
    simp only [foldl_putBit_setBits]
  have hstall : ∀ k, (forceStall n v s).stall k = (s.modStall n fun t => { t with fstat := t.fstat ||| v.setWidth 8 }).stall k :=
    fun k => by rw [State.stall, hst, State.stall]
  obtain ⟨st, ev, h⟩ := foldl_raiseStall_frame n (setBits 8 v.toNat) s
  refine ⟨?_, (hstall n).trans (stall_modStall_self _ _ _ hn), fun k hk => (hstall k).trans (stall_modStall_ne _ _ _ _ hk)⟩
  unfold forceStall
  rw [h]

theorem raiseStall_stall_self {n : Nat} (hn : n < 64) (k b : Nat) (s : State) :
    (raiseStall k n b s).stall n = { (s.stall n) with fstat := putBit (s.stall n).fstat b true } := by
  rw [State.stall, raiseStall_stalls hn]
  exact stall_modStall_self _ _ _ hn

/-! The memories of a Stall (R198 to R200). -/

theorem writeWord_memory (t : Stall) (pm : Bool) (i : Nat) (v : W64) :
    look ((t.writeWord pm i v).mem pm) i = some ⟨v, t.flip pm⟩ ∧ (t.writeWord pm i v).flip pm = 0 ∧
    (t.writeWord pm i v).flip (!pm) = t.flip (!pm) ∧ (t.writeWord pm i v).mem (!pm) = t.mem (!pm) ∧
    ∀ j, j ≠ i → look ((t.writeWord pm i v).mem pm) j = look (t.mem pm) j := by
  have hmem : (t.writeWord pm i v).mem pm = put (t.mem pm) i ⟨v, t.flip pm⟩ := by cases pm <;> rfl
  refine ⟨by rw [hmem, look_put_self], by cases pm <;> rfl, by cases pm <;> rfl, by cases pm <;> rfl, fun j hj => ?_⟩
  rw [hmem, look_put_ne _ _ _ _ hj]

section
variable {s : State} {pm : Bool} {n i : Nat} {w : MemWord}

theorem readWord_sound (h : look ((s.stall n).mem pm) i = some w) (h0 : popcount 72 w.flips.toNat = 0) :
    readWord pm n i s = (some w.data, s) := by
  simp only [readWord, h, secded, h0]

theorem readWord_double (h : look ((s.stall n).mem pm) i = some w) (h2 : popcount 72 w.flips.toNat = 2) :
    readWord pm n i s = (none, s) := by
  simp only [readWord, h, secded, h2]

theorem readWord_single (h : look ((s.stall n).mem pm) i = some w) (h1 : popcount 72 w.flips.toNat = 1) :
    readWord pm n i s = (some w.data, corrected n (s.modStall n fun t => t.putMem pm (put (t.mem pm) i ⟨w.data, 0⟩))) := by
  simp only [readWord, h, secded, h1]

end

theorem corrected_stall {s : State} {n : Nat} (hn : n < 64) :
    (corrected n s).stall n = (let t := { (s.stall n) with corr := satInc (s.stall n).corr }.pend 24
      { t with fstat := putBit t.fstat 5 true }) := by
  have h := raiseStall_stalls hn 0 5 (s.modStall n fun t => { t with corr := satInc t.corr }.pend 24)
  rw [modStall_modStall] at h
  rw [State.stall, show (corrected n s).stalls = _ from h]
  exact stall_modStall_self _ _ _ hn

theorem corrected_frame (n : Nat) (s : State) :
    corrected n s = { s with stalls := (corrected n s).stalls, ev := (corrected n s).ev } := by
  unfold corrected
  rw [raiseStall_frame]
  rfl

/-- Settles O47: a master that reaches the block acts on it, and what a write and a read of a word do. -/
theorem controlBlockRows : Obligations.ControlBlockRows := by
  unfold Obligations.ControlBlockRows
  refine ⟨fun s n m v => ⟨fun h => ?_, fun h => ?_, fun h => ?_, fun h => ?_, fun h => ?_, fun h hoff => ?_, fun h => ?_, fun r h => ?_,
      fun hr hoff hacc => ?_⟩, writeWord_memory,
    fun s pm n i w hw => ⟨readWord_sound hw, fun h1 hon => ?_, readWord_double hw⟩⟩
  · exact next_settle (throughCtl_of_reach h _)
  · exact next_settle (throughCtl_of_reach h _)
  · exact next_settle (throughCtl_of_reach h _)
  · exact next_settle (throughCtl_of_reach h _)
  · exact next_settle (throughCtl_of_reach h _)
  · refine next_settle ((throughCtl_of_reach h _).trans (modStall_congr _ _ _ _ ?_))
    simp only [Stall.pend, hoff, ↓reduceIte]
  · exact ⟨_, next_settle (throughCtl_of_reach h _), forceStall_rises n.isLt v⟩
  · exact next_settle (throughCtl_of_reach h _)
  · refine next_settle ?_
    simp only [throughCtl, hr, memAccess_clear (by decide) hacc, tileOff, hoff, List.isEmpty_nil, ↓reduceIte]
  · refine ⟨_, readWord_single hw h1, ?_, ?_⟩
    · rw [corrected_frame]
      rfl
    rw [corrected_stall n.isLt, stall_modStall_self _ _ _ n.isLt]
    have hon' : ((s.stall n.val).putMem pm (put ((s.stall n.val).mem pm) i ⟨w.data, 0⟩)).state ≠ .off := by
      cases pm <;> exact hon
    simp only [Stall.pend, hon', ↓reduceIte]
    refine ⟨?_, ?_, bit_putBit_self _ _ (by decide), bit_putBit_self _ _ (by decide)⟩
    · cases pm <;> exact look_put_self ..
    · cases pm <;> rfl

/-! Bytes of RAM (R25, R237). -/

theorem read_writeBytes_outside (d : Nat → Byte) (m : List Host.Cell) (a : Nat) (bs : List Byte) {x : Nat} (h : x < a ∨ a + bs.length ≤ x) :
    Memory.read d (Memory.writeBytes d m a bs) x = Memory.read d m x := by
  induction bs generalizing m a with
  | nil => rfl
  | cons b bs ih =>
    rw [Memory.writeBytes, ih _ _ (by simp at h; omega), read_write_ne]
    simp at h
    omega

theorem readBytes_writeBytes {d : Nat → Byte} {m : List Host.Cell} (a : Nat) (bs : List Byte) (h : Memory.wf d m) :
    Memory.readBytes d (Memory.writeBytes d m a bs) a bs.length = bs := by
  induction bs generalizing m a with
  | nil => rfl
  | cons b bs ih =>
    rw [List.length_cons, Memory.readBytes, Memory.writeBytes, ih _ (write_wf d m a b h),
      read_writeBytes_outside d _ (a + 1) bs (.inl (Nat.lt_succ_self a)), read_write_self d m a b 0 h]

/-! BAR2 (R91, R92). -/

theorem popcount_zero (n : Nat) : popcount n (0 : BitVec 72).toNat = 0 := by
  simp [popcount, setBits]


theorem wordParts_word {a : Nat} (h : a % 8 = 0) (fuel : Nat) : wordParts (fuel + 2) a 8 = [(a, 8, 0)] := by
  simp [wordParts, h]

theorem target_local {off n x : Nat} (h : off < 0x02000000) (ho : off = n * 0x80000 + x) (hx : x < 0x80000) :
    target off = .local_ n x := by
  rw [target, if_pos h]
  congr 1 <;> omega

theorem slice_whole {bs : List Byte} {k : Nat} (h : bs.length = k) : slice bs 0 k = bs := by
  simp [slice, List.take_of_length_le (Nat.le_of_eq h), h]

section
variable {s : State} {off n x : Nat}

theorem cardWord_sound {v : W64} (hoff : off < 0x02000000) (he : off = n * 0x80000 + x) (hx : x < 0x80000)
    (hst : (s.stall n).state ≠ .off) (h : readWord false n (x / 8) s = (some v, s)) : cardWord off s = (some v, s) := by
  simp only [cardWord, target_local hoff he hx, tileOff_of_on hst, h]

theorem cardWord_double (hoff : off < 0x02000000) (he : off = n * 0x80000 + x) (hx : x < 0x80000)
    (hst : (s.stall n).state ≠ .off) (h : readWord false n (x / 8) s = (none, s)) : cardWord off s = (none, raiseStall 0 n 2 s) := by
  simp only [cardWord, target_local hoff he hx, tileOff_of_on hst, h]

/-- A BAR2 read of one word. -/
theorem bar2Read_word {v : Option W64} {u : State} (hon : s.bar2On = true) (hoff : off < 0x02000000) (h8 : off % 8 = 0)
    (hacc : (memAccess (.queue 0) 1 off 8 s).1 = []) (hc : cardWord off s = (v, u)) :
    exec (.bar2Read off 8) s = .next (settle { u with
      dataOut := v.elim (List.replicate 8 0xFF) fun v => leBytes 8 v.toNat }) := by
  have hread : cardReadIn s.acc.active (.queue 0) off 8 s = (false, [(off, 8, v)], u) := by
    have := memAccess_clear (by decide) hacc
    simp only [memAccess] at this
    simp [cardReadIn, this, wordParts_word h8, hc]
  refine next_settle ?_
  simp only [hon, Bool.not_true, Bool.false_eq_true, ↓reduceIte, show bar2Addr off = some off from if_pos hoff, cardRead, hread]
  cases v with
  | none => simp
  | some v => simp [h8, slice_whole (leBytes_length 8 v.toNat)]

end

/-- A BAR2 access in Watch is reported and wakes the card. -/
theorem bar2Asleep_wakes {s : State} (hw : s.pwr.watch = .asleep) (hm : s.pwr.mainOn = true) (hl : s.pwr.link = true)
    (hnat : s.native = true) (hheld : s.therm.held = false) : bar2Asleep s = { s with
      offReports := s.offReports + 1, pwr := { s.pwr with wakeSrc := putBit s.pwr.wakeSrc 1 true, wakeDue := true } } := by
  simp [bar2Asleep, wake, hw, hm, hl, hnat, hheld]

theorem bar2On_of_asleep {s : State} (hw : s.pwr.watch = .asleep) : s.bar2On = false := by
  simp [State.bar2On, State.mainAwake, hw]

/-- A write whose every beat is denied changes what the check of the access changes. -/
theorem cardWrite_denied {s : State} {a : Nat} {bs : List Byte} {m : Master}
    (h : ∀ p ∈ wordParts (bs.length / 8 + 2) a bs.length, p.1 / 64 * 64 ∈ (memAccess m (writeNeed a) a bs.length s).1) (bar2 : Bool) :
    (cardWrite bar2 m a bs s).2 = (memAccess m (writeNeed a) a bs.length s).2 := by
  unfold cardWrite cardWriteIn
  dsimp only
  refine foldl_keep_mem id _ _ (fun p hp u => ?_) _
  have hp := h p (List.mem_reverse.mp hp)
  simp only [memAccess] at hp
  rw [if_pos (List.contains_iff_mem.mpr hp)]

/-- Settles O48: which word an access reaches, what the checker and the power state make of it, and RAM byte by byte. -/
theorem bar2Rows : Obligations.Bar2Rows := by
  unfold Obligations.Bar2Rows
  refine ⟨⟨fun s off n x bs hon hlen hoff he hx h8 hst hacc => ?_, fun s off n x w hon hoff he hx h8 hst hacc hw => ⟨fun h0 => ?_, fun h2 => ?_⟩,
    fun s off bs len hn hon => ⟨?_, ?_⟩, fun s off bs len hon hw => ⟨?_, ?_⟩,
    fun s off a bs len hw hm hl hnat hheld ha => ⟨?_, ?_⟩, fun s off a bs hon ha hbad => ?_⟩,
    fun m a bs h => ⟨writeBytes_wf _ _ _ _ h, readBytes_writeBytes a bs h, fun x hx => read_writeBytes_outside _ _ _ _ hx⟩⟩
  · have haddr : bar2Addr off = some off := if_pos hoff
    have hneed : writeNeed off = 2 := if_neg (by omega)
    have hclear := memAccess_clear (by decide) hacc
    simp only [memAccess] at hclear
    refine next_settle ?_
    simp only [haddr, hon, ↓reduceIte, cardWrite, cardWriteIn, hneed, hlen, hclear, wordParts_word h8]
    simp [cardPut, target_local hoff he hx, mergeWord, tileOff_of_on hst, slice_whole hlen, hlen]
  · have hr : readWord false n (x / 8) s = (some w.data, s) := readWord_sound hw (by rw [h0]; exact popcount_zero 72)
    exact bar2Read_word (v := some w.data) (u := s) hon hoff h8 hacc (cardWord_sound hoff he hx hst hr)
  · have hr : readWord false n (x / 8) s = (none, s) := readWord_double hw h2
    refine ⟨_, bar2Read_word hon hoff h8 hacc (cardWord_double hoff he hx hst hr), ?_, ?_⟩
    · rw [raiseStall_frame]
      rfl
    · change bit ((raiseStall 0 n 2 s).stall n).fstat 2 = true
      rw [raiseStall_stall_self (by omega)]
      exact bit_putBit_self _ _ (by decide)
  · refine next_settle ?_
    simp only [hn]
  · refine next_settle ?_
    simp only [hn, hon, Bool.not_true, Bool.false_eq_true, ↓reduceIte]
  · have hasleep : bar2Asleep s = s := by simp [bar2Asleep, hw]
    refine next_settle ?_
    cases bar2Addr off <;> simp [hon, hasleep]
  · refine next_settle ?_
    simp [hon, hw]
  · refine next_settle ?_
    simp only [ha, bar2On_of_asleep hw, Bool.false_eq_true, ↓reduceIte]
    exact bar2Asleep_wakes hw hm hl hnat hheld
  · refine next_settle ?_
    simp only [bar2On_of_asleep hw, hw, bar2Asleep_wakes hw hm hl hnat hheld, Bool.not_false, beq_self_eq_true, ↓reduceIte]
  · refine ⟨(cardWrite true (.queue 0) a bs s).2, next_settle ?_, ?_⟩
    · simp only [ha, hon, ↓reduceIte]
    rw [cardWrite_denied hbad]
    exact ⟨memAccess_keep State.stalls (fun _ _ => rfl) (fun f b u => raiseFault_stalls ..) .., memAccess_keep State.ram (fun _ _ => rfl) (fun f b u => raiseFault_ram ..) ..,
      memAccess_keep State.med (fun _ _ => rfl) (fun f b u => raiseFault_med ..) ..⟩

end Sys2Proof.Proofs
end

section
/-! The Beacon (02_beacon.md): what each operation of the unit changes, and the rows that reach it. -/

namespace Sys2Proof.Proofs

open Sys2Proof Sys2Proof.Machine Sys2Proof.Laws

/-! Operations of the unit. -/

/-- The Arcs that no longer contain the position leave; nothing else changes (R49). -/
theorem leaveGone_shape (b : Bcn) : (b.leaveGone).1 = { b with arcs := (b.leaveGone).1.arcs } := rfl

@[simp] theorem recheck_shape (b : Bcn) : (b.recheck).1 = { b with arcs := (b.recheck).1.arcs } := rfl

/-- A move places the position; the registers, the inputs and the fault state stay (R46 to R51). -/
theorem move_shape (b : Bcn) (t : Nat) (ok : Bool) (net : Int) (count : Nat) :
    ∃ rev vn v com arcs, (b.move t ok net count).1 = { b with
      net := net, count := count, rev := rev, still := b.still && decide (net * (b.cpc : Int) + (count : Int) = b.pos)
      validNet := vn, valid := v, com := com, arcs := arcs } := by
  unfold Bcn.move
  dsimp only
  split
  · split
    · exact ⟨_, _, _, _, _, rfl⟩
    · exact ⟨_, _, _, _, _, rfl⟩
  · split
    · exact ⟨_, _, _, _, _, rfl⟩
    · exact ⟨_, _, _, _, _, rfl⟩

section
variable (b : Bcn) (t : Nat) (ok : Bool) (net : Int) (count : Nat)

@[simp] theorem move_net : (b.move t ok net count).1.net = net := by
  obtain ⟨_, _, _, _, _, h⟩ := move_shape b t ok net count
  rw [h]

@[simp] theorem move_count : (b.move t ok net count).1.count = count := by
  obtain ⟨_, _, _, _, _, h⟩ := move_shape b t ok net count
  rw [h]

@[simp] theorem move_regs : (b.move t ok net count).1.regs = b.regs := by
  obtain ⟨_, _, _, _, _, h⟩ := move_shape b t ok net count
  rw [h]

@[simp] theorem move_code : (b.move t ok net count).1.code = b.code := by
  obtain ⟨_, _, _, _, _, h⟩ := move_shape b t ok net count
  rw [h]

@[simp] theorem move_sticky : (b.move t ok net count).1.sticky = b.sticky := by
  obtain ⟨_, _, _, _, _, h⟩ := move_shape b t ok net count
  rw [h]

@[simp] theorem move_inp : (b.move t ok net count).1.inp = b.inp := by
  obtain ⟨_, _, _, _, _, h⟩ := move_shape b t ok net count
  rw [h]

@[simp] theorem move_seq : (b.move t ok net count).1.seq = b.seq := by
  obtain ⟨_, _, _, _, _, h⟩ := move_shape b t ok net count
  rw [h]

@[simp] theorem move_seqLimit : (b.move t ok net count).1.seqLimit = b.seqLimit := by
  obtain ⟨_, _, _, _, _, h⟩ := move_shape b t ok net count
  rw [h]

@[simp] theorem move_loaded : (b.move t ok net count).1.loaded = b.loaded := by
  obtain ⟨_, _, _, _, _, h⟩ := move_shape b t ok net count
  rw [h]

@[simp] theorem move_still : (b.move t ok net count).1.still = (b.still && decide (net * (b.cpc : Int) + (count : Int) = b.pos)) := by
  obtain ⟨_, _, _, _, _, h⟩ := move_shape b t ok net count
  rw [h]

end

/-! A position as net cycle and count (R28). -/

theorem cpc_pos (b : Bcn) : 0 < b.cpc := Nat.succ_pos _

theorem split_pos (b : Bcn) (p : Int) : (b.split p).1 * (b.cpc : Int) + ((b.split p).2 : Int) = p ∧ (b.split p).2 < b.cpc := by
  have hpos : (0 : Int) < (b.cpc : Int) := Int.natCast_pos.mpr (cpc_pos b)
  have hnonneg := Int.emod_nonneg p hpos.ne'
  have hlt := Int.emod_lt_of_pos p hpos
  have hdiv := Int.mul_ediv_add_emod p (b.cpc : Int)
  rw [Int.mul_comm] at hdiv
  have hcast : ((p % (b.cpc : Int)).toNat : Int) = p % (b.cpc : Int) := Int.toNat_of_nonneg hnonneg
  simp only [Bcn.split, fdivNat, fmodNat]
  omega

theorem pos_congr {b c : Bcn} (hr : b.regs = c.regs) (hn : b.net = c.net) (hc : b.count = c.count) : b.pos = c.pos := by
  rw [Bcn.pos, Bcn.pos, Bcn.cpc, Bcn.cpc, hr, hn, hc]

/-- What every move keeps stays as the position follows the extrapolation (R34). -/
theorem advance_keep {α : Type} (p : Bcn → α) (h : ∀ b t ok net count, p (Bcn.move b t ok net count).1 = p b) (b : Bcn) (t : Nat)
    (ok : Bool) : p (b.advance t ok).1 = p b := by
  unfold Bcn.advance
  split
  · split
    · exact h ..
    · rfl
  · rfl

theorem advance_of_fault {b : Bcn} (h : b.code ≠ 0) (t : Nat) (ok : Bool) : b.advance t ok = (b, []) := by
  simp [Bcn.advance, Bcn.inFault, h]

theorem mark_sticky (b : Bcn) {code : Nat} (h : code ≤ 8) (h1 : 1 ≤ code) : bit (b.mark code).sticky (8 - code) = true :=
  bit_putBit_self _ _ (by omega)

/-- A fault is noted, and only its code, its sticky bit and its counter change (R55). -/
theorem enterFault_shape (b : Bcn) (code : Nat) : ∃ c vn v e, b.enterFault code = { b with
    sticky := putBit b.sticky (8 - code) true, code := c, validNet := vn, valid := v, entered := e } ∧
    c = (if b.code = 0 then code else b.code) := by
  unfold Bcn.enterFault Bcn.mark Bcn.inFault
  by_cases h : b.code = 0
  · simp only [h, bne_self_eq_false, Bool.false_eq_true, ↓reduceIte]
    exact ⟨_, _, _, _, rfl, rfl⟩
  · simp only [bne_iff_ne.mpr h, h, ↓reduceIte]
    exact ⟨_, _, _, _, rfl, rfl⟩

/-- The fault state ends; the position stays (R56). -/
theorem endFault_shape (b : Bcn) : ∃ vn v r f res arcs, (b.endFault).1 = { b with
    code := 0, validNet := vn, valid := v, com := { b.com with restart := r }, inp := { b.inp with reref := f, resume := res }, arcs := arcs } ∧
    (b.code ≠ 0 → r = true) := by
  unfold Bcn.endFault Bcn.inFault
  by_cases h : b.code = 0
  · simp only [h, bne_self_eq_false, Bool.false_eq_true, ↓reduceIte]
    refine ⟨b.validNet, b.valid, b.com.restart, b.inp.reref, b.inp.resume, b.arcs, ?_, fun h => absurd rfl h⟩
    conv_lhs => rw [show b = { b with code := 0 } by rw [← h]]
  · simp only [bne_iff_ne.mpr h, ↓reduceIte]
    exact ⟨_, _, _, _, _, _, leaveGone_shape _, fun _ => rfl⟩

theorem jumpTo_shape (b : Bcn) (net : Int) (count : Nat) : ∃ still arcs, (b.jumpTo net count).1 = { b with
    net := net, count := count, validNet := net, valid := count, still := still, arcs := arcs } := by
  unfold Bcn.jumpTo
  dsimp only
  split
  · exact ⟨_, _, rfl⟩
  · split
    · exact ⟨_, _, rfl⟩
    · exact ⟨_, _, recheck_shape _⟩

/-- A Beacon Zero (R58). -/
theorem zeroEffect_facts (b : Bcn) (v count : Nat) :
    let u := (b.zeroEffect v count).1
    u.net = b.curEra * 16777215 + (min v 0xFFFFFE : Nat) ∧ u.count = count ∧ u.code = 0 ∧ u.armed = b.armed ∧ u.com.restart = true ∧
      u.com.lastCycle = none ∧ u.com.counted = [] := by
  obtain ⟨still, arcs, hj⟩ := jumpTo_shape b (b.curEra * 16777215 + (min v 0xFFFFFE : Nat)) count
  obtain ⟨_, _, _, _, _, _, he, _⟩ := endFault_shape (b.jumpTo (b.curEra * 16777215 + (min v 0xFFFFFE : Nat)) count).1
  rw [hj] at he
  have hu : (b.zeroEffect v count).1 = { (b.jumpTo (b.curEra * 16777215 + (min v 0xFFFFFE : Nat)) count).1.endFault.1 with
      inp := (b.zeroEffect v count).1.inp, com := (b.zeroEffect v count).1.com } := rfl
  dsimp only
  rw [hu, hj, he]
  exact ⟨rfl, rfl, rfl, rfl, rfl, rfl, rfl⟩

/-! The card around the unit. -/

theorem onlyPosition_refl (s : State) : OnlyPosition s s := ⟨rfl, rfl, rfl, fun _ => rfl⟩

theorem onlyPosition_trans {s t u : State} (h : OnlyPosition s t) (k : OnlyPosition t u) : OnlyPosition s u := by
  obtain ⟨h1, hm, hp, hn⟩ := h
  obtain ⟨k1, km, kp, kn⟩ := k
  refine ⟨?_, ?_, ?_, fun n => (kn n).trans (hn n)⟩
  · rw [k1, h1]
  · rw [km, hm]
  · rw [kp, hp]

theorem onlyPosition_setBcn (s : State) (b : Bcn) : OnlyPosition s { s with bcn := b } := ⟨rfl, rfl, rfl, fun _ => rfl⟩

theorem onlyPosition_setNow (s : State) (t : Nat) : OnlyPosition s { s with now := t } := ⟨rfl, rfl, rfl, fun _ => rfl⟩

theorem at_onlyPosition (s : State) (t : Nat) : OnlyPosition s (s.at_ t) :=
  onlyPosition_trans (onlyPosition_setNow s _) (follow_onlyPosition _)

theorem at_bcn_keep {α : Type} (p : Bcn → α) (h : ∀ b t ok net count, p (Bcn.move b t ok net count).1 = p b) (s : State) (t : Nat) :
    p (s.at_ t).bcn = p s.bcn := by
  unfold State.at_ State.follow
  split
  · rw [bcnApply_bcn]
    exact advance_keep p h ..
  · rfl

@[simp] theorem at_regs (s : State) (t : Nat) : (s.at_ t).bcn.regs = s.bcn.regs := at_bcn_keep Bcn.regs move_regs s t
@[simp] theorem at_loaded (s : State) (t : Nat) : (s.at_ t).bcn.loaded = s.bcn.loaded := at_bcn_keep Bcn.loaded move_loaded s t
@[simp] theorem at_inp (s : State) (t : Nat) : (s.at_ t).bcn.inp = s.bcn.inp := at_bcn_keep Bcn.inp move_inp s t
@[simp] theorem at_code (s : State) (t : Nat) : (s.at_ t).bcn.code = s.bcn.code := at_bcn_keep Bcn.code move_code s t

/-- A fault holds the position, so only the time changes (R56). -/
theorem at_of_fault {s : State} (h : s.bcn.code ≠ 0) (t : Nat) : s.at_ t = { s with now := max s.now t } := by
  simp [State.at_, State.follow, advance_of_fault h, bcnApply]

theorem native_of_onlyPosition {s u : State} (h : OnlyPosition s u) : u.native = s.native := by
  obtain ⟨_, _, hp, _⟩ := h
  rw [State.native, hp, State.native]

theorem beaconOn_of_onlyPosition {s u : State} (h : OnlyPosition s u) (hl : u.bcn.loaded = s.bcn.loaded) : u.beaconOn = s.beaconOn := by
  have hn := native_of_onlyPosition h
  obtain ⟨_, _, hp, _⟩ := h
  rw [State.beaconOn, hn, hl, hp, State.beaconOn]

theorem mode_congr {b c : Bcn} (h : b.regs = c.regs) : b.mode = c.mode := by rw [Bcn.mode, Bcn.mode, h]

theorem at_beaconOn (s : State) (t : Nat) : (s.at_ t).beaconOn = s.beaconOn :=
  beaconOn_of_onlyPosition (at_onlyPosition s t) (at_loaded s t)

theorem at_inMode (s : State) (t m : Nat) : (s.at_ t).inMode m = s.inMode m := by
  rw [State.inMode, at_beaconOn, mode_congr (at_regs s t), State.inMode]

theorem at_ssiOn (s : State) (t : Nat) : (s.at_ t).ssiOn = s.ssiOn := by
  have hp := (at_onlyPosition s t).2.2.1
  rw [State.ssiOn, at_inMode, hp, State.ssiOn]

/-- Outside the sampled modes no sample extrapolates (R34). -/
theorem not_extrapolates_of_mode {b : Bcn} (h2 : b.mode ≠ 2) (h3 : b.mode ≠ 3) : b.extrapolates = false := by
  simp [Bcn.extrapolates, Bcn.sloped, h2, h3]

theorem at_pos {s : State} (h : s.bcn.extrapolates = false) (t : Nat) : (s.at_ t).bcn.pos = s.bcn.pos := by
  rw [at_of_not_extrapolates s t h]

end Sys2Proof.Proofs
end

section
/-! Rows of the Beacon's inputs (R28, R34 to R43, R55, R56, R58). -/

namespace Sys2Proof.Proofs

open Sys2Proof Sys2Proof.Machine Sys2Proof.Laws

/-- One count: the position moves by one, and stays split as net cycle and count (R28). -/
theorem move_stepped (b : Bcn) (t : Nat) (ok rev : Bool) :
    let u := (b.move t ok (b.stepped rev).1 (b.stepped rev).2).1
    u.pos = b.pos + (if rev then -1 else 1) ∧ u.count < u.cpc ∧ u.regs = b.regs ∧ u.code = b.code ∧ u.seq = b.seq ∧
      u.still = false ∧ u.inp = b.inp := by
  obtain ⟨hpos, hcount⟩ := split_pos b (b.pos + if rev then -1 else 1)
  have hcpc : (b.move t ok (b.stepped rev).1 (b.stepped rev).2).1.cpc = b.cpc := by rw [Bcn.cpc, move_regs, Bcn.cpc]
  refine ⟨?_, ?_, move_regs .., move_code .., move_seq .., ?_, move_inp ..⟩
  · rw [Bcn.pos, hcpc, move_net, move_count]
    exact hpos
  · rw [hcpc, move_count]
    exact hcount
  · rw [move_still]
    have hne : (b.stepped rev).1 * (b.cpc : Int) + ((b.stepped rev).2 : Int) ≠ b.pos := by
      rw [Bcn.stepped, hpos]
      cases rev <;> simp
    simp [hne]

/-- A change of A or B that counts (R36). -/
theorem quadChange_counts {b : Bcn} {t : Nat} {q : QuadStep} (ok : Bool) (hq : q ≠ .both) (hl : ∀ l ∈ b.inp.lastCounted, l + 25 ≤ t) :
    let u := (b.quadChange t ok q).1
    u.pos = b.pos + (if (q == .reverse) != b.invert then -1 else 1) ∧ u.count < u.cpc ∧ u.regs = b.regs ∧ u.code = b.code ∧
      u.seq = b.seq ∧ u.still = false := by
  have hsoon : (b.inp.lastCounted.any fun l => decide (t < l + 25)) = false := by
    cases h : b.inp.lastCounted with
    | none => rfl
    | some l => exact decide_eq_false (Nat.not_lt.mpr (hl l h))
  unfold Bcn.quadChange
  dsimp only
  rw [if_neg (by simpa [hq] using hsoon)]
  obtain ⟨hpos, hcount, hregs, hcode, hseq, hstill, -⟩ := move_stepped { b with inp := _ } t ok ((q == .reverse) != b.invert)
  exact ⟨hpos, hcount, hregs, hcode, hseq, hstill⟩

/-- A change of both lines, or one too soon after the last count: ILLEGAL (R36, Table 2-9). -/
theorem quadChange_illegal {b : Bcn} {t : Nat} {q : QuadStep} (ok : Bool) (h : q = .both ∨ ∃ l ∈ b.inp.lastCounted, t < l + 25) :
    let u := (b.quadChange t ok q).1
    u.pos = b.pos ∧ u.code = (if b.code = 0 then 2 else b.code) ∧ bit u.sticky 6 = true := by
  have hbad : q = .both ∨ (b.inp.lastCounted.any fun l => decide (t < l + 25)) = true := by
    refine h.imp_right fun ⟨l, hl, hlt⟩ => ?_
    rw [Option.mem_def.mp hl]
    exact decide_eq_true hlt
  unfold Bcn.quadChange
  dsimp only
  rw [if_pos hbad]
  obtain ⟨c, vn, v, e, hf, hc⟩ := enterFault_shape { b with inp := { b.inp with phase := _ } } 2
  rw [hf]
  exact ⟨rfl, hc, bit_putBit_self _ _ (by decide)⟩

/-- One generated count (R35, R42). -/
theorem internal_counts (b : Bcn) (t : Nat) (ok : Bool) :
    let u := (b.internal t ok).1
    u.pos = b.pos + (if b.invert then -1 else 1) ∧ u.count < u.cpc ∧ u.code = b.code ∧ u.inp.rate = b.regs.intRate ∧ u.still = false := by
  obtain ⟨hpos, hcount, -, hcode, -, hstill, hinp⟩ := move_stepped
    { b with inp := { b.inp with lastEdge := some t, edgeRev := b.invert, rate := b.regs.intRate } } t ok b.invert
  exact ⟨hpos, hcount, hcode, congrArg BcnIn.rate hinp, hstill⟩

/-- In a mode without samples only the time changes before an input's event. -/
theorem at_of_inMode {s : State} {m : Nat} (h : s.inMode m = true) (hm : m < 2) (t : Nat) : s.at_ t = { s with now := max s.now t } := by
  have hmode : s.bcn.mode = m := by simpa using (Bool.and_elim_right h)
  exact at_of_not_extrapolates s t (not_extrapolates_of_mode (by omega) (by omega))

/-- Settles O35. -/
theorem countRows : Obligations.CountRows := by
  unfold Obligations.CountRows
  refine ⟨fun s t q hm hq hl => ?_, fun s t q hm hq => ?_, fun s t hm => ⟨fun hr => ?_, fun hr => ?_⟩, fun s hb hst => ?_,
    fun s t hm => ?_, fun s ho hlim => ?_⟩
  · have hrow := quadChange_counts s.commitOk hq hl
    refine ⟨_, next_settle (if_pos ((at_inMode s t 1).trans hm)), ?_⟩
    rw [at_of_inMode hm (by decide)]
    refine ⟨onlyPosition_of_time (bcnApply_onlyPosition _ _), bcnApply_now .., ?_⟩
    rw [bcnApply_bcn]
    exact hrow
  · have hrow := quadChange_illegal s.commitOk hq
    refine ⟨_, next_settle (if_pos ((at_inMode s t 1).trans hm)), ?_⟩
    rw [at_of_inMode hm (by decide)]
    refine ⟨onlyPosition_of_time (bcnApply_onlyPosition _ _), ?_⟩
    rw [bcnApply_bcn]
    exact hrow
  · have hrow := internal_counts s.bcn (max s.now t) s.commitOk
    refine ⟨_, next_settle (if_pos ?_), ?_⟩
    · rw [at_inMode, hm, at_inp]
      simpa using hr
    rw [at_of_inMode hm (by decide)]
    refine ⟨onlyPosition_of_time (bcnApply_onlyPosition _ _), ?_⟩
    rw [bcnApply_bcn]
    exact hrow
  · refine next_settle ((if_neg ?_).trans (at_of_inMode hm (by decide) t))
    rw [at_inp, hr]
    simp
  · refine next_settle ?_
    simp [hb, hst]
  · have hon : ((s.at_ t).inMode 2 || (s.at_ t).inMode 3) = true := by
      rw [at_inMode, at_inMode]
      simpa using hm
    refine ⟨{ (bcnApply ((s.at_ t).bcn.advance (s.at_ t).now (s.at_ t).commitOk) (s.at_ t)) with bcn := _ }, if_pos hon, ?_, rfl, fun hx => ?_⟩
    · exact onlyPosition_trans (at_onlyPosition s t) (onlyPosition_trans (bcnApply_onlyPosition _ _) (onlyPosition_setBcn _ _))
    · rw [at_of_not_extrapolates s t hx, advance_of_not_extrapolates _ _ _ hx, bcnApply_bcn]
      rfl
  · exact next_settle (if_pos (by rw [ho, decide_eq_true hlim]; rfl))

/-! Samples (R38 to R41). -/

/-- The first good sample after power-up places the count and ends the fault (R39, R59). -/
theorem sampleIn_first {b : Bcn} (t : Nat) (ok : Bool) (v : Nat) (h6 : b.code = 6) (hr : b.inp.reref = false) :
    let u := (b.sampleIn t ok v).1
    u.code = 0 ∧ u.count = b.sense v ∧ u.net = b.net ∧ u.inp.frame = b.inp.frame ∧ u.com.restart = true := by
  unfold Bcn.sampleIn
  dsimp only
  rw [if_pos ⟨h6, by simp [hr]⟩]
  have hplaced : ∃ st arcs, (if b.sense v = b.count then b else { b.adopted with count := b.sense v, still := false }) =
      { b with count := b.sense v, still := st, arcs := arcs } := by
    split
    · next h => exact ⟨b.still, b.arcs, by rw [h]⟩
    · exact ⟨_, _, rfl⟩
  obtain ⟨st, arcs, hp⟩ := hplaced
  rw [hp]
  obtain ⟨_, _, r, _, _, _, he, hrestart⟩ := endFault_shape
    (Bcn.noteSample { b with count := b.sense v, still := st, arcs := arcs } t { b with count := b.sense v, still := st, arcs := arcs }.pos)
  rw [he]
  exact ⟨rfl, rfl, rfl, rfl, hrestart (show b.code ≠ 0 by rw [h6]; decide)⟩

/-- A sample beyond BCN_JUMP: the JUMP fault, and the position stays (R41). -/
theorem sampleIn_jump {b : Bcn} (t : Nat) (ok : Bool) (v : Nat) (h0 : b.code = 0) (hr : b.inp.resume = false)
    (hw : b.within (shortest b.cpc (fmodNat b.anchor b.cpc) (b.sense v)) = false) :
    let u := (b.sampleIn t ok v).1
    u.code = 5 ∧ u.pos = b.pos ∧ bit u.sticky 3 = true := by
  unfold Bcn.sampleIn
  dsimp only
  rw [if_neg (by simp [h0]), hr, hw]
  obtain ⟨c, vn, w, e, hf, hc⟩ := enterFault_shape b 5
  simp only [Bool.false_and, Bool.false_eq_true, ↓reduceIte, Bool.not_false]
  rw [hf, hc, h0]
  exact ⟨rfl, rfl, bit_putBit_self _ _ (by decide)⟩

/-- The frame of a word has ended (R38). -/
def frameEnded (b : Bcn) : Bcn := { b with inp := { b.inp with frame := false } }

/-- A bad word more (R38). -/
def badWord (b : Bcn) : Bcn := { b.mark 4 with inp := { b.inp with errRun := b.inp.errRun + 1 } }

theorem ssiIn_eq (b : Bcn) (t : Nat) (ok : Bool) (w : W32) (c : BitVec 6) : b.ssiIn t ok w c =
    let x := (frameEnded b).advance t ok
    if x.1.wordGood w c then ((x.1.sampleIn t ok (x.1.wordValue w)).1, x.2 ++ (x.1.sampleIn t ok (x.1.wordValue w)).2)
    else (if x.1.errLimit ≤ x.1.inp.errRun + 1 then (badWord x.1).enterFault 4 else badWord x.1, x.2) := by
  unfold Bcn.ssiIn frameEnded
  generalize Bcn.advance _ t ok = x
  rfl

theorem wordGood_congr {b c : Bcn} (h : b.regs = c.regs) (w : W32) (k : BitVec 6) : b.wordGood w k = c.wordGood w k := by
  simp only [Bcn.wordGood, Bcn.wordBits, Bcn.ssiCheck, h]

theorem errLimit_congr {b c : Bcn} (h : b.regs = c.regs) : b.errLimit = c.errLimit := by
  rw [Bcn.errLimit, Bcn.errLimit, h]

theorem sense_congr {b c : Bcn} (h : b.regs = c.regs) (v : Nat) : b.sense v = c.sense v := by
  unfold Bcn.sense Bcn.cpc Bcn.invert
  rw [h]

theorem wordValue_congr {b c : Bcn} (h : b.regs = c.regs) (w : W32) : b.wordValue w = c.wordValue w := by
  unfold Bcn.wordValue Bcn.wordBits Bcn.gray
  rw [h]

theorem ssiIn_first {b : Bcn} {w : W32} {c : BitVec 6} (t : Nat) (ok : Bool) (hw : b.wordGood w c = true) (h6 : b.code = 6)
    (hr : b.inp.reref = false) :
    let u := (b.ssiIn t ok w c).1
    u.code = 0 ∧ u.count = b.sense (b.wordValue w) ∧ u.net = b.net ∧ u.inp.frame = false ∧ u.com.restart = true := by
  have hregs : (frameEnded b).regs = b.regs := rfl
  have hadv : (frameEnded b).advance t ok = (frameEnded b, []) := advance_of_fault (by rw [frameEnded, h6]; decide) t ok
  obtain ⟨hcode, hcount, hnet, hframe, hrestart⟩ := sampleIn_first (b := frameEnded b) t ok (b.wordValue w) h6 hr
  rw [ssiIn_eq, hadv]
  dsimp only
  rw [if_pos (by rw [wordGood_congr hregs, hw]), wordValue_congr hregs]
  exact ⟨hcode, hcount.trans (sense_congr hregs _), hnet, hframe, hrestart⟩

/-- A bad word is counted, and the limit of them is the SSI fault (R38, R39). -/
theorem ssiIn_bad {b : Bcn} {w : W32} {c : BitVec 6} (t : Nat) (ok : Bool) (hw : b.wordGood w c = false) :
    let u := (b.ssiIn t ok w c).1
    (b.extrapolates = false → u.pos = b.pos) ∧
    (b.inp.errRun + 1 < b.errLimit → u.code = b.code ∧ u.inp.errRun = b.inp.errRun + 1 ∧ bit u.sticky 4 = true) ∧
    (b.errLimit ≤ b.inp.errRun + 1 → u.code = if b.code = 0 then 4 else b.code) := by
  have hregs : ((frameEnded b).advance t ok).1.regs = b.regs := advance_keep Bcn.regs move_regs (frameEnded b) t ok
  have hcode : ((frameEnded b).advance t ok).1.code = b.code := advance_keep Bcn.code move_code (frameEnded b) t ok
  have hrun : ((frameEnded b).advance t ok).1.inp.errRun = b.inp.errRun :=
    advance_keep (fun b => b.inp.errRun) (fun b t ok net count => by rw [move_inp]) (frameEnded b) t ok
  have hpos : b.extrapolates = false → ((frameEnded b).advance t ok).1.pos = b.pos := fun h =>
    congrArg (fun x : Bcn × List BcnEvent => x.1.pos) (advance_of_not_extrapolates (frameEnded b) t ok h)
  rw [ssiIn_eq]
  generalize (frameEnded b).advance t ok = x at *
  dsimp only
  rw [if_neg (by simp [wordGood_congr hregs, hw]), errLimit_congr hregs, hrun]
  dsimp only
  obtain ⟨k, vn, v, e, hf, hk⟩ := enterFault_shape (badWord x.1) 4
  refine ⟨fun h => ?_, fun h => ?_, fun h => ?_⟩
  · rw [← hpos h]
    split
    · rw [hf]; rfl
    · rfl
  · rw [if_neg (Nat.not_le.mpr h)]
    exact ⟨hcode, by rw [← hrun]; rfl, bit_putBit_self _ _ (by decide)⟩
  · rw [if_pos h, hf, hk, ← hcode]
    rfl

/-! Registers of the Beacon (R44, R58). -/

/-- Where a register of the Beacon can be written, an access is that write. -/
theorem access_beacon {s : State} {a : Actor} {reg : Nat} (h : CanWrite a reg s) (hg : reg / 256 = 2) (t : Nat) (v : W32) :
    access t a reg v s = writeBeacon t reg v s := by
  have hmirror : mirrorOf reg = none := by
    rw [mirrorOf, if_neg (by omega), if_neg (by omega), if_neg (by omega)]
  have hreach : reachMirror reg s = s := by rw [reachMirror, hmirror]; rfl
  have hw : (regWrite t a reg v s).2 = writeBeacon t reg v s := by
    unfold regWrite
    rw [h.stat]
    simp only [ne_eq, not_true_eq_false, ↓reduceIte, hreach, hg]
    rfl
  rw [access, if_pos h.ready, hw]

theorem native_of_beaconOn {s : State} (h : s.beaconOn = true) : s.native = true :=
  Bool.and_elim_right (Bool.and_elim_left h)

theorem compat_of_native {s : State} (h : s.native = true) : s.compat = false := by
  have hm : s.pwr.mode = .native := by simpa [State.native] using h
  simp [State.compat, hm]

/-- BCN_CTL with one of its bits (R55, R58). -/
theorem writeBeacon_ctl {s : State} (h : s.native = true) (t : Nat) (v : W32) : writeBeacon t 0x0207 v s = bcnCtl v s := by
  simp [writeBeacon, compat_of_native h]

theorem resume_row {s : State} {a : Actor} (hw : CanWrite a 0x0207 s) (hn : s.native = true) (hb : s.beaconOn = true) :
    exec (.resume a) s = .next (settle (bcnApply s.bcn.endFault s)) := by
  refine next_settle ?_
  rw [access_beacon hw (by decide), writeBeacon_ctl hn]
  simp [bcnCtl, bit, bcnResume, hb]

theorem zeroNow_row {s : State} {a : Actor} (hw : CanWrite a 0x0207 s) (hn : s.native = true) (hb : s.beaconOn = true) :
    exec (.zeroNow a) s = .next (settle (bcnApply (s.bcn.zeroNow s.bcn.regs.zeroCyc.toNat) s)) := by
  refine next_settle ?_
  rw [access_beacon hw (by decide), writeBeacon_ctl hn]
  simp [bcnCtl, bit, bcnZeroNow, hb]

theorem zeroArm_row {s : State} {a : Actor} (hw : CanWrite a 0x0207 s) (hn : s.native = true) (hb : s.beaconOn = true) :
    exec (.zeroArm a) s = .next (settle (bcnApply (s.bcn.zeroArrives s.bcn.regs.zeroCyc.toNat) s)) := by
  refine next_settle ?_
  rw [access_beacon hw (by decide), writeBeacon_ctl hn]
  simp [bcnCtl, bit, bcnZeroArm, hb]

/-- A bus-fed count (R40). -/
theorem bcnFeed_row {s : State} {t : Nat} {a : Actor} (v : W32) (hw : CanWrite a 0x0206 (s.at_ t)) (hb : s.beaconOn = true)
    (hm : s.bcn.mode = 3) (hx : s.bcn.extrapolates = false ∨ s.bcn.code ≠ 0) :
    exec (.bcnFeed t a v) s = .next (settle (bcnApply (s.bcn.sampleIn (max s.now t) s.commitOk v.toNat) { s with now := max s.now t })) := by
  have hat : s.at_ t = { s with now := max s.now t } := hx.elim (at_of_not_extrapolates s t) (at_of_fault · t)
  have hadv : ∀ ok, s.bcn.advance (max s.now t) ok = (s.bcn, []) := fun ok =>
    hx.elim (advance_of_not_extrapolates _ _ _) (advance_of_fault · _ _)
  refine next_settle ?_
  rw [hat] at hw
  rw [hat, access_beacon hw (by decide)]
  have hn := compat_of_native (native_of_beaconOn hb)
  have hb' : State.beaconOn { s with now := max s.now t } = true := hb
  have hc' : State.compat { s with now := max s.now t } = false := hn
  have hself := bcnApply_self { s with now := max s.now t }
  dsimp only at hself
  simp only [writeBeacon, hc', Bool.false_eq_true, ↓reduceIte, bcnFeed, hb', hm, Bool.not_true, bne_self_eq_false, Bool.or_self,
    hadv, hself, Nat.reduceEqDiff]
  rfl

/-- A word arrives (R38). -/
theorem ssiWord_row {s : State} (t : Nat) (w : W32) (c : BitVec 6) (hs : s.ssiOn = true) (hf : s.bcn.master = true → s.bcn.inp.frame = true) :
    exec (.ssiWord t w c) s = .next (settle (bcnApply ((s.at_ t).bcn.ssiIn (s.at_ t).now (s.at_ t).commitOk w c) (s.at_ t))) := by
  refine next_settle (if_pos ?_)
  have hmaster : (s.at_ t).bcn.master = s.bcn.master := by rw [Bcn.master, at_regs, Bcn.master]
  rw [at_ssiOn, hs, hmaster, at_inp]
  cases hm : s.bcn.master
  · rfl
  · rw [hf hm]; rfl

theorem endFault_count_code (b : Bcn) : (b.endFault).1.count = b.count ∧ (b.endFault).1.code = 0 ∧ (b.endFault).1.pos = b.pos ∧
    (b.code ≠ 0 → (b.endFault).1.com.restart = true) := by
  obtain ⟨_, _, _, _, _, _, he, hr⟩ := endFault_shape b
  rw [he]
  exact ⟨rfl, rfl, rfl, hr⟩

/-- The index event that re-references the count (R37). -/
theorem index_rereferences {b : Bcn} (t : Nat) (ok : Bool) (ha : b.armed = false) (h2 : b.indexMode = 2) :
    (b.index t ok).1.count = 0 ∧ (b.index t ok).1.code = 0 := by
  unfold Bcn.index
  rw [if_neg (by simp [ha]), h2]
  dsimp only
  obtain ⟨hcount, hcode, -⟩ := endFault_count_code
    (Bcn.move (if b.indexTol < b.offZero then b.mark 3 else b) t ok (if b.cpc ≤ 2 * b.count then b.net + 1 else b.net) 0).1
  exact ⟨hcount.trans (move_count ..), hcode⟩

/-- The index event that only checks the count (R37). -/
theorem index_checks {b : Bcn} (t : Nat) (ok : Bool) (ha : b.armed = false) (h1 : b.indexMode = 1) :
    b.index t ok = if b.indexTol < b.offZero then (b.enterFault 3, []) else (b, []) := by
  unfold Bcn.index
  rw [if_neg (by simp [ha]), h1]
  rfl

theorem indexEvent_row {s : State} (t : Nat) (hm : s.inMode 1 = true) :
    exec (.indexEvent t) s = .next (settle (bcnApply (s.bcn.index (max s.now t) s.commitOk) { s with now := max s.now t })) := by
  refine next_settle ((if_pos ((at_inMode s t 1).trans hm)).trans ?_)
  rw [at_of_inMode hm (by decide)]
  rfl

/-- Settles O36. -/
theorem sampleRows : Obligations.SampleRows := by
  unfold Obligations.SampleRows
  refine ⟨fun s hs hm t => ⟨fun hx => ?_, ?_⟩, fun s t w c hs hf => ⟨fun hw h6 hr => ?_, fun hw hlt => ?_, fun hw hle => ?_⟩,
    fun s t a v hw hb hm => ⟨fun h6 hr => ?_, fun h0 hx hr hj => ?_⟩, fun s p hb hp => ?_,
    fun s t hm ha => ⟨fun h1 htol => ?_, fun h1 htol h0 => ?_, fun h2 => ?_⟩, fun s a hw hn hb h0 => ?_,
    fun b c h => ?_, fun b h t free => ?_⟩
  case refine_1 =>
    refine next_settle ((if_pos ?_).trans ?_)
    · rw [at_ssiOn, hs, Bcn.master, at_regs]
      exact hm
    · rw [at_of_not_extrapolates s t hx]
  case refine_2 =>
    refine ⟨_, next_settle (if_pos ?_), onlyPosition_trans (at_onlyPosition s t) (onlyPosition_setBcn _ _), at_now s t, rfl⟩
    rw [at_ssiOn, hs, Bcn.master, at_regs]
    exact hm
  case refine_3 =>
    have hrow := ssiIn_first (max s.now t) s.commitOk hw h6 hr
    refine ⟨_, ssiWord_row t w c hs hf, ?_⟩
    rw [at_of_fault (by rw [h6]; decide)]
    refine ⟨onlyPosition_of_time (bcnApply_onlyPosition _ _), ?_⟩
    rw [bcnApply_bcn]
    exact hrow
  case refine_4 =>
    obtain ⟨hpos, hlow, -⟩ := ssiIn_bad (s.at_ t).now (s.at_ t).commitOk ((wordGood_congr (at_regs s t) w c).trans hw)
    obtain ⟨hcode, hrun, hbit⟩ := hlow (by rw [at_inp, errLimit_congr (at_regs s t)]; exact hlt)
    refine ⟨_, ssiWord_row t w c hs hf, onlyPosition_trans (at_onlyPosition s t) (bcnApply_onlyPosition _ _), fun hx => ?_, ?_, ?_, ?_⟩ <;>
      rw [bcnApply_bcn]
    · exact (hpos (by rw [at_of_not_extrapolates s t hx]; exact hx)).trans (at_pos hx t)
    · exact hcode.trans (at_code s t)
    · rw [hrun, at_inp]
    · exact hbit
  case refine_5 =>
    obtain ⟨hpos, -, hhigh⟩ := ssiIn_bad (s.at_ t).now (s.at_ t).commitOk ((wordGood_congr (at_regs s t) w c).trans hw)
    have hcode := hhigh (by rw [at_inp, errLimit_congr (at_regs s t)]; exact hle)
    refine ⟨_, ssiWord_row t w c hs hf, onlyPosition_trans (at_onlyPosition s t) (bcnApply_onlyPosition _ _), fun hx => ?_, ?_⟩ <;>
      rw [bcnApply_bcn]
    · exact (hpos (by rw [at_of_not_extrapolates s t hx]; exact hx)).trans (at_pos hx t)
    · rw [hcode, at_code]
  case refine_6 =>
    obtain ⟨hcode, hcount, -⟩ := sampleIn_first (max s.now t) s.commitOk v.toNat h6 hr
    refine ⟨_, bcnFeed_row v hw hb hm (.inr (by rw [h6]; decide)), onlyPosition_of_time (bcnApply_onlyPosition _ _), ?_⟩
    rw [bcnApply_bcn]
    exact ⟨hcode, hcount⟩
  case refine_7 =>
    have hrow := sampleIn_jump (max s.now t) s.commitOk v.toNat h0 hr hj
    refine ⟨_, bcnFeed_row v hw hb hm (.inl hx), onlyPosition_of_time (bcnApply_onlyPosition _ _), ?_⟩
    rw [bcnApply_bcn]
    exact hrow
  case refine_8 =>
    obtain ⟨c, vn, v, e, hf, hc⟩ := enterFault_shape s.bcn 1
    refine ⟨_, next_settle (if_pos (by rw [hb, hp]; rfl)), bcnApply_onlyPosition _ _, ?_⟩
    rw [bcnApply_bcn, hf]
    exact ⟨rfl, hc, bit_putBit_self _ _ (by decide)⟩
  case refine_9 =>
    rw [indexEvent_row t hm, index_checks _ _ ha h1, if_neg (Nat.not_lt.mpr htol)]
    exact congrArg (fun u => Host.Outcome.next (settle u)) (bcnApply_self { s with now := max s.now t })
  case refine_10 =>
    obtain ⟨c, vn, v, e, hf, hc⟩ := enterFault_shape s.bcn 3
    refine ⟨_, indexEvent_row t hm, onlyPosition_of_time (bcnApply_onlyPosition _ _), ?_⟩
    rw [bcnApply_bcn, index_checks _ _ ha h1, if_pos htol, hf, hc, if_pos h0]
    exact ⟨rfl, rfl⟩
  case refine_11 =>
    refine ⟨_, indexEvent_row t hm, onlyPosition_of_time (bcnApply_onlyPosition _ _), ?_⟩
    rw [bcnApply_bcn]
    exact index_rereferences _ _ ha h2
  case refine_12 =>
    obtain ⟨-, hcode, hpos, hrestart⟩ := endFault_count_code s.bcn
    refine ⟨_, resume_row hw hn hb, bcnApply_onlyPosition _ _, ?_⟩
    rw [bcnApply_bcn]
    exact ⟨hcode, hpos, hrestart h0⟩
  case refine_13 =>
    simp [Bcn.enterFault, Bcn.inFault, Bcn.mark, h]
  case refine_14 =>
    simp [Bcn.stamp, Bcn.inFault, Bcn.faultStamp, h]

end Sys2Proof.Proofs
end

section
/-! The registers of the Beacon and the Arcs (R28, R42, R44, R45, R49, R51, R58). -/

namespace Sys2Proof.Proofs

open Sys2Proof Sys2Proof.Machine Sys2Proof.Laws

/-! Beacon Zero (R58). -/

/-- The count that a Beacon Zero leaves: 0 in the quadrature and Internal modes. -/
theorem zeroNow_eq (b : Bcn) (v : Nat) : b.zeroNow v = b.zeroEffect v (if b.mode = 0 ∨ b.mode = 1 then 0 else b.count) := by
  unfold Bcn.zeroNow
  split
  · next h => rw [if_pos (.inr h)]
  · next h => rw [if_pos (.inl h)]
  · next h1 h0 => rw [if_neg (by rintro (h | h) <;> contradiction)]

theorem zeroArrives_armed {b : Bcn} (h : b.mode = 1) (v : Nat) :
    b.zeroArrives v = ({ b with armed := true, armVal := min v 0xFFFFFE }, []) := by
  rw [Bcn.zeroArrives, h]
  rfl

theorem index_armed {b : Bcn} (t : Nat) (ok : Bool) (h : b.armed = true) :
    b.index t ok = { b with armed := false }.zeroEffect b.armVal 0 := by
  rw [Bcn.index, if_pos h]

/-! Writes of registers. -/

/-- The bits whose change is the RECONFIG fault lie above the reserved ones (R45). -/
theorem reconfigBits (v c : W32) : ((v &&& 0xFFFFC000) ^^^ c) &&& 0xFF000000 = (v ^^^ c) &&& 0xFF000000 := by
  ext i hi
  simp only [BitVec.getElem_and, BitVec.getElem_xor]
  interval_cases i <;> simp

theorem writeCfg_same {b : Bcn} {v : W32} (h : (v ^^^ b.regs.cfg) &&& 0xFF000000 = 0) :
    b.writeCfg v = { b with regs := { b.regs with cfg := v &&& 0xFFFFC000 } } := by
  unfold Bcn.writeCfg
  dsimp only
  rw [reconfigBits, if_pos h]

theorem writeCfg_reconfig {b : Bcn} {v : W32} (h : (v ^^^ b.regs.cfg) &&& 0xFF000000 ≠ 0) (h0 : b.code = 0) :
    let u := b.writeCfg v
    u.code = 7 ∧ u.regs.cfg = v &&& 0xFFFFC000 ∧ u.net = b.net ∧ u.count = b.count := by
  obtain ⟨c, vn, w, e, hf, hc⟩ := enterFault_shape { b with regs := { b.regs with cfg := v &&& 0xFFFFC000 } } 7
  have h7 : c = 7 := hc.trans (if_pos h0)
  unfold Bcn.writeCfg
  dsimp only
  rw [reconfigBits, if_neg h, hf, h7]
  split <;> exact ⟨rfl, rfl, rfl, rfl⟩

theorem writeCfg_cfg (b : Bcn) (v : W32) : (b.writeCfg v).regs.cfg = v &&& 0xFFFFC000 := by
  unfold Bcn.writeCfg
  dsimp only
  split
  · rfl
  · obtain ⟨c, vn, w, e, hf, -⟩ := enterFault_shape { b with regs := { b.regs with cfg := v &&& 0xFFFFC000 } } 7
    rw [hf]
    split <;> rfl

theorem writeCpc_reconfig {b : Bcn} {v : W32} (h : storedCpc v ≠ b.regs.cpc) (h0 : b.code = 0) :
    let u := b.writeCpc v
    u.code = 7 ∧ u.count = b.count % u.cpc ∧ u.net = b.net := by
  obtain ⟨c, vn, w, e, hf, hc⟩ := enterFault_shape b 7
  have h7 : c = 7 := hc.trans (if_pos h0)
  have hu : b.writeCpc v = _ := if_neg h
  dsimp only
  rw [hu, hf, h7]
  exact ⟨rfl, rfl, rfl⟩

/-- CPC after a write, at least 16 (R28). -/
theorem cpc_of_stored {b : Bcn} {v : W32} (h : b.regs.cpc = storedCpc v) : b.cpc = max 16 (v.toNat + 1) := by
  rw [Bcn.cpc, h, storedCpc]
  split
  · next hv => simp only [BitVec.reduceToNat]; omega
  · next hv => omega

/-- A write of BCN_INT_RATE in native mode (R42). -/
theorem writeRate_facts (b : Bcn) (t : Nat) (v : W32) :
    let u := b.writeRate t v
    u = { b with regs := u.regs, inp := u.inp } ∧ u.regs = { b.regs with intRate := storeRate v } ∧
      (b.mode = 0 ∧ b.loaded = true ∧ b.inp.rate ≠ 0 → u.inp = b.inp) := by
  unfold Bcn.writeRate
  dsimp only
  split
  · exact ⟨rfl, rfl, fun _ => rfl⟩
  · next h => exact ⟨rfl, rfl, fun k => absurd k h⟩

theorem vmod_get {α : Type} {k : Nat} (v : Vector α k) (f : α → α) (n : Fin k) : (vmod v n.val f)[n] = f v[n] := by
  simp [vmod, n.isLt]

theorem vmod_get_ne {α : Type} {k : Nat} (v : Vector α k) (f : α → α) {i : Nat} (m : Fin k) (h : m.val ≠ i) : (vmod v i f)[m] = v[m] := by
  unfold vmod
  split
  · simp [Vector.getElem_set_ne, Ne.symm h]
  · rfl

/-- A write of ARC_START_n (R49). -/
theorem putArc_start (b : Bcn) (n : Fin 64) (v : W32) :
    b.putArc (0x0240 + n.val) v = { b with arcs := vmod b.arcs n.val fun a => { a with start := v } } := by
  unfold Bcn.putArc
  dsimp only
  rw [show (0x0240 + n.val) % 64 = n.val by omega]
  simp only [show 0x0240 + n.val < 0x0280 by omega, ↓reduceIte]

/-- Setting EN from 0 to 1 is a restart event (R51). -/
theorem writeCommitCtl_com (b : Bcn) (v : W32) :
    (b.writeCommitCtl v).com = { b.com with restart := b.com.restart || (bit v 31 && !b.commitEn) } := by
  have hbit : bit (v &&& 0x8000FFFF) 31 = bit v 31 := by simp [bit]
  unfold Bcn.writeCommitCtl
  dsimp only
  rw [hbit]
  cases bit v 31 && !b.commitEn <;> simp

/-! The rows. -/

theorem bcnConfig_row {s : State} {a : Actor} (hw : CanWrite a 0x0200 s) (hn : s.native = true) (v : W32) :
    exec (.bcnConfigWrite a false v) s = .next (settle (bcnApply (s.bcn.writeCfg v, []) s)) := by
  refine next_settle ((access_beacon hw (by decide) s.now v).trans ?_)
  simp [writeBeacon, compat_of_native hn]

theorem bcnCommitCtl_row {s : State} {a : Actor} (hw : CanWrite a 0x0211 s) (hn : s.native = true) (v : W32) :
    exec (.bcnCommitCtlWrite a v) s = .next (settle { s with bcn := s.bcn.writeCommitCtl v }) := by
  refine next_settle ((access_beacon hw (by decide) s.now v).trans ?_)
  simp [writeBeacon, compat_of_native hn]

theorem bcnIntRate_row {s : State} {a : Actor} (hw : CanWrite a 0x0205 s) (v : W32) :
    exec (.bcnIntRateWrite a v) s =
      .next (settle { s with bcn := if s.compat then s.bcn.putReg 0x0205 v else s.bcn.writeRate s.now v }) := by
  refine next_settle ((access_beacon hw (by decide) s.now v).trans ?_)
  by_cases hc : s.compat = true
  · simp [writeBeacon, hc, Bcn.storeOnly]
  · simp [writeBeacon, hc]

theorem arcRegister_row {s : State} {a : Actor} (n : Fin 64) (hw : CanWrite a (0x0240 + n.val) s) (v : W32) :
    exec (.arcRegisterWrite a (BitVec.ofNat 16 (0x0240 + n.val)) v) s = .next (settle { s with bcn := s.bcn.putArc (0x0240 + n.val) v }) := by
  have hreg : (BitVec.ofNat 16 (0x0240 + n.val)).toNat = 0x0240 + n.val := by
    rw [BitVec.toNat_ofNat]
    omega
  refine next_settle ?_
  rw [hreg, if_pos (by omega), access_beacon hw (by omega)]
  have hlow : ∀ k, k < 0x0240 → 0x0240 + n.val ≠ k := by omega
  by_cases hc : s.compat = true
  · simp [writeBeacon, hc, Bcn.storeOnly, hlow]
  · simp [writeBeacon, hc, hlow]

/-- In a fault state the stamp holds its last valid count and the code (R29), and its read latches it (R44). -/
theorem stampRead_row {s : State} {a : Actor} (t : Nat) (hr : s.regReady 0x0209 = true) (ha : s.regAllowed a 0x0209 = statOk)
    (h0 : s.bcn.code ≠ 0) :
    exec (.bcnStampLoRead t a) s = .next (settle { s with
      now := max s.now t, fresh := s.fresh + 1, bcn := { s.bcn with latch := mkStamp 0xFFFFFF s.bcn.valid s.bcn.code } }) := by
  refine next_settle ?_
  rw [at_of_fault h0]
  have hready : State.regReady { s with now := max s.now t } 0x0209 = true := hr
  have hallowed : State.regAllowed { s with now := max s.now t } a 0x0209 = statOk := ha
  have hstat : regStat a 1 0x0209 { s with now := max s.now t } = (statOk, { s with now := max s.now t }) := by
    unfold regStat
    dsimp only
    rw [hallowed, if_neg (by simp), if_neg (by simp), show mirrorOf 0x0209 = none from rfl]
  have hself := bcnApply_self { s with now := max s.now t }
  dsimp only at hself ⊢
  rw [if_pos hready]
  unfold regRead
  rw [hstat]
  simp only [ne_eq, not_true_eq_false, ↓reduceIte, stampNow, advance_of_fault h0, hself, ite_self, State.take, Bcn.stamp, Bcn.inFault,
    bne_iff_ne.mpr h0, Bcn.faultStamp]

/-- Settles O37. -/
theorem beaconRegisterRows : Obligations.BeaconRegisterRows := by
  unfold Obligations.BeaconRegisterRows
  refine ⟨⟨fun s a hw hn hb => ?_, fun s a hw hn hb hm => ?_, fun s t hm ha => ?_⟩, fun s a v hw hn => ⟨fun hs => ?_, fun hd h0 => ?_⟩,
    fun s a v hw hn h0 hd => ?_, fun s a v hw => ?_, fun s a n v hw => ?_, fun s a v hw hn => ?_, fun s a t hr ha h0 => ?_⟩
  · obtain ⟨hnet, hcount, hcode, harmed, hrestart, hlast, hcounted⟩ := zeroEffect_facts s.bcn s.bcn.regs.zeroCyc.toNat
      (if s.bcn.mode = 0 ∨ s.bcn.mode = 1 then 0 else s.bcn.count)
    refine ⟨_, zeroNow_row hw hn hb, bcnApply_onlyPosition _ _, ?_⟩
    rw [bcnApply_bcn, zeroNow_eq]
    exact ⟨hnet, hcount, hcode, harmed, hrestart, hlast, hcounted⟩
  · refine ⟨_, zeroArm_row hw hn hb, bcnApply_onlyPosition _ _, ?_⟩
    rw [bcnApply_bcn, zeroArrives_armed hm]
  · obtain ⟨hnet, hcount, -, harmed, -⟩ := zeroEffect_facts { s.bcn with armed := false } s.bcn.armVal 0
    refine ⟨_, indexEvent_row t hm, onlyPosition_of_time (bcnApply_onlyPosition _ _), ?_⟩
    rw [bcnApply_bcn, index_armed _ _ ha]
    exact ⟨harmed, hcount, hnet⟩
  · refine ⟨_, bcnConfig_row hw hn v, bcnApply_onlyPosition _ _, ?_⟩
    rw [bcnApply_bcn, writeCfg_same hs]
  · refine ⟨_, bcnConfig_row hw hn v, bcnApply_onlyPosition _ _, ?_⟩
    rw [bcnApply_bcn]
    exact writeCfg_reconfig hd h0
  · have hne : storedCpc v ≠ s.bcn.regs.cpc := by
      intro h
      apply hd
      rw [← h, storedCpc]
      split <;> rfl
    obtain ⟨hcode, hcount, hnet⟩ := writeCpc_reconfig hne h0
    refine ⟨_, exec_bcnConfigWrite_cpc hw v, ?_⟩
    rw [writeBeacon_cpc, compat_of_native hn]
    refine ⟨bcnApply_onlyPosition _ _, ?_⟩
    simp only [Bool.false_eq_true, ↓reduceIte, bcnApply_bcn]
    exact ⟨hcode, cpc_of_stored (writeCpc_regs_cpc _ v), hcount, hnet⟩
  · refine ⟨_, bcnIntRate_row hw v, rfl, ?_⟩
    dsimp only
    obtain ⟨hshape, hregs, hkept⟩ := writeRate_facts s.bcn s.now v
    cases hc : s.compat
    · exact ⟨hshape, hregs, fun h => hkept (h.resolve_left (by decide))⟩
    · exact ⟨rfl, rfl, fun _ => rfl⟩
  · refine ⟨_, arcRegister_row n hw v, ?_⟩
    rw [putArc_start]
    exact ⟨rfl, vmod_get _ _ n, fun m hm => vmod_get_ne _ _ m (fun h => hm (Fin.ext h))⟩
  · exact ⟨_, bcnCommitCtl_row hw hn v, rfl, rfl, writeCommitCtl_com s.bcn v⟩
  · exact stampRead_row t hr ha h0

end Sys2Proof.Proofs
end

section
/-! Emits, moves, Tally and unit calls, and the rows of the Beacon: what each has done where it acts (R28 to R58, R235 to R240). -/

namespace Sys2Proof.Proofs

open Sys2Proof Sys2Proof.Machine Sys2Proof.Laws

/-! The Stall after an instruction. -/

section
variable (s : State) {n : Nat} (k : Nat) (f : Stall → Stall) (hn : n < 64)
include hn

theorem moves_ran : ((s.ran n k f).stall n).moves = (f (s.stall n)).moves := by
  rw [State.ran, stall_modStall_self _ _ _ hn]
  rfl

theorem undef_ran : ((s.ran n k f).stall n).undef = (f (s.stall n)).undef := by
  rw [State.ran, stall_modStall_self _ _ _ hn]
  rfl

theorem call_ranTo : ((s.ranTo n k f).stall n).call = (f (s.stall n)).call := by
  rw [State.ranTo, stall_modStall_self _ _ _ hn]
  rfl

theorem stall_waited : ∃ j, (waited n s).stall n = (s.stall n).pass j :=
  ⟨_, stall_modStall_self s.take.2 n _ hn⟩

theorem moves_startMove_waited (m : MoveKind) :
    ∃ x, ((startMove n m (waited n s)).stall n).moves = (s.stall n).moves ++ [x] ∧ x.kind = m := by
  obtain ⟨j, hj⟩ := stall_waited s hn
  refine ⟨⟨((waited n s).stall n).nextMove, m, (waited n s).acc.epoch⟩,
    (congrArg Stall.moves (stall_modStall_self _ _ _ hn)).trans ?_, rfl⟩
  rw [hj]
  rfl

end

theorem moves_emitRecord_waited (s : State) {n : Nat} (out : Nat) (hn : n < 64) :
    ∃ x, ((emitRecord n out (waited n s)).stall n).moves = (s.stall n).moves ++ [x] ∧
      x.kind = .emitRecord (((s.stall n).lots[0]?).getD 0) (s.stall n).rec_ out := by
  obtain ⟨j, hj⟩ := stall_waited s hn
  have hmoves : ((emitRecord n out (waited n s)).stall n).moves = _ := congrArg Stall.moves (stall_modStall_self _ _ _ hn)
  obtain ⟨x, hx, hk⟩ := moves_startMove_waited s hn
    (.emitRecord (((waited n s).stall n).lots[0]?.getD 0) ((waited n s).stall n).rec_ out)
  refine ⟨x, hmoves.trans hx, ?_⟩
  rw [hk, hj]
  rfl

theorem lot_of_curLot {s : State} {n : Nat} {l : Lot} (h : s.curLot n = some l) : s.lot l.id = some l := by
  obtain ⟨k, -, hk⟩ := Option.bind_eq_some_iff.mp h
  rw [lot_id hk, hk]

/-- An update held in a Lot for an index of its Tally is found there (R236). -/
theorem tally_modLot {s : State} {l : Lot} (i : Nat) (x : Nat × W64) (h : s.lot l.id = some l) :
    ((s.modLot l.id fun l => { l with tally := put l.tally i x }).lot l.id).map (fun l => look l.tally i) = some (some x) := by
  have hlot := lot_modLot_self (f := fun l => { l with tally := put l.tally i x }) h (fun _ => rfl)
  rw [hlot]
  exact congrArg some (look_put_self _ _ _)

/-- Settles O60, from the rows of O36, O37 and O45. -/
theorem movesAndPositionAct : Obligations.MovesAndPositionAct := by
  unfold Obligations.MovesAndPositionAct
  have hmoves := moveRows
  have hsamples := sampleRows
  have hregs := beaconRegisterRows
  unfold Obligations.MoveRows at hmoves
  unfold Obligations.SampleRows at hsamples
  unfold Obligations.BeaconRegisterRows at hregs
  obtain ⟨hframe, hword, hfeed, hline, hindex, hresume, -, -⟩ := hsamples
  obtain ⟨⟨hzeroNow, hzeroArm, -⟩, hcfg, -, hrate, harc, hcommit, hstamp⟩ := hregs
  refine ⟨fun s n => ?_, fun s t hs hm hx => ?_, fun s t w k hs hf hw h6 hr => ?_, fun s t a v hw hb hm h6 hr => ?_, fun s p hb hp => ?_,
    fun s t hm ha h2 => ?_, fun s a hw hn hb => ⟨fun h0 => ?_, ?_, fun hm => ?_⟩,
    fun s a v hn => ⟨fun hw => ?_, fun hw => ?_, fun hw => ?_, fun k hw => ?_⟩, fun s a t hr ha h0 => ?_⟩
  · obtain ⟨hemitr, hemitm, hpmov, hbarrier, htally, hucall⟩ := hmoves s n
    have hn := n.isLt
    refine ⟨fun f r hh hd ha hb hf he hc => ?_, fun f h r hh hd h3 h9 h14 hl h32 hmax he hload hv ht hc => ?_,
      fun f card loc len r hcard hloc hlen hf hl hc64 hl64 h64 hmax hc => ?_, fun f r hz ho hm => ?_,
      fun f l p r hh hd hf hl hp hi ht => ?_, fun f r hh hd ha hb hf h5 => ?_⟩
    · obtain ⟨x, hx, hk⟩ := moves_emitRecord_waited s f.fn.toNat hn
      exact ⟨_, x, (hemitr f r hh hd ha hb hf).2.2 he hc, (moves_ran _ _ _ hn).trans hx, hk⟩
    · obtain ⟨x, hx, hk⟩ := moves_startMove_waited s hn (.emitMemory (((s.stall n.val).lots[0]?).getD 0) (s.stall n.val).rec_ (fld f.fn 1 0)
        ((s.stall n.val).reg f.a).toNat (s.peekLocal n.val ((s.stall n.val).reg f.a).toNat ((s.stall n.val).reg f.b).toNat))
      obtain ⟨-, hgood⟩ := hemitm f _ _ _ _ r hh hd h3 h9 rfl h14 rfl rfl rfl
      obtain ⟨-, hrow⟩ := hgood (some h) hl h32 hmax he hload
      exact ⟨_, x, (hrow (by simp [hv, ht])).2 hc, (moves_ran _ _ _ hn).trans hx, hk⟩
    · obtain ⟨-, hgood⟩ := hpmov f card loc len r hcard hloc hlen hf
      obtain ⟨hto, hfrom⟩ := hgood hl hc64 hl64 h64 hmax hc
      by_cases h0 : f.fn = 0
      · obtain ⟨x, hx, hk⟩ := moves_startMove_waited s hn (.toCard loc card (s.peekLocal n.val loc len))
        exact ⟨_, x, hto h0, (moves_ran _ _ _ hn).trans hx, hk.trans (if_pos h0).symm⟩
      · obtain ⟨x, hx, hk⟩ := moves_startMove_waited s hn (.fromCard loc card len)
        have h1 : f.fn = 1 := by bv_omega
        exact ⟨_, x, hfrom h1, (moves_ran _ _ _ hn).trans hx, hk.trans (if_neg h0).symm⟩
    · obtain ⟨j, hj⟩ := stall_waited s hn
      refine ⟨_, (hbarrier f r hz ho).1 hm, undef_ran _ _ _ hn, (moves_ran _ _ _ hn).trans ?_, rfl⟩
      rw [hj]
      exact hm
    · obtain ⟨-, hfirst, -⟩ := htally f l p _ r hh hd hf hl hp rfl
      refine ⟨_, hfirst hi ht, ?_⟩
      rw [State.ran, lot_congr (modStall_lots _ _ _)]
      exact tally_modLot _ _ (lot_of_curLot hl)
    · obtain ⟨hcrypto, -⟩ := hucall f r hh hd ha hb hf
      refine ⟨_, _, hcrypto h5, call_ranTo _ _ _ hn, rfl, rfl, fun i => ?_⟩
      exact Vector.getElem_ofFn _
  · obtain ⟨hstart, -⟩ := hframe s hs hm t
    exact ⟨_, hstart hx, rfl, rfl, rfl⟩
  · obtain ⟨hfirst, -⟩ := hword s t w k hs hf
    obtain ⟨u, hu, -, hcode, hcount, -⟩ := hfirst hw h6 hr
    exact ⟨u, hu, hcode, hcount⟩
  · obtain ⟨hfirst, -⟩ := hfeed s t a v hw hb hm
    obtain ⟨u, hu, -, hcode, hcount⟩ := hfirst h6 hr
    exact ⟨u, hu, hcode, hcount⟩
  · obtain ⟨u, hu, -, hpos, hcode, hbit⟩ := hline s p hb hp
    refine ⟨u, hu, hbit, ?_, hpos⟩
    rw [hcode]
    split
    · decide
    · assumption
  · obtain ⟨-, -, hreref⟩ := hindex s t hm ha
    obtain ⟨u, hu, -, hcount, hcode⟩ := hreref h2
    exact ⟨u, hu, hcount, hcode⟩
  · obtain ⟨u, hu, -, hcode, -⟩ := hresume s a hw hn hb h0
    exact ⟨u, hu, hcode⟩
  · obtain ⟨u, hu, -, hnet, -, hcode, -⟩ := hzeroNow s a hw hn hb
    exact ⟨u, hu, hcode, hnet⟩
  · obtain ⟨u, hu, -, hbcn⟩ := hzeroArm s a hw hn hb hm
    exact ⟨u, hu, by rw [hbcn]⟩
  · refine ⟨_, bcnConfig_row hw hn v, ?_⟩
    rw [bcnApply_bcn, writeCfg_cfg]
  · obtain ⟨u, hu, -, -, hr, -⟩ := hrate s a v hw
    exact ⟨u, hu, by rw [hr]⟩
  · obtain ⟨u, hu, -, hr, -⟩ := hcommit s a v hw hn
    exact ⟨u, hu, hr⟩
  · obtain ⟨u, hu, -, hr, -⟩ := harc s a k v hw
    exact ⟨u, hu, by rw [hr]⟩
  · exact ⟨_, hstamp s a t hr ha h0, rfl⟩

end Sys2Proof.Proofs
end

section
/-! Stores and queries (R16, R71 to R76, R263): what the ends of streams, commands and queries leave of the card. -/

namespace Sys2Proof.Proofs

open Sys2Proof Sys2Proof.Machine Sys2Proof.Laws

/-- Every field is the same but the namespaces, the media, the Lots, pipelines and queries, the Stalls, the controller, its messages
and the counters of health. -/
def StreamFields (s u : State) : Prop :=
  u = { s with ns := u.ns, med := u.med, lots := u.lots, nextLot := u.nextLot, pipes := u.pipes, queries := u.queries, slots := u.slots
               opens := u.opens, stalls := u.stalls, ev := u.ev, nv := u.nv, health := u.health }

/-- Nothing else is touched, and no command has come. -/
def StreamsOnly (s u : State) : Prop := StreamFields s u ∧ ∀ h, s.cmd h = none → u.cmd h = none

theorem streamsOnly_refl (s : State) : StreamsOnly s s := ⟨rfl, fun _ h => h⟩

theorem streamsOnly_trans {s t u : State} (h : StreamsOnly s t) (k : StreamsOnly t u) : StreamsOnly s u := by
  obtain ⟨h1, hc⟩ := h
  obtain ⟨k1, kc⟩ := k
  refine ⟨?_, fun n hn => kc n (hc n hn)⟩
  unfold StreamFields at *
  rw [k1, h1]

/-- What keeps the controller brings no command. -/
theorem streamsOnly_of_nv {s u : State} (h : StreamFields s u) (hn : u.nv = s.nv) : StreamsOnly s u :=
  ⟨h, fun n hc => by rw [State.cmd, hn]; exact hc⟩

theorem streamsOnly_foldl {α : Type} (f : State → α → State) (h : ∀ s x, StreamsOnly s (f s x)) (l : List α) (s : State) :
    StreamsOnly s (l.foldl f s) := by
  induction l generalizing s with
  | nil => exact streamsOnly_refl s
  | cons x xs ih => exact streamsOnly_trans (h s x) (ih (f s x))

theorem streamsOnly_ite {c : Prop} [Decidable c] {s t u : State} (ht : StreamsOnly s t) (hu : StreamsOnly s u) :
    StreamsOnly s (if c then t else u) := by
  split
  · exact ht
  · exact hu

/-! Commands leave. -/

theorem cmd_dropCmd (h k : Nat) (s : State) : (dropCmd h s).cmd k = if k = h then none else s.cmd k := by
  unfold State.cmd dropCmd
  dsimp only
  rw [List.find?_filter]
  split
  · next e =>
    refine List.find?_eq_none.mpr fun c _ => ?_
    simp [e]
  · next e =>
    congr 1
    funext c
    by_cases hc : c.h = k
    · simp [hc, e]
    · simp [hc]

theorem cmd_postEntry (e : Completion) (k : Nat) (s : State) : (postEntry e s).cmd k = s.cmd k := by
  unfold postEntry
  split <;> rfl

theorem cmd_endDeletes_none {k : Nat} {s : State} (h : s.cmd k = none) : (endDeletes s).cmd k = none := by
  unfold endDeletes
  refine List.foldlRecOn (motive := fun u : State => u.cmd k = none) _ _ h fun u hu c _ => ?_
  dsimp only
  split
  · exact hu
  · rw [cmd_postEntry]
    refine (cmd_dropCmd c.h k u).trans ?_
    rw [hu, ite_self]

theorem cmd_complete_self (h sct sc : Nat) (d0 d1 : W32) (a : List Byte) (s : State) : (complete h sct sc d0 d1 a s).cmd h = none := by
  unfold complete
  split
  · assumption
  · have hd : (dropCmd h s).cmd h = none := (cmd_dropCmd h h s).trans (if_pos rfl)
    dsimp only
    split
    · exact hd
    · exact cmd_endDeletes_none ((cmd_postEntry _ _ _).trans hd)

theorem streamsOnly_complete (h sct sc : Nat) (d0 d1 : W32) (a : List Byte) (s : State) :
    StreamsOnly s (complete h sct sc d0 d1 a s) := by
  refine ⟨?_, fun k hk => ?_⟩
  · apply state_ext <;> simp
  · unfold complete
    split
    · exact hk
    · have hd : (dropCmd h s).cmd k = none := (cmd_dropCmd h k s).trans (by rw [hk, ite_self])
      dsimp only
      split
      · exact hd
      · exact cmd_endDeletes_none ((cmd_postEntry _ _ _).trans hd)

/-! Stores and trims. -/

theorem streamsOnly_trim (k : Nat) (p : Nat → Bool) (s : State) : StreamsOnly s (trim k p s) := by
  refine streamsOnly_of_nv ?_ (trim_nv ..)
  apply state_ext <;> simp

theorem streamsOnly_storeStage (st : Staged) (s : State) : StreamsOnly s (storeStage st s) := by
  unfold storeStage
  dsimp only
  split <;> split <;> exact ⟨rfl, fun _ h => h⟩

theorem streamsOnly_discardRun (k : Nat) (rs : List Stored) (next : Nat) (run : Nat × Nat) (s : State) :
    StreamsOnly s (discardRun k rs next run s) := by
  unfold discardRun
  refine streamsOnly_trans ?_ (streamsOnly_storeStage _ _)
  exact streamsOnly_ite (streamsOnly_trim _ _ _) (streamsOnly_refl _)

theorem streamsOnly_eraseSpan (k lo hi : Nat) (s : State) : StreamsOnly s (eraseSpan k lo hi s) := by
  unfold eraseSpan
  refine streamsOnly_trans ?_ (streamsOnly_storeStage _ _)
  exact streamsOnly_ite (streamsOnly_trim _ _ _) (streamsOnly_refl _)

theorem streamsOnly_modNs (k : Nat) (f : Ns → Ns) (s : State) : StreamsOnly s (modNs k f s) := ⟨rfl, fun _ h => h⟩

theorem streamsOnly_discardStored (k : Nat) (bad : Nat → Bool) (s : State) : StreamsOnly s (discardStored k bad s) := by
  unfold discardStored
  split
  · exact streamsOnly_refl s
  · dsimp only
    refine streamsOnly_trans (streamsOnly_trans (t := leaveIndex k _ s) ⟨rfl, fun _ h => h⟩
      (streamsOnly_foldl _ (fun s r => streamsOnly_discardRun ..) _ _)) (streamsOnly_modNs ..)

theorem streamsOnly_giveSpace (k next took : Nat) (bad : Nat → Bool) (s : State) : StreamsOnly s (giveSpace k next took bad s) := by
  unfold giveSpace
  split
  · exact streamsOnly_refl s
  · dsimp only
    refine streamsOnly_trans (streamsOnly_trans (t := eraseSpan k next (min (next + took) _) (leaveIndex k _ s)) ?_
      (streamsOnly_eraseSpan ..)) (streamsOnly_modNs ..)
    exact streamsOnly_trans (t := leaveIndex k _ s) ⟨rfl, fun _ h => h⟩ (streamsOnly_eraseSpan ..)

theorem streamsOnly_unstoreIn (c : Cmd) (k : Nat) (s : State) : StreamsOnly s (unstoreIn c k s) := by
  unfold unstoreIn
  split
  · exact streamsOnly_refl s
  · dsimp only
    split
    · exact streamsOnly_ite (streamsOnly_giveSpace ..) (streamsOnly_discardStored ..)
    · exact streamsOnly_discardStored ..

theorem streamsOnly_unstore (c : Cmd) (s : State) : StreamsOnly s (unstore c s) := by
  unfold unstore
  refine streamsOnly_trans (streamsOnly_foldl _ (fun s k => ?_) _ _) (streamsOnly_modNs _ _ _)
  exact streamsOnly_ite (streamsOnly_unstoreIn ..) (streamsOnly_trans (streamsOnly_unstoreIn ..) (streamsOnly_modNs _ _ _))

theorem streamsOnly_discard (h : Nat) (s : State) : StreamsOnly s (discard h s) := by
  unfold Machine.discard
  refine streamsOnly_trans (t := (latchFull s)) ⟨rfl, fun _ h => h⟩ ?_
  refine streamsOnly_trans (streamsOnly_foldl (fun (s : State) (r : LotRec) => outcome r.nsid r.seq false s)
    (fun s r => streamsOnly_modNs _ _ _) ((latchFull s).unretired h) _) ?_
  exact ⟨rfl, fun _ h => h⟩

/-! Queries. -/

theorem streamsOnly_raisePulse (a b c : Nat) (s : State) : StreamsOnly s (raisePulse a b c s) := by
  refine streamsOnly_of_nv ?_ (raisePulse_nv ..)
  apply state_ext <;> simp

theorem streamsOnly_endQuery (id e r : Nat) (s : State) : StreamsOnly s (endQuery id e r s) := by
  unfold endQuery
  split
  · exact streamsOnly_refl s
  · next q _ =>
    dsimp only
    refine streamsOnly_trans (t := { s with queries := s.queries.filter fun x => x.id != id
                                            lots := s.lots.filter fun l => !(l.query == some id && !l.onStall) }) ⟨rfl, fun _ h => h⟩ ?_
    split
    · exact streamsOnly_ite (streamsOnly_complete ..) (streamsOnly_complete ..)
    · split
      · exact streamsOnly_refl _
      · refine streamsOnly_ite ?_ ?_
        · refine streamsOnly_trans ?_ (streamsOnly_foldl _ (fun s h => streamsOnly_complete ..) _ _)
          exact ⟨rfl, fun _ h => h⟩
        · refine streamsOnly_trans ?_ (streamsOnly_raisePulse ..)
          exact ⟨rfl, fun _ h => h⟩

theorem streamsOnly_startQuery (q : Query) (s : State) : StreamsOnly s (startQuery q s) := by
  unfold startQuery
  split
  · exact streamsOnly_endQuery ..
  · dsimp only
    generalize hparams : List.foldl (fun (s : State) (k : Nat) => s.modStall k (Stall.writeBytes 0x7F000 q.param)) s _ = t
    have ht : StreamsOnly s t := by
      rw [← hparams]
      refine streamsOnly_foldl _ (fun u k => ?_) _ s
      exact ⟨rfl, fun _ h => h⟩
    split
    · refine streamsOnly_trans (streamsOnly_trans ht ?_) (streamsOnly_endQuery ..)
      split <;> exact ⟨rfl, fun _ h => h⟩
    · refine streamsOnly_trans ht ?_
      split <;> exact ⟨rfl, fun _ h => h⟩

theorem streamsOnly_runFree (s : State) : StreamsOnly s (runFree s) := by
  unfold runFree
  exact streamsOnly_foldl _ (fun s q => streamsOnly_ite (streamsOnly_refl _) (streamsOnly_startQuery ..)) _ _

theorem streamsOnly_failAppend (h sct sc : Nat) (a : Bool) (s : State) : StreamsOnly s (failAppend h sct sc a s) := by
  unfold failAppend
  split
  · exact streamsOnly_refl s
  · refine streamsOnly_trans ?_ (streamsOnly_trans (streamsOnly_complete ..) (streamsOnly_runFree _))
    exact streamsOnly_trans (streamsOnly_discard ..) (streamsOnly_ite (streamsOnly_refl _) (streamsOnly_unstore ..))

theorem cmd_failAppend_self (h sct sc : Nat) (a : Bool) (s : State) : (failAppend h sct sc a s).cmd h = none := by
  unfold failAppend
  split
  · assumption
  · exact (streamsOnly_runFree _).2 h (cmd_complete_self ..)

end Sys2Proof.Proofs
end

section
/-! Commits, landing records and the closing of Lots (R16, R30 to R32, R51, R53, R73, R77). -/

namespace Sys2Proof.Proofs

open Sys2Proof Sys2Proof.Machine Sys2Proof.Laws

/-! Commits. -/

/-- A crossing that commits (R51): what held before it, and what it leaves. -/
theorem cross_commits {m m' : Commits} {en ok : Bool} {every t f : Nat} {c : Int} (h : m.cross en every t ok c = (m', some f)) :
    en = true ∧ ok = true ∧ m.running = true ∧ (∀ l ∈ m.lastCycle, l < c) ∧ c ∉ m.counted ∧ (∀ l ∈ m.lastNs, l + 250000 ≤ t) ∧
      (m.restart = true ∨ every ≤ m.count + 1) ∧ m'.lastCycle = some c ∧ m'.lastNs = some t ∧ m'.count = 0 ∧ m'.restart = false ∧
      m'.num = m.num := by
  unfold Commits.cross at h
  dsimp only at h
  split at h
  · simp at h
  next hq =>
  split at h
  · simp at h
  next hr =>
  split at h
  · simp at h
  next hn =>
  rw [Prod.mk.injEq] at h
  obtain ⟨rfl, -⟩ := h
  simp only [Bool.not_eq_false, Bool.and_eq_true, Bool.or_eq_true, decide_eq_true_eq, Option.all_eq_true,
    List.contains_eq_mem, Bool.not_eq_eq_eq_not, Bool.not_true, decide_eq_false_iff_not] at hq hr
  obtain ⟨hen, hlast, hcounted⟩ := hq
  obtain ⟨⟨hdue, hrun⟩, hok⟩ := hr
  simp only [Option.any_eq_true, decide_eq_true_eq, not_exists, not_and, Nat.not_lt] at hn
  exact ⟨hen, hok, hrun, hlast, hcounted, hn, hdue, rfl, rfl, rfl, rfl, rfl⟩

/-- A crossing that does not qualify changes nothing (R51). -/
theorem cross_unqualified {m : Commits} {en : Bool} {c : Int} (every t : Nat) (ok : Bool)
    (h : (∃ l ∈ m.lastCycle, c ≤ l) ∨ c ∈ m.counted ∨ en = false) : m.cross en every t ok c = (m, none) := by
  have hq : (en && ((m.lastCycle.all fun l => decide (l < c)) && !(m.counted.contains c))) = false := by
    rcases h with ⟨l, hl, hc⟩ | hc | hen
    · rw [show m.lastCycle = some l from hl]
      simp [Int.not_lt.mpr hc]
    · simp [hc]
    · rw [hen, Bool.false_and]
  unfold Commits.cross
  dsimp only
  rw [hq]
  rfl

/-- The mark that is programmed is the newest (R53). -/
theorem programMark_mark (late : Bool) (m : PendingMark) (s : State) : ∃ k : Mark, (programMark late m s).med.marks[0]? = some k ∧
    k.num = (s.bcn.com.num + 1).toNat ∧ k.stamp = m.stamp ∧ k.bound = m.bound ∧ k.entries = s.markEntries m.bound := by
  unfold programMark
  simp only [raisePulse_med]
  exact ⟨_, rfl, rfl, rfl, rfl, rfl⟩

/-- Settles O38. -/
theorem commitRows : Obligations.CommitRows := by
  unfold Obligations.CommitRows
  refine ⟨fun m m' en every t ok c f h => cross_commits h, fun m en every t ok c h => cross_unqualified every t ok h,
    fun s late m rest hm ho hw hc hp hcmd => ?_, fun s late m rest hm h => ?_⟩
  · have hgo : (!s.operating || s.pwr.watch == .asleep || s.windowClosed || s.pendingBelow m.bound) = false := by
      simp [ho, hw, hc, hp]
    have hrow : exec (.commitMarkDurable late) s = .next (settle (programMark late m { s with med := { s.med with pendMarks := rest } })) := by
      refine next_settle ?_
      rw [hm]
      simp only [hgo, hcmd, Bool.false_eq_true, ↓reduceIte]
    obtain ⟨k, hk, hnum, hstamp, hbound, hentries⟩ := programMark_mark late m { s with med := { s.med with pendMarks := rest } }
    refine ⟨_, k, hrow, ?_, ?_, hk, hnum, hstamp, hbound, hentries, ?_⟩ <;> unfold programMark <;>
      simp only [raisePulse_bcn, raisePulse_med, raisePulse_ram, raisePulse_nv, raisePulse_lots]
    exact ⟨trivial, rfl, trivial, trivial, trivial⟩
  · refine next_settle ?_
    rw [hm]
    refine if_pos ?_
    rcases h with h | h <;> simp [h]

/-! The closing of an open Lot (R16). -/

/-- The Lot that the open records of a namespace form. -/
def closedLot (s : State) (k : Nat) (n : Ns) : Lot :=
  { id := s.nextLot, nsid := k, pipe := (s.ingest k).map fun p => p.1, query := none
    recs := n.st.opened, state := .waiting, issues := 0, tried := [], emits := [], tally := [] }

theorem closeLot_of_open {s : State} {k : Nat} {n : Ns} (h : look s.ns k = some n) (ho : n.st.opened ≠ []) :
    closeLot k s = { s with ns := put s.ns k { n with st := { n.st with opened := [] } }, lots := s.lots ++ [closedLot s k n]
                            nextLot := s.nextLot + 1, opens := s.opens.filter fun x => x != k } := by
  unfold closeLot
  rw [h]
  dsimp only
  rw [if_neg (by simp [ho])]
  rfl

/-- The records of a namespace, open or in a Lot, stay where their Lot closes. -/
theorem closeLot_keeps {s : State} {k m : Nat} {r : LotRec} (h : (∃ x, look s.ns k = some x ∧ r ∈ x.st.opened) ∨ ∃ l ∈ s.lots, r ∈ l.recs) :
    (∃ x, look (closeLot m s).ns k = some x ∧ r ∈ x.st.opened) ∨ ∃ l ∈ (closeLot m s).lots, r ∈ l.recs := by
  cases hn : look s.ns m with
  | none =>
    rw [show closeLot m s = s by rw [closeLot, hn]]
    exact h
  | some n =>
    by_cases ho : n.st.opened = []
    · rw [show closeLot m s = s by simp [closeLot, hn, ho]]
      exact h
    · rw [closeLot_of_open hn ho]
      rcases h with ⟨x, hx, hr⟩ | ⟨l, hl, hr⟩
      · by_cases hk : k = m
        · subst hk
          rw [hn, Option.some.injEq] at hx
          subst hx
          exact .inr ⟨_, List.mem_append_right _ List.mem_cons_self, hr⟩
        · exact .inl ⟨x, by dsimp only; rw [look_put_ne _ _ _ _ hk, hx], hr⟩
      · exact .inr ⟨l, List.mem_append_left _ hl, hr⟩

theorem closeLot_isSome {s : State} {k : Nat} (m : Nat) (h : (look s.ns k).isSome = true) : (look (closeLot m s).ns k).isSome = true := by
  have hk := congrArg Option.isSome (congrFun (closeLot_lotlessNs m s) k)
  simpa [lotlessNs, h] using hk

/-- The open Lot closes before a record that would pass 256 KiB (R16). -/
def madeRoom (r : LotRec) (s : State) : State :=
  if (look s.ns r.nsid).elim 0 (fun n => recBytes n.st.opened) ≠ 0 ∧
      262144 < (look s.ns r.nsid).elim 0 (fun n => recBytes n.st.opened) + r.bytes.length then closeLot r.nsid s else s

/-- The record is in the open Lot. -/
def joined (r : LotRec) (s : State) : State :=
  let s := modNs r.nsid (fun n => { n with st := { n.st with opened := n.st.opened ++ [r] } }) s
  { s with opens := if s.opens.contains r.nsid then s.opens else s.opens ++ [r.nsid] }

theorem joinLot_eq (r : LotRec) (s : State) : joinLot r s =
    let u := joined r (madeRoom r s)
    if 262144 ≤ (look u.ns r.nsid).elim 0 (fun n => recBytes n.st.opened) then closeLot r.nsid u else u := rfl

/-- A record that joins is in the open Lot of its namespace, or in a Lot that closed with it (R16). -/
theorem joinLot_holds {s : State} {r : LotRec} (h : (look s.ns r.nsid).isSome = true) :
    (∃ x, look (joinLot r s).ns r.nsid = some x ∧ r ∈ x.st.opened) ∨ ∃ l ∈ (joinLot r s).lots, r ∈ l.recs := by
  have hsome : (look (madeRoom r s).ns r.nsid).isSome = true := by
    unfold madeRoom
    split
    · exact closeLot_isSome _ h
    · exact h
  obtain ⟨x, hx⟩ := Option.isSome_iff_exists.mp hsome
  have hjoined : look (joined r (madeRoom r s)).ns r.nsid = some { x with st := { x.st with opened := x.st.opened ++ [r] } } := by
    have hns : (joined r (madeRoom r s)).ns =
        adjust (madeRoom r s).ns r.nsid fun n => { n with st := { n.st with opened := n.st.opened ++ [r] } } := rfl
    rw [hns, look_adjust, if_pos rfl, hx, Option.map_some]
  have hin : (∃ x, look (joined r (madeRoom r s)).ns r.nsid = some x ∧ r ∈ x.st.opened) ∨
      ∃ l ∈ (joined r (madeRoom r s)).lots, r ∈ l.recs := .inl ⟨_, hjoined, List.mem_append_right _ List.mem_cons_self⟩
  rw [joinLot_eq]
  dsimp only
  split
  · exact closeLot_keeps hin
  · exact hin

/-- What closes and joins Lots leaves of the rest. -/
theorem joinLot_frame (r : LotRec) (s : State) : let u := joinLot r s
    u.bcn = s.bcn ∧ u.now = s.now ∧ u.acc = s.acc ∧ u.hb = s.hb ∧ u.ram = s.ram ∧ u.med = s.med := by
  rw [joinLot_eq]
  dsimp only
  split <;> unfold joined madeRoom <;> split <;> simp

/-! Landing (R30 to R32). -/

/-- The state once a record's header has its stamp and its sequence number. -/
def sequencedState (c : Cmd) (s : State) : State :=
  let u := noteEra (stampNow s.now s).2
  (wrote (unclean { u with bcn := { u.bcn with seq := u.bcn.seq + 1 } })).modCmd c.h fun x =>
    { x with begun := true, first := if x.count = 0 then u.bcn.seq else x.first }

/-- The bytes of a record as it is stamped (R30). -/
def stampedBytes (c : Cmd) (s : State) : List Byte :=
  let b0 := slice c.sub.buf c.off (max 32 (min (c.nbytes - c.off) (recLen (slice c.sub.buf c.off 32))))
  let u := noteEra (stampNow s.now s).2
  stampRecord b0 (stampNow s.now s).1.toNat u.bcn.seq (u.bcn.arcState % 2 ^ 32)

/-- The gate and the decimator of the pipeline see the record (R256). -/
def gated (pipe : Option (Nat × Pipe)) (b : List Byte) (s : State) : Bool × State :=
  match pipe with
  | none => (true, s)
  | some (k, p) => ((p.passes b).1, s.modPipe k fun _ => (p.passes b).2)

/-- The record that lands. -/
def landedRecord (c : Cmd) (s : State) : LotRec :=
  let u := sequencedState c s
  ⟨c.nsid, c.h, (noteEra (stampNow s.now s).2).bcn.seq, (gated (u.ingest c.nsid) (stampedBytes c s) u).2.bcn.curEra, stampedBytes c s,
    (gated (u.ingest c.nsid) (stampedBytes c s) u).1, 0⟩

theorem headerLands_eq (c : Cmd) (n : Ns) (s : State) : headerLands c n s =
    let u := sequencedState c s
    match recordStatus c n ((u.ingest c.nsid).all fun p => u.pipeUp p.2) (stampedBytes c s) (c.nbytes - c.off) with
    | some (sct, sc) => failAppend c.h sct sc false (outcome c.nsid (noteEra (stampNow s.now s).2).bcn.seq false u)
    | none => (joinLot (landedRecord c s) (gated (u.ingest c.nsid) (stampedBytes c s) u).2).modCmd c.h fun x =>
        { x with off := x.off + (stampedBytes c s).length, count := x.count + 1
                 phase := if c.nbytes - c.off = (stampedBytes c s).length then .lots else x.phase } := by
  unfold headerLands
  dsimp only
  rfl

/-- Stamping takes the position and a free value, and notes a new era. -/
theorem stamped_frame (s : State) : let u := noteEra (stampNow s.now s).2
    u.bcn.seq = s.bcn.seq ∧ u.bcn.seqLimit = s.bcn.seqLimit ∧ u.now = s.now ∧ u.acc = s.acc ∧ u.hb = s.hb ∧ u.ram = s.ram ∧ u.nv = s.nv ∧
      u.med.content = s.med.content ∧ u.med.held = s.med.held ∧ ∀ k, (look u.ns k).isSome = (look s.ns k).isSome := by
  have hpos : ∃ t : State, OnlyPosition s t ∧ t.bcn.seq = s.bcn.seq ∧ t.bcn.seqLimit = s.bcn.seqLimit ∧ t.now = s.now ∧
      (stampNow s.now s).2 = t.take.2 := by
    refine ⟨if s.beaconOn then bcnApply (s.bcn.advance s.now s.commitOk) s else s, ?_, ?_, ?_, ?_, rfl⟩ <;> split
    · exact bcnApply_onlyPosition _ _
    · exact onlyPosition_refl s
    · rw [bcnApply_bcn]
      exact advance_keep Bcn.seq move_seq _ _ _
    · rfl
    · rw [bcnApply_bcn]
      exact advance_keep Bcn.seqLimit move_seqLimit _ _ _
    · rfl
    · exact bcnApply_now ..
    · rfl
  obtain ⟨t, ⟨hfields, hmed, -, hns⟩, hseq, hlimit, hnow, ht⟩ := hpos
  have hsome : ∀ k, (look t.ns k).isSome = (look s.ns k).isSome := fun k => by
    have hk := congrArg Option.isSome (hns k)
    simpa using hk
  have hacc : t.acc = s.acc := by rw [hfields]
  have hhb : t.hb = s.hb := by rw [hfields]
  have hram : t.ram = s.ram := by rw [hfields]
  have hnv : t.nv = s.nv := by rw [hfields]
  have hcontent : t.med.content = s.med.content := by rw [hmed]
  have hheld : t.med.held = s.med.held := by rw [hmed]
  rw [ht]
  dsimp only
  unfold noteEra
  dsimp only
  split <;> exact ⟨hseq, hlimit, hnow, hacc, hhb, hram, hnv, hcontent, hheld, hsome⟩

theorem sequencedState_frame (c : Cmd) (s : State) : let u := sequencedState c s
    u.bcn.seq = s.bcn.seq + 1 ∧ u.bcn.seqLimit = s.bcn.seqLimit ∧ u.now = s.now ∧ u.acc = s.acc ∧ u.hb = s.hb ∧ u.ram = s.ram ∧
      u.med.content = s.med.content ∧ u.med.held = s.med.held ∧ ∀ k, (look u.ns k).isSome = (look s.ns k).isSome := by
  obtain ⟨hseq, hlimit, hnow, hacc, hhb, hram, -, hcontent, hheld, hns⟩ := stamped_frame s
  unfold sequencedState
  dsimp only
  generalize noteEra (stampNow s.now s).2 = u at *
  unfold unclean
  rw [← hseq]
  split <;> exact ⟨rfl, hlimit, hnow, hacc, hhb, hram, hcontent, hheld, hns⟩

theorem gated_frame (pipe : Option (Nat × Pipe)) (b : List Byte) (s : State) : let u := (gated pipe b s).2
    u.bcn = s.bcn ∧ u.now = s.now ∧ u.acc = s.acc ∧ u.hb = s.hb ∧ u.ram = s.ram ∧ u.med = s.med ∧ u.ns = s.ns := by
  unfold gated
  split <;> exact ⟨rfl, rfl, rfl, rfl, rfl, rfl, rfl⟩

/-- A header lands (R30): its record takes the next sequence number and joins the open Lot, or its command fails. -/
theorem headerLands_facts {c : Cmd} {n : Ns} {s : State} (hn : look s.ns c.nsid = some n) : let u := headerLands c n s
    u.bcn.seq = s.bcn.seq + 1 ∧ u.bcn.seqLimit = s.bcn.seqLimit ∧ u.now = s.now ∧
      ((u.cmd c.h).isSome = true → u.acc = s.acc ∧ u.hb = s.hb ∧ u.ram = s.ram ∧ u.med.content = s.med.content ∧ u.med.held = s.med.held ∧
        ∃ r : LotRec, r.nsid = c.nsid ∧ r.cmd = c.h ∧ r.seq = s.bcn.seq ∧
          ((∃ x, look u.ns c.nsid = some x ∧ r ∈ x.st.opened) ∨ ∃ l ∈ u.lots, r ∈ l.recs)) := by
  obtain ⟨hseq, hlimit, hnow, hacc, hhb, hram, hcontent, hheld, hns⟩ := sequencedState_frame c s
  rw [headerLands_eq]
  dsimp only
  generalize hu : sequencedState c s = u at *
  split
  · next sct sc _ =>
    have hf : StreamFields u (failAppend c.h sct sc false (outcome c.nsid (noteEra (stampNow s.now s).2).bcn.seq false u)) :=
      (streamsOnly_trans (streamsOnly_modNs _ _ _) (streamsOnly_failAppend ..)).1
    have hgone := cmd_failAppend_self c.h sct sc false (outcome c.nsid (noteEra (stampNow s.now s).2).bcn.seq false u)
    rw [hgone]
    unfold StreamFields at hf
    rw [hf]
    exact ⟨hseq, hlimit, hnow, fun h => by cases h⟩
  · obtain ⟨gbcn, gnow, gacc, ghb, gram, gmed, gns⟩ := gated_frame (u.ingest c.nsid) (stampedBytes c s) u
    generalize hg : (gated (u.ingest c.nsid) (stampedBytes c s) u).2 = g at *
    obtain ⟨jbcn, jnow, jacc, jhb, jram, jmed⟩ := joinLot_frame (landedRecord c s) g
    have hin := joinLot_holds (s := g) (r := landedRecord c s) (by rw [gns, show (landedRecord c s).nsid = c.nsid from rfl, hns, hn]; rfl)
    refine ⟨?_, ?_, jnow.trans (gnow.trans hnow), fun _ => ⟨jacc.trans (gacc.trans hacc), jhb.trans (ghb.trans hhb),
      jram.trans (gram.trans hram), ?_, ?_, landedRecord c s, rfl, rfl, (stamped_frame s).1, hin⟩⟩
    · exact (congrArg Bcn.seq (jbcn.trans gbcn)).trans hseq
    · exact (congrArg Bcn.seqLimit (jbcn.trans gbcn)).trans hlimit
    · exact (congrArg Media.content (jmed.trans gmed)).trans hcontent
    · exact (congrArg Media.held (jmed.trans gmed)).trans hheld

/-- Settles O39. -/
theorem landingRows : Obligations.LandingRows := by
  unfold Obligations.LandingRows
  refine ⟨fun s t h c n hc hn hl => ?_, fun s n x ho hx hr => ?_⟩
  · have hpos := at_onlyPosition s t
    have hcmd : (s.at_ t).cmd h = some c := by
      obtain ⟨hf, -⟩ := hpos
      rw [hf]
      exact hc
    have hh : c.h = h := by simpa using List.find?_some hc
    obtain ⟨hfields, hmed, -, hns⟩ := hpos
    have hsome : ((look (s.at_ t).ns c.nsid)).isSome = true := by
      have hk := congrArg Option.isSome (hns c.nsid)
      simpa [hn] using hk
    obtain ⟨m, hm⟩ := Option.isSome_iff_exists.mp hsome
    have hrow : exec (.recordHeaderLands t h) s = .next (settle (headerLands c m (s.at_ t))) := by
      refine next_settle ?_
      simp only [hcmd, hm, hl, ↓reduceIte]
    obtain ⟨hseq, hlimit, hnow, hrest⟩ := headerLands_facts hm
    have hs : (s.at_ t).bcn.seq = s.bcn.seq := at_bcn_keep Bcn.seq move_seq s t
    have hl' : (s.at_ t).bcn.seqLimit = s.bcn.seqLimit := at_bcn_keep Bcn.seqLimit move_seqLimit s t
    have hlt : (s.at_ t).bcn.seq < (s.at_ t).bcn.seqLimit := by
      unfold State.canLand at hl
      simpa using (Bool.and_elim_right hl)
    refine ⟨_, hrow, by rw [hseq, hs], by rw [← hs, ← hl']; exact hlt, hlimit.trans hl', hnow.trans (at_now s t), fun hin => ?_⟩
    rw [hh] at hrest
    obtain ⟨hacc, hhb, hram, hcontent, hheld, r, hrn, hrc, hrs, hrin⟩ := hrest hin
    refine ⟨hacc.trans (by rw [hfields]), hhb.trans (by rw [hfields]), hram.trans (by rw [hfields]), hcontent.trans (by rw [hmed]),
      hheld.trans (by rw [hmed]), r, hrn, hrc, hrs.trans hs, hrin⟩
  · refine ⟨_, next_settle ((if_pos ho).trans (closeLot_of_open hx hr)), ?_, fun y hy => ?_, rfl, rfl⟩
    · exact ⟨closedLot s n x, List.mem_append_right _ List.mem_cons_self, rfl, rfl, rfl, rfl⟩
    · dsimp only at hy
      rw [look_put_self, Option.some.injEq] at hy
      rw [← hy]

end Sys2Proof.Proofs
end

section
/-! Queues and the controller (R89 to R115). -/

namespace Sys2Proof.Proofs

open Sys2Proof Sys2Proof.Machine Sys2Proof.Laws

theorem nv_settle_of_stopped {s : State} (h : s.running = false) : (settle s).nv = s.nv := by
  rw [settle_of_router_off (by rw [h]; rfl)]

theorem settle_pwr_eq (s : State) : (settle s).pwr = s.pwr := by rw [settle_frame]

/-- While the event router does not run, the end of a command keeps the controller, so equal ends have equal controllers. -/
theorem nv_of_settle_eq {u v : State} (h : settle u = settle v) (hv : v.running = false) : u.nv = v.nv := by
  have hpwr : u.pwr = v.pwr := by rw [← settle_pwr_eq u, h, settle_pwr_eq]
  have hu : u.running = false := by rw [State.running, hpwr]; exact hv
  rw [← nv_settle_of_stopped hu, h, nv_settle_of_stopped hv]

/-! A doorbell of a queue that does not exist: its event can complete the last command of a queue whose deletion waits (R89, R107). -/

/-- A command of the admin queue that waits, with dword 10. -/
def waitingAdmin (h : Nat) (phase : Phase) (dword10 : W32) : Cmd :=
  { h := h, qid := 0, sub := ⟨(Vector.replicate 16 0).set 10 dword10, [], [], []⟩, locks := [], keeper := false, epoch := 0, secure := false
    begun := false, phase := phase, bound := 0, net := 0, era := 0, first := 0, off := 0, count := 0, resv := [], wt := false, stored := []
    granted := true, below := 0 }

/-- The card stands in the recovery state with its link up; an event request and a deletion of queue 5 wait. -/
def doorbellCounter : State := { State.reset with
  pwr := { State.reset.pwr with mainOn := true, recovery := true, link := true }
  nv := { State.reset.nv with
    inflight := [waitingAdmin 0 .event 0, waitingAdmin 1 .deleting 5]
    sqs := [(5, { size := 2, cq := 0, prio := 0, tail := 0, waiting := [], after := none })] } }

/-- Refutes O17: the doorbell of a queue that does not exist completes an asynchronous event request, and with it a waiting deletion
takes queue 5 away, so the queues are not what they were. -/
theorem not_fetchRows : ¬ Obligations.FetchRows := by
  unfold Obligations.FetchRows
  rintro ⟨⟨-, -, hdoorbell, -⟩, -⟩
  obtain ⟨u, hu, -, hsqs, -⟩ := hdoorbell doorbellCounter 7 0 [] rfl (by decide) rfl rfl
  have hrow : exec (.doorbellWrite false 7 0 []) doorbellCounter = .next (settle (asyncEvent 0 0 1 (raiseFault 8 5 doorbellCounter))) := rfl
  rw [hrow, Host.Outcome.next.injEq] at hu
  have hnv := nv_of_settle_eq hu.symm (by rw [State.running, asyncEvent_pwr, raiseFault_pwr]; rfl)
  have hgone : (asyncEvent 0 0 1 (raiseFault 8 5 doorbellCounter)).nv.sqs = [] := rfl
  rw [hnv, hgone] at hsqs
  exact absurd hsqs (by decide)

end Sys2Proof.Proofs
end

section
/-! Power loss and start-up (R153 to R185): what the statements say of states that no step reaches. -/

namespace Sys2Proof.Proofs

open Sys2Proof Sys2Proof.Machine Sys2Proof.Laws

theorem med_settle_of_stopped {s : State} (h : s.running = false) : (settle s).med = s.med := by
  rw [settle_of_router_off (by rw [h]; rfl)]

/-- While the event router does not run, equal ends have equal media. -/
theorem med_of_settle_eq {u v : State} (h : settle u = settle v) (hv : v.running = false) : u.med = v.med := by
  have hpwr : u.pwr = v.pwr := by rw [← settle_pwr_eq u, h, settle_pwr_eq]
  have hu : u.running = false := by rw [State.running, hpwr]; exact hv
  rw [← med_settle_of_stopped hu, h, med_settle_of_stopped hv]

/-- Slot 0 as the program on a die carries it, and as an older chunk that waits carries it. -/
def lostSlot (w : Nat) : Slot4k := { data := [], pi := [], err := 0, wseq := w, place := none, pos := 0 }

/-- Power is being lost while slot 0 is in DRAM, on a die, and once more in a chunk of an older write that waits; what the durable map
names for it is that it was never written. -/
def flushCounter : State := { State.reset with
  pwr := { State.reset.pwr with mainOn := true, flush := .running }
  med := { State.reset.med with
    held := [(0, { data := [], pi := [], err := 0, wseq := 5, since := 0, ns := 0 })]
    progs := [⟨0, 0, 0, 0, [[⟨[(0, lostSlot 5)], none, none⟩]]⟩]
    queue := [⟨[(0, lostSlot 3)], none, none⟩]
    shadow := [(0, none)]
    supers := [(0, { grp := 0, kind := 0, parDie := 0, members := [], parity := [], fill := [], out := [], rows := 0, closed := true
                     verify := false, failing := [] })] } }

theorem heldOrder_nil {m : Media} (h : m.held = []) : m.heldOrder = [] := by
  rw [Media.heldOrder, h, List.mergeSort_nil, List.map_nil]

/-- The media once the programs on the dies have ended and what waits has been programmed. -/
def drained (m : Media) (kind now_ : Nat) : Media :=
  let m := m.progs.foldl (fun m p => m.endProg p [] now_) m
  let again := (m.queue.flatMap fun c => c.slots).filter fun x => (look m.content x.1).any fun (y : Slot4k) => y.wseq == x.2.wseq
  { m with queue := [], partials := [] }.putRows kind again

theorem flush_eq_drained (m : Media) (kind now_ : Nat) : m.flush kind now_ =
    let m := ((drained m kind now_).programHeld kind (drained m kind now_).heldOrder).programJournal
    if kind = 4 then m.endStripes else m := rfl

/-- The programs have taken slot 0 out of DRAM; its durable map entry is as before. -/
theorem flushCounter_flush : (flushHeld 4 flushCounter).med.content = [(0, lostSlot 5)] ∧ (flushHeld 4 flushCounter).med.shadow = [(0, none)] := by
  have hsound : dropSpoiled flushCounter.med.heldOrder flushCounter = flushCounter := by
    have horder : flushCounter.med.heldOrder = [0] := by
      rw [Media.heldOrder, show flushCounter.med.held = [(0, ⟨[], [], 0, 5, 0, 0⟩)] from rfl, List.mergeSort_singleton]
      rfl
    rw [horder]
    rfl
  unfold flushHeld
  rw [hsound]
  dsimp only
  rw [flush_eq_drained, heldOrder_nil (m := drained flushCounter.med 4 flushCounter.now) rfl]
  exact ⟨rfl, rfl⟩

/-- The card after the flush-complete record. -/
def flushRecorded (s : State) : State :=
  let u := afterFlush false (flushAll s)
  { u.take.2 with hu := { u.hu with bankMv := Config.freeVoltage u.take.1 % 2000 } }

/-- Without marks to program the slots that show are those of the flush, put back to the durable map. -/
theorem flushRecorded_content {s : State} (h : s.med.pendMarks = []) :
    (flushRecorded s).med.content = (flushHeld 4 s).med.revert.content := by
  unfold flushRecorded flushAll
  dsimp only
  rw [h]
  rfl

/-- Refutes O9: the program on the die places slot 0 in NAND and takes it from DRAM, but the older chunk that waits keeps its map change from
being durable, no journal record names it, and when the main domain goes off the map shows that slot 0 was never written. -/
theorem not_flushKeepsHeld : ¬ Obligations.FlushKeepsHeld := by
  unfold Obligations.FlushKeepsHeld
  intro h
  obtain ⟨t, ht, y, hy, -⟩ := h flushCounter 0 { data := [], pi := [], err := 0, wseq := 5, since := 0, ns := 0 } rfl List.mem_cons_self rfl
    (by decide) (by decide)
  have hrow : exec .flushCompleteRecord flushCounter = .next (settle (flushRecorded flushCounter)) := rfl
  rw [hrow, Host.Outcome.next.injEq] at ht
  have hoff : (flushRecorded flushCounter).running = false := rfl
  obtain ⟨hcontent, hshadow⟩ := flushCounter_flush
  have hgone : (flushRecorded flushCounter).med.content = [] := by
    rw [flushRecorded_content rfl, Media.revert, hcontent, hshadow]
    rfl
  rw [med_of_settle_eq ht.symm hoff, hgone] at hy
  exact absurd hy (by simp [look])

/-! A start-up whose banks both fail, with the card still said to be in Watch (R26, R353). -/

theorem ev_settle_of_stopped {s : State} (h : s.running = false) : (settle s).ev = s.ev := by
  rw [settle_of_router_off (by rw [h]; rfl)]

/-- Start-up step 2 has ended on a card that is said to be in Watch. -/
def sleepingStart : State := { State.reset with
  pwr := { State.reset.pwr with mainOn := true, step := 2, copied := true, watch := .asleep } }

/-- The card after step 3 where no bank verifies. -/
def noFirmware (s : State) : State :=
  let s := readStore s
  let s := { s with hb := { s.hb with bankA := s.hb.found s.rollback false false, bankB := s.hb.found s.rollback true false } }
  let s := loadRules (auxCopy (checkRollback { s with pwr := { s.pwr with starts := satInc s.pwr.starts } }))
  raiseFault 3 2 { s with pwr := { s.pwr with recovery := true, step := 3, link := false } }

/-- Refutes O7: the frame of CODE_ECC_BANK is powered only outside Watch, so the bit does not set. -/
theorem not_railAndBankRows : ¬ Obligations.RailAndBankRows := by
  unfold Obligations.RailAndBankRows
  rintro ⟨-, ⟨-, hnone, -⟩, -⟩
  obtain ⟨t, ht, hrec, -, -, hbit, -⟩ := hnone sleepingStart false false rfl rfl rfl rfl rfl (.inl rfl) (.inl rfl)
  have hrow : exec (.activeBankVerified false false) sleepingStart = .next (settle (noFirmware sleepingStart)) := rfl
  rw [hrow, Host.Outcome.next.injEq] at ht
  have hev : t.ev = (noFirmware sleepingStart).ev := by
    have hstopped : t.running = false := by rw [State.running, hrec, Bool.not_true, Bool.and_false]
    rw [← ev_settle_of_stopped hstopped, ← ht, ev_settle_of_stopped rfl]
  have hclear : ((noFirmware sleepingStart).ev.status[3]?).getD 0 = 0 := rfl
  have hframe : t.frameStatus 3 = (t.ev.status[3]?).getD 0 := rfl
  rw [hframe, hev, hclear] at hbit
  exact absurd hbit (by decide)

end Sys2Proof.Proofs
end

section
/-! Programs at once (R105, R110, R161): what a flush leaves of the media, and that it leaves no Held data. -/

namespace Sys2Proof.Proofs

open Sys2Proof Sys2Proof.Machine Sys2Proof.Laws

/-! What programs leave. Programs move slots, and with them the map, blocks, superblocks and counts; the records, the marks and the
write sequence stay. -/

/-- The media without what programs to NAND change. -/
def steady (m : Media) : Media :=
  { m with content := [], held := [], unrec := [], queue := [], progs := [], nextProg := 0, partials := [], blocks := [], supers := []
           nextSuper := 0, nextPar := Vector.replicate 2 0, cache := [], wants := [], stale := [], jrnl := [], shadow := [], parRows := 0
           copied := [] }

theorem steady_modBlk (m : Media) (p : Place) (f : Blk → Blk) : steady (m.modBlk p f) = steady m := rfl

theorem steady_foldl {α : Type} (f : Media → α → Media) (h : ∀ m x, steady (f m x) = steady m) (l : List α) (m : Media) :
    steady (l.foldl f m) = steady m := foldl_keep steady f h l m

theorem steady_remap (m : Media) (k : Nat) : steady (m.remap k) = steady m := by
  unfold Media.remap
  dsimp only
  (repeat' split) <;> rfl

theorem steady_place (m : Media) (k : Nat) (x : Slot4k) : steady (m.place k x) = steady m := by
  unfold Media.place Media.keepShadow
  dsimp only
  split <;> rfl

theorem steady_land (m : Media) (k : Nat) (x : Slot4k) : steady (m.land k x) = steady m := by
  have hshow : steady (if (look m.content k).any fun y => decide (x.wseq < y.wseq) then m else (m.place k x).remap k) = steady m := by
    split
    · rfl
    · rw [steady_remap, steady_place]
  unfold Media.land
  dsimp only
  rw [← hshow]
  (repeat' split) <;> rfl

theorem steady_landAll (xs : List (Nat × Slot4k)) (m : Media) : steady (xs.foldl (fun m y => m.land y.1 y.2) m) = steady m := by
  induction xs generalizing m with
  | nil => rfl
  | cons x xs ih => rw [List.foldl_cons, ih, steady_land]

theorem steady_heads (m : Media) (xs : List (Nat × Slot4k)) : steady (m.heads xs) = steady m :=
  steady_foldl _ (fun m x => by cases x.2.place <;> rfl) xs m

theorem steady_landGroups (m : Media) (t : Nat) : steady (m.landGroups t) = steady m := by
  refine steady_foldl _ (fun m x => ?_) _ m
  dsimp only
  split
  · rfl
  · rw [steady_landAll]
    rfl

theorem steady_endProg (m : Media) (p : Prog) (fails : List (Fin 4)) (t : Nat) : steady (m.endProg p fails t) = steady m := by
  unfold Media.endProg
  dsimp only
  rw [steady_landGroups, steady_foldl, steady_foldl, steady_heads]
  · rfl
  · intro m x
    cases (look m.supers p.sb).bind fun u => u.block p.die x.2 <;> rfl
  · intro m x
    split
    · exact steady_landAll _ m
    · rfl

theorem steady_settleRows (m : Media) (k : Nat) : steady (m.settleRows k) = steady m := by
  unfold Media.settleRows
  dsimp only
  (repeat' split) <;> rfl

theorem steady_closeSuper (m : Media) (k : Nat) : steady (m.closeSuper k) = steady m := by
  unfold Media.closeSuper
  split
  · rfl
  · dsimp only
    rw [steady_foldl _ fun m p => steady_modBlk m p _]
    rfl

theorem steady_closeFull (m : Media) (k : Nat) : steady (m.closeFull k) = steady m := by
  unfold Media.closeFull
  dsimp only
  (repeat' split) <;> simp only [steady_closeSuper, steady_settleRows]

/-! Opening a superblock changes only the blocks, the superblocks and their numbering (R117). -/

/-- The media without its blocks and superblocks. -/
def stocked (m : Media) : Media := { m with blocks := [], supers := [], nextSuper := 0, nextPar := Vector.replicate 2 0 }

theorem stocked_grab {m n : Media} {kind : Nat} {tlc : Bool} {d : Fin 64} {q : Fin 4} {p : Place}
    (h : m.grab kind tlc d q = some (p, n)) : stocked n = stocked m := by
  unfold Media.grab at h
  obtain ⟨p', -, hp⟩ := Option.map_eq_some_iff.1 h
  cases hp
  rfl

theorem stocked_grabAll {kind : Nat} {tlc : Bool} (xs : List (Fin 64 × Fin 4)) {m n : Media} {ps : List Place}
    (h : m.grabAll kind tlc xs = some (ps, n)) : stocked n = stocked m := by
  induction xs generalizing m n ps with
  | nil => cases h; rfl
  | cons x xs ih =>
    rw [Media.grabAll] at h
    obtain ⟨⟨p, m1⟩, h1, h⟩ := Option.bind_eq_some_iff.1 h
    obtain ⟨⟨qs, m2⟩, h2, h⟩ := Option.map_eq_some_iff.1 h
    cases h
    rw [ih h2, stocked_grab h1]

theorem stocked_openSuper {m n : Media} {g kind k : Nat} (h : m.openSuper g kind = some (k, n)) : stocked n = stocked m := by
  unfold Media.openSuper at h
  dsimp only at h
  split at h
  · cases h
  · obtain ⟨⟨ps, m1⟩, h1, h⟩ := Option.bind_eq_some_iff.1 h
    obtain ⟨⟨qs, m2⟩, h2, h⟩ := Option.map_eq_some_iff.1 h
    cases h
    rw [← stocked_grabAll _ h1, ← stocked_grabAll _ h2]
    rfl

theorem stocked_openOf {m n : Media} {g kind k : Nat} {avoid : Option Nat} (h : m.openOf g kind avoid = some (k, n)) :
    stocked n = stocked m := by
  unfold Media.openOf at h
  split at h
  · cases h; rfl
  · exact stocked_openSuper h

theorem stocked_bufferIn {m n : Media} {kind k : Nat} {avoid : Option Nat} {gs : List Nat} (h : m.bufferIn kind avoid gs = some (k, n)) :
    stocked n = stocked m := by
  unfold Media.bufferIn at h
  split at h
  · cases h; rfl
  · obtain ⟨g, -, hg⟩ := List.exists_of_findSome?_eq_some h
    exact stocked_openOf hg

theorem stocked_bufferSuper {m n : Media} {k : Nat} {avoid : Option Nat} (h : m.bufferSuper avoid = some (k, n)) : stocked n = stocked m :=
  stocked_bufferIn h

theorem stocked_flushSuper {m n : Media} {kind k : Nat} (h : m.flushSuper kind = some (k, n)) : stocked n = stocked m := by
  unfold Media.flushSuper at h
  rw [Option.orElse_eq_or, Option.or_eq_some_iff] at h
  rcases h with h | ⟨-, h⟩
  · split at h
    · exact stocked_bufferSuper h
    · cases h
  · exact stocked_bufferIn h

/-- The slots of a row where they go, and the media with their superblock opened and their headers written. -/
theorem putRow_eq (m : Media) (kind : Nat) (xs : List (Nat × Slot4k)) :
    ∃ (n : Media) (ys : List (Nat × Slot4k)) (k : Option Nat), stocked n = stocked m ∧
      ys.map (fun y => (y.1, y.2.wseq)) = xs.map (fun y => (y.1, y.2.wseq)) ∧
      m.putRow kind xs = k.elim id (fun k m => m.closeFull k) (ys.foldl (fun m x => m.land x.1 x.2) n) := by
  unfold Media.putRow
  split
  · refine ⟨m, xs.map fun x => (x.1, { x.2 with place := none, pos := 0 }), none, rfl, ?_, ?_⟩
    · rw [List.map_map]
      rfl
    · rw [List.foldl_map]
      rfl
  · next k u d n heq =>
    obtain ⟨⟨k', n'⟩, hsuper, h⟩ := Option.bind_eq_some_iff.1 heq
    obtain ⟨u', -, h⟩ := Option.bind_eq_some_iff.1 h
    obtain ⟨d', -, h⟩ := Option.map_eq_some_iff.1 h
    cases h
    refine ⟨_, _, some _, ?_, ?_, rfl⟩
    · rw [foldl_keep stocked _ fun m q => ?_, Media.heads, foldl_keep stocked _ fun m x => ?_]
      · exact (show stocked _ = stocked n' from rfl).trans (stocked_flushSuper hsuper)
      · cases x.2.place <;> rfl
      · cases u.block d q <;> rfl
    · rw [List.map_map]
      exact (List.map_map (l := xs.zipIdx) (f := Prod.fst) (g := fun y => (y.1, y.2.wseq))).symm.trans (by rw [List.zipIdx_map_fst])

theorem steady_of_stocked {m n : Media} (h : stocked m = stocked n) : steady m = steady n :=
  (show steady m = steady (stocked m) from rfl).trans ((congrArg steady h).trans rfl)

theorem steady_putRow (m : Media) (kind : Nat) (xs : List (Nat × Slot4k)) : steady (m.putRow kind xs) = steady m := by
  obtain ⟨n, ys, k, hn, -, h⟩ := putRow_eq m kind xs
  rw [h, ← steady_of_stocked hn, ← steady_landAll ys n]
  cases k with
  | none => rfl
  | some k => exact steady_closeFull _ k

theorem steady_putRows (m : Media) (kind : Nat) (xs : List (Nat × Slot4k)) : steady (m.putRows kind xs) = steady m :=
  steady_foldl _ (fun m r => steady_putRow m kind r) _ m

theorem steady_programHeld (m : Media) (kind : Nat) (ks : List Nat) : steady (m.programHeld kind ks) = steady m :=
  steady_putRows m kind _

theorem steady_endStripes (m : Media) : steady m.endStripes = steady m := by
  refine steady_foldl _ (fun m x => ?_) _ m
  dsimp only
  split <;> rfl

/-- A flush leaves the records, the marks and the write sequence (R161, R166). -/
theorem steady_flush (m : Media) (kind t : Nat) : steady (m.flush kind t) = steady m := by
  have hdone (m : Media) : steady m.programJournal = steady m := rfl
  have hqueue (m : Media) : steady { m with queue := [], partials := [] } = steady m := rfl
  unfold Media.flush
  dsimp only
  have hend : steady (m.progs.foldl (fun m p => m.endProg p [] t) m) = steady m := steady_foldl _ (fun m p => steady_endProg m p [] t) _ m
  split
  · rw [steady_endStripes, hdone, steady_programHeld, steady_putRows, hqueue, hend]
  · rw [hdone, steady_programHeld, steady_putRows, hqueue, hend]

/-! A flush leaves no Held data in DRAM (R105, R161). -/

/-- A slot with its write sequence. -/
def keySeq (x : Nat × Slot4k) : Nat × Nat := (x.1, x.2.wseq)

/-- All Held data is in a list of slots that land, each with its write sequence or a newer one. -/
def Carried (m : Media) (xs : List (Nat × Nat)) : Prop :=
  ∀ k h, look m.held k = some h → ∃ w, (k, w) ∈ xs ∧ h.wseq ≤ w

theorem Carried.mono {m : Media} {xs ys : List (Nat × Nat)} (h : Carried m xs) (hsub : xs ⊆ ys) : Carried m ys :=
  fun k x hx => (h k x hx).imp fun _ hw => ⟨hsub hw.1, hw.2⟩

theorem look_del {α : Type} (m : AMap α) (i j : Nat) : look (del m i) j = if j = i then none else look m j := by
  unfold del
  split
  · next h => exact look_filter_none m (fun p => !(p == i)) j (by simp [h])
  · next h => exact look_filter m (fun p => !(p == i)) j (by simp [h])

theorem held_shown (m : Media) (k : Nat) (x : Slot4k) :
    (if (look m.content k).any fun y => decide (x.wseq < y.wseq) then m else (m.place k x).remap k).held = m.held := by
  split
  · rfl
  · rw [show ((m.place k x).remap k).held = (m.place k x).held from congrArg Prod.fst (remap_slotStores (m.place k x) k)]
    unfold Media.place Media.keepShadow
    dsimp only
    split <;> rfl

theorem look_held_land (m : Media) (k : Nat) (x : Slot4k) (j : Nat) : look (m.land k x).held j =
    if j = k then (look m.held k).bind fun h => if h.wseq ≤ x.wseq then none else some { h with since := h.wseq }
    else look m.held j := by
  have hheld := held_shown m k x
  unfold Media.land
  dsimp only
  generalize (if (look m.content k).any fun y => decide (x.wseq < y.wseq) then m else (m.place k x).remap k) = n at hheld
  have hshadow : (if n.onWay k || (n.jrnl.any fun r => r.keys.contains k) then n else { n with shadow := del n.shadow k }).held = m.held := by
    rw [← hheld]
    split <;> rfl
  generalize (if n.onWay k || (n.jrnl.any fun r => r.keys.contains k) then n else { n with shadow := del n.shadow k }) = n' at hshadow
  rw [hshadow]
  cases hk : look m.held k with
  | none =>
    show look n'.held j = _
    rw [hshadow]
    split
    · next hj => rw [hj, hk]; rfl
    · rfl
  | some h =>
    simp only [Option.bind_some]
    by_cases hw : h.wseq ≤ x.wseq
    · simp only [if_pos hw]
      exact look_del m.held k j
    · simp only [if_neg hw]
      split
      · next hj => rw [hj]; exact look_put_self m.held k _
      · next hj => exact look_put_ne m.held k j _ hj

theorem Carried.land {m : Media} {x : Nat × Slot4k} {zs : List (Nat × Nat)} (h : Carried m (keySeq x :: zs)) :
    Carried (m.land x.1 x.2) zs := by
  intro k g hg
  rw [look_held_land] at hg
  split at hg
  · next hk =>
    obtain ⟨g', hg', hg⟩ := Option.bind_eq_some_iff.1 hg
    split at hg
    · cases hg
    · next hw =>
      cases hg
      obtain ⟨w, hmem, hle⟩ := h x.1 g' hg'
      rcases List.mem_cons.1 hmem with heq | hmem
      · cases heq
        exact absurd hle hw
      · exact ⟨w, hk ▸ hmem, hle⟩
  · next hk =>
    obtain ⟨w, hmem, hle⟩ := h k g hg
    rcases List.mem_cons.1 hmem with heq | hmem
    · cases heq
      exact absurd rfl hk
    · exact ⟨w, hmem, hle⟩

theorem Carried.landAll (xs : List (Nat × Slot4k)) {m : Media} {zs : List (Nat × Nat)} (h : Carried m (xs.map keySeq ++ zs)) :
    Carried (xs.foldl (fun m y => m.land y.1 y.2) m) zs := by
  induction xs generalizing m with
  | nil => exact h
  | cons x xs ih => exact ih (Carried.land h)

theorem Carried.congr {m n : Media} {xs : List (Nat × Nat)} (h : Carried m xs) (hheld : n.held = m.held) : Carried n xs := by
  unfold Carried
  rw [hheld]
  exact h

theorem held_closeFull (m : Media) (k : Nat) : (m.closeFull k).held = m.held := by
  have hrows (m : Media) : (m.settleRows k).held = m.held := by
    unfold Media.settleRows
    dsimp only
    (repeat' split) <;> rfl
  have hclose (m : Media) : (m.closeSuper k).held = m.held := by
    unfold Media.closeSuper
    split
    · rfl
    · dsimp only
      rw [foldl_keep Media.held _ fun m p => ?_]
      rfl
  unfold Media.closeFull
  dsimp only
  (repeat' split) <;> simp only [hclose, hrows]

theorem Carried.putRow {m : Media} {kind : Nat} {xs : List (Nat × Slot4k)} {zs : List (Nat × Nat)}
    (h : Carried m (xs.map keySeq ++ zs)) : Carried (m.putRow kind xs) zs := by
  obtain ⟨n, ys, k, hn, hys, heq⟩ := putRow_eq m kind xs
  have hland : Carried (ys.foldl (fun m x => m.land x.1 x.2) n) zs :=
    Carried.landAll ys ((show ys.map keySeq = xs.map keySeq from hys) ▸ h.congr (congrArg Media.held hn :))
  rw [heq]
  cases k with
  | none => exact hland
  | some k => exact hland.congr (held_closeFull _ k)

/-- The rows of a program of many slots hold them all. -/
theorem mem_rows {α : Type} {xs : List α} {x : α} (h : x ∈ xs) :
    x ∈ ((List.range (ceilDiv xs.length 16)).map fun i => (xs.drop (16 * i)).take 16).flatten := by
  obtain ⟨i, hi, rfl⟩ := List.mem_iff_getElem.1 h
  refine List.mem_flatten.2 ⟨_, List.mem_map.2 ⟨i / 16, List.mem_range.2 (by unfold ceilDiv; omega), rfl⟩, ?_⟩
  refine List.mem_iff_getElem.2 ⟨i % 16, by simp only [List.length_take, List.length_drop]; omega, ?_⟩
  rw [List.getElem_take, List.getElem_drop]
  congr 1
  omega

theorem Carried.putRows {m : Media} {kind : Nat} {xs : List (Nat × Slot4k)} (h : Carried m (xs.map keySeq)) :
    Carried (m.putRows kind xs) [] := by
  have hrows (rows : List (List (Nat × Slot4k))) : ∀ m : Media, Carried m (rows.flatten.map keySeq) →
      Carried (rows.foldl (fun m r => m.putRow kind r) m) [] := by
    induction rows with
    | nil => exact fun m h => h
    | cons r rows ih =>
      intro m h
      refine ih _ (Carried.putRow ?_)
      rwa [List.flatten_cons, List.map_append] at h
  exact hrows _ m (h.mono (List.map_subset keySeq fun x hx => mem_rows hx))

/-- The media without Held data. -/
theorem held_nil_of_carried {m : Media} (h : Carried m []) : m.held = [] := by
  cases hm : m.held with
  | nil => rfl
  | cons x xs =>
    have hx : look m.held x.1 = some x.2 := by rw [hm]; exact if_pos rfl
    obtain ⟨w, hmem, -⟩ := h _ _ hx
    cases hmem

theorem mem_heldOrder {m : Media} {k : Nat} {h : HeldSlot} (hk : look m.held k = some h) : k ∈ m.heldOrder :=
  List.mem_map.2 ⟨(k, h), List.mem_mergeSort.2 (mem_of_look hk), rfl⟩

theorem held_programHeld (m : Media) (kind : Nat) : (m.programHeld kind m.heldOrder).held = [] := by
  refine held_nil_of_carried (Carried.putRows fun k h hk => ⟨h.wseq, ?_, le_refl _⟩)
  refine List.mem_map.2 ⟨(k, h.slot), List.mem_filterMap.2 ⟨k, mem_heldOrder hk, ?_⟩, rfl⟩
  rw [hk]
  rfl

theorem held_endStripes (m : Media) : m.endStripes.held = m.held := by
  refine foldl_keep Media.held _ (fun m x => ?_) _ m
  dsimp only
  split <;> rfl

theorem held_flush (m : Media) (kind t : Nat) : (m.flush kind t).held = [] := by
  have hdone (m : Media) : m.programJournal.held = m.held := rfl
  unfold Media.flush
  dsimp only
  split <;> simp only [held_endStripes, hdone, held_programHeld]

/-! The same of the card. -/

theorem held_heldRefresh (s : State) (m : Media) : (s.heldRefresh m).held = m.held := by
  unfold State.heldRefresh
  split
  · rfl
  · refine foldl_keep Media.held _ (fun m x => ?_) _ m
    (repeat' split)
    · cases (‹Slot4k› : Slot4k).place <;> rfl
    · rfl
    · rfl

theorem steady_heldRefresh (s : State) (m : Media) : steady (s.heldRefresh m) = steady m := by
  unfold State.heldRefresh
  split
  · rfl
  · refine steady_foldl _ (fun m x => ?_) _ m
    (repeat' split)
    · cases (‹Slot4k› : Slot4k).place <;> rfl
    · rfl
    · rfl

theorem startLowered_med (s : State) : (startLowered s).med = s.med := by
  unfold startLowered
  split <;> rfl

theorem markUnrec_steady (p : Option Place) (k : Nat) (s : State) : steady (markUnrec p k s).med = steady s.med := by
  unfold markUnrec
  split
  · rfl
  · cases p <;> simp [steady]

theorem dropSpoiled_steady (ks : List Nat) (s : State) : steady (dropSpoiled ks s).med = steady s.med := by
  refine foldl_keep (fun s : State => steady s.med) _ (fun s k => ?_) _ s
  unfold loseHeld
  split
  · rfl
  · rw [markUnrec_steady]
    unfold Media.dropHeld Media.unqueue
    split <;> rfl

theorem held_flushHeld (kind : Nat) (s : State) : (flushHeld kind s).med.held = [] := by
  unfold flushHeld
  dsimp only
  rw [startLowered_med]
  exact (held_heldRefresh _ _).trans (held_flush _ kind _)

theorem steady_flushHeld (kind : Nat) (s : State) : steady (flushHeld kind s).med = steady s.med := by
  unfold flushHeld
  dsimp only
  rw [startLowered_med]
  exact (steady_heldRefresh _ _).trans ((steady_flush _ kind _).trans (dropSpoiled_steady _ s))

end Sys2Proof.Proofs
end

section
/-! Sensors and what follows a reading (R386 to R395): settles O11. -/

namespace Sys2Proof.Proofs

open Sys2Proof Sys2Proof.Machine Sys2Proof.Laws

/-! The operating point (R211 to R213). -/

theorem reselect_shape (s : State) :
    reselect s = { s with pwr := { s.pwr with op := (reselect s).pwr.op }, stalls := (reselect s).stalls } := by
  unfold reselect startPoint
  dsimp only
  (repeat' split) <;> rfl

theorem reselect_direct (s : State) : (reselect s).pwr.op.direct = s.pwr.op.direct := by
  unfold reselect startPoint
  dsimp only
  (repeat' split) <;> rfl

theorem setThrottle_shape (n : Nat) (s : State) : setThrottle n s =
    { s with therm := { s.therm with cap := n }, pwr := { s.pwr with op := (setThrottle n s).pwr.op }, stalls := (setThrottle n s).stalls } := by
  unfold setThrottle
  rw [reselect_shape]
  dsimp only
  split <;> rfl

theorem setThrottle_direct {n : Nat} {s : State} (h : s.therm.cap < n) : (setThrottle n s).pwr.op.direct = false := by
  unfold setThrottle
  rw [reselect_direct, if_pos h]
  rfl

/-! A fault keeps the net position (R45, R363). -/

theorem raiseFault_net (f b : Nat) (s : State) : (raiseFault f b s).bcn.net = s.bcn.net := by
  have hframe (v : W32) : (s.setFrame f v).bcn.net = s.bcn.net := by
    unfold State.setFrame
    dsimp only
    (repeat' split) <;> rfl
  unfold raiseFault raiseFaultKind
  dsimp only
  (repeat' split) <;> simp only [journal_bcn, hframe]

/-! What follows a reading. -/

/-- What no threshold that a sensor passes changes: the readings, the media, the namespaces and the position. -/
def readings (s : State) :=
  (s.therm.temp, s.therm.bad, s.therm.state, s.med, s.ns, s.ram, s.bcn.net, s.hb)

theorem tempEvent_readings (s : State) : readings (tempEvent s) = readings s := by
  unfold tempEvent
  (repeat' split)
  · rfl
  · rfl
  · simp [readings]

theorem enterLevel_readings (c l : Nat) (s : State) : readings (enterLevel c l s) = readings s := by
  unfold enterLevel
  dsimp only
  rw [tempEvent_readings]
  simp [readings, raiseFault_net]

theorem crossEvents_readings (old s : State) : readings (crossEvents old s) = readings s := by
  unfold crossEvents
  dsimp only
  split
  · exact tempEvent_readings s
  · rfl

theorem setThrottle_readings (n : Nat) (s : State) : readings (setThrottle n s) = readings s := by
  rw [setThrottle_shape]
  rfl

theorem followThrottle_readings (e : Nat) (s : State) : readings (followThrottle e s) = readings s := by
  unfold followThrottle
  dsimp only
  (repeat' split)
  · rfl
  · rfl
  · exact setThrottle_readings 1 _
  · rfl

theorem followWindow_readings (s : State) : readings (followWindow s) = readings s := rfl

/-- A sensor is in a thermal state. -/
def withLevel (i st : Nat) (s : State) : State := { s with therm := { s.therm with state := vput s.therm.state i st } }

/-- A sensor of a class follows its thresholds (R387). -/
theorem followState_of_class {i c : Nat} (s : State) (hc : sensorClass i = some c) :
    (followState i s).1 = (if (s.therm.state[i]?).getD 0 < thermLevel (s.reading i) (s.limitOf c) ((s.therm.state[i]?).getD 0)
      then thermLevel (s.reading i) (s.limitOf c) ((s.therm.state[i]?).getD 0) else 0) ∧
    readings (followState i s).2 =
      readings (withLevel i (thermLevel (s.reading i) (s.limitOf c) ((s.therm.state[i]?).getD 0)) s) := by
  unfold followState
  rw [hc]
  exact ⟨rfl, foldl_keep readings _ (fun s l => enterLevel_readings c l s) _ _⟩

/-- The levels of a reading: each is reached at its threshold, or held within the hysteresis (R387). -/
theorem thermLevel_eq (r : Int) (lim : Nat → Int) (st : Nat) : thermLevel r lim st =
    if lim 3 ≤ r ∨ (3 ≤ st ∧ lim 3 - 80 ≤ r) then 3
    else if lim 2 ≤ r ∨ (2 ≤ st ∧ lim 2 - 80 ≤ r) then 2
    else if lim 1 ≤ r ∨ (1 ≤ st ∧ lim 1 - 80 ≤ r) then 1 else 0 := by
  unfold thermLevel
  by_cases h1 : lim 1 ≤ r ∨ (1 ≤ st ∧ lim 1 - 80 ≤ r) <;> by_cases h2 : lim 2 ≤ r ∨ (2 ≤ st ∧ lim 2 - 80 ≤ r) <;>
    by_cases h3 : lim 3 ≤ r ∨ (3 ≤ st ∧ lim 3 - 80 ≤ r) <;> simp [h1, h2, h3, -tsub_le_iff_right]

/-- A reading below the shutdown threshold does not enter the shutdown state. -/
theorem not_entered_shutdown {r : Int} {lim : Nat → Int} {st : Nat} (h : r < lim 3) :
    (if st < thermLevel r lim st then thermLevel r lim st else 0) ≠ 3 := by
  rw [thermLevel_eq]
  (repeat' split) <;> omega

/-! Registers of the sensors. -/

theorem vput_getElem? {α : Type} {n : Nat} (v : Vector α n) (i j : Nat) (x : α) :
    (vput v i x)[j]? = if j = i then (v[j]?).map fun _ => x else v[j]? := by
  unfold vput
  rw [Vector.getElem?_setIfInBounds]
  by_cases h : i = j
  · subst h
    by_cases hi : i < n <;> simp [hi]
  · rw [if_neg h, if_neg (Ne.symm h)]

theorem vmod_getElem? {α : Type} {n : Nat} (v : Vector α n) (i j : Nat) (f : α → α) :
    (vmod v i f)[j]? = if j = i then (v[j]?).map f else v[j]? := by
  unfold vmod
  split
  · next hi =>
    rw [Vector.getElem?_set]
    by_cases h : i = j
    · subst h
      simp [hi]
    · rw [if_neg h, if_neg (Ne.symm h)]
  · next hi =>
    split
    · next h => simp [h, hi]
    · rfl

/-- A sound reading of a sensor in its register. -/
def sensed (i : Nat) (v : Int) (s : State) : State :=
  { s with therm := { s.therm with temp := vmod s.therm.temp i fun m => m.publish v, bad := vput s.therm.bad i false } }

theorem noteReading_of_sound {i : Nat} {v : Int} {s : State} (hlo : -960 ≤ v) (hhi : v ≤ 2400) : noteReading i ⟨v, false⟩ s = sensed i v s := by
  unfold noteReading
  have hbad : (false || decide (v < -960) || decide (2400 < v)) = false := by simp; omega
  dsimp only
  rw [hbad]
  rfl

theorem sensed_limitOf (i : Nat) (v : Int) (s : State) : (sensed i v s).limitOf = s.limitOf := rfl

theorem sensorIndex_lt (k : Sensor) : sensorIndex k < 11 := by
  cases k with
  | nand p => have := p.isLt; simp only [sensorIndex]; omega
  | ctrl => decide
  | dram => decide
  | holdup => decide

theorem sensed_reading {i : Nat} (hi : i < 11) (v : Int) (s : State) : (sensed i v s).reading i = v := by
  have hbad : (((sensed i v s).therm.bad[i]?).getD false) = false := by
    show ((vput s.therm.bad i false)[i]?).getD false = false
    rw [vput_getElem?, if_pos rfl, Vector.getElem?_eq_getElem hi]
    rfl
  have hval : (((sensed i v s).therm.temp[i]?).getD .reset).value = v := by
    show (((vmod s.therm.temp i fun m => m.publish v)[i]?).getD .reset).value = v
    rw [vmod_getElem?, if_pos rfl, Vector.getElem?_eq_getElem hi]
    rfl
  unfold State.reading
  rw [hbad, hval]
  cases sensorClass i <;> rfl

/-- What a reading of a sensor with thresholds leaves: its registers and its thermal state (R386, R387). -/
theorem sensorUpdate_readings {s : State} {k : Sensor} {v : Int} {c : Nat} (hawake : s.mainAwake = true) (hheld : s.therm.held = false)
    (hc : sensorClass (sensorIndex k) = some c) (hlo : -960 ≤ v) (hhi : v ≤ 2400) (hv : v < s.limitOf c 3) :
    ∃ u, exec (.sensorUpdate k v false) s = .next (settle u) ∧ readings u =
      readings (withLevel (sensorIndex k) (thermLevel v (s.limitOf c) ((s.therm.state[sensorIndex k]?).getD 0))
        (sensed (sensorIndex k) v s)) := by
  obtain ⟨hentered, hstate⟩ := followState_of_class (sensed (sensorIndex k) v s) hc
  rw [sensed_reading (sensorIndex_lt k), sensed_limitOf] at hentered hstate
  refine ⟨followThrottle (followState (sensorIndex k) (sensed (sensorIndex k) v s)).1
    (crossEvents s (followWindow (followState (sensorIndex k) (sensed (sensorIndex k) v s)).2)), ?_, ?_⟩
  · show execSensorUpdate k v false s = _
    unfold execSensorUpdate
    rw [hawake, hheld]
    dsimp only
    rw [noteReading_of_sound hlo hhi, if_neg (by simp), if_neg (hentered ▸ not_entered_shutdown hv)]
    rfl
  · rw [followThrottle_readings, crossEvents_readings, followWindow_readings]
    exact hstate

/-! Enforcement (R389, R390). -/

theorem exec_throttleGrace {s : State} (hawake : s.mainAwake = true) (hreq : s.therm.request = true) (hgraced : s.therm.graced = false) :
    exec .throttleGraceExpiry s = .next (settle (enforceFirst { s with therm := { s.therm with graced := true } })) := by
  have hon : s.pwr.mainOn = true := (Bool.and_eq_true_iff.1 hawake).1
  show execThrottleGraceExpiry s = _
  unfold execThrottleGraceExpiry
  rw [if_neg (by simp [hon, hreq, hgraced])]
  exact congrArg done (if_pos hawake)

/-- A full second has passed with every sensor cool (R390). -/
def coolSecond (s : State) : Bool := (s.therm.coolSince.any fun t => decide (t + 1000000000 ≤ s.now)) && s.allBelow 2 5

/-- What the end of a second of enforcement leaves with no sensor at its throttle threshold (R390). -/
def CoolStep (s u : State) : Prop :=
  u.therm.cap = (if coolSecond s then s.therm.cap - 1 else s.therm.cap) ∧
    (∀ t ∈ s.therm.coolSince, u.therm.cap < s.therm.cap → u.therm.coolSince = some (t + 1000000000)) ∧
    (u.therm.cap = 0 → u.therm.request = false ∧ u.therm.graced = false) ∧
    (u.therm.cap ≠ 0 → u.therm.request = s.therm.request) ∧ u.therm.temp = s.therm.temp ∧ u.therm.state = s.therm.state ∧
    u = { s with therm := u.therm, pwr := u.pwr, stalls := u.stalls } ∧ u.pwr = { s.pwr with op := u.pwr.op }

theorem coolStep_stay {s : State} (hcap : s.therm.cap ≠ 0) (h : coolSecond s = false) : CoolStep s s :=
  ⟨by rw [h]; rfl, fun t ht hlt => absurd hlt (lt_irrefl _), fun h => absurd h hcap, fun _ => rfl, rfl, rfl, rfl, rfl⟩

/-- Enforcement after one step up (R390). -/
def steppedUp (since : Nat) (s : State) : State :=
  setThrottle (s.therm.cap - 1) { s with therm := { s.therm with coolSince := some since } }

theorem coolStep_up {s : State} {t n : Nat} (ht : s.therm.coolSince = some t) (hn : t + 1000000000 = n) (h : coolSecond s = true) :
    CoolStep s (if s.therm.cap - 1 = 0 then
      { steppedUp n s with therm := { (steppedUp n s).therm with request := false, graced := false } } else steppedUp n s) := by
  have hshape := setThrottle_shape (s.therm.cap - 1) { s with therm := { s.therm with coolSince := some n } }
  have hsince (t' : Nat) (ht' : t' ∈ s.therm.coolSince) : t' = t := by
    rw [ht] at ht'
    exact (Option.some.inj ht').symm
  unfold CoolStep
  rw [h]
  split
  · next hcap =>
    rw [steppedUp, hshape]
    exact ⟨rfl, fun t' ht' _ => by rw [hsince t' ht', hn], fun _ => ⟨rfl, rfl⟩, fun hne => absurd hcap hne, rfl, rfl, rfl, rfl⟩
  · next hcap =>
    rw [steppedUp, hshape]
    exact ⟨rfl, fun t' ht' _ => by rw [hsince t' ht', hn], fun h0 => absurd h0 hcap, fun _ => rfl, rfl, rfl, rfl, rfl⟩

theorem exec_enforcementSecond_cool {s : State} (hawake : s.mainAwake = true) (hcap : s.therm.cap ≠ 0) (hat : s.anyAt 2 = false) :
    ∃ u, exec .enforcementSecond s = .next (settle u) ∧ CoolStep s u := by
  have hrow : exec .enforcementSecond s = execEnforcementSecond s := rfl
  rw [hrow]
  unfold execEnforcementSecond
  rw [if_neg (by simp [hawake, hcap]), if_neg (by simp [hat])]
  cases hcool : s.therm.coolSince with
  | none => exact ⟨s, rfl, coolStep_stay hcap (by rw [coolSecond, hcool]; rfl)⟩
  | some t =>
    dsimp only
    generalize hn : t + 1000000000 = n
    split
    · next hwait =>
      refine ⟨s, rfl, coolStep_stay hcap ?_⟩
      rw [coolSecond, hcool, Option.any_some, hn]
      simp only [Bool.or_eq_true, decide_eq_true_eq, Bool.not_eq_eq_eq_not, Bool.not_true] at hwait
      rcases hwait with h | h <;> simp [h]
    · next hwait =>
      refine ⟨_, rfl, coolStep_up hcool hn ?_⟩
      rw [coolSecond, hcool, Option.any_some, hn]
      simp only [Bool.or_eq_true, decide_eq_true_eq, Bool.not_eq_eq_eq_not, Bool.not_true, not_or, not_lt, Bool.not_eq_false] at hwait
      simp [hwait.1, hwait.2]

/-! Thermal shutdown (R394, R395). -/

theorem recordShutdown_shape (k : Nat) (t : Int) (s : State) :
    recordShutdown k t s = { s with hb := (recordShutdown k t s).hb, health := (recordShutdown k t s).health } ∧
      (recordShutdown k t s).hb.busy = s.hb.busy := by
  have hentry (v : W32) : (s.hb.addEntry 8 v).busy = s.hb.busy := by
    simp only [Harbour.addEntry, Harbour.rotate, Harbour.beginRotate, Harbour.fillLine, Harbour.beginErase, Harbour.endErase,
      Harbour.store, Harbour.setValue, ite_self, apply_ite Harbour.busy]
  have hstore (v : W32) : storePersist 8 v s = { s with hb := (storePersist 8 v s).hb, health := (storePersist 8 v s).health } ∧
      (storePersist 8 v s).hb.busy = s.hb.busy := ⟨rfl, hentry v⟩
  unfold recordShutdown
  split
  · exact ⟨rfl, rfl⟩
  · dsimp only
    exact hstore (w32 (min 0xFFFF (fld (s.persist 8) 31 16 + 1) * 65536 + lowBits 8 (t / 16) * 256 + k))

theorem stopMain_of_idle {s : State} (h : s.hb.busy = none) : stopMain s = mainOff s := by
  have hidle : { s.hb with busy := none } = s.hb := by rw [← h]
  unfold stopMain abandonJob
  rw [h]
  show mainOff { s with hb := { s.hb with busy := none } } = _
  rw [hidle]

/-- What the main domain leaves as it goes off with no operation of the harbour in progress. -/
theorem stopMain_facts {s : State} (h : s.hb.busy = none) :
    (stopMain s).pwr.mainOn = false ∧ (stopMain s).therm.held = s.therm.held ∧ (stopMain s).therm.shutting = s.therm.shutting ∧
      (stopMain s).med = s.med.mainReset ∧ (stopMain s).bcn.net = s.bcn.net ∧ (stopMain s).acc.saved = s.acc.saved := by
  rw [stopMain_of_idle h]
  exact ⟨rfl, rfl, rfl, rfl, rfl, rfl⟩

/-- The main domain goes off in thermal shutdown with no operation of the harbour in progress. -/
theorem holdShutdown_facts {s : State} (h : s.hb.busy = none) :
    (holdShutdown s).pwr.mainOn = false ∧ (holdShutdown s).therm.held = true ∧ (holdShutdown s).therm.shutting = false ∧
      (holdShutdown s).med = s.med.mainReset ∧ (holdShutdown s).bcn.net = s.bcn.net ∧ (holdShutdown s).acc.saved = s.acc.saved := by
  have hstop (u : State) (hb : u.hb.busy = none) := stopMain_facts (s := { u with therm := { u.therm with held := true, shutting := false } }) hb
  unfold holdShutdown
  cases s.therm.shutSrc with
  | none => exact hstop s h
  | some x =>
    dsimp only
    split
    · obtain ⟨hshape, hbusy⟩ := recordShutdown_shape x.1 x.2 { s with therm := { s.therm with shutSrc := none } }
      have hfacts := hstop _ (hbusy.trans h)
      rw [hshape] at hfacts ⊢
      exact hfacts
    · exact hstop s h

/-- A clean stop leaves the marks, and the checkpoint at the write sequence (R110, R172). -/
theorem cleanStop_med (s : State) : (cleanStop s).med.clean = true ∧ (cleanStop s).med.ckptSeq = s.med.wseq ∧
    (cleanStop s).med.marks = s.med.marks ∧ (cleanStop s).med.held = s.med.held := by
  unfold cleanStop Media.checkpoint Media.cleanPages Media.makeDurable
  exact ⟨rfl, rfl, rfl, rfl⟩

/-- The steps of Table 14-14 end at once with nothing fetched. -/
theorem endThermal_eq {s : State} (hshut : s.therm.shutting = true) (hin : s.nv.inflight = []) :
    endThermal s = holdShutdown (cleanStop (flushHeld 0 s)) := by
  unfold endThermal
  rw [if_neg (by simp [hshut, hin])]

/-- Settles O11: a reading by its registers and levels, enforcement by its steps, and a thermal shutdown by its flush. -/
theorem thermalRows : Obligations.ThermalRows := by
  unfold Obligations.ThermalRows
  refine ⟨⟨fun s k v c hawake hheld hc hlo hhi hv => ?_, fun lim r h12 h23 st hst => ?_⟩, ⟨fun s hawake hreq hgraced => ⟨fun hat => ?_, fun hat hcap => ?_⟩,
    fun s hawake hcap hle => ?_⟩, fun s hshut hin hbusy c n d h => ?_, fun s hshut hheld c n d h => ?_⟩
  · obtain ⟨u, hu, hr⟩ := sensorUpdate_readings hawake hheld hc hlo hhi hv
    simp only [readings, withLevel, sensed, Prod.mk.injEq] at hr
    obtain ⟨htemp, hbad, hstate, hmed, hns, hram, hnet, hhb⟩ := hr
    have hi := sensorIndex_lt k
    refine ⟨u, hu, ?_, ?_, ?_, fun j hj => ⟨?_, ?_⟩, hmed, hns, hram, hnet, hhb⟩
    · rw [htemp, vmod_getElem?, if_pos rfl]
    · rw [hbad, vput_getElem?, if_pos rfl, Vector.getElem?_eq_getElem hi]
      rfl
    · rw [hstate, vput_getElem?, if_pos rfl, Vector.getElem?_eq_getElem hi]
      rfl
    · rw [htemp, vmod_getElem?, if_neg hj]
    · rw [hstate, vput_getElem?, if_neg hj]
  · refine ⟨fun h => ?_, fun h => ?_, fun h2 hlo hhi => ?_, fun h0 hlo hhi => ?_⟩ <;> rw [thermLevel_eq] <;> (repeat' split) <;> omega
  · rw [exec_throttleGrace hawake hreq hgraced, enforceFirst, if_neg]
    show ¬((true && s.therm.cap == 0 && s.anyAt 2) = true)
    simp [hat]
  · rw [exec_throttleGrace hawake hreq hgraced, enforceFirst, if_pos]
    · refine ⟨_, rfl, ?_, setThrottle_direct ?_, ?_, ?_⟩
      · rw [setThrottle_shape]
      · show s.therm.cap < 1
        omega
      · rw [setThrottle_shape]
      · rw [setThrottle_shape]
    · show (true && s.therm.cap == 0 && s.anyAt 2) = true
      simp [hat, hcap]
  · cases hat : s.anyAt 2 with
    | true =>
      refine ⟨setThrottle (min 3 (s.therm.cap + 1)) { s with therm := { s.therm with coolSince := none } }, ?_, ?_⟩
      · show execEnforcementSecond s = _
        unfold execEnforcementSecond
        rw [if_neg (by simp [hawake, hcap]), if_pos hat]
        rfl
      · rw [setThrottle_shape]
        refine ⟨rfl, fun _ => rfl, fun t _ hlt => ?_, fun h0 => ?_, fun _ => rfl, rfl, rfl, rfl, rfl⟩
        · change min 3 (s.therm.cap + 1) < s.therm.cap at hlt
          omega
        · change min 3 (s.therm.cap + 1) = 0 at h0
          omega
    | false =>
      obtain ⟨u, hu, hcap', hsince, hzero, hreq, hrest⟩ := exec_enforcementSecond_cool hawake hcap hat
      exact ⟨u, hu, hcap', fun h => absurd h Bool.false_ne_true, hsince, hzero, hreq, hrest⟩
  · obtain ⟨hon, hheld, hshut', hmed, hnet, hsaved⟩ := holdShutdown_facts (s := cleanStop (flushHeld 0 s)) (by simp [hbusy])
    obtain ⟨hclean, hckpt, hmarks, -⟩ := cleanStop_med (flushHeld 0 s)
    have hsteady := steady_flushHeld 0 s
    refine ⟨holdShutdown (cleanStop (flushHeld 0 s)), ?_, hon, hheld, hshut', ?_, ?_, ?_, ?_, ?_⟩
    · show execShutdownSample c n d h s = _
      unfold execShutdownSample
      rw [if_pos hshut, endThermal_eq hshut hin]
      rfl
    · rw [hmed]
      exact hclean
    · rw [hmed]
      exact hckpt.trans (congrArg Media.wseq hsteady :)
    · rw [hmed]
      exact hmarks.trans (congrArg Media.marks hsteady :)
    · simp [hnet]
    · simp [hsaved]
  · show execShutdownSample c n d h s = _
    unfold execShutdownSample
    rw [if_neg (by simp [hshut]), if_neg (by simp [hheld])]
    exact apply_ite done _ _ _

end Sys2Proof.Proofs
end

section
/-! A fault source of a frame sets its bit (R363). -/

namespace Sys2Proof.Proofs

open Sys2Proof Sys2Proof.Machine Sys2Proof.Laws

theorem getLsbD_w32_and (x m b : Nat) (hb : b < 32) : (w32 (x &&& m)).getLsbD b = (x.testBit b && m.testBit b) := by
  rw [w32, BitVec.getLsbD_ofNat, Nat.testBit_and, decide_eq_true hb, Bool.true_and]

theorem toNat_b8_testBit (x b : Nat) (hb : b < 8) : (b8 x).toNat.testBit b = x.testBit b := by
  rw [b8, BitVec.toNat_ofNat, Nat.testBit_mod_two_pow, decide_eq_true hb, Bool.true_and]

theorem setFrame_stored {s : State} {f : Nat} (v : W32) (hf : f < 64) : ((s.setFrame f v).ev.status[f]?).getD 0 = v &&& frameBits f := by
  have h : ((vput s.ev.status f (v &&& frameBits f))[f]?).getD 0 = v &&& frameBits f := by
    rw [vput_getElem?, if_pos rfl, Vector.getElem?_eq_getElem hf]
    rfl
  unfold State.setFrame
  dsimp only
  (repeat' split) <;> exact h

theorem getLsbD_beaconFrame : ∀ b < 32, (0x1FE : W32).getLsbD b = true →
    b < 8 ∧ (0xFE : Nat).testBit b = true ∧ (0x100 : W32).getLsbD b = false ∨ (0x100 : W32).getLsbD b = true := by decide

theorem getLsbD_busFrame : ∀ b < 32, (0xF8 : W32).getLsbD b = true → b < 8 ∧ (0xF8 : Nat).testBit b = true := by decide

/-- A defined bit that is stored behind FAULT_STATUS of a frame reads there. -/
theorem frameStatus_setFrame {s : State} {f b : Nat} {v : W32} (hf : f < 64) (hb : bit (frameBits f) b = true) (hv : bit v b = true) :
    bit ((s.setFrame f v).frameStatus f) b = true := by
  have hb32 : b < 32 := BitVec.lt_of_getLsbD hb
  unfold bit at hb hv ⊢
  have hstored : (v &&& frameBits f).getLsbD b = true := by rw [BitVec.getLsbD_and, hb, hv]; rfl
  have hvn : v.toNat.testBit b = true := by rw [BitVec.testBit_toNat, hv]
  unfold State.frameStatus
  rw [setFrame_stored v hf]
  dsimp only
  split
  · next h =>
    subst h
    rw [show (s.setFrame 0 v).bcn.sticky = b8 (v.toNat &&& 0xFE) from rfl, BitVec.getLsbD_or, BitVec.getLsbD_and, hstored,
      getLsbD_w32_and _ _ _ hb32]
    rcases getLsbD_beaconFrame b hb32 hb with ⟨h8, hmask, hown⟩ | hown
    · rw [toNat_b8_testBit _ _ h8, Nat.testBit_and, hvn, hmask, hown]
      rfl
    · rw [hown]
      rfl
  split
  · next h =>
    subst h
    obtain ⟨h8, hmask⟩ := getLsbD_busFrame b hb32 hb
    rw [show (s.setFrame 1 v).bus.sticky = b8 (v.toNat &&& 0xF8) from rfl, getLsbD_w32_and _ _ _ hb32, toNat_b8_testBit _ _ h8,
      Nat.testBit_and, hvn, hmask]
    rfl
  split
  · next h =>
    subst h
    have hown : (0x30000 : W32).getLsbD b = true := hb
    rw [BitVec.getLsbD_or, BitVec.getLsbD_and, hstored, hown]
    rfl
  · exact hstored

/-- The journal clears no bit of FAULT_STATUS. -/
theorem frameStatus_journal {s : State} {f b : Nat} (k o c d : Nat) (h : bit (s.frameStatus f) b = true) :
    bit ((journal k o c d s).frameStatus f) b = true := by
  unfold journal
  dsimp only
  split
  · exact h
  split
  · unfold State.frameStatus at h ⊢
    dsimp only at h ⊢
    rw [vmod_getElem?]
    unfold bit at h ⊢
    by_cases h5 : f = 5
    · subst h5
      rw [Vector.getElem?_eq_getElem (show 5 < 64 by decide)] at h ⊢
      change ((s.ev.status[5] &&& 0x30000) ||| w32 s.ev.pulseBits).getLsbD b = true at h
      change (((s.ev.status[5] ||| 0x10000) &&& 0x30000) ||| w32 s.ev.pulseBits).getLsbD b = true
      simp only [BitVec.getLsbD_or, BitVec.getLsbD_and, Bool.or_eq_true, Bool.and_eq_true] at h ⊢
      exact h.imp_left (And.imp_left .inl)
    · rwa [if_neg h5]
  · split <;> exact h

theorem raiseFault_bit {s : State} {f b : Nat} (hon : s.frameOn f = true) (hb : bit (frameBits f) b = true) (hf : f < 64) :
    bit ((raiseFault f b s).frameStatus f) b = true := by
  have hset : bit ((s.setFrame f (putBit (s.frameStatus f) b true)).frameStatus f) b = true :=
    frameStatus_setFrame hf hb (bit_putBit_self _ _ (BitVec.lt_of_getLsbD hb))
  unfold raiseFault raiseFaultKind
  rw [if_neg (by simp [hon, hb])]
  dsimp only
  split
  · assumption
  split
  · exact hset
  · exact frameStatus_journal _ _ _ _ hset

/-- A fault outside the frames of the Beacon and the bus changes only the event registers. -/
theorem raiseFault_shape {f : Nat} (b : Nat) (s : State) (h0 : f ≠ 0) (h1 : f ≠ 1) :
    raiseFault f b s = { s with ev := (raiseFault f b s).ev } := by
  have hset (v : W32) : s.setFrame f v = { s with ev := (s.setFrame f v).ev } := by
    unfold State.setFrame
    rw [if_neg h0, if_neg h1]
  have hjournal (u : State) (k o c d : Nat) : journal k o c d u = { u with ev := (journal k o c d u).ev } := by
    unfold journal
    dsimp only
    (repeat' split) <;> rfl
  unfold raiseFault raiseFaultKind
  dsimp only
  split
  · rfl
  split
  · rfl
  split
  · exact hset _
  · rw [hjournal, hset]

end Sys2Proof.Proofs
end

section
/-! The link, resets, enabling and shutdown of the controller (R97, R108 to R110, R183): settles O15 and O16. -/

namespace Sys2Proof.Proofs

open Sys2Proof Sys2Proof.Machine Sys2Proof.Laws

/-! What the host writes to the controller. -/

theorem up_operating {s : State} (h : Up s) : s.operating = true := by
  simp [State.operating, State.running, h.main, h.alive, h.step, h.fatal, h.flush]

theorem up_writeWaits {s : State} (h : Up s) : s.writeWaits = false := by
  have hstep : ¬s.pwr.step < 6 := by have := h.step; omega
  simp [State.writeWaits, h.watch, hstep]

/-- With the card up and its link, a write acts at once. -/
theorem hostWrite_of_up {s : State} (h : Up s) (hl : s.pwr.link = true) (w : HostWrite) : hostWrite w s = applyWrite w s := by
  unfold hostWrite
  rw [hl, up_writeWaits h, up_operating h]
  rfl

/-- Before the end of start-up step 6 a write waits (R183). -/
theorem hostWrite_of_starting {s : State} (hl : s.pwr.link = true) (hfw : s.firmware = true) (hstep : s.pwr.step < 6)
    (hflush : s.pwr.flush = .idle) (hw : s.pwr.watch ≠ .asleep) (w : HostWrite) :
    hostWrite w s = { s with nv := { s.nv with late := s.nv.late ++ [w] } } := by
  have hwait : s.writeWaits = true := by simp [State.writeWaits, hfw, hstep, hflush]
  unfold hostWrite
  rw [hl, hwait]
  exact if_neg hw

/-- In Watch a write waits, and wakes the card (R113). -/
theorem hostWrite_of_asleep {s : State} (hl : s.pwr.link = true) (hon : s.pwr.mainOn = true) (hw : s.pwr.watch = .asleep)
    (hheld : s.therm.held = false) (w : HostWrite) :
    hostWrite w s = { s with nv := { s.nv with late := s.nv.late ++ [w] }
                             pwr := { s.pwr with wakeSrc := putBit s.pwr.wakeSrc 1 true, wakeDue := true } } := by
  have hwait : s.writeWaits = true := by simp [State.writeWaits, hon, hw]
  unfold hostWrite
  rw [hl, hwait]
  dsimp only
  rw [if_neg (by simp), if_pos rfl, if_pos hw, wake, if_neg (by simp [hheld, hw])]

/-! Enabling (R97) and shutdown (R110). -/

theorem exec_shutdown {s : State} (h : Up s) (hl : s.pwr.link = true) (hshst : s.nv.shst = 0) {shn : BitVec 2} (hshn : shn = 1 ∨ shn = 2) :
    exec (.shutdownNotification shn) s = .next (settle { s with nv := { s.nv with shst := 1, shn := shn.toNat } }) := by
  have hn : shn.toNat = 1 ∨ shn.toNat = 2 := hshn.imp (congrArg BitVec.toNat) (congrArg BitVec.toNat)
  show done (hostWrite (.shutdown shn.toNat) s) = _
  rw [hostWrite_of_up h hl, applyWrite, if_neg (by rcases hn with hn | hn <;> simp [hshst, hn])]
  rfl

/-- With no command to wait for, shutdown processing ends in the same step (R110). -/
theorem settle_shutdown {s : State} (hr : (s.running && s.pwr.watch != .asleep) = true) (hshst : s.nv.shst = 1) (hin : s.nv.inflight = []) :
    (settle s).nv.shst = 2 ∧ (settle s).nv.wtHold = true ∧ (settle s).med = (cleanStop (flushHeld 0 s)).med := by
  have hend : endShutdown s = { cleanStop (flushHeld 0 s) with nv := { (cleanStop (flushHeld 0 s)).nv with shst := 2, wtHold := true } } := by
    unfold endShutdown
    rw [if_neg (by simp [hshst, hin])]
  have hpart : shutdownPart (settle s).nv = (2, true) := by
    show shutdownPart (publish s).nv = _
    rw [publish_of_router_on hr, sendCompletions_shutdownPart, sendEvents_nv, publishHoldup_nv, critEvents_shutdownPart, hend]
    rfl
  obtain ⟨h2, ht⟩ := Prod.mk.inj hpart
  refine ⟨h2, ht, ?_⟩
  show (publish s).med = _
  rw [publish_of_router_on hr, sendCompletions_med, sendEvents_med, publishHoldup_med, critEvents_med, hend]

/-- Settles O16: enabling by its fields, and what waits by the state that it waits for. -/
theorem enableAndShutdownRows : Obligations.EnableAndShutdownRows := by
  unfold Obligations.EnableAndShutdownRows
  refine ⟨fun s ams aqa asq acq hup hl hen hrdy hams => ?_, fun s ams aqa asq acq hup hl hen hrdy hams => ?_,
    fun s shn hup hl hshst hshn => exec_shutdown hup hl hshst hshn, fun s i w hi hl => ?_, fun s shn hup hl hshst hshn hin => ?_⟩
  · refine ⟨enableController ams.toNat aqa asq acq s, ?_, ?_⟩
    · show done (hostWrite (.enable ams.toNat aqa asq acq) s) = _
      rw [hostWrite_of_up hup hl]
      rfl
    · unfold enableController
      rw [if_neg (by simp [hen, hrdy]), if_neg (by omega)]
      exact ⟨rfl, rfl, rfl, rfl, rfl, rfl, rfl, rfl, rfl, ⟨_, look_put_self _ _ _, rfl, rfl, rfl, rfl⟩, ⟨_, look_put_self _ _ _, rfl, rfl, rfl, rfl⟩, rfl⟩
  · show done (hostWrite (.enable ams.toNat aqa asq acq) s) = _
    rw [hostWrite_of_up hup hl, applyWrite, enableController, if_neg (by simp [hen, hrdy]), if_pos hams]
    rfl
  · have hrow : exec i s = done (hostWrite w s) := by
      rcases hi with hi | ⟨ams, aqa, asq, acq, rfl, rfl⟩ | ⟨shn, rfl, rfl⟩
      · rcases List.mem_pair.1 hi with h | h <;> cases h <;> rfl
      · rfl
      · rfl
    rw [hrow]
    exact ⟨fun hfw hstep hflush hw => by rw [hostWrite_of_starting hl hfw hstep hflush hw]; rfl,
      fun hon hw hheld => by rw [hostWrite_of_asleep hl hon hw hheld]; rfl⟩
  · have hr : (s.running && s.pwr.watch != .asleep) = true := by simp [State.running, hup.main, hup.alive, hup.watch]
    obtain ⟨h2, ht, hmed⟩ := settle_shutdown (s := { s with nv := { s.nv with shst := 1, shn := shn.toNat } }) hr rfl hin
    obtain ⟨hclean, hckpt, -, hheld⟩ := cleanStop_med (flushHeld 0 { s with nv := { s.nv with shst := 1, shn := shn.toNat } })
    refine ⟨_, exec_shutdown hup hl hshst hshn, h2, ht, ?_, ?_, ?_⟩ <;> rw [hmed]
    · exact hclean
    · exact hheld.trans (held_flushHeld _ _)
    · exact hckpt.trans (congrArg Media.wseq (steady_flushHeld 0 _) :)

/-! The link and resets (R108, R109). -/

/-- A controller reset with nothing fetched. -/
theorem resetController_of_idle {s : State} (h : s.nv.inflight = []) : resetController s = reselect { s with
    nv := { ({ s.nv with sqs := [], cqs := [] } : Nvme).afterReset with cfs := s.pwr.fatal.isSome, wctemp := s.warnDefault 1 + 273
                                                                        cctemp := baseLimit 1 3 - (s.userLower 1 : Int) + 273 }
    therm := { s.therm with warnSet := Vector.replicate 3 none, evtOver := Vector.replicate 4 none, evtUnder := Vector.replicate 4 none }
    keeper := { s.keeper with nvme := s.keeper.nvme.closed, armed := [] }
    pwr := { (leavePs4 s).pwr with cmd := 0 } } := by
  unfold resetController
  dsimp only
  rw [h]
  rfl

theorem runFree_of_none {s : State} (h : ∀ q ∈ s.queries, q.pipe = none → q.state ≠ .waiting) : runFree s = s := by
  have hnil : (s.queries.filter fun q => q.pipe.isNone && q.state == .waiting && !s.paused q) = [] := by
    rw [List.filter_eq_nil_iff]
    intro q hq
    cases hp : q.pipe with
    | none => simp [h q hq hp]
    | some p => simp
  unfold runFree
  rw [hnil]
  rfl

/-- The link is down, and what waited of the host's writes is gone. -/
def unlinked (s : State) : State := { s with pwr := { s.pwr with link := false }, nv := { s.nv with late := [] } }

/-- The loss of the link with nothing fetched and no query that can start is a reset (R109). -/
theorem linkLost_of_idle {s : State} (hin : s.nv.inflight = []) (hq : ∀ q ∈ s.queries, q.pipe = none → q.state ≠ .waiting) :
    linkLost s = resetController (unlinked s) := by
  have hcmds : ((unlinked s).nv.inflight.filter fun c => c.phase == .landing) = [] := by
    rw [show (unlinked s).nv.inflight = [] from hin]
    rfl
  show resetController (runFree (((unlinked s).nv.inflight.filter fun c => c.phase == .landing).foldl
    (fun s c => dropCmd c.h (Machine.discard c.h s)) (unlinked s))) = _
  rw [hcmds]
  exact congrArg resetController (runFree_of_none (s := unlinked s) hq)

/-- What the loss of the link, or PERST#, leaves with nothing fetched. -/
def LinkGone (s u : State) : Prop :=
  u.pwr.link = false ∧ u.nv.en = false ∧ u.nv.rdy = false ∧ u.nv.sqs = [] ∧ u.nv.cqs = [] ∧
    u.nv.feat = .reset ∧ u.pwr.cmd = 0 ∧ u.keeper.nvme.session = none ∧ u.keeper.bus = s.keeper.bus ∧ u.ev = s.ev ∧ u.med = s.med ∧
    u.ns = s.ns ∧ u.slots = s.slots ∧ u.pipes = s.pipes ∧ u.lots = s.lots ∧ u.ram = s.ram ∧ u.acc = s.acc ∧ u.bcn = s.bcn

theorem linkGone_linkLost {s : State} (hin : s.nv.inflight = []) (hq : ∀ q ∈ s.queries, q.pipe = none → q.state ≠ .waiting) :
    LinkGone s (linkLost s) := by
  unfold LinkGone
  rw [linkLost_of_idle hin hq, resetController_of_idle (s := unlinked s) hin, reselect_shape]
  exact ⟨rfl, rfl, rfl, rfl, rfl, rfl, rfl, rfl, rfl, rfl, rfl, rfl, rfl, rfl, rfl, rfl, rfl, rfl⟩

/-- Settles O15: PERST#, the link and a reset with nothing fetched, through the reset of the controller. -/
theorem linkAndResetRows : Obligations.LinkAndResetRows := by
  unfold Obligations.LinkAndResetRows
  refine ⟨fun s hw hheld => ?_, fun s hfw hw hflush => ?_, fun s i hi hon hrail hw hfatal hflush hlink hin hq => ?_,
    fun s i hi hup hl hen hin => ?_⟩
  · show execPerstAssert s = _
    unfold execPerstAssert
    dsimp only
    rw [if_pos hw, wake, if_neg (by simp [hheld, hw])]
    rfl
  · show execPerstRelease s = _
    have hup : (s.firmware && s.pwr.watch != .asleep && s.pwr.flush == .idle) = true := by simp [hfw, hw, hflush]
    unfold execPerstRelease
    rw [hup]
    rfl
  · rcases hi with rfl | rfl
    · obtain ⟨h1, h2, h3, h4, h5, h6, h7, h8, h9, -, h11⟩ := linkGone_linkLost (s := { s with pwr := { s.pwr with perst := true } }) hin hq
      refine ⟨_, ?_, h1, h2, h3, h4, h5, h6, h7, h8, h9, fun h => (by cases h), h11⟩
      show execPerstAssert s = _
      unfold execPerstAssert
      dsimp only
      rw [if_neg hw, if_pos (by simp [hon, hrail, hflush, hfatal])]
      rfl
    · have hshape := raiseFault_shape 4 s (show 8 ≠ 0 by decide) (show 8 ≠ 1 by decide)
      have hbit : bit ((raiseFault 8 4 s).frameStatus 8) 4 = true := by
        refine raiseFault_bit ?_ (by decide) (by decide)
        simp [State.frameOn, State.mainAwake, hon, hw]
      rw [hshape] at hbit
      obtain ⟨h1, h2, h3, h4, h5, h6, h7, h8, h9, hev, h11⟩ := linkGone_linkLost (s := { s with ev := (raiseFault 8 4 s).ev }) hin hq
      refine ⟨_, ?_, h1, h2, h3, h4, h5, h6, h7, h8, h9, fun _ => ?_, h11⟩
      · show execLinkDown s = _
        unfold execLinkDown
        rw [if_pos (by simp [hon, hrail, hlink rfl, hw, hfatal]), hshape]
        rfl
      · change bit (((linkLost _).ev.status[8]?).getD 0) 4 = true
        rw [hev]
        exact hbit
  · have hrow : exec i s = done (resetController s) := by
      rcases hi with rfl | rfl
      · show done (hostWrite .reset s) = _
        rw [hostWrite_of_up hup hl, applyWrite, if_pos hen]
      · show done (hostWrite .flr s) = _
        rw [hostWrite_of_up hup hl, applyWrite]
    refine ⟨resetController s, hrow, ?_⟩
    rw [resetController_of_idle hin, reselect_shape, hup.fatal]
    exact ⟨rfl, rfl, rfl, rfl, rfl, rfl, rfl, rfl, rfl, hl, rfl, rfl, rfl, rfl, rfl⟩

end Sys2Proof.Proofs
end

section
/-! Power loss, the flush and LOSS_DET (R153 to R164): settles O10. -/

namespace Sys2Proof.Proofs

open Sys2Proof Sys2Proof.Machine Sys2Proof.Laws

/-! Programs that start leave what is stored (R119, R120). -/

/-- The media without what waits for a die or runs on one, and without the superblocks that take it. -/
def undriven (m : Media) : Media :=
  { m with queue := [], progs := [], nextProg := 0, blocks := [], supers := [], nextSuper := 0, nextPar := Vector.replicate 2 0 }

theorem undriven_of_stocked {m n : Media} (h : stocked m = stocked n) : undriven m = undriven n :=
  (show undriven m = undriven (stocked m) from rfl).trans ((congrArg undriven h).trans rfl)

theorem undriven_pumpOne {m n : Media} {may : Chunk → Bool} (h : m.pumpOne may = some n) : undriven n = undriven m := by
  unfold Media.pumpOne at h
  dsimp only at h
  split at h
  · cases h
  split at h
  · cases h
  · next k n' hsuper =>
    have hn : undriven n' = undriven m := by
      rw [Option.orElse_eq_or, Option.or_eq_some_iff] at hsuper
      rcases hsuper with hsuper | ⟨-, hsuper⟩
      · exact undriven_of_stocked (stocked_bufferSuper hsuper)
      · split at hsuper
        · exact undriven_of_stocked (stocked_bufferIn hsuper)
        · cases hsuper
    split at h
    · cases h
    split at h
    · cases h
    · cases h
      exact (show undriven _ = undriven n' from rfl).trans hn

theorem undriven_pump (may : Chunk → Bool) (fuel : Nat) (m : Media) : undriven (Media.pump may fuel m) = undriven m := by
  induction fuel generalizing m with
  | zero => rfl
  | succ fuel ih =>
    rw [Media.pump]
    cases h : m.pumpOne may with
    | none => rfl
    | some n => exact (ih n).trans (undriven_pumpOne h)

theorem undriven_submit (m : Media) (may : Chunk → Bool) (cs : List Chunk) : undriven (m.submit may cs) = undriven m :=
  (undriven_pump may _ _).trans rfl

/-- Sound Held data that begins its program stays in DRAM. -/
theorem programHeld_of_sound {s : State} (h : HeldSound s) (ks : List Nat) :
    programHeld ks s = { s with med := (programHeld ks s).med } ∧ undriven (programHeld ks s).med = undriven s.med := by
  unfold programHeld
  rw [dropSpoiled_of_sound h]
  exact ⟨rfl, undriven_submit _ _ _⟩

/-! What an operation of the harbour that is abandoned leaves of the media (R322). -/

/-- What the map names and its durable entries name, and the main rail. -/
def mapped (s : State) := (s.med.content, s.med.shadow, s.pwr.rail12)

theorem mapped_foldl {α : Type} (f : State → α → State) (h : ∀ s x, mapped (f s x) = mapped s) (l : List α) (s : State) :
    mapped (l.foldl f s) = mapped s := foldl_keep mapped f h l s

theorem mapped_loseHeld (k : Nat) (s : State) : mapped (loseHeld k s) = mapped s := by
  have hmark (s : State) : mapped (markUnrec none k s) = mapped s := by
    unfold markUnrec
    split
    · rfl
    · simp [mapped]
  unfold loseHeld
  split
  · rfl
  · rw [hmark]
    unfold Media.dropHeld Media.unqueue
    simp only [mapped]
    split <;> rfl

theorem mapped_programHeld (ks : List Nat) (s : State) : mapped (programHeld ks s) = mapped s := by
  have hdrop : mapped (dropSpoiled ks s) = mapped s := mapped_foldl _ (fun s k => mapped_loseHeld k s) _ s
  rw [← hdrop]
  unfold programHeld
  generalize dropSpoiled ks s = t
  have hmed : undriven (submit (chunksOf none (ks.filterMap fun k => (look t.med.held k).map fun h => (k, h.slot))) t).med = undriven t.med :=
    undriven_submit _ _ _
  show (_, _, t.pwr.rail12) = _
  exact Prod.ext (congrArg Media.content hmed :) (Prod.ext (congrArg Media.shadow hmed :) rfl)

theorem mapped_rebudget (s : State) : mapped (rebudget s) = mapped s := by
  have hpulse (t : State) : mapped (raisePulse 260 0 0 t) = mapped t := by simp [mapped]
  have hprogram (t : State) (ks : List Nat) : mapped (if t.running then programHeld ks t else t) = mapped t := by
    split
    · exact mapped_programHeld ks t
    · rfl
  unfold rebudget
  dsimp only
  split
  · rw [hpulse, hprogram]
    rfl
  · rw [hprogram]
    rfl

theorem mapped_persistEffect (n : Nat) (v : W32) (s : State) : mapped (persistEffect n v s) = mapped s := by
  unfold persistEffect
  split
  case h_5 => exact mapped_rebudget s
  case h_7 =>
    rw [reselect_shape]
    rfl
  all_goals rfl

theorem mapped_abandonJob (s : State) : mapped (abandonJob s) = mapped s := by
  have hpersist (n : Nat) (v : W32) (t : State) : mapped (abandonPersist n v t) = mapped t := by
    unfold abandonPersist
    dsimp only
    split
    · split
      · exact mapped_persistEffect n v _
      · rfl
    · split
      · exact mapped_persistEffect n v _
      · rfl
  have hrules (t : State) : mapped (abandonRules t) = mapped t := by
    unfold abandonRules
    dsimp only
    split <;> rfl
  unfold abandonJob
  dsimp only
  split
  · exact hpersist _ _ _
  · split <;> rfl
  · split
    · rfl
    · split <;> rfl
  · exact hrules _
  · exact hrules _
  · split
    · rfl
    · split <;> rfl
  · rfl

/-- The main domain that goes off shows what the durable map names: all of it, when no change waits (R170). -/
theorem stopMain_content {s : State} (h : s.med.shadow = []) : (stopMain s).med.content = s.med.content := by
  have hm := mapped_abandonJob s
  simp only [mapped, Prod.mk.injEq] at hm
  obtain ⟨hcontent, hshadow, -⟩ := hm
  show (abandonJob s).med.mainReset.content = _
  rw [← hcontent]
  unfold Media.mainReset Media.revert
  rw [hshadow, h]
  rfl

theorem stopMain_rail12 (s : State) : (stopMain s).pwr.rail12 = s.pwr.rail12 := by
  have hm := mapped_abandonJob s
  simp only [mapped, Prod.mk.injEq] at hm
  exact hm.2.2

/-! The flush of Table 6-4. -/

/-- Steps 3 and 4 with no operation of the harbour in progress. -/
theorem gateOff_of_idle {s : State} (h : s.hb.busy = none) : gateOff s = { s with
    med := { s.med with pendMarks := s.med.pendMarks.filter fun m => !s.pendingBelow m.bound }
    stalls := Vector.replicate 64 .reset, lots := [], queries := [], waitq := [], opens := [], ns := s.ns.map fun x => (x.1, x.2.lost)
    hu := { s.hu with measuring := false, flushing := false }, keeper := { s.keeper with nvme := s.keeper.nvme.closed } } := by
  have hjob : abandonJob s = s := by
    have hidle : { s.hb with busy := none } = s.hb := by rw [← h]
    unfold abandonJob
    rw [h]
    show { s with hb := { s.hb with busy := none } } = _
    rw [hidle]
  unfold gateOff
  dsimp only
  rw [hjob]

/-- What the marks that are kept leave as they are programmed. -/
def flushed (s : State) := (s.pwr, s.hb, s.acc, s.bcn.net, s.med.held, s.med.flushRec)

theorem flushed_programMark (m : PendingMark) (s : State) : flushed (programMark false m s) = flushed s := by
  unfold programMark
  simp [flushed]

/-- The flush programs its record once start-up step 6 has ended (R161, R173). -/
theorem flushAll_facts (s : State) : (flushAll s).pwr = s.pwr ∧ (flushAll s).hb = s.hb ∧ (flushAll s).acc = s.acc ∧
    (flushAll s).bcn.net = s.bcn.net ∧ (flushAll s).med.flushRec = (s.med.flushRec || decide (6 ≤ s.pwr.step)) := by
  have hmarks : flushed (s.med.pendMarks.foldl (fun s m => programMark false m s) (flushHeld 4 s)) = flushed (flushHeld 4 s) :=
    foldl_keep flushed _ (fun s m => flushed_programMark m s) _ _
  simp only [flushed, Prod.mk.injEq, flushHeld_pwr, flushHeld_hb, flushHeld_acc, flushHeld_bcn] at hmarks
  obtain ⟨hpwr, hhb, hacc, hnet, -, hrec⟩ := hmarks
  refine ⟨hpwr, hhb, hacc, hnet, ?_⟩
  show (_ || decide (6 ≤ (s.med.pendMarks.foldl (fun s m => programMark false m s) (flushHeld 4 s)).pwr.step)) = _
  rw [hrec, hpwr, show (flushHeld 4 s).med.flushRec = s.med.flushRec from (congrArg Media.flushRec (steady_flushHeld 4 s) :)]

theorem loseJournal_shape (s : State) : loseJournal s = { s with fresh := (loseJournal s).fresh, ev := (loseJournal s).ev } := rfl

/-- After a flush the main domain is off, or starts again when the rail is back (R163). -/
theorem afterFlush_off (s : State) : (afterFlush false s).pwr.mainOn = false ∧ (afterFlush false s).pwr.wasFlush = true ∧
    (afterFlush false s).pwr.short = s.pwr.short ∧ (afterFlush false s).med.flushRec = s.med.flushRec ∧ (afterFlush false s).med.held = [] ∧
    (afterFlush false s).med.pendMarks = [] ∧ (afterFlush false s).hb.flash = s.hb.flash ∧ (afterFlush false s).acc.saved = s.acc.saved :=
  ⟨rfl, rfl, rfl, rfl, rfl, rfl, rfl, rfl⟩

theorem afterFlush_back {s : State} (h : 6 ≤ s.pwr.step) : (afterFlush true s).pwr.mainOn = true ∧ (afterFlush true s).pwr.step = 2 ∧
    (afterFlush true s).med.clean = false ∧ (afterFlush true s).med.flushRec = s.med.flushRec ∧ (afterFlush true s).med.held = [] := by
  have hstep : ¬s.pwr.step < 6 := by omega
  refine ⟨rfl, rfl, ?_, rfl, rfl⟩
  show (s.med.clean && decide (s.pwr.step < 6)) = false
  simp [hstep]

/-- The bank is below 2 V after the flush, and at about 8 V when the rail is back (R163). -/
def discharged (back : Bool) (s : State) : State :=
  { s.take.2 with hu := { s.hu with
      bankMv := if back then 8000 + Config.freeVoltage s.take.1 % max 1 (s.hu.bankMv + 1 - 8000) else Config.freeVoltage s.take.1 % 2000 } }

theorem exec_flushComplete {s : State} (h : s.pwr.flush = .running ∨ s.pwr.flush = .railBack) :
    exec .flushCompleteRecord s = .next (settle (discharged (s.pwr.flush == .railBack) (afterFlush (s.pwr.flush == .railBack) (flushAll s)))) := by
  show execFlushCompleteRecord s = _
  unfold execFlushCompleteRecord
  rw [if_neg (by rcases h with h | h <;> simp [h])]
  rfl

/-- What the cutoff of the bank leaves before the main domain goes off (R164). -/
def cutOff (n : Nat) (s : State) : State :=
  { setMedia (ceilDiv n 4) (s.heldRefresh { (s.med.progs.foldl (fun m p => m.endProg p [] s.now) s.med).programHeld 4 (s.med.heldOrder.take n) with
      flushRec := false, pendMarks := [] }) s with
    pwr := { s.pwr with short := some (ceilDiv (s.med.heldOrder.length - n) 256) } }

theorem cutOff_flushRec (n : Nat) (s : State) : (cutOff n s).med.flushRec = false :=
  (congrArg Media.flushRec (steady_heldRefresh s _) :)

theorem exec_bankCutoff {s : State} (k : Nat) (hflush : s.pwr.flush = .running) (hstep : 6 ≤ s.pwr.step) (hs : HeldSound s) :
    ∃ u : State, exec (.bankCutoff k) s = .next (settle { u.take.2 with hu := { u.hu with bankMv := 7800 + Config.freeVoltage u.take.1 % 401 } }) ∧
      u = afterFlush false (cutOff (min k s.med.heldOrder.length) s) := by
  have hnot : ¬s.pwr.step < 6 := by omega
  refine ⟨_, ?_, rfl⟩
  show execBankCutoff k s = _
  unfold execBankCutoff
  rw [if_neg (by simp [hflush]), hflush, dropSpoiled_of_sound hs]
  simp only [hnot, decide_false, Bool.and_false, Bool.false_eq_true, if_false]
  rfl

/-! Detection (R153, R161). -/

/-- The power-loss detection gates the card off. -/
def detected (s : State) : State :=
  { s with pwr := { s.pwr with rail12 := false, flush := .running, fatal := none, detect := false, early := false, watch := .awake
                               link := false, rearm := true }
           bus := { s.bus with token := false }, nv := { s.nv with sqs := [], cqs := [] }, hu := { s.hu with state := 2 }
           therm := { s.therm with shutting := false } }

theorem exec_powerLoss_armed {s : State} (hrail : s.pwr.rail12 = true) (hw : s.pwr.watch ≠ .asleep) (hon : s.pwr.mainOn = true)
    (hstep : 3 ≤ s.pwr.step) (halive : s.pwr.recovery = false) (harmed : s.pwr.detect = true) (hflush : s.pwr.flush = .idle) :
    exec .powerLossDetect s = .next (settle (gateOff (detected s))) := by
  have hnot : ¬s.pwr.step < 3 := by omega
  show execPowerLossDetect s = _
  unfold execPowerLossDetect
  rw [if_neg (by simp [hrail, hw])]
  dsimp only
  rw [if_neg (by simp [hon]), if_neg (by simp [hflush]), if_neg (by simp [hnot, halive, harmed]), if_neg (by simp [hflush])]
  rfl

/-- The main rail is gone. -/
def railGone (s : State) : State := { s with pwr := { s.pwr with rail12 := false }, bus := { s.bus with token := false } }

theorem exec_powerLoss_unarmed {s : State} (hrail : s.pwr.rail12 = true) (hw : s.pwr.watch ≠ .asleep) (hon : s.pwr.mainOn = true)
    (hearly : s.pwr.step < 3 ∨ s.pwr.recovery = true ∨ s.pwr.detect = false) (hflush : s.pwr.flush ≠ .railBack) :
    exec .powerLossDetect s = .next (settle (stopMain (loseJournal (railGone s)))) := by
  show execPowerLossDetect s = _
  unfold execPowerLossDetect
  rw [if_neg (by simp [hrail, hw])]
  dsimp only
  rw [if_neg (by simp [hon]), if_neg (by simp [hflush]), if_pos (by rcases hearly with h | h | h <;> simp [h])]
  rfl

/-! LOSS_DET (R155). -/

theorem exec_lossDet {s : State} (hon : s.mainAwake = true) (harm : s.pwr.lossArmed = true) (hlow : s.pwr.lossHigh = false) {u : State}
    (hu : raisePulse 258 0 0 { s with pwr := { s.pwr with lossHigh := true } } = u) :
    exec .lossDet s = .next (settle (if !u.operating || u.med.held.isEmpty then u else
      if u.windowClosed then { u with pwr := { u.pwr with early := true } }
      else programHeld u.med.unprogrammed { u with pwr := { u.pwr with early := true } })) := by
  subst hu
  show execLossDet s = _
  unfold execLossDet
  rw [if_neg (by simp [hon, harm, hlow])]
  rfl

theorem raisePulse_shape (src slot d : Nat) (s : State) : raisePulse src slot d s = { s with ev := (raisePulse src slot d s).ev } := by
  apply state_ext <;> simp

/-- Settles O10: each row by its case, and the flush by what it leaves. -/
theorem powerLossRows : Obligations.PowerLossRows := by
  unfold Obligations.PowerLossRows
  refine ⟨⟨fun s hrail hw hon hstep halive harmed hflush hbusy => ?_, fun s hw => ?_, fun s hrail hw hon hearly hflush => ?_,
      fun s hrail hw hon hflush => ?_⟩,
    ⟨fun s hflush => ?_, fun s hflush hstep => ?_, fun s k hflush hstep hs => ?_, fun s hflush => ?_, fun s hrail hfw hflush hw => ?_⟩,
    fun s hon => ?_, fun s hon harm hlow hheld => ?_, fun s hop hon harm hlow hheld hs => ?_, fun s hearly => ?_⟩
  · refine ⟨_, exec_powerLoss_armed hrail hw hon hstep halive harmed hflush, ?_⟩
    rw [gateOff_of_idle (s := detected s) hbusy]
    exact ⟨rfl, rfl, rfl, rfl, rfl, rfl, rfl, rfl, rfl, rfl, rfl, rfl, rfl, rfl, rfl, rfl⟩
  · show execPowerLossDetect s = _
    unfold execPowerLossDetect
    rw [if_pos (by simp [hw])]
    rfl
  · refine ⟨_, exec_powerLoss_unarmed hrail hw hon hearly hflush, rfl, stopMain_rail12 _, fun hshadow => ?_⟩
    exact stopMain_content (s := loseJournal (railGone s)) hshadow
  · show execPowerLossDetect s = _
    unfold execPowerLossDetect
    rw [if_neg (by simp [hrail, hw])]
    dsimp only
    rw [if_neg (by simp [hon]), if_pos (by simp [hflush])]
    rfl
  · obtain ⟨hpwr, hhb, hacc, -, hrec⟩ := flushAll_facts s
    obtain ⟨hoff, hwas, -, hrec', hheld, hmarks, hflash, hsaved⟩ := afterFlush_off (flushAll s)
    refine ⟨_, exec_flushComplete (.inl hflush), ?_⟩
    rw [hflush]
    exact ⟨hoff, hwas, hrec'.trans hrec, hheld, hmarks, Nat.mod_lt _ (by decide), hflash.trans (congrArg Harbour.flash hhb), hsaved.trans (by rw [hacc])⟩
  · obtain ⟨hpwr, -, -, -, hrec⟩ := flushAll_facts s
    obtain ⟨hon, hstep', hclean, hrec', hheld⟩ := afterFlush_back (s := flushAll s) (hpwr ▸ hstep)
    refine ⟨_, exec_flushComplete (.inr hflush), ?_⟩
    rw [hflush]
    exact ⟨hon, hstep', hclean, hrec'.trans (by simp [hrec, hstep]), hheld⟩
  · obtain ⟨u, hu, rfl⟩ := exec_bankCutoff k hflush hstep hs
    obtain ⟨hoff, -, hshort, hrec, hheld, -⟩ := afterFlush_off (cutOff (min k s.med.heldOrder.length) s)
    refine ⟨_, hu, hoff, hrec.trans (cutOff_flushRec _ s), hheld, hshort, Nat.le_add_right _ _, ?_⟩
    show 7800 + _ % 401 ≤ 8200
    omega
  · show execRailReturnDuringFlush s = _
    unfold execRailReturnDuringFlush
    rw [if_pos (by simp [hflush])]
    rfl
  · show execDetectRearm s = _
    unfold execDetectRearm
    rw [if_pos (by simp [hrail, hfw, hflush, hw])]
    rfl
  · show execLossDetArm s = _
    unfold execLossDetArm
    rw [if_pos hon]
    rfl
  · rw [exec_lossDet hon harm hlow rfl, if_pos (by simp [hheld])]
  · have hpulse := raisePulse_shape 258 0 0 { s with pwr := { s.pwr with lossHigh := true } }
    rw [exec_lossDet hon harm hlow hpulse, if_neg (by
      show ¬(!s.operating || s.med.held.isEmpty) = true
      simp [hop, hheld])]
    split
    · exact ⟨_, rfl, rfl, rfl, rfl, rfl⟩
    · obtain ⟨hshape, hmed⟩ := programHeld_of_sound (s := { s with
          pwr := { s.pwr with lossHigh := true, early := true }
          ev := (raisePulse 258 0 0 { s with pwr := { s.pwr with lossHigh := true } }).ev }) hs s.med.unprogrammed
      refine ⟨_, rfl, congrArg State.pwr hshape, ?_, (congrArg Media.held hmed :), (congrArg Media.content hmed :)⟩
      have hpwr := congrArg State.pwr hshape
      have hev := congrArg State.ev hshape
      dsimp only at hshape hpwr hev ⊢
      rw [hpwr, hev]
      exact hshape
  · show execEarlyFlushEnd s = _
    unfold execEarlyFlushEnd
    rw [if_pos hearly]
    rfl

end Sys2Proof.Proofs
end

section
/-! Faults that the card detects in itself, and the fatal path (R370 to R372): settles O14. -/

namespace Sys2Proof.Proofs

open Sys2Proof Sys2Proof.Machine Sys2Proof.Laws

/-! The fatal path. -/

theorem journal_shape (k o c d : Nat) (s : State) : journal k o c d s = { s with ev := (journal k o c d s).ev } := by
  unfold journal
  dsimp only
  (repeat' split) <;> rfl

/-- What the fatal path leaves, from a bit of a frame (R372). -/
def FatalPath (f b : Nat) (s u : State) : Prop :=
  u.pwr = { s.pwr with fatal := some (32 * f + b), early := false, watch := .awake } ∧
    bit (u.frameStatus f) b = true ∧ u.nv = { s.nv with cfs := true } ∧ u.stalls = Vector.replicate 64 .reset ∧
    u.lots = [] ∧ u.queries = [] ∧ u.med = { s.med with pendMarks := u.med.pendMarks } ∧ u.bcn = s.bcn ∧ u.hb = s.hb ∧
    u.ram = s.ram ∧ u.bus = s.bus

theorem fatalPath_coreFault {s : State} {f b : Nat} (h1 : 1 < f) (hf : f < 64) (hb : bit (frameBits f) b = true) (hframe : s.frameOn f = true)
    (hrun : s.running = true) (hawake : s.mainAwake = true) (hfatal : s.pwr.fatal = none) (hflush : s.pwr.flush = .idle)
    (hbusy : s.hb.busy = none) : FatalPath f b s (coreFault f b s) := by
  have hshape := raiseFault_shape (f := f) b s (by omega) (by omega)
  have hbit := frameStatus_journal 4 0xFF 5 (Config.fatalDetail f b) (raiseFault_bit hframe hb hf)
  unfold coreFault
  rw [hshape] at hbit ⊢
  generalize (raiseFault f b s).ev = e at hbit
  unfold startFatal
  have hgo : (!s.running || !s.mainAwake || s.pwr.fatal.isSome || s.pwr.flush != .idle) = false := by
    simp [hrun, hawake, hfatal, hflush]
  change bit (State.frameStatus (journal 4 0xFF 5 (Config.fatalDetail f b) { s with ev := e }) f) b = true at hbit
  change FatalPath f b s (if (!s.running || !s.mainAwake || s.pwr.fatal.isSome || s.pwr.flush != .idle) = true then _ else _)
  rw [hgo, if_neg Bool.false_ne_true]
  dsimp only
  rw [journal_shape] at hbit ⊢
  generalize (journal 4 0xFF 5 (Config.fatalDetail f b) { s with ev := e }).ev = e' at hbit
  unfold FatalPath
  rw [gateOff_of_idle (by exact hbusy)]
  refine ⟨rfl, ?_, rfl, rfl, rfl, rfl, rfl, rfl, rfl, rfl, rfl⟩
  unfold State.frameStatus at hbit ⊢
  exact hbit

/-- The rows of the fatal path, with their pair excluded. -/
theorem exec_fatal {s : State} {i : Instr} {f b : Nat} {k : Fin 4} {out : BitVec 4} (hi : (i, f, b, out) ∈ [
      (Instr.watchdogExpiry (.translation k), 0x20, 3, putBit s.pwr.pairsOut k.val true),
      (.watchdogExpiry .management, 0x21, 3, s.pwr.pairsOut),
      (.lockstepMismatch (.cores (.translation k)), 0x20, 2, putBit s.pwr.pairsOut k.val true),
      (.lockstepMismatch (.cores .management), 0x21, 2, s.pwr.pairsOut),
      (.lockstepMismatch (.eccUncorr 0x20 .core), 0x20, 1, s.pwr.pairsOut), (.clockLoss .main, 2, 5, s.pwr.pairsOut)])
    (hrun : s.running = true) (hawake : s.mainAwake = true) (hbusy : s.hb.busy = none) :
    exec i s = .next (settle (coreFault f b { s with pwr := { s.pwr with pairsOut := out } })) ∧
      f ∈ [2, 0x20, 0x21] ∧ bit (frameBits f) b = true := by
  have hpair (p : CorePair) (c : Nat) : pairFault p c s = coreFault (pairFrame p) c (excludePair p s) := by
    unfold pairFault
    rw [if_pos (by simp [hrun, hawake])]
  simp only [List.mem_cons, Prod.mk.injEq, List.not_mem_nil, or_false] at hi
  rcases hi with ⟨rfl, rfl, rfl, rfl⟩ | ⟨rfl, rfl, rfl, rfl⟩ | ⟨rfl, rfl, rfl, rfl⟩ | ⟨rfl, rfl, rfl, rfl⟩ | ⟨rfl, rfl, rfl, rfl⟩ | ⟨rfl, rfl, rfl, rfl⟩
  · refine ⟨?_, by decide, by decide⟩
    show execWatchdogExpiry _ s = _
    unfold execWatchdogExpiry
    rw [if_neg (by simp), hpair]
    rfl
  · refine ⟨?_, by decide, by decide⟩
    show execWatchdogExpiry _ s = _
    unfold execWatchdogExpiry
    rw [if_neg (by simp [hbusy]), hpair]
    rfl
  · refine ⟨?_, by decide, by decide⟩
    show done (pairFault _ 2 s) = _
    rw [hpair]
    rfl
  · refine ⟨?_, by decide, by decide⟩
    show done (pairFault _ 2 s) = _
    rw [hpair]
    rfl
  · refine ⟨?_, by decide, by decide⟩
    show done (if s.mainAwake then startFatal 0x20 1 (raiseFault 0x20 1 s) else s) = _
    rw [if_pos hawake]
    rfl
  · refine ⟨?_, by decide, by decide⟩
    show done (if s.running && s.mainAwake then coreFault 2 5 s else s) = _
    rw [if_pos (by simp [hrun, hawake])]
    rfl

/-! Held data that is bad (R371, Table 13-9). -/

/-- A frame with a bit for its memories is none of the Beacon's and the bus's. -/
theorem eccBit_frame {f k b : Nat} (h : eccBit f k = some b) : f ≠ 0 ∧ f ≠ 1 := by
  unfold eccBit at h
  constructor <;> (rintro rfl; split at h <;> simp at h)

theorem exec_memoryFault {s : State} {c : Comparator} {f k b : Nat} {g : State → State} (hrow : exec (.lockstepMismatch c) s = done (memoryFault f k g s))
    (hb : eccBit f k = some b) (hawake : s.mainAwake = true) :
    ∃ e, exec (.lockstepMismatch c) s = .next (settle (g { s with ev := e })) ∧ raiseFault f b s = { s with ev := e } := by
  obtain ⟨h0, h1⟩ := eccBit_frame hb
  have hshape := raiseFault_shape b s h0 h1
  refine ⟨_, ?_, hshape⟩
  rw [hrow, memoryFault, hb]
  dsimp only
  rw [if_pos hawake, hshape]
  rfl

/-- Held data that is lost leaves DRAM and is marked unrecovered (R140). -/
theorem loseHeld_facts {s : State} {k : Nat} {x : HeldSlot} (h : look s.med.held k = some x) :
    look (loseHeld k s).med.held k = none ∧ k ∈ (loseHeld k s).med.unrec ∧ (loseHeld k s).med.content = s.med.content ∧
      (loseHeld k s).ns = s.ns ∧ (loseHeld k s).nv = s.nv := by
  have hdrop : (s.med.dropHeld k).unrec = s.med.unrec ∧ (s.med.dropHeld k).content = s.med.content := by
    unfold Media.dropHeld Media.unqueue
    split <;> exact ⟨rfl, rfl⟩
  have hgone : look (s.med.dropHeld k).held k = none := (look_del _ k k).trans (if_pos rfl)
  unfold loseHeld
  rw [h, if_neg (by simp)]
  unfold markUnrec
  dsimp only
  by_cases hmem : k ∈ s.med.unrec
  · rw [if_pos (by simp [hdrop.1, hmem])]
    exact ⟨hgone, hdrop.1 ▸ hmem, hdrop.2, rfl, rfl⟩
  · rw [if_neg (by simp [hdrop.1, hmem, hgone])]
    simp [hgone, hdrop.2]

/-! The aux clock. -/

/-- An update of the Beacon without events changes only the Beacon, the journal and the interrupts, and clears no bit of a frame. -/
theorem bcnApply_noEvents (b : Bcn) (s : State) : (∃ e t, bcnApply (b, []) s = { s with bcn := b, ev := e, stalls := t }) ∧
    ∀ {f c : Nat}, f ≠ 0 → bit (s.frameStatus f) c = true → bit ((bcnApply (b, []) s).frameStatus f) c = true := by
  have hjournal (l : List Nat) : ∀ u : State, ((∃ e, l.foldl (fun s b => journal 0 0 b 0 s) u = { u with ev := e }) ∧
      ∀ {f c : Nat}, bit (u.frameStatus f) c = true → bit ((l.foldl (fun s b => journal 0 0 b 0 s) u).frameStatus f) c = true) := by
    induction l with
    | nil => exact fun u => ⟨⟨u.ev, rfl⟩, fun h => h⟩
    | cons x l ih =>
      intro u
      obtain ⟨⟨e, he⟩, hbit⟩ := ih (journal 0 0 x 0 u)
      refine ⟨⟨e, ?_⟩, fun h => hbit (frameStatus_journal _ _ _ _ h)⟩
      rw [List.foldl_cons, he, journal_shape]
  unfold bcnApply
  dsimp only [List.foldl_nil]
  generalize ([1, 2, 3, 4, 5, 6, 7].filter fun k => bit b.sticky k && !bit s.bcn.sticky k) = l
  obtain ⟨⟨e, he⟩, hbit⟩ := hjournal l { s with bcn := b }
  have hframe {f c : Nat} (h0 : f ≠ 0) (h : bit (s.frameStatus f) c = true) : bit (State.frameStatus { s with bcn := b } f) c = true := by
    unfold State.frameStatus at h ⊢
    dsimp only at h ⊢
    rw [if_neg h0] at h ⊢
    exact h
  split
  · exact ⟨⟨e, _, by rw [he]; rfl⟩, fun h0 h => hbit (hframe h0 h)⟩
  split
  · exact ⟨⟨e, _, by rw [he]; rfl⟩, fun h0 h => hbit (hframe h0 h)⟩
  · exact ⟨⟨e, _, by rw [he]⟩, fun h0 h => hbit (hframe h0 h)⟩

theorem exec_clockLoss_aux {s : State} (hon : s.beaconOn = true) (hcode : s.bcn.code = 0) :
    ∃ u, exec (.clockLoss .aux) s = .next (settle u) ∧ u.bcn.code = 6 ∧ bit (u.frameStatus 2) 6 = true ∧
      u.bcn.net = s.bcn.net ∧ u.bcn.count = s.bcn.count ∧ u.med = s.med ∧ u.ns = s.ns := by
  have haux : s.pwr.auxOn = true := (Bool.and_eq_true_iff.1 (Bool.and_eq_true_iff.1 hon).1).1
  have hbit : bit ((raiseFault 2 6 s).frameStatus 2) 6 = true := raiseFault_bit haux (by decide) (by decide)
  have hshape := raiseFault_shape 6 s (f := 2) (by decide) (by decide)
  obtain ⟨⟨e, t, hu⟩, hkeep⟩ := bcnApply_noEvents (s.bcn.enterFault 6) (raiseFault 2 6 s)
  obtain ⟨c, vn, v, en, hfault, hc⟩ := enterFault_shape s.bcn 6
  rw [if_pos hcode] at hc
  refine ⟨bcnApply (s.bcn.enterFault 6, []) (raiseFault 2 6 s), ?_, ?_, hkeep (by decide) hbit, ?_, ?_, ?_, ?_⟩
  · show done (if (raiseFault 2 6 s).beaconOn then bcnApply ((raiseFault 2 6 s).bcn.enterFault 6, []) (raiseFault 2 6 s) else _) = _
    rw [if_pos (by rw [hshape]; exact hon), show (raiseFault 2 6 s).bcn = s.bcn by rw [hshape]]
    rfl
  · rw [hu, hfault]
    exact hc
  · rw [hu, hfault]
  · rw [hu, hfault]
  · rw [hu, hshape]
  · rw [hu, hshape]

/-- Settles O14: the fatal path by its one entry, and each fault that the card survives by its row. -/
theorem selfDetectedFaults : Obligations.SelfDetectedFaults := by
  unfold Obligations.SelfDetectedFaults
  refine ⟨⟨fun s i f b k out hi hon haux halive hw hfatal hflush hbusy => ?_, fun s hfatal hstep => ?_⟩,
    fun s hawake hbusy hheld => ?_, fun s hawake => ?_, fun s m nsid lo hi needs hm => ?_, fun s => ⟨rfl, rfl⟩,
    fun s f hawake hlo hhi => ?_, fun s f b hawake hb => ?_, fun s hawake => ?_, fun s f nsid lba b x hawake hx => ⟨fun hb => ?_, fun hb again => ?_⟩,
    fun s hon hcode => exec_clockLoss_aux hon hcode, fun s f b hon hb _ hf => raiseFault_bit hon hb hf⟩
  · have hrun : s.running = true := by simp [State.running, hon, halive]
    have hawake : s.mainAwake = true := by simp [State.mainAwake, hon, hw]
    obtain ⟨hrow, hmem, hb⟩ := exec_fatal hi hrun hawake hbusy
    have hf : 1 < f ∧ f < 64 ∧ s.frameOn f = true := by
      simp only [List.mem_cons, List.not_mem_nil, or_false] at hmem
      rcases hmem with rfl | rfl | rfl
      · exact ⟨by decide, by decide, haux⟩
      · exact ⟨by decide, by decide, hawake⟩
      · exact ⟨by decide, by decide, hawake⟩
    exact ⟨_, hrow, fatalPath_coreFault (s := { s with pwr := { s.pwr with pairsOut := out } }) hf.1 hf.2.1 hb hf.2.2 hrun hawake hfatal hflush hbusy⟩
  · obtain ⟨-, hhb, -, hnet, hrec⟩ := flushAll_facts s
    refine ⟨startMain { flushAll s with med := { (flushAll s).med with clean := false } }, ?_, rfl, rfl, rfl, rfl, rfl, ?_, ?_, ?_⟩
    · have hsome : s.pwr.fatal.isNone = false := by
        cases h : s.pwr.fatal with
        | none => exact absurd h hfatal
        | some x => rfl
      show execFatalFlushDone s = _
      unfold execFatalFlushDone
      rw [hsome]
      rfl
    · show (flushAll s).med.flushRec = true
      simp [hrec, hstep]
    · exact (congrArg Harbour.flash hhb :)
    · exact hnet
  · show done (if s.mainAwake then abandonOp (raiseFault 3 3 s) else s) = _
    rw [if_pos hawake, abandonOp, raiseFault_hb, hbusy]
    rfl
  · show done (if s.mainAwake then _ else s) = _
    rw [if_pos hawake]
    rfl
  · unfold mediaAccess mediaAccessIn
    rw [if_pos hm]
    rfl
  · show done (if s.mainAwake && decide (0x28 ≤ f.val ∧ f.val ≤ 0x36) then raiseFault f.val 2 s else s) = _
    rw [if_pos (by simp [hawake, hlo, hhi])]
    rfl
  · show done (memoryFault f.val 0 id s) = _
    rw [memoryFault, hb]
    exact congrArg done (if_pos hawake)
  · show done (if s.mainAwake then raiseFault 0x22 2 s else s) = _
    rw [if_pos hawake]
    rfl
  · obtain ⟨e, hrow, -⟩ := exec_memoryFault (c := .eccUncorr f (.held nsid lba)) rfl hb hawake
    exact ⟨_, hrow, loseHeld_facts (s := { s with ev := e }) hx⟩
  · obtain ⟨e, hrow, -⟩ := exec_memoryFault (c := .e2eCrc f (.held nsid lba) again) rfl hb hawake
    refine ⟨_, hrow, ?_, rfl, rfl, rfl, rfl⟩
    show look (adjust s.med.held (slotKey nsid lba) fun h => { h with err := 1 }) (slotKey nsid lba) = _
    rw [look_adjust, if_pos rfl, hx]
    rfl

end Sys2Proof.Proofs
end

section
/-! Completions, range locks and the rebuild (R99, R101, R102, R173): settles O8, O18 and O19. -/

namespace Sys2Proof.Proofs

open Sys2Proof Sys2Proof.Machine Sys2Proof.Laws

/-! A completion changes the queues and the fetched commands only (R99). -/

theorem complete_shape (h sct sc : Nat) (d0 d1 : W32) (a : List Byte) (s : State) :
    complete h sct sc d0 d1 a s = { s with nv := (complete h sct sc d0 d1 a s).nv } := by
  apply state_ext <;> simp

theorem asyncEvent_shape (ty info page : Nat) (s : State) : asyncEvent ty info page s = { s with nv := (asyncEvent ty info page s).nv } := by
  apply state_ext <;> simp

/-- The controller without its queues and its fetched commands. -/
def offQueues (n : Nvme) : Nvme := { n with sqs := [], cqs := [], inflight := [] }

theorem offQueues_postEntry (e : Completion) (s : State) : offQueues (postEntry e s).nv = offQueues s.nv := by
  unfold postEntry
  split <;> rfl

theorem offQueues_endDeletes (s : State) : offQueues (endDeletes s).nv = offQueues s.nv := by
  unfold endDeletes
  refine foldl_keep (fun u : State => offQueues u.nv) _ (fun u c => ?_) _ s
  dsimp only
  split
  · rfl
  · exact (offQueues_postEntry _ _).trans rfl

theorem offQueues_complete (h sct sc : Nat) (d0 d1 : W32) (a : List Byte) (s : State) :
    offQueues (complete h sct sc d0 d1 a s).nv = offQueues s.nv := by
  unfold complete
  split
  · rfl
  · dsimp only
    split
    · rfl
    · rw [offQueues_endDeletes, offQueues_postEntry]
      rfl

/-- The controller without what an asynchronous event changes. -/
def offEvents (n : Nvme) : Nvme := { offQueues n with events := [], unread := [] }

theorem offEvents_of_offQueues {n m : Nvme} (h : offQueues n = offQueues m) : offEvents n = offEvents m :=
  congrArg (fun x : Nvme => { x with events := [], unread := [] }) h

theorem offEvents_asyncEvent (ty info page : Nat) (s : State) : offEvents (asyncEvent ty info page s).nv = offEvents s.nv := by
  unfold asyncEvent
  split
  · split
    · rfl
    · exact (offEvents_of_offQueues (offQueues_complete _ _ _ _ _ _ _)).trans rfl
  · rfl

theorem endDeletes_of_none {s : State} (h : ∀ x ∈ s.nv.inflight, x.phase ≠ .deleting) : endDeletes s = s := by
  have hnil : (s.nv.inflight.filter fun c => c.phase == .deleting) = [] := by
    rw [List.filter_eq_nil_iff]
    intro x hx
    simp [h x hx]
  unfold endDeletes
  rw [hnil]
  rfl

/-- A completion with no queue to delete posts its entry. -/
theorem complete_of_noDeletes {s : State} {h : Nat} {c : Cmd} (sct sc : Nat) (d0 d1 : W32) (a : List Byte) (hc : s.cmd h = some c)
    (hfatal : s.pwr.fatal = none) (hdel : ∀ x ∈ s.nv.inflight, x.phase ≠ .deleting) :
    complete h sct sc d0 d1 a s = postEntry ⟨c.qid, c.cid, sct, sc, dnrOf sct sc, d0, d1, a⟩ (dropCmd h s) := by
  unfold complete
  rw [hc]
  dsimp only
  rw [if_neg (by simp [dropCmd, hfatal]), endDeletes_of_none]
  intro x hx
  have hin : (postEntry ⟨c.qid, c.cid, sct, sc, dnrOf sct sc, d0, d1, a⟩ (dropCmd h s)).nv.inflight =
      s.nv.inflight.filter fun x => x.h != h := by
    unfold postEntry
    split <;> rfl
  rw [hin] at hx
  exact hdel x (List.mem_filter.1 hx).1

/-- Settles O19: the entry is posted in the queue of its submission queue. -/
theorem completionPosts : Obligations.CompletionPosts := by
  unfold Obligations.CompletionPosts
  intro s h sct sc d0 d1 data c sq q hc hfatal hsq hq hdel
  refine ⟨complete_shape .., ?_⟩
  rw [complete_of_noDeletes sct sc d0 d1 data hc hfatal hdel, postEntry]
  have hsq' : look (dropCmd h s).nv.sqs c.qid = some sq := hsq
  rw [hsq']
  refine ⟨rfl, rfl, ?_⟩
  dsimp only
  rw [look_adjust, if_pos rfl, show look (dropCmd h s).nv.cqs sq.cq = some q from hq]
  exact ⟨_, rfl, rfl, rfl, rfl⟩

/-! Range locks. -/

theorem overlaps_iff {x y : Lock} (hx : x.lo ≤ x.hi) (hy : y.lo ≤ y.hi) :
    x.overlaps y = true ↔ x.nsid = y.nsid ∧ (∃ l, x.lo ≤ l ∧ l ≤ x.hi ∧ y.lo ≤ l ∧ l ≤ y.hi) ∧ (x.excl = true ∨ y.excl = true) := by
  simp only [Lock.overlaps, Bool.and_eq_true, beq_iff_eq, decide_eq_true_eq, Bool.or_eq_true]
  constructor
  · rintro ⟨⟨⟨hns, hxy⟩, hyx⟩, hexcl⟩
    exact ⟨hns, ⟨max x.lo y.lo, by omega, by omega, by omega, by omega⟩, hexcl⟩
  · rintro ⟨hns, ⟨l, h1, h2, h3, h4⟩, hexcl⟩
    exact ⟨⟨⟨hns, by omega⟩, by omega⟩, hexcl⟩

theorem exec_rangeLockGrant {s : State} {h : Nat} {c : Cmd} (hc : s.cmd h = some c) : exec (.rangeLockGrant h) s =
    done (if s.lockFree c then s.modCmd h fun c => { c with granted := true } else s) := by
  show execRangeLockGrant h s = _
  unfold execRangeLockGrant
  rw [hc]

/-- Settles O18: two ranges share an LBA when neither begins after the other ends. -/
theorem rangeLocks : Obligations.RangeLocks := by
  unfold Obligations.RangeLocks
  refine ⟨fun x y hx hy => overlaps_iff hx hy, fun s h c hc hfree => ?_, fun s h c x l m hc hx hlt hl hm hover => ?_,
    fun s c n hq hn hstream hopc => ?_, fun s c n hn hstream => ?_⟩
  · rw [exec_rangeLockGrant hc, if_pos hfree]
    rfl
  · have hfree : s.lockFree c = false := by
      refine Bool.eq_false_iff.2 fun hfree => ?_
      rcases Bool.or_eq_true_iff.1 (List.all_eq_true.1 hfree x hx) with hle | hall
      · have := of_decide_eq_true hle
        omega
      · have hno := List.all_eq_true.1 (List.all_eq_true.1 hall l hl) m hm
        rw [hover] at hno
        cases hno
    rw [exec_rangeLockGrant hc, hfree]
    rfl
  · have hlock : ¬(c.qid = 0 ∨ (!((s.active c.nsid).any fun n => !n.stream)) = true) := by simp [hq, hn, hstream]
    unfold locksOf
    rw [if_neg hlock]
    rcases hopc with h | h <;> rw [h] <;> rfl
  · unfold locksOf
    rw [if_pos (by simp [hn, hstream])]

/-! The rebuild (R173 to R177). -/

/-- The media as the rebuild finds them on a path. -/
def rebuilt (path : Nat) (s : State) : State :=
  journal 4 0xFF 2 path { s with med := { (closeOpen (fun k => !s.scanKey k) s.now s.med).startErases with path := some path } }

theorem exec_rebuild {s : State} (c m : Bool) (torn : List (Nat × Nat)) (hfw : s.firmware = true) (hflush : s.pwr.flush = .idle)
    (hstep : s.pwr.step = 5) (hpath : s.med.path = none) (hshort : s.pwr.short = none) : exec (.rebuild c m torn) s =
    done (if s.rebuildPath c m = 0 then rebuilt (s.rebuildPath c m) s else
      ((rebuilt (s.rebuildPath c m) s).ns.map fun x => x.1).foldl (fun u n => discardTorn torn (s.rebuildPath c m == 2) n u)
        { rebuilt (s.rebuildPath c m) s with pwr := { (rebuilt (s.rebuildPath c m) s).pwr with
            unsafeOff := (rebuilt (s.rebuildPath c m) s).pwr.unsafeOff + 1 } }) := by
  have hshort' : (rebuilt (s.rebuildPath c m) s).pwr.short = none := by
    unfold rebuilt
    simp [hshort]
  show execRebuild c m torn s = _
  unfold execRebuild
  rw [if_neg (by simp [hfw, hflush, hstep, hpath])]
  dsimp only
  rw [show journal 4 0xFF 2 (s.rebuildPath c m) _ = rebuilt (s.rebuildPath c m) s from rfl, hshort']
  dsimp only
  rw [hshort']

/-- The state at the end of start-up step 6. -/
def started (path : Nat) (s : State) : State :=
  { s with med := { (if path = 0 then s.med else { s.med.checkpoint s.scanKey s.now with flushRec := true }) with path := none }
           bcn := { s.bcn with com := { s.bcn.com with num := w64 ((s.med.marks[0]?).elim 0 fun x => x.num), running := true, restart := true }
                               seq := s.bcn.seqLimit, seqLimit := s.bcn.seqLimit + 2 ^ 26 }
           pwr := { s.pwr with step := 6, short := none } }

theorem runLate_of_none {s : State} (h : s.nv.late = []) : runLate s = s := by
  have hnv : { s.nv with late := [] } = s.nv := by rw [← h]
  unfold runLate
  rw [h]
  show { s with nv := { s.nv with late := [] } } = s
  rw [hnv]

theorem exec_rebuildDone {s : State} {path : Nat} (hfw : s.firmware = true) (hflush : s.pwr.flush = .idle) (hstep : s.pwr.step = 5)
    (hpath : s.med.path = some path) (hcompat : s.compat = false) (hlate : s.nv.late = []) :
    exec .rebuildDone s = .next (settle (started path s)) := by
  have hstart : compatStart (started path s) = started path s := by
    unfold compatStart
    exact if_pos (by rw [show (started path s).compat = s.compat from rfl, hcompat]; rfl)
  show execRebuildDone s = _
  unfold execRebuildDone
  rw [hpath]
  dsimp only
  rw [if_neg (by simp [hfw, hflush, hstep])]
  show done (runLate (compatStart (started path s))) = _
  rw [hstart, runLate_of_none (s := started path s) hlate]
  rfl

/-- Settles O8: the path by its flags, and the end of the rebuild by what it loads. -/
theorem rebuildRows : Obligations.RebuildRows := by
  unfold Obligations.RebuildRows
  refine ⟨fun s c m torn hfw hflush hstep hpath hclean hshort => ?_, fun s c m hfw hflush hstep hpath hclean hshort hns => ?_,
    fun s path hfw hflush hstep hpath hcompat hlate => ?_⟩
  · have hzero : s.rebuildPath c m = 0 := by rw [State.rebuildPath, if_pos hclean]
    rw [exec_rebuild c m torn hfw hflush hstep hpath hshort, hzero]
    rfl
  · have hp : s.rebuildPath c m = if c && m && s.med.flushRec then 1 else 2 := by
      rw [State.rebuildPath, if_neg (by simp [hclean])]
    have hne : s.rebuildPath c m ≠ 0 := by
      rw [hp]
      split <;> decide
    have hns' : (rebuilt (s.rebuildPath c m) s).ns = [] := by
      unfold rebuilt
      simp [hns]
    rw [exec_rebuild c m [] hfw hflush hstep hpath hshort, if_neg hne, hns', ← hp, List.map_nil, List.foldl_nil]
    refine ⟨_, rfl, ?_, ?_⟩
    · simp [rebuilt]
    · simp [rebuilt]
  · refine ⟨started path s, exec_rebuildDone hfw hflush hstep hpath hcompat hlate, rfl, rfl, rfl, ?_, rfl, rfl, rfl, rfl, fun x hx => ?_, rfl, fun hne => ?_⟩
    · show (if path = 0 then s.med else _).content = _
      split <;> rfl
    · show w64 ((s.med.marks[0]?).elim 0 fun x => x.num) = w64 x.num
      rw [Option.mem_def.1 hx]
      rfl
    · show (if path = 0 then s.med else _).ckptSeq = _
      rw [if_neg hne]
      rfl

end Sys2Proof.Proofs
end

section
/-! Watch (R172, R377 to R384): settles O13. -/

namespace Sys2Proof.Proofs

open Sys2Proof Sys2Proof.Machine Sys2Proof.Laws

/-! Entry. -/

theorem endWatchWaits_shape (s : State) : endWatchWaits s = { s with nv := (endWatchWaits s).nv } := by
  have hall (l : List Cmd) : ∀ u : State, l.foldl (fun s c => succeed c.h s) u = { u with nv := (l.foldl (fun s c => succeed c.h s) u).nv } := by
    induction l with
    | nil => exact fun u => rfl
    | cons c l ih =>
      intro u
      rw [List.foldl_cons, ih, succeed, complete_shape]
  exact hall _ s

theorem setToken_false (s : State) : setToken false s = { s with
    bus := { s.bus with token := false }, pwr := { s.pwr with op := (setToken false s).pwr.op }, stalls := (setToken false s).stalls } := by
  unfold setToken
  split
  · next h =>
    have hbus : { s.bus with token := false } = s.bus := by rw [← h]
    rw [hbus]
  · dsimp only
    rw [reselect_shape]
    rfl

theorem setToken_of_none {s : State} (h : s.bus.token = false) : setToken false s = s := if_pos h

/-- The state in force is kept, and Held data and the waits for Watch end (R172). -/
def flushedForWatch (s : State) : State := endWatchWaits (flushHeld 0 { s with pwr := { s.pwr with before := s.opState } })

/-- The card at the end of its shutdown for Watch (R172). -/
def quieted (s : State) : State := cleanStop (setToken false (clearDirect (flushedForWatch s)))

/-- The stop for Watch, without the operating point and the controller. -/
theorem quieted_eq (s : State) : ∃ o t n, quieted s = cleanStop { flushHeld 0 { s with pwr := { s.pwr with before := s.opState } } with
      pwr := { s.pwr with before := s.opState, op := o }, bus := { s.bus with token := false }, stalls := t, nv := n } ∧
    (s.bus.token = false → t = s.stalls) := by
  have hwaits := endWatchWaits_shape (flushHeld 0 { s with pwr := { s.pwr with before := s.opState } })
  refine ⟨(setToken false (clearDirect (flushedForWatch s))).pwr.op, (setToken false (clearDirect (flushedForWatch s))).stalls,
    (flushedForWatch s).nv, ?_, fun h => ?_⟩
  · rw [quieted, setToken_false]
    unfold flushedForWatch clearDirect
    rw [hwaits]
    simp only [flushHeld_pwr, flushHeld_bus]
  · unfold flushedForWatch clearDirect
    rw [hwaits, setToken_of_none (by simp [h])]
    simp

theorem exec_watchEntry {s : State} (h : s.watchReady = true) : exec .watchEntry s = .next (settle
    { settle (quieted s) with
      pwr := { (settle (quieted s)).pwr with watch := .asleep, detect := false, hostPs4 := false, early := false }
      hu := { (settle (quieted s)).hu with measuring := false, due := (settle (quieted s)).hu.due || (settle (quieted s)).hu.measuring
                                           lowered := none }
      therm := { (settle (quieted s)).therm with samp := { (settle (quieted s)).therm.samp with pos := (settle (quieted s)).bcn.pos } } }) := by
  show execWatchEntry s = _
  unfold execWatchEntry
  rw [h]
  rfl

/-- The router leaves the media of a card that has stopped cleanly without Held data. -/
theorem settle_stopped {s : State} (hclean : s.med.clean = true) (hheld : s.med.held = []) :
    (settle s).med.clean = true ∧ (settle s).med.held = [] := by
  have hend : (endShutdown s).med.clean = true ∧ (endShutdown s).med.held = [] := by
    unfold endShutdown
    split
    · exact ⟨hclean, hheld⟩
    · obtain ⟨hc, -, -, hh⟩ := cleanStop_med (flushHeld 0 s)
      exact ⟨hc, hh.trans (held_flushHeld 0 s)⟩
  show (publish s).med.clean = true ∧ (publish s).med.held = []
  unfold publish
  split
  · simpa using hend
  · exact ⟨hclean, hheld⟩

theorem quieted_med (s : State) : (quieted s).med.clean = true ∧ (quieted s).med.held = [] := by
  obtain ⟨o, t, n, hq, -⟩ := quieted_eq s
  rw [hq]
  obtain ⟨hc, -, -, hh⟩ := cleanStop_med { flushHeld 0 { s with pwr := { s.pwr with before := s.opState } } with
    pwr := { s.pwr with before := s.opState, op := o }, bus := { s.bus with token := false }, stalls := t, nv := n }
  exact ⟨hc, hh.trans (held_flushHeld 0 _)⟩

/-! Exit. -/

/-- What waiting events leave as they are reported. -/
theorem pumpEvents_shape (fuel : Nat) (s : State) : pumpEvents fuel s = { s with nv := (pumpEvents fuel s).nv } ∧
    offEvents (pumpEvents fuel s).nv = offEvents s.nv := by
  induction fuel generalizing s with
  | zero => exact ⟨rfl, rfl⟩
  | succ fuel ih =>
    rw [pumpEvents]
    split
    · split
      · next e _ _ =>
        obtain ⟨hshape, hnv⟩ := ih (asyncEvent e.1 e.2.1 e.2.2 { s with nv := { s.nv with events := s.nv.events.erase e } })
        refine ⟨?_, hnv.trans ((offEvents_asyncEvent _ _ _ _).trans rfl)⟩
        rw [hshape, asyncEvent_shape]
      · exact ⟨rfl, rfl⟩
    · exact ⟨rfl, rfl⟩

theorem enforceFirst_shape (s : State) : enforceFirst s =
    { s with therm := (enforceFirst s).therm, pwr := { s.pwr with op := (enforceFirst s).pwr.op }, stalls := (enforceFirst s).stalls } := by
  unfold enforceFirst
  split
  · rw [setThrottle_shape]
  · rfl

/-- The card as it leaves Watch, before what waited acts. -/
def awoken (s : State) : State :=
  { s with pwr := { s.pwr with watch := .awake, wakeDue := false, cmd := s.pwr.before, busCmd := s.pwr.before, detect := true, rearm := false }
           bcn := { s.bcn with inp := { s.bcn.inp with resume := s.bcn.inp.resume || s.bcn.mode == 2 }, com := { s.bcn.com with restart := true } }
           med := { s.med with clean := false }
           hu := { s.hu with state := if s.hu.capOk = 0 then 3 else 0, midCharge := false } }

theorem exec_watchExit {s : State} (hw : s.pwr.watch = .asleep) (hdue : s.pwr.wakeDue = true) (hrail : s.pwr.rail12 = true)
    (hperst : s.pwr.perst = false) (hlink : s.pwr.link = true) (hlate : s.nv.late = []) (hq : s.queries = []) :
    exec .watchExit s = .next (settle (reselect (enforceFirst (pumpEvents 16 (raisePulse 268 0 0 (awoken s)))))) := by
  obtain ⟨hshape, hnv⟩ := pumpEvents_shape 16 (raisePulse 268 0 0 (awoken s))
  have hpulse := raisePulse_shape 268 0 0 (awoken s)
  have hlate' : (pumpEvents 16 (raisePulse 268 0 0 (awoken s))).nv.late = [] := by
    refine (congrArg Nvme.late hnv :).trans ?_
    rw [hpulse]
    exact hlate
  have hpwr : (pumpEvents 16 (raisePulse 268 0 0 (awoken s))).pwr = (awoken s).pwr := by rw [hshape, hpulse]
  have hq' : (reselect (enforceFirst (pumpEvents 16 (raisePulse 268 0 0 (awoken s))))).queries = [] := by
    rw [reselect_shape, enforceFirst_shape, hshape, hpulse]
    exact hq
  show execWatchExit s = _
  unfold execWatchExit
  rw [if_neg (by simp [hw, hdue, hrail])]
  show done (runFree (reselect (enforceFirst (if (pumpEvents 16 (raisePulse 268 0 0 (awoken s))).pwr.perst ||
    !(pumpEvents 16 (raisePulse 268 0 0 (awoken s))).pwr.link then _ else runLate (pumpEvents 16 (raisePulse 268 0 0 (awoken s))))))) = _
  rw [hpwr, if_neg (by simp [awoken, hperst, hlink]), runLate_of_none hlate', runFree_of_none (by rw [hq']; simp)]
  rfl

/-! The sampler (R383, R384). -/

/-- What a sample of the sensors leaves. -/
def unsampled (s : State) := (s.hu, s.therm.samp, s.bcn, s.med, s.ram, s.ns)

theorem unsampled_raiseFault (b : Nat) (s : State) : unsampled (raiseFault 2 b s) = unsampled s := by
  rw [raiseFault_shape (f := 2) b s (by decide) (by decide)]
  rfl

theorem unsampled_noteReading (i : Nat) (r : Reading) (s : State) : unsampled (noteReading i r s) = unsampled s := by
  unfold noteReading
  dsimp only
  split
  · exact (unsampled_raiseFault 4 _).trans rfl
  · rfl

theorem unsampled_tempEvent (s : State) : unsampled (tempEvent s) = unsampled s := by
  unfold tempEvent
  (repeat' split)
  · rfl
  · rfl
  · rw [asyncEvent_shape]
    rfl

theorem unsampled_followState (i : Nat) (s : State) : unsampled (followState i s).2 = unsampled s := by
  have henter (c l : Nat) (s : State) : unsampled (enterLevel c l s) = unsampled s := by
    unfold enterLevel
    dsimp only
    rw [unsampled_tempEvent, unsampled_raiseFault]
    rfl
  unfold followState
  split
  · rfl
  · exact (foldl_keep unsampled _ (fun s l => henter _ l s) _ _).trans rfl

theorem unsampled_takeSample (xs : List (Nat × Reading)) (s : State) : unsampled (takeSample xs s).2 = unsampled s := by
  have hnote : unsampled (xs.foldl (fun s x => noteReading x.1 x.2 s) s) = unsampled s :=
    foldl_keep unsampled _ (fun s x => unsampled_noteReading x.1 x.2 s) xs s
  unfold takeSample
  dsimp only
  refine (show unsampled (followWindow _) = unsampled _ from rfl).trans ?_
  exact (foldl_keep (fun acc : Option Nat × State => unsampled acc.2) _ (fun acc x => unsampled_followState x.1 acc.2) xs _).trans hnote

/-- The bank voltage of a sample is stored. -/
def withBank (mv : Nat) (s : State) : State := { s with hu := { s.hu with bankMv := mv, mVolt := s.hu.mVolt.publish mv } }

/-- The sampler takes the limits that a sample exceeds, and the position. -/
def withHits (s : State) : State :=
  { s with therm := { s.therm with samp := { s.therm.samp with hit := s.therm.samp.hit ||| b8 s.hits, pos := s.bcn.pos } } }

theorem exec_watchSample {s : State} (c : Reading) (n : Vector Reading 8) (d h : Reading) (mv : Nat) (hw : s.pwr.watch = .asleep)
    (hshut : (takeSample (sampleOf c n d h) (withBank mv s)).1 = none) {t : State}
    (ht : crossEvents (withBank mv s) (watchRequest (withBank mv s) (takeSample (sampleOf c n d h) (withBank mv s)).2) = t) :
    exec (.watchSample c n d h mv) s = .next (settle (if t.hits = 0 then withHits t else wake 3 (raiseFault 2 3 (withHits t)))) := by
  show execWatchSample c n d h mv s = _
  unfold execWatchSample
  rw [if_neg (by simp [hw]), ← ht]
  show done (match (takeSample (sampleOf c n d h) (withBank mv s)).1 with | some i => _ | none => _) = _
  rw [hshut]
  rfl

/-- Settles O13: entry by the clean stop, exit by the state in force at entry, a sample by what it leaves. -/
theorem watchRows : Obligations.WatchRows := by
  unfold Obligations.WatchRows
  refine ⟨fun s h => ?_, fun s hw hdue hrail hperst hlink hlate hq => ?_, fun s c n d h mv hw hshut => ?_, fun s hw htimer hheld => ?_, fun s hw => ?_⟩
  · obtain ⟨hclean, hheld⟩ := settle_stopped (quieted_med s).1 (quieted_med s).2
    obtain ⟨o, t, n, hquiet, ht⟩ := quieted_eq s
    refine ⟨_, exec_watchEntry h, rfl, rfl, hclean, ?_, ?_, hheld, ?_⟩ <;> dsimp only <;> rw [hquiet]
    · simp
    · simp
    · simpa using ht
  · obtain ⟨hshape, -⟩ := pumpEvents_shape 16 (raisePulse 268 0 0 (awoken s))
    refine ⟨_, exec_watchExit hw hdue hrail hperst hlink hlate hq, ?_⟩
    rw [reselect_shape, enforceFirst_shape, hshape, raisePulse_shape]
    exact ⟨rfl, rfl, rfl, rfl, rfl, rfl, rfl, rfl, rfl, rfl, rfl, rfl⟩
  · have hkept : unsampled (crossEvents (withBank mv s) (watchRequest (withBank mv s) (takeSample (sampleOf c n d h) (withBank mv s)).2)) =
        unsampled (withBank mv s) := by
      rw [← unsampled_takeSample (sampleOf c n d h) (withBank mv s)]
      unfold crossEvents
      dsimp only
      split
      · exact (unsampled_tempEvent _).trans rfl
      · rfl
    have hrow := exec_watchSample c n d h mv hw hshut rfl
    generalize crossEvents (withBank mv s) (watchRequest (withBank mv s) (takeSample (sampleOf c n d h) (withBank mv s)).2) = t at hkept hrow
    have hwake : unsampled (if t.hits = 0 then withHits t else wake 3 (raiseFault 2 3 (withHits t))) = unsampled (withHits t) := by
      split
      · rfl
      · rw [← unsampled_raiseFault 3 (withHits t)]
        simp [unsampled]
    refine ⟨_, hrow, ?_⟩
    generalize (if t.hits = 0 then withHits t else wake 3 (raiseFault 2 3 (withHits t))) = u at hwake
    simp only [unsampled, Prod.mk.injEq] at hkept hwake
    obtain ⟨hhu, hsamp, hbcn, hmed, hram, hns⟩ := hkept
    obtain ⟨hhu', hsamp', -, hmed', hram', hns'⟩ := hwake
    refine ⟨hhu'.trans hhu, ?_, ?_, ?_, ?_, hmed'.trans hmed, hram'.trans hram, hns'.trans hns⟩ <;> rw [hsamp']
    · exact congrArg Bcn.pos hbcn
    · show (t.therm.samp.hit ||| b8 t.hits) &&& s.therm.samp.hit = s.therm.samp.hit
      rw [show t.therm.samp.hit = s.therm.samp.hit from congrArg Sampler.hit hsamp]
      ext i hi
      rw [BitVec.getElem_and, BitVec.getElem_or]
      cases s.therm.samp.hit[i] <;> simp
    · exact (congrArg Sampler.en hsamp :)
    · exact (congrArg Sampler.lim hsamp :)
  · show done (if s.pwr.watch == .asleep && s.pwr.watchTimer != 0 then wake 4 s else s) = _
    rw [if_pos (by simp only [hw, beq_self_eq_true, Bool.true_and, bne_iff_ne]; exact htimer), wake, if_neg (by simp [hw, hheld])]
    rfl
  · show done (if s.pwr.watch == .asleep then _ else s) = _
    rw [if_pos (by simp [hw])]
    rfl

end Sys2Proof.Proofs
end

section
/-! Measurements of the bank and of ageing (R158, R397 to R409): settles O12. -/

namespace Sys2Proof.Proofs

open Sys2Proof Sys2Proof.Machine Sys2Proof.Laws

/-! A new budget (R157, R159). -/

theorem dropSpoiled_shape (ks : List Nat) (s : State) : dropSpoiled ks s =
    { s with health := (dropSpoiled ks s).health, ev := (dropSpoiled ks s).ev, med := (dropSpoiled ks s).med } := by
  apply state_ext <;> simp

theorem programHeld_shape (ks : List Nat) (s : State) : programHeld ks s =
    { s with health := (programHeld ks s).health, ev := (programHeld ks s).ev, med := (programHeld ks s).med } := by
  unfold programHeld submit
  dsimp only
  rw [dropSpoiled_shape]

theorem rebudget_shape (s : State) : rebudget s =
    { s with hu := (rebudget s).hu, health := (rebudget s).health, ev := (rebudget s).ev, med := (rebudget s).med } := by
  have hprogram (t : State) (ks : List Nat) : ∃ h e m, (if t.running then programHeld ks t else t) = { t with health := h, ev := e, med := m } := by
    split
    · exact ⟨_, _, _, programHeld_shape ks t⟩
    · exact ⟨_, _, _, rfl⟩
  unfold rebudget
  dsimp only
  split
  · rw [raisePulse_shape]
    obtain ⟨h, e, m, hp⟩ := hprogram _ _
    rw [hp]
  · obtain ⟨h, e, m, hp⟩ := hprogram _ _
    rw [hp]

theorem programHeld_hu (ks : List Nat) (s : State) : (programHeld ks s).hu = s.hu := by rw [programHeld_shape]

theorem rebudget_hu_eq (s : State) : ∃ a b c, (rebudget s).hu = { s.hu with budget := s.budgetNow, flushing := a, mBudget := b, mVb := c } := by
  have hprogram (t : State) (ks : List Nat) : (if t.running then programHeld ks t else t).hu = t.hu := by
    split
    · exact programHeld_hu ks t
    · rfl
  unfold rebudget
  dsimp only
  split
  · rw [raisePulse_hu, hprogram]
    exact ⟨_, _, _, rfl⟩
  · rw [hprogram]
    exact ⟨_, _, _, rfl⟩

theorem rebudget_content (s : State) : (rebudget s).med.content = s.med.content := congrArg Prod.fst (mapped_rebudget s)

theorem lifeRecalc_shape (s : State) : lifeRecalc s = { s with health := (lifeRecalc s).health } := rfl

/-- What a new E leaves (R159, R400, R409). -/
theorem newEnergy_facts (e : Int) (s : State) : newEnergy e s =
      { s with hu := (newEnergy e s).hu, health := (newEnergy e s).health, ev := (newEnergy e s).ev, med := (newEnergy e s).med } ∧
    (newEnergy e s).med.content = s.med.content ∧ (newEnergy e s).hu.budget = (newEnergy e s).budgetNow ∧
    ∃ n a b c, (newEnergy e s).hu =
      { s.hu with energy := e, mEnergy := s.hu.mEnergy.publish e, budget := n, flushing := a, mBudget := b, mVb := c } := by
  unfold newEnergy
  obtain ⟨a, b, c, hhu⟩ := rebudget_hu_eq { s with hu := { s.hu with energy := e, mEnergy := s.hu.mEnergy.publish e } }
  have hshape := rebudget_shape { s with hu := { s.hu with energy := e, mEnergy := s.hu.mEnergy.publish e } }
  have hcontent := rebudget_content { s with hu := { s.hu with energy := e, mEnergy := s.hu.mEnergy.publish e } }
  refine ⟨?_, hcontent, ?_, _, a, b, c, hhu⟩
  · rw [lifeRecalc_shape, hshape]
  · rw [lifeRecalc_shape, hshape]
    unfold State.budgetNow
    dsimp only
    rw [hhu]
    rfl

theorem endMeasure_facts (c esr v : Nat) (s : State) : ∃ u, endMeasure c esr v s = u ∧
    u = { s with hu := u.hu, health := u.health, ev := u.ev, med := u.med } ∧ u.med.content = s.med.content ∧ u.hu.budget = u.budgetNow ∧
    ∃ n a b d, u.hu = { s.hu with cNf := c, esr := esr, vchg := v, lowered := none, measuring := false, measHours := s.pwr.hours
                                  energy := energyOf c esr v, mEnergy := s.hu.mEnergy.publish (energyOf c esr v)
                                  budget := n, flushing := a, mBudget := b, mVb := d } :=
  ⟨_, rfl, newEnergy_facts (energyOf c esr v) { s with hu := { s.hu with cNf := c, esr := esr, vchg := v, lowered := none, measuring := false
                                                                         measHours := s.pwr.hours } }⟩

/-! A capacitor fails (R158, R401). -/

/-- A capacitor is isolated, and E has lost its share. -/
def capFailed (n : Fin 6) (s : State) : State :=
  newEnergy (s.hu.energy * (popcount 6 s.hu.capOk.toNat - 1 : Nat) / (popcount 6 s.hu.capOk.toNat : Int))
    (raiseFault 0x38 0 { s with hu := { s.hu with capOk := putBit s.hu.capOk n.val false, measuring := false, due := true, lowered := none } })

/-- What the loss of a capacitor leaves of the bank, and what it does not change. -/
def CapLost (n : Fin 6) (s u : State) : Prop :=
  bit u.hu.capOk n.val = false ∧
    u.hu.energy = s.hu.energy * (popcount 6 s.hu.capOk.toNat - 1 : Nat) / (popcount 6 s.hu.capOk.toNat : Int) ∧
    u.hu.measuring = false ∧ u.hu.due = true ∧ u.med.content = s.med.content ∧ u.ns = s.ns ∧ u.bcn = s.bcn

theorem capLost_capFailed (n : Fin 6) (s : State) : CapLost n s (capFailed n s) := by
  have hraise := raiseFault_shape (f := 0x38) 0
    { s with hu := { s.hu with capOk := putBit s.hu.capOk n.val false, measuring := false, due := true, lowered := none } } (by decide) (by decide)
  unfold capFailed
  rw [hraise]
  generalize (raiseFault 0x38 0 _).ev = e
  obtain ⟨hshape, hcontent, -, m, a, b, c, hhu⟩ := newEnergy_facts
    (s.hu.energy * (popcount 6 s.hu.capOk.toNat - 1 : Nat) / (popcount 6 s.hu.capOk.toNat : Int))
    { s with ev := e, hu := { s.hu with capOk := putBit s.hu.capOk n.val false, measuring := false, due := true, lowered := none } }
  unfold CapLost
  rw [hcontent, hhu, hshape]
  exact ⟨bit_putBit_self _ _ n.isLt, rfl, rfl, rfl, rfl, rfl, rfl⟩

/-- The last capacitor that fails during a charge leaves the bank failed. -/
theorem capLost_bankFailed {n : Fin 6} {s u : State} (h : CapLost n s u) :
    CapLost n s (evalWarn (raiseFault 0x38 2 { u with hu := { u.hu with state := 3 } })) := by
  unfold CapLost evalWarn at *
  rw [raiseFault_shape (f := 0x38) 2 _ (by decide) (by decide)]
  exact h

/-! Ageing (R405, R409). -/

/-- A measurement of Δ is published, and the powered hours and ages follow it. -/
def measuredDelay (d : Nat) (s : State) : State :=
  { s with med := if s.health.delay.valid then s.med.hourOlder else s.med
           pwr := { s.pwr with hours := if s.health.delay.valid then s.pwr.hours + 1 else s.pwr.hours
                               op := { s.pwr.op with guard := s.pwr.op.guard.follow s.health.guardMax } }
           health := { s.health with delta := d, delay := s.health.delay.publish (min d 0xFFFF : Nat) } }

/-- G follows the largest Δ. -/
def guarded (d : Nat) (s : State) : State :=
  if s.health.guardMax < guardOf d then raiseGuard (guardOf d) (measuredDelay d s) else measuredDelay d s

theorem guarded_eq (d : Nat) (s : State) : ∃ o, guarded d s = { measuredDelay d s with
    pwr := { (measuredDelay d s).pwr with op := o }, health := { (measuredDelay d s).health with guardMax := max s.health.guardMax (guardOf d) } } := by
  unfold guarded
  split
  · next h => exact ⟨_, by rw [max_eq_right h.le]; rfl⟩
  · next h => exact ⟨_, by rw [max_eq_left (not_lt.1 h)]; rfl⟩

theorem exec_siliconDelay {s : State} (d : Nat) (hfw : s.firmware = true) (hw : s.pwr.watch ≠ .asleep) :
    exec (.siliconDelayMeasure d) s = .next (settle (evalWarn (reselect (guarded d s)))) := by
  show execSiliconDelayMeasure d s = _
  unfold execSiliconDelayMeasure
  rw [if_neg (by simp [hfw, hw])]
  rfl

/-- HOST_WRITTEN is published. -/
def writtenOut (s : State) : State :=
  { s with health := { s.health with hostTb := s.health.hostTb.publish (s.health.hostBytes / 1000000000000 : Nat) } }

theorem exec_lifeRecompute {s : State} (hfw : s.firmware = true) (hw : s.pwr.watch ≠ .asleep) :
    exec .lifeRecompute s = .next (settle (lifeRecalc (writtenOut s))) := by
  show execLifeRecompute s = _
  unfold execLifeRecompute
  rw [if_neg (by simp [hfw, hw])]
  rfl

/-- Settles O12: a measurement by the new E, and ageing by the new Δ. -/
theorem measurementRows : Obligations.MeasurementRows := by
  unfold Obligations.MeasurementRows
  refine ⟨⟨fun s hfw hm tUs dv esr vchg hdv => ?_, fun s hfw hch hst hmid hflush hw sv i t dv hsv hi => ?_, fun s hfw hfl hflush hs => ?_,
      fun s hfw hw => ?_, fun s hfw hw hst hm hlow hflush hroom => ?_, fun s hfw hw hst => ?_, fun s n hawake hn => ?_⟩,
    fun s d hfw hw => ?_, fun s hfw hw => ?_⟩
  · obtain ⟨u, hu, hshape, hcontent, hbudget, n, a, b, d, hhu⟩ :=
      endMeasure_facts (200000 * tUs / dv) esr vchg { s with hu := { s.hu with bankMv := vchg } }
    refine ⟨u, ?_, ?_, ?_, ?_, ?_, ?_, ?_, hbudget, ?_, ?_, hshape, hcontent⟩
    · show execMeasurementComplete tUs dv esr vchg s = _
      unfold execMeasurementComplete
      rw [if_neg (by simp [hfw, hm, hdv]), hu]
      rfl
    all_goals rw [hhu]
    rfl
  · obtain ⟨u, hu, hshape, hcontent, -, n, a, b, d, hhu⟩ :=
      endMeasure_facts (i * t / 10) (dv * 1000000 / i) s.hu.vchg { s with hu := { s.hu with bankMv := max s.hu.bankMv 30000, midCharge := false } }
    have hsv' : ¬20000 < sv := by omega
    refine ⟨u, ?_, ?_, ?_, ?_, ?_, ?_, hshape, hcontent⟩
    · show execChargeMeasurement sv i t dv s = _
      unfold execChargeMeasurement
      rw [if_neg (by simp [hfw, hch, hst, hmid, hi, hflush, hw, hsv']), hu]
      rfl
    all_goals rw [hhu]
  · refine ⟨setMedia (ceilDiv (s.med.heldOrder.take (s.med.held.length - s.budgetSlots)).length 4)
      (s.heldRefresh (s.med.programHeld 0 (s.med.heldOrder.take (s.med.held.length - s.budgetSlots))))
      { s with hu := { s.hu with flushing := false } }, ?_, rfl, rfl, rfl⟩
    show execBudgetFlushDone s = _
    unfold execBudgetFlushDone
    rw [if_neg (by simp [hfw, hfl, hflush])]
    dsimp only
    rw [dropSpoiled_of_sound hs]
    rfl
  · show execDischargeMeasurementDue s = _
    unfold execDischargeMeasurementDue
    rw [if_neg (by simp [hfw])]
    dsimp only
    rw [if_pos (by simp [hw])]
    rfl
  · have hroom' : ¬s.hu.vchg < s.vb + 1500 := by omega
    show execDischargeMeasurementDue s = _
    unfold execDischargeMeasurementDue
    rw [if_neg (by simp [hfw])]
    dsimp only
    rw [if_neg (by simp [hw]), startMeasure, if_neg (by simp [hst, hm, hlow, hflush]), if_neg (by exact hroom')]
    rfl
  · show execDischargeMeasurementDue s = _
    unfold execDischargeMeasurementDue
    rw [if_neg (by simp [hfw])]
    dsimp only
    rw [if_neg (by simp [hw]), startMeasure, if_pos (.inl hst)]
    rfl
  · have hrow : exec (.capFail n) s = done (if popcount 6 s.hu.capOk.toNat = 1 ∧ (capFailed n s).pwr.charging then
        evalWarn (raiseFault 0x38 2 { capFailed n s with hu := { (capFailed n s).hu with state := 3 } }) else capFailed n s) := by
      show execCapFail n s = _
      unfold execCapFail
      rw [if_neg (by simp [hawake, hn])]
      dsimp only
      rw [raiseFault_hu]
      rfl
    refine ⟨_, hrow, ?_⟩
    split
    · exact capLost_bankFailed (capLost_capFailed n s)
    · exact capLost_capFailed n s
  · obtain ⟨o, ho⟩ := guarded_eq d s
    refine ⟨_, exec_siliconDelay d hfw hw, ?_⟩
    unfold evalWarn
    rw [reselect_shape, ho]
    exact ⟨rfl, rfl, rfl, rfl, rfl, rfl⟩
  · refine ⟨_, exec_lifeRecompute hfw hw, rfl, rfl, rfl, rfl, rfl, rfl, ?_⟩
    show s.health.warn &&& (s.health.warn ||| _) = s.health.warn
    ext i hi
    rw [BitVec.getElem_and, BitVec.getElem_or]
    cases s.health.warn[i] <;> simp

end Sys2Proof.Proofs
end

section
/-! I/O queues (R97, R107): two fetched commands of one place, which no step makes, refute O20. -/

namespace Sys2Proof.Proofs

open Sys2Proof Sys2Proof.Machine Sys2Proof.Laws

/-! The router with the events of Feature 0Bh disabled. -/

/-- No Critical Warning bit reports an event (Table 4-6). -/
def Unreported (n : Nvme) : Prop := ∀ b ∈ [0, 2, 3, 4], bit n.feat.async b = false

theorem endShutdown_queues (s : State) : (endShutdown s).nv.feat = s.nv.feat ∧ (endShutdown s).nv.sqs = s.nv.sqs := by
  unfold endShutdown
  split
  · exact ⟨rfl, rfl⟩
  · dsimp only
    rw [cleanStop_nv, flushHeld_nv]
    exact ⟨rfl, rfl⟩

theorem critEvents_of_unreported {s : State} (h : Unreported s.nv) : critEvents s = { s with nv := { s.nv with crit := b8 s.critWarn } } := by
  have hnil : ([0, 2, 3, 4].filter fun b => Nat.testBit s.critWarn b && !bit s.nv.crit b && bit s.nv.feat.async b) = [] := by
    rw [List.filter_eq_nil_iff]
    intro b hb
    simp [h b hb]
  unfold critEvents
  dsimp only
  rw [hnil]
  rfl

theorem sendCompletions_queues (s : State) : (sendCompletions s).nv.feat = s.nv.feat ∧ (sendCompletions s).nv.sqs = s.nv.sqs := by
  unfold sendCompletions
  dsimp only
  split <;> exact ⟨rfl, rfl⟩

theorem settle_feat (s : State) : (settle s).nv.feat = s.nv.feat := by
  have hcrit (u : State) : (critEvents u).nv.feat = u.nv.feat := by
    unfold critEvents
    exact (foldl_keep (fun u : State => u.nv.feat) _ (fun u b => (congrArg Nvme.feat (offEvents_asyncEvent 1 (critInfo b) 2 u) :)) _ _).trans rfl
  show (publish s).nv.feat = _
  unfold publish
  split
  · rw [(sendCompletions_queues _).1, sendEvents_nv, publishHoldup_nv, hcrit, (endShutdown_queues s).1]
  · rfl

theorem settle_sqs_of_unreported {s : State} (h : Unreported s.nv) : (settle s).nv.sqs = s.nv.sqs := by
  show (publish s).nv.sqs = _
  unfold publish
  split
  · have hend : Unreported (endShutdown s).nv := by
      unfold Unreported
      rw [(endShutdown_queues s).1]
      exact h
    rw [(sendCompletions_queues _).2, sendEvents_nv, publishHoldup_nv, critEvents_of_unreported hend]
    exact (endShutdown_queues s).2
  · rfl

/-- Ends of a command that are equal have equal submission queues, where no event is reported. -/
theorem sqs_of_settle_eq {u v : State} (h : settle u = settle v) (hv : Unreported v.nv) : u.nv.sqs = v.nv.sqs := by
  have hu : Unreported u.nv := by
    unfold Unreported
    rw [← settle_feat u, h, settle_feat v]
    exact hv
  rw [← settle_sqs_of_unreported hu, h, settle_sqs_of_unreported hv]

/-! Two commands of one place in the fetch order. -/

/-- A submission queue with nothing waiting. -/
def emptyQueue : SubQueue := { size := 2, cq := 0, prio := 0, tail := 0, waiting := [], after := none }

/-- A running card has two commands of place 0, the deletions of queue 5 and of queue 6. -/
def twoDeletions : State := { State.reset with
  pwr := { State.reset.pwr with mainOn := true, step := 6 }
  nv := { State.reset.nv with inflight := [waitingAdmin 0 .ready 5, waitingAdmin 0 .ready 6], sqs := [(5, emptyQueue), (6, emptyQueue)] } }

/-- Refutes O20: both commands of place 0 turn to deletions with the first, and queue 6 goes with queue 5. -/
theorem not_queueAndReportRows : ¬ Obligations.QueueAndReportRows := by
  unfold Obligations.QueueAndReportRows
  rintro ⟨⟨-, -, -, hdelete, -⟩, -⟩
  obtain ⟨u, hu, -, -, hother, -⟩ := hdelete twoDeletions 0 (waitingAdmin 0 .ready 5) emptyQueue (by decide) (by decide) (by decide)
    (by decide) (by decide)
  have hrow : exec (.deleteIoSq 0) twoDeletions = .next (settle (endDeletes { twoDeletions with nv := { twoDeletions.nv with
      inflight := [waitingAdmin 0 .deleting 5, waitingAdmin 0 .deleting 6] } })) := rfl
  rw [hrow, Host.Outcome.next.injEq] at hu
  have hsqs := sqs_of_settle_eq hu.symm (show Unreported _ by unfold Unreported; decide)
  have hgone : (endDeletes { twoDeletions with nv := { twoDeletions.nv with
      inflight := [waitingAdmin 0 .deleting 5, waitingAdmin 0 .deleting 6] } }).nv.sqs = [] := rfl
  have hsix := hother 6 (by decide)
  rw [hsqs, hgone] at hsix
  exact absurd hsix (by decide)

end Sys2Proof.Proofs
end

section
/-! Features (R93, R94, R96, R112, R387, R412): settles O21. -/

namespace Sys2Proof.Proofs

open Sys2Proof Sys2Proof.Machine Sys2Proof.Laws

theorem no_cmd_of_complete (h sct sc : Nat) (d0 d1 : W32) (a : List Byte) (s : State) :
    ∀ x ∈ (complete h sct sc d0 d1 a s).nv.inflight, x.h ≠ h := by
  have hnone := cmd_complete_self h sct sc d0 d1 a s
  intro x hx
  simpa using List.find?_eq_none.1 hnone x hx

/-- A power state other than PS4 is commanded (R112). -/
def commanded (ps : Nat) (s : State) : State :=
  { s with pwr := { s.pwr with cmd := ps, watch := .awake, hostPs4 := false, wakeDue := false } }

theorem exec_powerManagement {s : State} {h : Nat} {c : Cmd} (hc : s.feature h 0x02 = some c) (hres : fld (c.dword 11) 7 5 = 0) :
    (fld (c.dword 11) 4 0 ≤ 3 → exec (.setFeaturesPowerManagement h) s =
      .next (settle (reselect (succeed h (endWatchWaits (commanded (fld (c.dword 11) 4 0) s)))))) ∧
    (fld (c.dword 11) 4 0 = 4 → exec (.setFeaturesPowerManagement h) s = .next (settle ({ s with pwr := { s.pwr with
      before := if s.pwr.cmd = 4 then s.pwr.before else s.pwr.cmd, cmd := 4, watch := .requested, hostPs4 := true } }.modCmd h
        fun x => { x with phase := .watch }))) := by
  have hrow : exec (.setFeaturesPowerManagement h) s = execSetFeaturesPowerManagement h s := rfl
  rw [hrow]
  unfold execSetFeaturesPowerManagement
  rw [hc, Option.elim_some]
  dsimp only
  refine ⟨fun hps => ?_, fun hps => ?_⟩
  · rw [if_neg (by omega), if_pos (by omega)]
    rfl
  · rw [if_neg (by omega), if_neg (by omega)]
    rfl

/-- The rows of Temperature Threshold, by their operands. -/
theorem exec_temperatureThreshold {s : State} {h : Nat} {c : Cmd} (hc : s.feature h 0x04 = some c) (hsel : fld (c.dword 11) 19 16 ≤ 3)
    (hkind : fld (c.dword 11) 21 20 ≤ 1) : exec (.setFeaturesTemperatureThreshold h) s = done (
      if fld (c.dword 11) 21 20 = 1 then succeed h { s with therm := { s.therm with
        evtUnder := vput s.therm.evtUnder (fld (c.dword 11) 19 16) (some ((fld (c.dword 11) 15 0 : Nat) : Int)) } }
      else match tmpClass (fld (c.dword 11) 19 16) with
        | none => succeed h { s with therm := { s.therm with
            evtOver := vput s.therm.evtOver (fld (c.dword 11) 19 16) (some ((fld (c.dword 11) 15 0 : Nat) : Int)) } }
        | some cls =>
          if s.warnDefault cls + 273 < ((fld (c.dword 11) 15 0 : Nat) : Int) then invalidField h s
          else succeed h { s with therm := { s.therm with
            warnSet := vput s.therm.warnSet (warnIndex cls) (some ((fld (c.dword 11) 15 0 : Nat) : Int)) } }) := by
  show execSetFeaturesTemperatureThreshold h s = _
  unfold execSetFeaturesTemperatureThreshold
  rw [hc, Option.elim_some]
  dsimp only
  rw [if_neg (by omega)] <;> rfl

theorem exec_getFeatures {s : State} {h : Nat} {c : Cmd} (hc : s.admin h 0x0A = some c) : exec (.getFeatures h) s =
    done ((s.featureValue (fld (c.dword 10) 7 0) (c.dword 11)).elim (invalidField h s) fun v => complete h 0 0 v 0 [] s) := by
  show execGetFeatures h s = _
  unfold execGetFeatures
  rw [hc]
  dsimp only
  cases s.featureValue (fld (c.dword 10) 7 0) (c.dword 11) <;> rfl

/-- The card has no feature from 0Ch on. -/
theorem featureValue_none (s : State) {fid : Nat} (d : W32) (h : 0x0C ≤ fid) : s.featureValue fid d = none := by
  unfold State.featureValue
  dsimp only
  split
  case h_11 => rfl
  all_goals omega

/-- Settles O21: each Set Features by its field, and Get Features by the value it answers. -/
theorem featureRows : Obligations.FeatureRows := by
  unfold Obligations.FeatureRows
  refine ⟨fun s h c => ⟨fun hc => ?_, fun hc => ?_, fun hc hb => ?_, fun hc hb => ?_, fun hc => ?_, fun hc => ?_, fun hc hv => ?_,
      fun hc => ?_, fun hc => ?_⟩, fun s h c hc hps hres => ?_, fun s h c hc hps hres => (exec_powerManagement hc hres).2 hps,
    fun s h c sel cls hc hsel hkind hmem => ?_, fun s h c hc hsel hkind => ?_, fun s h c hc => ⟨fun hf => ?_, fun hf => ?_, fun hf => ?_,
      fun hf => ?_, fun v hv => ?_, fun hf => ?_⟩⟩
  · show done ((s.feature h 0x01).elim _ _) = _
    rw [hc]
    rfl
  · show done ((s.feature h 0x05).elim _ _) = _
    rw [hc]
    rfl
  · show done ((s.feature h 0x06).elim _ _) = _
    rw [hc]
    exact congrArg done (if_pos hb)
  · show done ((s.feature h 0x06).elim s fun c => if bit (c.dword 11) 0 then succeed h s else invalidField h s) = _
    rw [hc, Option.elim_some, hb]
    rfl
  · show done ((s.feature h 0x07).elim _ _) = _
    rw [hc]
    rfl
  · show done ((s.feature h 0x08).elim _ _) = _
    rw [hc]
    rfl
  · show done ((s.feature h 0x09).elim _ _) = _
    rw [hc]
    exact congrArg done (if_neg (by omega))
  · show done ((s.feature h 0x0A).elim _ _) = _
    rw [hc]
    rfl
  · show done ((s.feature h 0x0B).elim _ _) = _
    rw [hc]
    rfl
  · refine ⟨_, (exec_powerManagement hc hres).1 hps, ?_⟩
    rw [reselect_shape, succeed, complete_shape, endWatchWaits_shape (commanded _ s)]
    exact ⟨rfl, rfl, rfl, rfl, no_cmd_of_complete h _ _ _ _ _ _⟩
  · have hcls : sel ≤ 3 ∧ tmpClass sel = some cls := by
      simp only [List.mem_cons, Prod.mk.injEq, List.not_mem_nil, or_false] at hmem
      rcases hmem with ⟨rfl, rfl⟩ | ⟨rfl, rfl⟩ | ⟨rfl, rfl⟩ <;> exact ⟨by decide, rfl⟩
    rw [exec_temperatureThreshold hc (by omega) (by omega), if_neg (by omega), hsel, hcls.2]
    exact ⟨fun hle => congrArg done (if_neg (not_lt.2 hle)), fun hlt => congrArg done (if_pos hlt)⟩
  · rw [exec_temperatureThreshold hc hsel (by omega), if_pos hkind]
    rfl
  · rw [exec_getFeatures hc, hf]
    rfl
  · rw [exec_getFeatures hc, hf]
    rfl
  · rw [exec_getFeatures hc, hf]
    rfl
  · rw [exec_getFeatures hc, hf]
    rfl
  · rw [exec_getFeatures hc, hv]
    rfl
  · rw [exec_getFeatures hc, featureValue_none s _ hf]
    rfl

end Sys2Proof.Proofs
end

section
/-! Namespace Management and Attachment (R64, R65, R357): settles O22. -/

namespace Sys2Proof.Proofs

open Sys2Proof Sys2Proof.Machine Sys2Proof.Laws

theorem trim_shape (nsid : Nat) (ks : Nat → Bool) (s : State) : trim nsid ks s = { s with med := (trim nsid ks s).med } := by
  apply state_ext <;> simp

theorem unclean_shape (s : State) : unclean s = { s with med := (unclean s).med } := by
  unfold unclean
  split <;> rfl

/-- A free NSID is one of R63's that names nothing. -/
theorem freeNsid_bounds {s : State} {n : Nat} (h : s.freeNsid = some n) : 1 ≤ n ∧ n ≤ 64 := by
  have hmem := List.mem_of_find?_eq_some h
  simp only [List.mem_map, List.mem_range] at hmem
  omega

/-- The world bit of a namespace set, as the active set shows it. -/
theorem nsWorld_setNsWorld {n : Nat} (hn : 1 ≤ n ∧ n ≤ 64) (v : Bool) (s : State) : (setNsWorld n v s).nsWorld n = v := by
  show (decide (1 ≤ n) && bit (putBit s.acc.active.ns (n - 1) v) (n - 1)) = v
  rw [bit_putBit_self _ _ (by omega), decide_eq_true hn.1, Bool.true_and]

theorem nsWorld_setNsWorld_ne {n k : Nat} (hn : 1 ≤ n) (hk : 1 ≤ k) (hne : k ≠ n) (v : Bool) (s : State) :
    (setNsWorld n v s).nsWorld k = s.nsWorld k := by
  show (decide (1 ≤ k) && bit (putBit s.acc.active.ns (n - 1) v) (k - 1)) = _
  rw [bit_putBit_ne _ _ (by omega)]
  rfl

theorem removeNs_shape (n : Nat) (s : State) :
    removeNs n s = { s with med := (removeNs n s).med, ns := del s.ns n, pipes := (removeNs n s).pipes, opens := (removeNs n s).opens } := by
  unfold removeNs
  dsimp only
  rw [trim_shape, unclean_shape]

/-- Nothing of a removed namespace stays in DRAM or NAND. -/
theorem removeNs_stores (n : Nat) (s : State) :
    (∀ x ∈ (removeNs n s).med.content, keyNs x.1 ≠ n) ∧ (∀ x ∈ (removeNs n s).med.held, keyNs x.1 ≠ n) := by
  have hst := trim_slotStores n (fun k => keyNs k == n) (unclean s)
  simp only [slotStores, Prod.mk.injEq] at hst
  obtain ⟨hheld, hcontent, -⟩ := hst
  refine ⟨fun x hx => ?_, fun x hx => ?_⟩
  · have hin : x ∈ (withoutSlots (fun k => keyNs k == n) (unclean s).med).content := hcontent ▸ hx
    simpa using (List.mem_filter.1 hin).2
  · have hin : x ∈ (withoutSlots (fun k => keyNs k == n) (unclean s).med).held := hheld ▸ hx
    simpa using (List.mem_filter.1 hin).2

/-- A pipeline that a removal leaves is a Scan one or has another source. -/
theorem removeNs_pipes (n : Nat) (s : State) : ∀ x ∈ (removeNs n s).pipes, x.2.scan = false → x.2.source ≠ n := by
  intro x hx
  obtain ⟨p, hp, rfl⟩ := List.mem_map.1 hx
  intro hscan hsrc
  have hkept := (List.mem_filter.1 hp).2
  rw [hscan, hsrc] at hkept
  simp at hkept

/-- A namespace that the command names alone. -/
theorem named_of_look {s : State} {k : Nat} {n : Ns} (hne : k ≠ 0xFFFFFFFF) (h : look s.ns k = some n) : s.named k = [k] := by
  unfold State.named
  rw [if_neg hne, h]
  rfl

theorem needsKeeper_single {s : State} {c : Cmd} {k : Nat} (h : s.nsWorld k = true → c.keeper = true) : s.needsKeeper c [k] = false := by
  unfold State.needsKeeper
  cases hk : s.nsWorld k with
  | true => simp [h hk]
  | false => simp [hk]

theorem exec_namespaceDelete {s : State} {h : Nat} {c : Cmd} {n : Ns} (hc : s.admin h 0x0D = some c) (hsel : fld (c.dword 10) 3 0 = 1)
    (hne : c.nsid ≠ 0xFFFFFFFF) (hns : look s.ns c.nsid = some n) (hk : s.nsWorld c.nsid = true → c.keeper = true)
    (hb : s.nsBusy c.nsid = false) :
    exec (.namespaceDelete h) s = .next (settle (succeed h (recordKeys (removeNs c.nsid s)))) := by
  show execNamespaceDelete h s = _
  unfold execNamespaceDelete
  rw [hc]
  dsimp only
  rw [named_of_look hne hns, if_neg (by omega), if_neg (by simp), needsKeeper_single hk, if_neg (by simp), if_neg (by simp [hb])]
  rfl

/-- A new namespace under its NSID, with its world bit, before the record of the keys follows (R64). -/
def namedNs (n : Nat) (x : Ns) (v : Bool) (s : State) : State := setNsWorld n v { s with fresh := s.fresh + 1, ns := put s.ns n x }

theorem recordKeys_shape (s : State) : recordKeys s = { s with hb := s.hb.writeRec 0 (recordKeys s).keyRecord } := rfl

theorem nsWorld_recordKeys (s : State) (k : Nat) : (recordKeys s).nsWorld k = s.nsWorld k := rfl

theorem namedNs_shape (n : Nat) (x : Ns) (v : Bool) (s : State) : namedNs n x v s = { s with
    ns := put s.ns n x, acc := (namedNs n x v s).acc, fresh := s.fresh + 1
    hb := s.hb.writeRec 1 (namedNs n x v s).acc.saved.encode } := rfl

theorem recordKeys_namedNs_shape (n : Nat) (x : Ns) (v : Bool) (s : State) : recordKeys (namedNs n x v s) = { s with
    ns := put s.ns n x, acc := (recordKeys (namedNs n x v s)).acc, fresh := s.fresh + 1
    hb := (s.hb.writeRec 1 (recordKeys (namedNs n x v s)).acc.saved.encode).writeRec 0 (recordKeys (namedNs n x v s)).keyRecord } := by
  have hacc : (recordKeys (namedNs n x v s)).acc = (namedNs n x v s).acc := by rw [recordKeys_shape]
  rw [hacc]
  refine (recordKeys_shape _).trans ?_
  generalize (recordKeys (namedNs n x v s)).keyRecord = r
  rw [namedNs_shape]

theorem nsWorld_namedNs {n : Nat} (hn : 1 ≤ n ∧ n ≤ 64) (x : Ns) (v : Bool) (s : State) : (namedNs n x v s).nsWorld n = v := by
  unfold namedNs
  exact nsWorld_setNsWorld hn v _

theorem nsWorld_namedNs_ne {n k : Nat} (hn : 1 ≤ n) (hk : 1 ≤ k) (hne : k ≠ n) (x : Ns) (v : Bool) (s : State) :
    (namedNs n x v s).nsWorld k = s.nsWorld k := by
  unfold namedNs
  rw [nsWorld_setNsWorld_ne hn hk hne v]
  rfl

theorem rules_namedNs (n : Nat) (x : Ns) (v : Bool) (s : State) : (recordKeys (namedNs n x v s)).acc.active.rules = s.acc.active.rules :=
  (congrArg (fun u : State => u.acc.active.rules) (recordKeys_shape _)).trans rfl

theorem exec_namespaceCreate {s : State} {h n : Nat} {c : Cmd} (hc : s.admin h 0x0D = some c) (hsel : fld (c.dword 10) 3 0 = 0)
    (hok : nsFieldsOk c.sub.buf = true) (hdps : u8At c.sub.buf 29 % 8 ≠ 2)
    (hk : Nat.testBit (u8At c.sub.buf 3842) 2 = true → c.keeper = true) (heol : s.med.eol = false) (hfree : s.freeNsid = some n)
    (hcap : s.ncapSum + u64At c.sub.buf 8 ≤ 3000000000) :
    exec (.namespaceCreate h) s = .next (settle (complete h 0 0 (w32 n) 0 []
      (recordKeys (namedNs n (nsOfBuffer c.sub.buf (newKey s).1) (Nat.testBit (u8At c.sub.buf 3842) 2) s)))) := by
  have hkeep : (Nat.testBit (u8At c.sub.buf 3842) 2 && !c.keeper) = false := by
    cases hw : Nat.testBit (u8At c.sub.buf 3842) 2 with
    | true => simp [hk hw]
    | false => rfl
  show execNamespaceCreate h s = _
  unfold execNamespaceCreate
  rw [hc]
  dsimp only
  rw [if_neg (by omega), hok, if_neg (by simp), if_neg hdps, hkeep, if_neg (by simp), heol, if_neg (by simp), hfree]
  dsimp only
  rw [if_neg (by omega)]
  rfl

theorem exec_namespaceCreate_refused {s : State} {h : Nat} {c : Cmd} (hc : s.admin h 0x0D = some c) (hsel : fld (c.dword 10) 3 0 = 0)
    (hok : nsFieldsOk c.sub.buf = true) (hdps : u8At c.sub.buf 29 % 8 ≠ 2) (hw : Nat.testBit (u8At c.sub.buf 3842) 2 = true)
    (hk : c.keeper = false) : exec (.namespaceCreate h) s = .next (settle (notKeeper h s)) := by
  show execNamespaceCreate h s = _
  unfold execNamespaceCreate
  rw [hc]
  dsimp only
  rw [if_neg (by omega), hok, if_neg (by simp), if_neg hdps, hw, hk, if_pos (by rfl)]
  rfl

/-- Settles O22: the row of each command, and what a removal leaves of the media and the pipelines. -/
theorem namespaceRows : Obligations.NamespaceRows := by
  unfold Obligations.NamespaceRows
  refine ⟨fun s h n c hc hsel hok hdps hk heol hfree hcap => ?_, fun s h c hc hsel hok hdps hw hk => ?_,
    fun s h c n hc hsel hne hns hk hb => ?_, fun s h c n hc hns hat => ?_⟩
  · have hn := freeNsid_bounds hfree
    exact ⟨_, exec_namespaceCreate hc hsel hok hdps hk heol hfree hcap, recordKeys_namedNs_shape ..,
      (nsWorld_recordKeys ..).trans (nsWorld_namedNs hn ..), rules_namedNs ..,
      fun k hk1 _ hne => (nsWorld_recordKeys ..).trans (nsWorld_namedNs_ne hn.1 hk1 hne ..)⟩
  · exact exec_namespaceCreate_refused hc hsel hok hdps hw hk
  · refine ⟨recordKeys (removeNs c.nsid s), exec_namespaceDelete hc hsel hne hns hk hb, ?_, fun k hk => ?_, (removeNs_stores _ s).1,
      (removeNs_stores _ s).2, removeNs_pipes _ s, ?_⟩
    · exact look_filter_none _ (fun i => i != c.nsid) _ (by simp)
    · rw [recordKeys, removeNs_shape]
      exact look_filter _ (fun i => i != c.nsid) k (by simpa using hk)
    · rw [recordKeys, removeNs_shape]
      rfl
  · show execNamespaceAttachment h s = _
    unfold execNamespaceAttachment
    rw [hc]
    dsimp only
    rw [hns]
    dsimp only
    rw [if_neg hat]
    rfl

end Sys2Proof.Proofs
end

section
/-! Format NVM, Sanitize and firmware update (R65, R94, R354, R357): settles O23. -/

namespace Sys2Proof.Proofs

open Sys2Proof Sys2Proof.Machine Sys2Proof.Laws

/-- A namespace as its erase leaves it: no record and no index. -/
def emptied (key : List Byte) (n : Ns) : Ns :=
  { n with key := key, st := { n.st with next := 0, used := 0, recs := [], opened := [], unindexed := [] } }

theorem eraseNs_shape (n : Nat) (rekey : Bool) (s : State) : eraseNs n rekey s = { s with
    med := (eraseNs n rekey s).med, ns := adjust s.ns n fun x => emptied (if rekey then (newKey s).1 else x.key) x
    fresh := s.fresh + 1, opens := (eraseNs n rekey s).opens } := by
  unfold eraseNs
  dsimp only
  rw [trim_shape, unclean_shape]
  rfl

/-- Nothing of an erased namespace stays in DRAM or NAND. -/
theorem eraseNs_stores (n : Nat) (rekey : Bool) (s : State) :
    (∀ x ∈ (eraseNs n rekey s).med.content, keyNs x.1 ≠ n) ∧ (∀ x ∈ (eraseNs n rekey s).med.held, keyNs x.1 ≠ n) :=
  removeNs_stores n s

theorem exec_formatNvm {s : State} {h : Nat} {c : Cmd} {n : Ns} (hc : s.admin h 0x80 = some c) (hcompat : s.compat = false)
    (hses : fmtSes c ≤ 2) (hne : c.nsid ≠ 0xFFFFFFFF) (hns : look s.ns c.nsid = some n) (henc : fmtSes c = 2 → n.encrypt = true)
    (hok : formatOk c s [c.nsid] = true) (hk : s.nsWorld c.nsid = true → c.keeper = true) (hb : s.nsBusy c.nsid = false) :
    exec (.formatNvm h) s =
      .next (settle (succeed h (recordKeys (modNs c.nsid (fun x => x.format c) (eraseNs c.nsid (fmtSes c == 2) s))))) := by
  have hformat : (!formatOk c s (if (false : Bool) = true then [] else [c.nsid])) = false := by rw [if_neg Bool.false_ne_true, hok]; rfl
  have hkeys : (decide (fmtSes c = 2) && !false && [c.nsid].any fun n => (look s.ns n).any fun x => !x.encrypt) = false := by
    by_cases he : fmtSes c = 2
    · simp [hns, henc he]
    · simp [he]
  show execFormatNvm h s = _
  unfold execFormatNvm
  rw [hc]
  dsimp only
  rw [named_of_look hne hns, hcompat, Bool.false_and, if_neg (by omega), if_neg (by simp), hformat, hkeys, needsKeeper_single hk]
  simp only [List.any_cons, List.any_nil, hb, Bool.or_false, Bool.false_eq_true, if_false]
  rfl

/-- The namespaces of a format: the one named is emptied and takes the format, the others stay. -/
theorem look_formatted (k i : Nat) (rekey : Bool) (c : Cmd) (s : State) :
    look (recordKeys (modNs k (fun x => x.format c) (eraseNs k rekey s))).ns i =
      if i = k then (look s.ns i).map fun x => (emptied (if rekey then (newKey s).1 else x.key) x).format c else look s.ns i := by
  have hns : (recordKeys (modNs k (fun x => x.format c) (eraseNs k rekey s))).ns =
      adjust (adjust s.ns k fun x => emptied (if rekey then (newKey s).1 else x.key) x) k fun x => x.format c :=
    congrArg (fun m => adjust m k fun x : Ns => x.format c) ((congrArg State.ns (eraseNs_shape k rekey s) :))
  rw [hns, look_adjust, look_adjust]
  split
  · rw [Option.map_map]
    rfl
  · rfl

/-! Sanitize: every namespace is erased. -/

/-- A namespace with no record in it. -/
def blank (n : Ns) : Prop := n.st.recs = [] ∧ n.st.next = 0

/-- Erases one after the other, of all namespaces named. -/
def eraseAll (rekey : Bool) (ids : List Nat) (s : State) : State := ids.foldl (fun s n => eraseNs n rekey s) s

theorem eraseAll_shape (rekey : Bool) (ids : List Nat) (s : State) : eraseAll rekey ids s = { s with
    med := (eraseAll rekey ids s).med, ns := (eraseAll rekey ids s).ns, fresh := (eraseAll rekey ids s).fresh
    opens := (eraseAll rekey ids s).opens } := by
  induction ids generalizing s with
  | nil => rfl
  | cons n ids ih =>
    have hcons : eraseAll rekey (n :: ids) s = eraseAll rekey ids (eraseNs n rekey s) := rfl
    rw [hcons]
    refine (ih _).trans ?_
    generalize eraseAll rekey ids (eraseNs n rekey s) = u
    rw [eraseNs_shape]

theorem blank_eraseAll (rekey : Bool) (ids : List Nat) (s : State) (h : ∀ x ∈ s.ns, x.1 ∈ ids ∨ blank x.2) :
    ∀ x ∈ (eraseAll rekey ids s).ns, blank x.2 := by
  induction ids generalizing s with
  | nil => exact fun x hx => (h x hx).resolve_left List.not_mem_nil
  | cons n ids ih =>
    refine ih (eraseNs n rekey s) fun x hx => ?_
    rw [eraseNs_shape] at hx
    obtain ⟨y, hy, rfl⟩ := List.mem_map.1 hx
    dsimp only
    split
    · exact .inr ⟨rfl, rfl⟩
    · next hne =>
      rcases h y hy with hmem | hblank
      · exact .inl ((List.mem_cons.1 hmem).resolve_left (by simpa using hne))
      · exact .inr hblank

theorem sanitizeCmd_keeper {s : State} {act h : Nat} {c : Cmd} (hc : s.admin h 0x84 = some c) (hact : fld (c.dword 10) 2 0 = act)
    (henc : act = 4 → ∀ x ∈ s.ns, x.2.encrypt = true) : sanitizeCmd act h s =
    if !c.keeper then notKeeper h s
    else if (s.nv.inflight.any fun x => x.qid != 0) || s.queries.any fun q => q.state != .ended then s
    else succeed h (sanitize (act == 4) s) := by
  have hnone : (decide (act = 4) && s.ns.any fun x => !x.2.encrypt) = false := by
    by_cases ha : act = 4
    · simpa [ha] using fun a b hx => henc ha (a, b) hx
    · simp [ha]
  unfold sanitizeCmd
  rw [hc]
  dsimp only
  rw [if_neg (by simp [hact]), hnone, if_neg (by simp)]

/-- The two actions of Sanitize that erase are one command with one action each. -/
theorem exec_sanitize {s : State} {h act : Nat} {i : Instr} (hi : (act, i) ∈ [(2, Instr.sanitizeBlockErase h), (4, .sanitizeCryptoErase h)]) :
    exec i s = done (sanitizeCmd act h s) := by
  simp only [List.mem_cons, Prod.mk.injEq, List.not_mem_nil, or_false] at hi
  rcases hi with ⟨rfl, rfl⟩ | ⟨rfl, rfl⟩ <;> rfl

theorem sanitize_facts (newKeys : Bool) (s : State) : (∀ x ∈ (sanitize newKeys s).slots, x.2.state = .free ∧ x.2.answer = []) ∧
    (∀ x ∈ (sanitize newKeys s).ns, blank x.2) ∧ (sanitize newKeys s).nv.sanitize = 1 ∧
    (sanitize newKeys s).hb = s.hb.writeRec 0 (sanitize newKeys s).keyRecord ∧ (sanitize newKeys s).acc = s.acc ∧
    (sanitize newKeys s).bcn = s.bcn ∧ (sanitize newKeys s).stalls = s.stalls := by
  have hns : (sanitize newKeys s).ns = (eraseAll newKeys (s.named 0xFFFFFFFF) s).ns := rfl
  have hnamed : s.named 0xFFFFFFFF = s.ns.map fun x => x.1 := if_pos rfl
  refine ⟨fun x hx => ?_, ?_, rfl, ?_, ?_, ?_, ?_⟩
  · obtain ⟨y, -, rfl⟩ := List.mem_map.1 hx
    exact ⟨rfl, rfl⟩
  · rw [hns, hnamed]
    exact blank_eraseAll _ _ s fun x hx => .inl (List.mem_map_of_mem hx)
  all_goals
    have hshape := eraseAll_shape newKeys (s.named 0xFFFFFFFF) s
  · have hhb : (eraseAll newKeys (s.named 0xFFFFFFFF) s).hb = s.hb := by rw [hshape]
    exact congrArg (fun b : Harbour => b.writeRec 0 (eraseAll newKeys (s.named 0xFFFFFFFF) s).keyRecord) hhb
  · exact (congrArg State.acc hshape :)
  · exact (congrArg State.bcn hshape :)
  · exact (congrArg State.stalls hshape :)

/-! Firmware update (R354). -/

theorem fwCommit_notKeeper {s : State} {a h : Nat} {c : Cmd} (k : Cmd → State → State) (hc : s.admin h 0x10 = some c) (ha : fwAction c = a)
    (hk : c.keeper = false) : fwCommit a h k s = notKeeper h s := by
  unfold fwCommit
  rw [hc]
  dsimp only
  rw [if_neg (by simp [ha]), hk]
  rfl

theorem fwCommit_slot {s : State} {a h : Nat} {c : Cmd} (k : Cmd → State → State) (hc : s.admin h 0x10 = some c) (ha : fwAction c = a)
    (hk : c.keeper = true) (hs : fwSlot c = 1 ∨ fwSlot c = 2) : fwCommit a h k s = k c s := by
  unfold fwCommit
  rw [hc]
  dsimp only
  rw [if_neg (by simp [ha]), hk, if_neg (by simp), if_neg (by omega)]

theorem fwReplace_starts {s : State} {h : Nat} {c : Cmd} (hrun : s.hb.running ≠ some (fwSlot c == 2))
    (hvalid : (fwValid s.rollback s.hb.downloaded).isSome = true) (hworn : s.hb.bankWorn (fwSlot c == 2) = false) :
    fwReplace h c s = (startFwCommit h (fwSlot c == 2) s).modCmd h fun x => { x with phase := .rom } := by
  unfold fwReplace
  dsimp only
  rw [if_neg hrun, if_neg (by simp [Option.isSome_iff_ne_none.1 hvalid]), hworn, if_neg Bool.false_ne_true]

theorem fwReplace_running {s : State} {h : Nat} {c : Cmd} (hrun : s.hb.running = some (fwSlot c == 2)) :
    fwReplace h c s = fail h 1 0x06 s :=
  if_pos hrun

/-- The two actions that replace an image are one row with one action each. -/
theorem exec_fwReplace {s : State} {h a : Nat} {i : Instr} (hi : (a, i) ∈ [(0, Instr.firmwareCommitReplace h),
    (1, .firmwareCommitReplaceActivate h), (2, .firmwareCommitActivate h)]) (ha : a ≤ 1) :
    exec i s = done (fwCommit a h (fwReplace h) s) := by
  simp only [List.mem_cons, Prod.mk.injEq, List.not_mem_nil, or_false] at hi
  rcases hi with ⟨rfl, rfl⟩ | ⟨rfl, rfl⟩ | ⟨rfl, rfl⟩
  · rfl
  · rfl
  · omega

/-- The row of each action is a Firmware Commit. -/
theorem exec_fwCommit {s : State} {h a : Nat} {i : Instr} (hi : (a, i) ∈ [(0, Instr.firmwareCommitReplace h),
    (1, .firmwareCommitReplaceActivate h), (2, .firmwareCommitActivate h)]) : ∃ k, exec i s = done (fwCommit a h k s) := by
  simp only [List.mem_cons, Prod.mk.injEq, List.not_mem_nil, or_false] at hi
  rcases hi with ⟨rfl, rfl⟩ | ⟨rfl, rfl⟩ | ⟨rfl, rfl⟩ <;> exact ⟨_, rfl⟩

/-- Settles O23: the rows of Format NVM and Sanitize by what their erases leave, and those of the firmware by their checks. -/
theorem eraseAndFirmwareRows : Obligations.EraseAndFirmwareRows := by
  unfold Obligations.EraseAndFirmwareRows
  refine ⟨⟨fun s h c n hc hcompat hses hne hns henc hok hk hb => ?_, fun s h act i c hi hc hact henc => ⟨fun hk => ?_, fun hk hq hqu => ?_⟩⟩,
    fun s h c hc hlen => ?_, fun s h a i c hi hc ha => ⟨fun hk => ?_, fun hle hk hs hrun hvalid hworn => ?_, fun hle hk hs hrun => ?_,
      fun h2 hk hs => ?_⟩⟩
  · have hstores := eraseNs_stores c.nsid (fmtSes c == 2) s
    refine ⟨_, exec_formatNvm hc hcompat hses hne hns henc hok hk hb, ?_, hstores.1, hstores.2, ?_, fun k hk => ?_⟩
    · refine (recordKeys_shape _).trans ?_
      generalize (recordKeys _).keyRecord = r
      rw [modNs, eraseNs_shape]
      rfl
    · rw [look_formatted, if_pos rfl, hns, Option.map_some]
      refine ⟨_, rfl, rfl, rfl, rfl, rfl, rfl, ?_, rfl, rfl⟩
      by_cases he : fmtSes c = 2
      · rw [if_pos he, he]
        rfl
      · exact (if_neg (by simpa using he)).trans (if_neg he).symm
    · rw [look_formatted, if_neg hk]
  · rw [exec_sanitize hi, sanitizeCmd_keeper hc hact henc, hk]
    rfl
  · have hidle : ((s.nv.inflight.any fun x => x.qid != 0) || s.queries.any fun q => q.state != .ended) = false := by
      simpa [hqu] using hq
    obtain ⟨hslots, hns, hsan, hhb, hacc, hbcn, hst⟩ := sanitize_facts (act == 4) s
    refine ⟨_, ?_, hslots, hns, hsan, hhb, hacc, hbcn, hst⟩
    rw [exec_sanitize hi, sanitizeCmd_keeper hc hact henc, hk, hidle]
    rfl
  · show execFirmwareImageDownload h s = _
    unfold execFirmwareImageDownload
    rw [hc]
    dsimp only
    rw [if_neg (by omega)]
    rfl
  · obtain ⟨k, hrow⟩ := exec_fwCommit (s := s) hi
    rw [hrow, fwCommit_notKeeper k hc ha hk]
    rfl
  · rw [exec_fwReplace hi hle, fwCommit_slot _ hc ha hk hs, fwReplace_starts hrun hvalid hworn]
    rfl
  · rw [exec_fwReplace hi hle, fwCommit_slot _ hc ha hk hs, fwReplace_running hrun]
    rfl
  · have hi' : i = .firmwareCommitActivate h := by simpa [h2] using hi
    rw [hi']
    show done (fwCommit 2 h _ s) = _
    rw [fwCommit_slot _ hc (ha.trans h2) hk hs]
    rfl

end Sys2Proof.Proofs
end

section
/-! Keeper sessions of the admin queue (R346 to R350): settles O24. -/

namespace Sys2Proof.Proofs

open Sys2Proof Sys2Proof.Machine Sys2Proof.Laws

theorem keeperRow_of {s : State} {op h : Nat} {c : Cmd} (k : Cmd → State → State) (hc : s.admin h 0xC9 = some c)
    (hop : fld (c.dword 10) 3 0 = op) (hf : keeperFields c = true) : keeperRow op h k s = k c s := by
  unfold keeperRow
  rw [hc]
  dsimp only
  rw [if_neg (by simp [hop]), hf, if_neg (by simp)]

theorem keeperAuth_none {s : State} {op h : Nat} {c : Cmd} (k : Cmd → State → State) (hc : s.admin h 0xC9 = some c)
    (hop : fld (c.dword 10) 3 0 = op) (hf : keeperFields c = true) (ha : nvmeAuth c.sub.dw c.sub.buf s = none) :
    keeperAuth op h k s = notKeeper h s := by
  rw [keeperAuth, keeperRow_of _ hc hop hf, ha, Option.elim_none]

theorem keeperAuth_some {s t : State} {op h : Nat} {c : Cmd} (k : Cmd → State → State) (hc : s.admin h 0xC9 = some c)
    (hop : fld (c.dword 10) 3 0 = op) (hf : keeperFields c = true) (ha : nvmeAuth c.sub.dw c.sub.buf s = some t) :
    keeperAuth op h k s = k c t := by
  rw [keeperAuth, keeperRow_of _ hc hop hf, ha, Option.elim_some]

/-- An accepted MAC raises the counter of its session and nothing else (R348). -/
theorem nvmeAuth_some {dw : Vector W32 16} {buf : List Byte} {s t : State} (h : nvmeAuth dw buf s = some t) :
    ∃ ks last, s.keeper.nvme.session = some (ks, last) ∧ last < ofBe (slice buf 0 8) ∧
      slice buf 8 32 = nvmeMac ks (ofBe (slice buf 0 8)) dw buf ∧
      t = { s with keeper := { s.keeper with nvme := { s.keeper.nvme with session := some (ks, ofBe (slice buf 0 8)) } } } := by
  unfold nvmeAuth at h
  split at h
  · contradiction
  · next ks last hses =>
    dsimp only at h
    split at h
    · next hok => exact ⟨ks, last, hses, hok.1, hok.2, (Option.some.inj h).symm⟩
    · contradiction

/-- An accepted MAC changes the NVMe channel only. -/
theorem nvmeAuth_shape {dw : Vector W32 16} {buf : List Byte} {s t : State} (h : nvmeAuth dw buf s = some t) :
    t = { s with keeper := { s.keeper with nvme := t.keeper.nvme } } := by
  obtain ⟨ks, last, -, -, -, rfl⟩ := nvmeAuth_some h
  rfl

theorem nvmeAuth_of_closed {s : State} (h : s.keeper.nvme.session = none) (dw : Vector W32 16) (buf : List Byte) :
    nvmeAuth dw buf s = none := by
  unfold nvmeAuth
  rw [h]

/-- An accepted HELLO: a handshake, and three draws of the random source (R346). -/
theorem hello_facts (ch : Byte) (c : Channel) (m n : List Byte) (s : State) : (hello ch c m n s).2.2.1.hs.isSome = true ∧
    (hello ch c m n s).2.2.1.session = c.session ∧ (hello ch c m n s).2.2.2 = { s with fresh := s.fresh + 3 } := ⟨rfl, rfl, rfl⟩

/-- The bytes that HELLO answers: n_C, the cipher and the first 384 bytes of the signature (R346). -/
def helloAnswer (c : Channel) (m n : List Byte) (s : State) : List Byte :=
  let r := hello 0x00 c m n s
  r.1 ++ r.2.1 ++ slice (r.2.2.1.hs.elim [] fun x => x.sigma) 0 384

/-- PROVE with the proof of the handshake, and with another (R346). -/
theorem prove_of_handshake {c : Channel} {x : Handshake} (h : c.hs = some x) (p : List Byte) : c.prove p =
    if x.proof = p then
      (true, { c with session := some (x.ks, 0), hs := none, fails := 0, refusing := false, serial := c.serial + 1 })
    else (false, { c with hs := none, fails := c.fails + 1, refusing := true }) := by
  unfold Channel.prove
  rw [h]

theorem exec_keeperProve {s : State} {h : Nat} {c : Cmd} {x : Handshake} (hc : s.admin h 0xC9 = some c) (hop : fld (c.dword 10) 3 0 = 1)
    (hf : keeperFields c = true) (hs : s.keeper.nvme.hs = some x) :
    (slice c.sub.buf 0 32 = x.proof → exec (.keeperProve h) s = .next (settle (succeed h { s with keeper := { s.keeper with
      nvme := { s.keeper.nvme with session := some (x.ks, 0), hs := none, fails := 0, refusing := false
                                   serial := s.keeper.nvme.serial + 1 } } }))) ∧
    (slice c.sub.buf 0 32 ≠ x.proof → exec (.keeperProve h) s = .next (settle (notKeeper h { s with keeper := { s.keeper with
      nvme := { s.keeper.nvme with hs := none, fails := s.keeper.nvme.fails + 1, refusing := true } } }))) := by
  have hrow : exec (.keeperProve h) s = execKeeperProve h s := rfl
  rw [hrow, execKeeperProve, keeperRow_of _ hc hop hf, prove_of_handshake hs]
  refine ⟨fun hp => ?_, fun hp => ?_⟩
  · rw [if_pos hp.symm]
    rfl
  · rw [if_neg (Ne.symm hp)]
    rfl

/-- The row of each operation with a MAC. -/
theorem exec_keeperAuth {s : State} {h op : Nat} {i : Instr} (hi : (op, i) ∈ [(2, Instr.keeperClose h), (3, .keeperArm h),
    (4, .keeperRegister h), (5, .keeperCommitRules h)]) : ∃ k, exec i s = done (keeperAuth op h k s) := by
  simp only [List.mem_cons, Prod.mk.injEq, List.not_mem_nil, or_false] at hi
  rcases hi with ⟨rfl, rfl⟩ | ⟨rfl, rfl⟩ | ⟨rfl, rfl⟩ | ⟨rfl, rfl⟩ <;> exact ⟨_, rfl⟩

theorem arm_armed (e : Armed) (s : State) : (arm e s).keeper.armed = (s.keeper.armed ++ [e]).drop (s.keeper.armed.length - 7) := by
  show (s.keeper.armed ++ [e]).drop ((s.keeper.armed ++ [e]).length - 8) = _
  rw [List.length_append, List.length_singleton, show s.keeper.armed.length + 1 - 8 = s.keeper.armed.length - 7 by omega]

/-- Settles O24: HELLO, PROVE, and what each operation with an accepted MAC does. -/
theorem keeperRows : Obligations.KeeperRows := by
  unfold Obligations.KeeperRows
  refine ⟨fun s h c hc hop hf => ⟨fun hok => ?_, fun hno => ?_⟩, fun s h c x hc hop hf hs => exec_keeperProve hc hop hf hs,
    fun s h op i c hi hc hop hf ha => ?_, fun s t h c hc ha => ⟨fun hop hf => ?_, fun hop hf => ?_, fun hop hf st v t' hst hserve => ?_,
      fun hop hf v t' hserve => ?_, fun hop hf hworn => ?_⟩, fun s => ⟨fun hclosed dw buf => nvmeAuth_of_closed hclosed dw buf, ?_⟩⟩
  · have hopen : s.keeper.nvme.session = none := by
      simp only [State.helloOk, Bool.and_eq_true, Option.isNone_iff_eq_none] at hok
      exact hok.1.2
    refine ⟨{ s with fresh := s.fresh + 3, keeper := { s.keeper with
      nvme := (hello 0x00 s.keeper.nvme (slice c.sub.buf 0 384) (slice c.sub.buf 384 32) s).2.2.1 } },
      helloAnswer s.keeper.nvme (slice c.sub.buf 0 384) (slice c.sub.buf 384 32) s, ?_, rfl, hopen, rfl, rfl, rfl⟩
    show execKeeperHello h s = _
    rw [execKeeperHello, keeperRow_of _ hc hop hf]
    dsimp only
    rw [hok, if_neg (by simp)]
    rfl
  · show execKeeperHello h s = _
    rw [execKeeperHello, keeperRow_of _ hc hop hf]
    dsimp only
    rw [hno]
    rfl
  · obtain ⟨k, hrow⟩ := exec_keeperAuth (s := s) hi
    rw [hrow, keeperAuth_none k hc hop hf ha]
    rfl
  · have hrow : exec (.keeperClose h) s = .next (settle (succeed h (closeNvme t))) := by
      show done (keeperAuth 2 h _ s) = _
      rw [keeperAuth_some _ hc hop hf ha]
      rfl
    refine ⟨_, hrow, rfl, rfl, ?_, ?_⟩ <;> rw [nvmeAuth_shape ha] <;> rfl
  · have hrow : exec (.keeperArm h) s = .next (settle (succeed h (arm (armedOf c) t))) := by
      show done (keeperAuth 3 h _ s) = _
      rw [keeperAuth_some _ hc hop hf ha]
      rfl
    refine ⟨_, hrow, ?_, ?_, ?_⟩
    · rw [arm_armed, nvmeAuth_shape ha]
    · rw [nvmeAuth_shape ha]
      rfl
    · rw [nvmeAuth_shape ha]
      rfl
  · show done (keeperAuth 4 h _ s) = _
    rw [keeperAuth_some _ hc hop hf ha]
    dsimp only
    rw [hserve]
    exact congrArg done (if_neg hst)
  · show done (keeperAuth 4 h _ s) = _
    rw [keeperAuth_some _ hc hop hf ha]
    dsimp only
    rw [hserve]
    exact congrArg done (if_pos rfl)
  · have hhb : t.hb = s.hb := by rw [nvmeAuth_shape ha]
    refine ⟨(startJob (.commitRules h) .keeper t).modCmd h fun x => { x with phase := .rom }, ?_, rfl, fun x hx hxh => ?_⟩
    · show done (keeperAuth 5 h _ s) = _
      rw [keeperAuth_some _ hc hop hf ha]
      rw [hhb, hworn]
      rfl
    · obtain ⟨y, hy, rfl⟩ := List.mem_map.1 hx
      by_cases hy' : y.h = h
      · exact congrArg Cmd.phase (if_pos hy')
      · exact absurd ((congrArg Cmd.h (if_neg hy')).symm.trans hxh) hy'
  · intro ks last dw buf t hses ha
    obtain ⟨ks', last', hses', hlt, hmac, ht⟩ := nvmeAuth_some ha
    obtain ⟨rfl, rfl⟩ := Prod.mk.inj (Option.some.inj (hses.symm.trans hses'))
    exact ⟨hlt, hmac, ht⟩

end Sys2Proof.Proofs
end

section
/-! Attest and Harbour Mailbox (R326, R356): settles O25. -/

namespace Sys2Proof.Proofs

open Sys2Proof Sys2Proof.Machine Sys2Proof.Laws

/-- A row of the admin queue finds the command that has its handle. -/
theorem h_of_admin {s : State} {h opc : Nat} {c : Cmd} (hc : s.admin h opc = some c) : c.h = h := by
  have hcmd : s.cmd h = some c := by
    unfold State.admin at hc
    split at hc
    · next x hx =>
      split at hc
      · exact hx.trans hc
      · contradiction
    · contradiction
  simpa using List.find?_some hcmd

theorem exec_attest {s : State} {h : Nat} {c : Cmd} (hc : s.admin h 0xCA = some c) : exec (.attest h) s =
    done (complete h 0 0 (w32 (if bit (c.dword 10) 0 then Config.deviceCertificate.take 4096
      else s.attestReport (slice c.sub.buf 0 32)).length) 0 (if bit (c.dword 10) 0 then Config.deviceCertificate.take 4096
      else s.attestReport (slice c.sub.buf 0 32)) s) := by
  show execAttest h s = _
  unfold execAttest
  rw [hc]

theorem slice_front (a b c d e f g h : Byte) (rest tail : List Byte) :
    slice (slice (a :: b :: c :: d :: e :: f :: g :: h :: rest) 0 0x200 ++ tail) 0 8 = [a, b, c, d, e, f, g, h] := rfl

/-- The magic number, the version and the open sessions stand at the start of the report (Table 12-13). -/
theorem attestReport_head (s : State) (nonce : List Byte) : slice (s.attestReport nonce) 0 8 = [0x31, 0x54, 0x54, 0x41, 0x01, 0x00,
    b8 (b2n s.keeper.nvme.session.isSome + 2 * b2n s.keeper.bus.session.isSome), 0x00] := by
  have hflags : leBytes 2 (b2n s.keeper.nvme.session.isSome + 2 * b2n s.keeper.bus.session.isSome) =
      [b8 (b2n s.keeper.nvme.session.isSome + 2 * b2n s.keeper.bus.session.isSome), 0x00] := by
    cases s.keeper.nvme.session.isSome <;> cases s.keeper.bus.session.isSome <;> rfl
  have hmagic : leBytes 4 0x41545431 = [0x31, 0x54, 0x54, 0x41] := rfl
  have hversion : leBytes 2 1 = [0x01, 0x00] := rfl
  unfold State.attestReport
  dsimp only
  rw [hflags, hmagic, hversion]
  generalize b8 (b2n s.keeper.nvme.session.isSome + 2 * b2n s.keeper.bus.session.isSome) = flags
  simp only [List.append_assoc, List.cons_append, List.nil_append]
  exact slice_front ..

/-- The row of the mailbox, once its fields and its world are right. -/
theorem exec_harbourMailbox {s : State} {h : Nat} {c : Cmd} (hc : s.admin h 0xCC = some c) (hf : mbxFields c = true)
    (hw : s.mbxForeign c = false) : exec (.harbourMailbox h) s = done (
      if mbxOp c = 1 then
        mbxAnswer c (readStat c.keeper false (mbxOff c) (mbxLen c)) (mbxLen c)
          (if readStat c.keeper false (mbxOff c) (mbxLen c) = statOk then s.hb.bytes (mbxOff c) (mbxLen c) else []) s
      else if mbxOp c = 4 then
        mbxAnswer c (if readStat c.keeper false (mbxOff c) (mbxLen c) = statOk && !s.hb.isBlank (mbxOff c) (mbxLen c) then statNotBlank
          else readStat c.keeper false (mbxOff c) (mbxLen c)) (mbxLen c) [] s
      else if mbxOp c = 2 then
        if programStat c.keeper (mbxOff c) (mbxLen c) s = statOk then mbxStart c s
        else mbxAnswer c (programStat c.keeper (mbxOff c) (mbxLen c) s) 0 [] s
      else if mbxOp c = 3 then
        if eraseStat c.keeper (mbxOff c) s = statOk then mbxStart c { s with hb := s.hb.beginErase (mbxOff c / 65536) }
        else mbxAnswer c (eraseStat c.keeper (mbxOff c) s) 0 [] s
      else if mbxOp c = 5 then mbxAnswer c statOk (mbxLen c) (s.otpVisible (mbxOff c) (mbxLen c)) s
      else if otpStat c.keeper (mbxOff c) (mbxLen c) s = statOk then mbxAnswer c (otpStat c.keeper (mbxOff c) (mbxLen c) s) (mbxLen c) []
        (programOtpBytes (mbxOff c) (slice c.sub.buf 0 (mbxLen c)) s)
      else mbxAnswer c (otpStat c.keeper (mbxOff c) (mbxLen c) s) 0 [] s) := by
  show execHarbourMailbox h s = _
  unfold execHarbourMailbox
  rw [hc]
  dsimp only
  rw [hf, if_neg (by simp), hw, if_neg (by simp)]

theorem mbxAnswer_ok (c : Cmd) (bytes : Nat) (data : List Byte) (s : State) :
    mbxAnswer c statOk bytes data s = complete c.h 0 0 0 (w32 bytes) data s := rfl

theorem mbxAnswer_notBlank (c : Cmd) (bytes : Nat) (data : List Byte) (s : State) :
    mbxAnswer c statNotBlank bytes data s = complete c.h 0 0 8 (w32 bytes) data s := rfl

/-- Settles O25: the report, and each operation of the mailbox. -/
theorem attestAndMailboxRows : Obligations.AttestAndMailboxRows := by
  unfold Obligations.AttestAndMailboxRows
  refine ⟨fun s h c hc => ⟨fun hb => ?_, fun hb => ?_⟩, attestReport_head, fun s h c hc hf hw => ?_, fun s h c hc hf hw => ?_⟩
  · rw [exec_attest hc, hb]
    rfl
  · rw [exec_attest hc, hb]
    rfl
  · rw [exec_harbourMailbox hc hf hw, ← h_of_admin hc]
    refine ⟨fun hop hst => ?_, fun hop hst => ?_, fun hop hst => ?_, fun hop hst => ?_, fun hop => ?_, fun hop hst => ?_⟩
    · rw [if_pos hop, hst, if_pos rfl, mbxAnswer_ok]
      rfl
    · rw [if_neg (by omega), if_neg (by omega), if_pos hop, if_pos hst]
      rfl
    · rw [if_neg (by omega), if_neg (by omega), if_neg (by omega), if_pos hop, if_pos hst]
      rfl
    · rw [if_neg (by omega), if_pos hop, hst]
      cases s.hb.isBlank (mbxOff c) (mbxLen c) with
      | true => exact congrArg done (mbxAnswer_ok c (mbxLen c) [] s)
      | false => exact congrArg done (mbxAnswer_notBlank c (mbxLen c) [] s)
    · rw [if_neg (by omega), if_neg (by omega), if_neg (by omega), if_neg (by omega), if_pos hop, mbxAnswer_ok]
      rfl
    · rw [if_neg (by omega), if_neg (by omega), if_neg (by omega), if_neg (by omega), if_neg (by omega), if_pos hst, hst, mbxAnswer_ok]
      rfl
  · show execHarbourMailbox h s = _
    unfold execHarbourMailbox
    rw [hc]
    dsimp only
    rw [hf, if_neg (by simp), hw]
    rfl

end Sys2Proof.Proofs
end

section
/-! Stall Load and Stall Run/Stop (R204 to R210, R219): settles O26. -/

namespace Sys2Proof.Proofs

open Sys2Proof Sys2Proof.Machine Sys2Proof.Laws

/-! An action on every Stall of a mask, one after the other. -/

section

variable {f : State → Nat → State} {l : List Nat} {I : State → Prop}

theorem foldl_holds (hI : ∀ s, I s → ∀ n ∈ l, I (f s n)) {s : State} (hs : I s) : I (l.foldl f s) :=
  List.foldlRecOn l f hs fun u hu n hn => hI u hu n hn

theorem foldl_stall_of_notMem (hne : ∀ s, ∀ n ∈ l, ∀ m, m ≠ n → (f s n).stall m = s.stall m) {m : Nat} (hm : m ∉ l) (s : State) :
    (l.foldl f s).stall m = s.stall m :=
  foldl_keep_mem (fun s => State.stall s m) f l (fun n hn s => hne s n hn m fun e => hm (e ▸ hn)) s

/-- What the action gives a Stall of the mask, it has at the end. -/
theorem foldl_stall_mem {P : Nat → Stall → Prop} (hself : ∀ s, ∀ n ∈ l, P n ((f s n).stall n))
    (hne : ∀ s, ∀ n ∈ l, ∀ m, m ≠ n → (f s n).stall m = s.stall m) (s : State) : ∀ m ∈ l, P m ((l.foldl f s).stall m) := by
  induction l generalizing s with
  | nil => exact fun m hm => absurd hm List.not_mem_nil
  | cons n l ih =>
    intro m hm
    rw [List.foldl_cons]
    by_cases hl : m ∈ l
    · exact ih (fun s k hk => hself s k (List.mem_cons_of_mem n hk)) (fun s k hk => hne s k (List.mem_cons_of_mem n hk)) (f s n) m hl
    · rw [foldl_stall_of_notMem (fun s k hk => hne s k (List.mem_cons_of_mem n hk)) hl]
      obtain rfl := (List.mem_cons.1 hm).resolve_right hl
      exact hself s m hm

/-- An action that makes g of each Stall makes g of every Stall of the mask, once. -/
theorem foldl_stall {g : Nat → Stall → Stall} (hnodup : l.Nodup) (hI : ∀ s, I s → ∀ n ∈ l, I (f s n))
    (hself : ∀ s, I s → ∀ n ∈ l, (f s n).stall n = g n (s.stall n))
    (hne : ∀ s, I s → ∀ n ∈ l, ∀ m, m ≠ n → (f s n).stall m = s.stall m) {s : State} (hs : I s) (m : Nat) :
    (l.foldl f s).stall m = if m ∈ l then g m (s.stall m) else s.stall m := by
  induction l generalizing s with
  | nil => rfl
  | cons n l ih =>
    obtain ⟨hn, hl⟩ := List.nodup_cons.1 hnodup
    have hin {k : Nat} (hk : k ∈ l) : k ∈ n :: l := List.mem_cons_of_mem n hk
    rw [List.foldl_cons, ih hl (fun s hs k hk => hI s hs k (hin hk)) (fun s hs k hk => hself s hs k (hin hk))
      (fun s hs k hk => hne s hs k (hin hk)) (hI s hs n List.mem_cons_self)]
    by_cases hm : m = n
    · subst hm
      rw [if_neg hn, if_pos List.mem_cons_self, hself s hs m List.mem_cons_self]
    · rw [hne s hs n List.mem_cons_self m hm]
      exact if_congr (by simp [hm]) rfl rfl

end

/-- The state with other Stalls. -/
def StallsOf (s u : State) : Prop := ∃ st, u = { s with stalls := st }

/-- The state with other Stalls and pipelines. -/
def TilesOf (s u : State) : Prop := ∃ st p, u = { s with stalls := st, pipes := p }

theorem stallsOf_self (s : State) : StallsOf s s := ⟨s.stalls, rfl⟩

theorem tilesOf_self (s : State) : TilesOf s s := ⟨s.stalls, s.pipes, rfl⟩

theorem stallsOf_modStall {s u : State} (h : StallsOf s u) (n : Nat) (f : Stall → Stall) : StallsOf s (u.modStall n f) := by
  obtain ⟨st, rfl⟩ := h
  exact ⟨_, rfl⟩

theorem stallsOf_setStall {s u : State} (h : StallsOf s u) (n : Nat) (t : Stall) : StallsOf s (u.setStall n t) := by
  obtain ⟨st, rfl⟩ := h
  exact ⟨_, rfl⟩

theorem StallsOf.shape {s u : State} (h : StallsOf s u) : u = { s with stalls := u.stalls } := by
  obtain ⟨st, rfl⟩ := h
  rfl

theorem TilesOf.shape {s u : State} (h : TilesOf s u) : u = { s with stalls := u.stalls, pipes := u.pipes } := by
  obtain ⟨st, p, rfl⟩ := h
  rfl

theorem stallMask_nodup (c : Cmd) : (stallMask c).Nodup := List.nodup_range.filter _

theorem lt_of_stallMask {c : Cmd} {n : Nat} (h : n ∈ stallMask c) : n < 64 := (mem_setBits.1 h).1

/-! The rows of Stall Run/Stop. -/

/-- A row whose checks pass. -/
theorem stallRow_of {s : State} {a h : Nat} {c : Cmd} {err : StallSt → Bool} (k : Cmd → State → State) (hc : s.admin h 0xC2 = some c)
    (hm : stallMask c ≠ []) (hz : c.allZero [1, 2, 3, 4, 5, 6, 7, 8, 9, 11, 14, 15] = true) (hf : fld (c.dword 10) 31 4 = 0)
    (hk : s.stallsKeeper c = false) (ha : fld (c.dword 10) 3 0 = a) (herr : ∀ n ∈ stallMask c, err (s.stall n).state = false) :
    stallRow a h err k s = k c s := by
  unfold stallRow
  rw [hc]
  dsimp only
  rw [if_neg (by simp [ha]), if_neg (by simp [hm, hz, hf]), hk, if_neg (by simp), if_neg (by simpa using herr)]

theorem stallRow_error {s : State} {a h : Nat} {c : Cmd} {err : StallSt → Bool} (k : Cmd → State → State) (hc : s.admin h 0xC2 = some c)
    (hm : stallMask c ≠ []) (hz : c.allZero [1, 2, 3, 4, 5, 6, 7, 8, 9, 11, 14, 15] = true) (hf : fld (c.dword 10) 31 4 = 0)
    (hk : s.stallsKeeper c = false) (ha : fld (c.dword 10) 3 0 = a) (herr : ∃ n ∈ stallMask c, err (s.stall n).state = true) :
    stallRow a h err k s = seqError h s := by
  unfold stallRow
  rw [hc]
  dsimp only
  rw [if_neg (by simp [ha]), if_neg (by simp [hm, hz, hf]), hk, if_neg (by simp), if_pos (by simpa using herr)]

/-- A faulted tile, with the cause ECC (R209). -/
theorem stallFault_ecc {n : Nat} (hn : n < 64) (s : State) : ((stallFault n 3 s).stall n).state = .faulted ∧
    ((stallFault n 3 s).stall n).cause = 3 := by
  obtain ⟨_, h⟩ := stallFault_stall_self hn 3 s
  rw [h]
  exact ⟨rfl, rfl⟩

/-- STOP for one Stall: source 15 pends, and with no Lot it stops (R208). -/
def stopStall (h : Nat) (s : State) (n : Nat) : State :=
  let s := s.modStall n (Stall.pend 15)
  let t := s.stall n
  if t.state ≠ .running then s
  else if t.lots.isEmpty then s.modStall n fun t => { t with state := .stopped, slow := false }
  else (returnSecond n s).modStall n fun t => { t with slow := false, stops := t.stops ++ [h] }

/-- What STOP makes of a Stall without a Lot. -/
def stoppedStall (t : Stall) : Stall := (if t.state = .running then { t with state := .stopped, slow := false } else t).pend 15

theorem pend_state (k : Nat) (t : Stall) : (t.pend k).state = t.state := by
  unfold Stall.pend
  split <;> rfl

theorem pend_lots (k : Nat) (t : Stall) : (t.pend k).lots = t.lots := by
  unfold Stall.pend
  split <;> rfl

theorem stoppedStall_stops (t : Stall) : (stoppedStall t).stops = t.stops := by
  unfold stoppedStall Stall.pend
  (repeat' split) <;> rfl

theorem stoppedStall_lots (t : Stall) : (stoppedStall t).lots = t.lots := by
  unfold stoppedStall Stall.pend
  (repeat' split) <;> rfl

/-- STOP on a Stall without a Lot. -/
theorem stopStall_of_idle {h n : Nat} {s : State} (hn : n < 64) (hl : (s.stall n).lots = []) : StallsOf s (stopStall h s n) ∧
    (stopStall h s n).stall n = stoppedStall (s.stall n) ∧ ∀ m, m ≠ n → (stopStall h s n).stall m = s.stall m := by
  have hself := stall_modStall_self s n (Stall.pend 15) hn
  by_cases hr : (s.stall n).state = .running
  · have hstop : stopStall h s n = (s.modStall n (Stall.pend 15)).modStall n fun t => { t with state := .stopped, slow := false } := by
      unfold stopStall
      dsimp only
      rw [hself, pend_state, pend_lots, hl, if_neg (by simp [hr]), if_pos (by rfl)]
    refine ⟨hstop ▸ stallsOf_modStall (stallsOf_modStall (stallsOf_self s) ..) .., ?_, fun m hm => ?_⟩
    · rw [hstop, stall_modStall_self _ _ _ hn, hself, stoppedStall, if_pos hr]
      unfold Stall.pend
      rw [if_neg (by simp [hr]), if_neg (by simp)]
    · rw [hstop, stall_modStall_ne _ _ _ _ hm, stall_modStall_ne _ _ _ _ hm]
  · have hstop : stopStall h s n = s.modStall n (Stall.pend 15) := by
      unfold stopStall
      dsimp only
      rw [hself, pend_state, if_pos hr]
    refine ⟨hstop ▸ stallsOf_modStall (stallsOf_self s) .., ?_, fun m hm => ?_⟩
    · rw [hstop, hself, stoppedStall, if_neg hr]
    · rw [hstop, stall_modStall_ne _ _ _ _ hm]

theorem StallsOf.trans {s t u : State} (h : StallsOf s t) (h' : StallsOf t u) : StallsOf s u := by
  obtain ⟨st, rfl⟩ := h
  obtain ⟨st', rfl⟩ := h'
  exact ⟨st', rfl⟩

/-- STOP of Stalls without Lots changes these Stalls only. -/
theorem stopStalls {h : Nat} {l : List Nat} {s : State} (hnodup : l.Nodup) (hlt : ∀ n ∈ l, n < 64) (hl : ∀ n ∈ l, (s.stall n).lots = []) :
    StallsOf s (l.foldl (stopStall h) s) ∧
    ∀ n, (l.foldl (stopStall h) s).stall n = if n ∈ l then stoppedStall (s.stall n) else s.stall n := by
  have hI : ∀ u, (StallsOf s u ∧ ∀ n ∈ l, (u.stall n).lots = []) → ∀ n ∈ l,
      StallsOf s (stopStall h u n) ∧ ∀ k ∈ l, ((stopStall h u n).stall k).lots = [] := by
    intro u ⟨hu, hul⟩ n hn
    obtain ⟨hst, hself, hne⟩ := stopStall_of_idle (h := h) (hlt n hn) (hul n hn)
    refine ⟨hu.trans hst, fun k hk => ?_⟩
    by_cases hkn : k = n
    · rw [hkn, hself, stoppedStall_lots, hul n hn]
    · rw [hne k hkn, hul k hk]
  exact ⟨(foldl_holds hI ⟨stallsOf_self s, hl⟩).1, foldl_stall (g := fun _ => stoppedStall) hnodup hI
    (fun u hu n hn => (stopStall_of_idle (hlt n hn) (hu.2 n hn)).2.1)
    (fun u hu n hn => (stopStall_of_idle (hlt n hn) (hu.2 n hn)).2.2) ⟨stallsOf_self s, hl⟩⟩

/-- An action on each Stall of a mask that changes this Stall only. -/
theorem actStalls {l : List Nat} {f : State → Nat → State} {g : Nat → Stall → Stall} (s : State) (hnodup : l.Nodup)
    (hst : ∀ u, StallsOf s u → ∀ n ∈ l, StallsOf u (f u n) ∧ (f u n).stall n = g n (u.stall n))
    (hne : ∀ u, ∀ n ∈ l, ∀ m, m ≠ n → (f u n).stall m = u.stall m) :
    StallsOf s (l.foldl f s) ∧ ∀ n, (l.foldl f s).stall n = if n ∈ l then g n (s.stall n) else s.stall n := by
  have hI : ∀ u, StallsOf s u → ∀ n ∈ l, StallsOf s (f u n) := fun u hu n hn => hu.trans (hst u hu n hn).1
  exact ⟨foldl_holds hI (stallsOf_self s), foldl_stall (g := g) hnodup hI (fun u hu n hn => (hst u hu n hn).2) (fun u _ => hne u)
    (stallsOf_self s)⟩

/-- One change of every Stall of a mask. -/
theorem modStalls {l : List Nat} {f : Nat → Stall → Stall} (s : State) (hnodup : l.Nodup) (hlt : ∀ n ∈ l, n < 64) :
    StallsOf s (l.foldl (fun s n => s.modStall n (f n)) s) ∧
    ∀ n, (l.foldl (fun s n => s.modStall n (f n)) s).stall n = if n ∈ l then f n (s.stall n) else s.stall n :=
  actStalls s hnodup (fun u _ n hn => ⟨stallsOf_modStall (stallsOf_self u) n (f n), stall_modStall_self u n (f n) (hlt n hn)⟩)
    fun u n _ m hm => stall_modStall_ne u n m (f n) hm

/-- RUN for one Stall (R208). -/
def runStall (s : State) (n : Nat) : State :=
  if (s.stall n).state = .stopped then s.modStall n fun t => { t with state := .running, idleAt := s.now } else s

theorem runStalls {l : List Nat} (s : State) (hnodup : l.Nodup) (hlt : ∀ n ∈ l, n < 64) : StallsOf s (l.foldl runStall s) ∧
    ∀ n, (l.foldl runStall s).stall n = if n ∈ l then (if (s.stall n).state = .stopped then
      { s.stall n with state := .running, idleAt := s.now } else s.stall n) else s.stall n := by
  refine actStalls (g := fun _ t => if t.state = .stopped then { t with state := .running, idleAt := s.now } else t) s hnodup
    (fun u hu n hn => ?_) fun u n _ m hm => ?_
  · have hnow : u.now = s.now := by rw [hu.shape]
    unfold runStall
    split
    · refine ⟨stallsOf_modStall (stallsOf_self u) .., ?_⟩
      rw [stall_modStall_self _ _ _ (hlt n hn), hnow]
    · exact ⟨stallsOf_self u, rfl⟩
  · unfold runStall
    split
    · exact stall_modStall_ne _ _ _ _ hm
    · rfl

/-- A tile that has just been powered (R209). -/
def emptyStall (t : Stall) : Stall := { Stall.reset with state := .empty, stats := t.stats }

theorem emptyStalls {l : List Nat} (s : State) (hnodup : l.Nodup) (hlt : ∀ n ∈ l, n < 64) :
    StallsOf s (l.foldl (fun s n => s.setStall n (emptyStall (s.stall n))) s) ∧
    ∀ n, (l.foldl (fun s n => s.setStall n (emptyStall (s.stall n))) s).stall n = if n ∈ l then emptyStall (s.stall n) else s.stall n :=
  actStalls (g := fun _ => emptyStall) s hnodup
    (fun u _ n hn => ⟨stallsOf_setStall (stallsOf_self u) n _, stall_setStall_self u n _ (hlt n hn)⟩)
    fun u n _ m hm => stall_setStall_ne u n m _ hm

/-- Tiles that pass their fill check. -/
theorem fillTiles_good (h : Nat) (ns : List Nat) (f : Nat → State → State) (s : State) :
    fillTiles h ns [] f s = succeed h (ns.foldl (fun s n => f n s) s) := by
  unfold fillTiles
  dsimp only
  rw [if_neg (by simp)]
  rfl

/-- A tile that fails its fill check ends in a fault, and the command with STALL_FAULT (R209). -/
theorem fillTiles_bad {h : Nat} {ns : List Nat} {bad : List (Fin 64)} {f : Nat → State → State} {s : State}
    (hlt : ∀ n ∈ ns, n < 64) (hf : ∀ s n m, m ≠ n → (f n s).stall m = s.stall m) (hbad : ∃ n ∈ ns, ∃ b ∈ bad, b.val = n) :
    ∃ u, fillTiles h ns bad f s = fail h 7 0x87 u ∧ ∀ n ∈ ns, ∀ b ∈ bad, b.val = n →
      (u.stall n).state = .faulted ∧ (u.stall n).cause = 3 := by
  refine ⟨ns.foldl (fun s n => if bad.any fun b => b.val == n then stallFault n 3 (f n s) else f n s) s, ?_, ?_⟩
  · unfold fillTiles
    dsimp only
    obtain ⟨n, hn, b, hb, rfl⟩ := hbad
    rw [if_pos (List.any_eq_true.2 ⟨_, hn, List.any_eq_true.2 ⟨b, hb, by simp⟩⟩)]
  · refine foldl_stall_mem (P := fun n t => ∀ b ∈ bad, b.val = n → t.state = .faulted ∧ t.cause = 3) (fun s n hn b hb hbn => ?_)
      (fun s n hn m hm => ?_) s
    · rw [if_pos (List.any_eq_true.2 ⟨b, hb, by simpa using hbn⟩)]
      exact stallFault_ecc (hlt n hn) _
    · split
      · rw [stallFault_stall_ne (hlt n hn) _ _ hm, hf s n m hm]
      · exact hf s n m hm

/-! Actions that also take Stalls out of their pipelines. -/

theorem TilesOf.trans {s t u : State} (h : TilesOf s t) (h' : TilesOf t u) : TilesOf s u := by
  obtain ⟨st, p, rfl⟩ := h
  obtain ⟨st', p', rfl⟩ := h'
  exact ⟨st', p', rfl⟩

theorem tilesOf_leaveSets (n m : Nat) (f : Stall → Stall) (s : State) : TilesOf s (leaveSets n (s.modStall m f)) := ⟨_, _, rfl⟩

/-- An image goes into every Stall of a mask. -/
theorem loadStalls {l : List Nat} (b : List Byte) (im : Image) (s : State) (hnodup : l.Nodup) (hlt : ∀ n ∈ l, n < 64) :
    TilesOf s (l.foldl (fun s n => leaveSets n (s.modStall n (Stall.load b im))) s) ∧
    ∀ n, (l.foldl (fun s n => leaveSets n (s.modStall n (Stall.load b im))) s).stall n =
      if n ∈ l then (s.stall n).load b im else s.stall n := by
  have hI : ∀ u, TilesOf s u → ∀ n ∈ l, TilesOf s (leaveSets n (u.modStall n (Stall.load b im))) :=
    fun u hu n _ => hu.trans (tilesOf_leaveSets n n _ u)
  exact ⟨foldl_holds hI (tilesOf_self s), foldl_stall (g := fun _ => Stall.load b im) hnodup hI
    (fun u _ n hn => stall_modStall_self u n _ (hlt n hn)) (fun u _ n _ m hm => stall_modStall_ne u n m _ hm) (tilesOf_self s)⟩

/-- POWER_OFF for one Stall (R209). -/
def cutStall (s : State) (n : Nat) : State :=
  if (s.stall n).state = .off then s else leaveSets n (s.setStall n { Stall.reset with stats := (s.stall n).stats })

theorem cutStalls {l : List Nat} (s : State) (hnodup : l.Nodup) (hlt : ∀ n ∈ l, n < 64) : TilesOf s (l.foldl cutStall s) ∧
    ∀ n, (l.foldl cutStall s).stall n = if n ∈ l then (if (s.stall n).state = .off then s.stall n else
      { Stall.reset with stats := (s.stall n).stats }) else s.stall n := by
  have hI : ∀ u, TilesOf s u → ∀ n ∈ l, TilesOf s (cutStall u n) := by
    intro u hu n _
    refine hu.trans ?_
    unfold cutStall
    split
    · exact tilesOf_self u
    · exact ⟨_, _, rfl⟩
  refine ⟨foldl_holds hI (tilesOf_self s), foldl_stall (g := fun _ t => if t.state = .off then t else { Stall.reset with stats := t.stats })
    hnodup hI (fun u _ n hn => ?_) (fun u _ n _ m hm => ?_) (tilesOf_self s)⟩
  · unfold cutStall
    split
    · rfl
    · exact stall_setStall_self u n _ (hlt n hn)
  · unfold cutStall
    split
    · rfl
    · exact stall_setStall_ne u n m _ hm

/-- A Stall Load whose fields and worlds are right. -/
theorem exec_stallLoad {s : State} {h : Nat} {c : Cmd} {b : List Byte} (hc : s.admin h 0xC1 = some c) (hb : s.imageOf c = some b)
    (hw : Nat.testBit (u16At b 6) 1 = true → ∀ n ∈ stallMask c, s.stallWorld n = true) (hk : s.stallsKeeper c = false) :
    exec (.stallLoad h) s = done (
      if (stallMask c).any fun n => (s.stall n).state == .off || (s.stall n).state == .running then seqError h s
      else match loadImage b s.keyHash with
        | .inl off => complete h 1 0x07 (w32 off) 0 [] s
        | .inr im =>
          if (Nat.testBit (u16At b 6) 0 && !im.signed) || ((stallMask c).any s.stallWorld && !(im.signed && im.keyOk)) then
            complete h 1 0x07 0xFFFFFFFF 0 [] s
          else if overBudget (u32At b 0x24) im then complete h 7 0x88 (loadDw0 im) (loadDw1 im) [] s
          else complete h 0 0 (loadDw0 im) (loadDw1 im) []
            ((stallMask c).foldl (fun s n => leaveSets n (s.modStall n (Stall.load b im))) s)) := by
  have hworld : (Nat.testBit (u16At b 6) 1 && (stallMask c).any fun n => !s.stallWorld n) = false := by
    cases hbit : Nat.testBit (u16At b 6) 1 with
    | true => simpa using hw hbit
    | false => rfl
  show execStallLoad h s = _
  unfold execStallLoad
  rw [hc]
  dsimp only
  rw [hb]
  dsimp only
  rw [hworld, if_neg (by simp), hk, if_neg (by simp)] <;> rfl

/-- Settles O26: the load into every Stall of the mask, and each action of Stall Run/Stop as one change of each Stall of the mask. -/
theorem stallLoadRunRows : Obligations.StallLoadRunRows := by
  unfold Obligations.StallLoadRunRows
  refine ⟨⟨fun s h c b im hc hb hw hk hst him hsig hkey hbud => ?_, fun t b im => ⟨rfl, rfl, rfl, rfl, rfl, rfl, rfl, rfl, rfl, rfl⟩,
    fun s h c b hc hb hw hk hbusy => ?_⟩, fun s h c hc hm hz hf hk => ?_⟩
  · obtain ⟨hshape, hstall⟩ := loadStalls b im s (stallMask_nodup c) fun n => lt_of_stallMask
    refine ⟨_, ?_, hshape.shape, fun n hn => (hstall n).trans (if_pos hn), fun n hn => (hstall n).trans (if_neg hn)⟩
    have hidle : ((stallMask c).any fun n => (s.stall n).state == .off || (s.stall n).state == .running) = false := by
      simpa using hst
    have hneed : ((Nat.testBit (u16At b 6) 0 && !im.signed) || ((stallMask c).any s.stallWorld && !(im.signed && im.keyOk))) = false := by
      rw [Bool.or_eq_false_iff]
      refine ⟨?_, ?_⟩
      · cases hbit : Nat.testBit (u16At b 6) 0 with
        | true => rw [hsig hbit]; rfl
        | false => rfl
      · cases hany : (stallMask c).any s.stallWorld with
        | true => rw [(hkey hany).1, (hkey hany).2]; rfl
        | false => rfl
    rw [exec_stallLoad hc hb hw hk, hidle, if_neg (by simp), him]
    dsimp only
    rw [hneed, if_neg (by simp), hbud, if_neg (by simp)]
    rfl
  · rw [exec_stallLoad hc hb hw hk, if_pos (by simpa using hbusy)]
    rfl
  · have hlt : ∀ n ∈ stallMask c, n < 64 := fun n => lt_of_stallMask
    have hnodup := stallMask_nodup c
    refine ⟨fun ha hl => ?_, fun ha hst => ?_, fun ha hst => ?_, fun ha hst => ?_, fun bad ha hst hidle hbad => ?_, fun ha => ?_,
      fun ha hst => ?_, fun ha => ?_, fun bad ha hbad => ?_⟩
    · obtain ⟨hshape, hstall⟩ := stopStalls (h := h) hnodup hlt fun n hn => (hl n hn).1
      have hnone : ((stallMask c).any fun n => (((stallMask c).foldl (stopStall h) s).stall n).stops.contains h) = false := by
        refine List.any_eq_false.2 fun n hn => ?_
        rw [hstall n, if_pos hn, stoppedStall_stops]
        simpa using (hl n hn).2
      refine ⟨_, ?_, hshape.shape, hstall⟩
      show done (stallRow 0 h _ _ s) = _
      rw [stallRow_of _ hc hm hz hf hk ha fun _ _ => rfl]
      exact congrArg done (if_neg (ne_true_of_eq_false hnone))
    · obtain ⟨hshape, hstall⟩ := runStalls s hnodup hlt
      refine ⟨_, ?_, hshape.shape, fun n => (hstall n).trans (by split <;> simp [*])⟩
      show done (stallRow 1 h _ _ s) = _
      rw [stallRow_of _ hc hm hz hf hk ha fun n hn => by rcases hst n hn with e | e <;> rw [e] <;> rfl]
      rfl
    · show done (stallRow 1 h _ _ s) = _
      obtain ⟨n, hn, hne⟩ := hst
      rw [stallRow_error _ hc hm hz hf hk ha ⟨n, hn, by simpa using hne⟩]
      rfl
    · obtain ⟨hshape, hstall⟩ := modStalls (f := fun _ t => t.refill ((t.image.map fun i => i.segs).getD [])) s hnodup hlt
      refine ⟨_, ?_, hshape.shape, hstall⟩
      show done (stallRow 2 h _ _ s) = _
      rw [stallRow_of _ hc hm hz hf hk ha fun n hn => by rcases hst n hn with e | e <;> rw [e] <;> rfl, fillTiles_good]
      rfl
    · obtain ⟨u, hu, hstall⟩ := fillTiles_bad (h := h) (s := s) (f := fun n s => s.modStall n fun t => t.refill ((t.image.map fun i => i.segs).getD []))
        hlt (fun s n m hm => stall_modStall_ne s n m _ hm) hbad
      refine ⟨u, ?_, hstall⟩
      show done (stallRow 2 h _ _ s) = _
      rw [stallRow_of _ hc hm hz hf hk ha fun n hn => by rcases hst n hn with e | e <;> rw [e] <;> rfl, hu]
      rfl
    · obtain ⟨hshape, hstall⟩ := modStalls (f := fun _ t => { t with slow := false }) s hnodup hlt
      refine ⟨_, ?_, hshape.shape, hstall⟩
      show done (stallRow 3 h _ _ s) = _
      rw [stallRow_of _ hc hm hz hf hk ha fun _ _ => rfl]
      rfl
    · obtain ⟨hshape, hstall⟩ := cutStalls s hnodup hlt
      refine ⟨_, ?_, hshape.shape, fun n hn => ?_⟩
      · show done (stallRow 4 h _ _ s) = _
        rw [stallRow_of _ hc hm hz hf hk ha fun n hn => by simpa using hst n hn]
        rfl
      · rw [hstall n, if_pos hn]
        split
        · next hoff => exact .inr ⟨hoff, rfl⟩
        · exact .inl ⟨rfl, rfl, rfl⟩
    · obtain ⟨hshape, hstall⟩ := emptyStalls s (hnodup.filter fun n => (s.stall n).state == .off) fun n hn => hlt n (List.mem_filter.1 hn).1
      refine ⟨_, ?_, hshape.shape, fun n => (hstall n).trans (if_congr (by simp) rfl rfl)⟩
      show done (stallRow 5 h _ _ s) = _
      rw [stallRow_of _ hc hm hz hf hk ha fun _ _ => rfl]
      dsimp only
      rw [fillTiles_good]
      rfl
    · obtain ⟨n, hn, hoff, b, hb, hbn⟩ := hbad
      have hoffs {n : Nat} (hn : n ∈ stallMask c) (hoff : (s.stall n).state = .off) :
          n ∈ (stallMask c).filter fun n => (s.stall n).state == .off :=
        List.mem_filter.2 ⟨hn, by rw [hoff]; rfl⟩
      obtain ⟨u, hu, hstall⟩ := fillTiles_bad (h := h) (s := s) (f := fun n s => s.setStall n { Stall.reset with state := .empty, stats := (s.stall n).stats })
        (fun n hn => hlt n (List.mem_filter.1 hn).1) (fun s n m hm => stall_setStall_ne s n m _ hm)
        ⟨n, hoffs hn hoff, b, hb, hbn⟩
      refine ⟨u, ?_, fun n hn hoff => hstall n (hoffs hn hoff)⟩
      show done (stallRow 5 h _ _ s) = _
      rw [stallRow_of _ hc hm hz hf hk ha fun _ _ => rfl]
      dsimp only
      rw [hu]
      rfl

end Sys2Proof.Proofs
end

section
/-! Pipeline Configure and TALLY_READ (R248 to R255, R260, R271): settles O27. -/

namespace Sys2Proof.Proofs

open Sys2Proof Sys2Proof.Machine Sys2Proof.Laws

theorem pipeRow_of {s : State} {op h : Nat} {c : Cmd} (k : Cmd → State → State) (hc : s.admin h 0xC5 = some c) (hf : pipeFields c = true)
    (hop : pipeOp c = op) : pipeRow op h k s = k c s := by
  unfold pipeRow
  rw [hc]
  dsimp only
  rw [if_neg (by simp [hop]), hf, if_neg (by simp)]

/-- A pipeline that the queue may operate on. -/
theorem onPipe_of {s : State} {c : Cmd} {p : Pipe} (ok : Pipe → Bool) (k : Pipe → State → State) (hp : s.pipe (pipeNo c) = some p)
    (hk : s.qWorld 0 = true → c.keeper = true) : onPipe c ok k s = if !ok p then seqError c.h s else k p s := by
  have hworld : (s.qWorld 0 && !c.keeper) = false := by
    cases hq : s.qWorld 0 with
    | true => rw [hk hq]; rfl
    | false => rfl
  unfold onPipe
  rw [hp]
  dsimp only
  rw [hworld, if_neg (by simp)]

/-- SET of a descriptor that passes every check (R252 to R254). -/
theorem exec_pipelineSet {s : State} {h : Nat} {c : Cmd} {p : Pipe} (hp : pipeOf (slice c.sub.buf 0 128) = p) (hc : s.admin h 0xC5 = some c)
    (hf : pipeFields c = true) (hop : pipeOp c = 0) (hd : descriptorOk (slice c.sub.buf 0 128) p = true)
    (hfit : s.pipeFits c p ((del s.pipes (pipeNo c)).map fun x => x.2) = true) (hn : ∀ n ∈ p.names, s.isStream n = true)
    (hk : c.secure = true → c.keeper = true) (hstop : s.pipeStopped (pipeNo c) = true)
    (hst : ∀ n ∈ setBits 64 p.stalls.toNat, (s.stall n).state = .stopped ∨ (s.stall n).state = .running)
    (hw : s.worstOutput p ≤ 1048576) :
    exec (.pipelineSet h) s = .next (settle (succeed h { closeNamed p s with pipes := put s.pipes (pipeNo c) p })) := by
  have hnames : (p.names.any fun n => !s.isStream n) = false := by simpa using hn
  have hkeeper : (c.secure && !c.keeper) = false := by
    cases hs : c.secure with
    | true => rw [hk hs]; rfl
    | false => rfl
  have hready : ((setBits 64 p.stalls.toNat).any fun n => !((s.stall n).state == .stopped || (s.stall n).state == .running)) = false := by
    exact List.any_eq_false.2 fun n hn => by rcases hst n hn with e | e <;> rw [e] <;> decide
  show done (pipeRow 0 h _ s) = _
  rw [pipeRow_of _ hc hf hop]
  dsimp only
  rw [hp, hd, hfit, if_neg (by simp), hnames, if_neg (by simp), hkeeper, if_neg (by simp), hstop, hready, if_neg (by simp),
    if_neg (by omega)]
  rfl

/-- The state with other pipelines and commands. -/
def PipesNvOf (s u : State) : Prop := ∃ p v, u = { s with pipes := p, nv := v }

theorem pipesNvOf_succeed {s u : State} (h : PipesNvOf s u) (k : Nat) : PipesNvOf s (succeed k u) := by
  obtain ⟨p, v, rfl⟩ := h
  exact ⟨_, _, complete_shape ..⟩

/-- The end of a STOP changes the pipeline's list of commands, and completes them (R249). -/
theorem pipesNvOf_endPipeStop {s u : State} (h : PipesNvOf s u) (k : Nat) : PipesNvOf s (endPipeStop k u) := by
  unfold endPipeStop
  split
  · exact h
  · split
    · exact h
    · obtain ⟨p, v, rfl⟩ := h
      exact List.foldlRecOn _ _ ⟨_, _, rfl⟩ fun t ht n _ => pipesNvOf_succeed ht n

/-- The end of a STOP leaves a pipeline running or stopped as it is. -/
theorem running_endPipeStop {k : Nat} {s : State} {q : Pipe} (h : (endPipeStop k s).pipe k = some q) :
    ∃ p, s.pipe k = some p ∧ q.running = p.running := by
  unfold endPipeStop at h
  split at h
  · next hp => exact absurd (hp.symm.trans h) (by simp)
  · next p hp =>
    split at h
    · exact ⟨q, h, rfl⟩
    · have hpipes := foldl_keep State.pipes (fun s h => succeed h s) (fun s h => succeed_pipes s h) p.stops
        (s.modPipe k fun p => { p with stops := [] })
      rw [State.pipe, hpipes] at h
      have hlook : look (adjust s.pipes k fun p => { p with stops := [] }) k = some q := h
      rw [look_adjust, if_pos rfl, show look s.pipes k = some p from hp] at hlook
      exact ⟨p, hp, by rw [← Option.some.inj hlook]⟩

/-- With no Lot and no open record nothing waits for the pipeline. -/
theorem endIngest_of_nothing {k : Nat} {p : Pipe} {s : State} (hlots : s.lots = [])
    (hopen : ∀ n, look s.ns p.source = some n → n.st.opened = []) : endIngest k p s = s := by
  have hnone : ((look s.ns p.source).elim [] fun n => n.st.opened) = [] := by
    cases hn : look s.ns p.source with
    | none => rfl
    | some n => exact hopen n hn
  unfold endIngest
  rw [hlots]
  dsimp only [List.filter_nil, List.foldl_nil]
  rw [hnone]
  rfl

/-- A STOP has begun: the pipeline takes nothing more, and its command waits (R249). -/
def stopBegun (k h : Nat) (s : State) : State :=
  (s.modPipe k fun p => { p with running := false, stops := [h] }).modCmd h fun x => { x with phase := .stalls }

/-- STOP with no Lot, query or open record of the pipeline (R249, R263). -/
theorem exec_pipelineStop {s : State} {c : Cmd} {p : Pipe} (hc : s.admin c.h 0xC5 = some c) (hf : pipeFields c = true)
    (hp : s.pipe (pipeNo c) = some p) (hk : s.qWorld 0 = true → c.keeper = true) (hop : pipeOp c = 2) (hrun : p.running = true)
    (hlots : s.lots = []) (hscan : p.scan = true → s.queries = [])
    (hopen : p.scan = false → ∀ n, look s.ns p.source = some n → n.st.opened = []) :
    exec (.pipelineStop c.h) s = .next (settle (endPipeStop (pipeNo c) (stopBegun (pipeNo c) c.h s))) := by
  have hrow : pipeRow 2 c.h (fun x s => onPipe x (fun p => p.running) (fun p s =>
      endPipeStop (pipeNo x) (if p.scan then ((stopBegun (pipeNo x) c.h s).queries.filter fun q => q.pipe == some (pipeNo x)).foldl
        (fun s q => endSoon 2 q.id s) (stopBegun (pipeNo x) c.h s) else endIngest (pipeNo x) p (stopBegun (pipeNo x) c.h s))) s) s =
      endPipeStop (pipeNo c) (stopBegun (pipeNo c) c.h s) := by
    rw [pipeRow_of _ hc hf hop, onPipe_of _ _ hp hk, hrun, if_neg (by simp)]
    cases hs : p.scan with
    | true =>
      rw [if_pos rfl, show (stopBegun (pipeNo c) c.h s).queries = [] from hscan hs]
      rfl
    | false => rw [if_neg (by simp), endIngest_of_nothing (s := stopBegun (pipeNo c) c.h s) hlots (hopen hs)]
  exact congrArg done hrow

theorem exec_pipelineIndex {s : State} {h : Nat} {c : Cmd} {n : Ns} (hc : s.admin h 0xC5 = some c) (hf : pipeFields c = true)
    (hop : pipeOp c = 4) (hns : look s.ns c.nsid = some n) (hst : n.stream = true) (hk : s.nsWorld c.nsid = true → c.keeper = true) :
    exec (.pipelineIndex h) s = done (if !n.st.recs.isEmpty then seqError h s
      else succeed h (modNs c.nsid (fun n => { n with st := { n.st with bits := fld (c.dword 11) 4 0 } }) s)) := by
  have hkeeper : (s.nsWorld c.nsid && !c.keeper) = false := by
    cases hw : s.nsWorld c.nsid with
    | true => rw [hk hw]; rfl
    | false => rfl
  show done (pipeRow 4 h _ s) = _
  rw [pipeRow_of _ hc hf hop]
  dsimp only
  rw [hns]
  dsimp only
  rw [hst, if_neg (by simp), hkeeper, if_neg (by simp)]

/-- Settles O27: each operation by its checks. -/
theorem pipelineRows : Obligations.PipelineRows := by
  unfold Obligations.PipelineRows
  refine ⟨fun s h c hc hf => ⟨fun hop hd hfit hn hk hstop hst hw => exec_pipelineSet rfl hc hf hop hd hfit hn hk hstop hst hw,
    fun hop hd => ?_⟩, fun s c p hc hf hp hk => ⟨fun hop hrun hstops => ?_, fun hop hrun => ?_, fun hop hrun hlots hscan hopen => ?_,
      fun hop hrun hstops => ?_, fun hop hb => ?_, fun hop hb => ?_⟩, fun s h c n hc hf hop hns hst hk => ⟨fun hr => ?_, fun hr => ?_⟩⟩
  · show done (pipeRow 0 h _ s) = _
    rw [pipeRow_of _ hc hf hop]
    dsimp only
    rw [hd]
    rfl
  · show done (pipeRow 1 c.h _ s) = _
    rw [pipeRow_of _ hc hf hop, onPipe_of _ _ hp hk, hrun, hstops]
    rfl
  · show done (pipeRow 1 c.h _ s) = _
    rw [pipeRow_of _ hc hf hop, onPipe_of _ _ hp hk, hrun]
    rfl
  · refine ⟨_, exec_pipelineStop hc hf hp hk hop hrun hlots hscan hopen, ?_, fun q hq => ?_⟩
    · obtain ⟨p', v, hu⟩ := pipesNvOf_endPipeStop (s := s) (u := stopBegun (pipeNo c) c.h s) ⟨_, _, rfl⟩ (pipeNo c)
      rw [hu]
    · obtain ⟨p', hp', hr⟩ := running_endPipeStop hq
      have hlook : look (adjust s.pipes (pipeNo c) fun p => { p with running := false, stops := [c.h] }) (pipeNo c) = some p' := hp'
      rw [look_adjust, if_pos rfl, show look s.pipes (pipeNo c) = some p from hp] at hlook
      rw [hr, ← Option.some.inj hlook]
  · show done (pipeRow 3 c.h _ s) = _
    rw [pipeRow_of _ hc hf hop, onPipe_of _ _ hp hk, hrun, hstops]
    rfl
  · show done (pipeRow 5 c.h _ s) = _
    rw [pipeRow_of _ hc hf hop, onPipe_of _ _ hp hk, hb]
    rfl
  · show done (pipeRow 5 c.h _ s) = _
    rw [pipeRow_of _ hc hf hop, onPipe_of _ _ hp hk, hb]
    rfl
  · rw [exec_pipelineIndex hc hf hop hns hst hk, hr]
    rfl
  · rw [exec_pipelineIndex hc hf hop hns hst hk, if_pos (by simpa using hr)]
    rfl

end Sys2Proof.Proofs
end

section
/-! Register writes by their type (R8, R89, R90, R304, R306, R311, R388): settles O28. -/

namespace Sys2Proof.Proofs

open Sys2Proof Sys2Proof.Machine Sys2Proof.Laws

theorem not_host_of_canWrite {a : Actor} {reg : Nat} {s : State} (h : CanWrite a reg s) : a ≠ .host := by
  rintro rfl
  exact absurd (congrArg Prod.fst h.stat) (by decide : statBadReg ≠ statOk)

/-- A register write of an actor other than the host is an access. -/
theorem exec_registerWrite {a : Actor} (ha : a ≠ .host) (reg : W16) (v : W32) (s : State) :
    exec (.registerWrite a reg v) s = done (access s.now a reg.toNat v s) :=
  congrArg done (if_neg ha)

/-- A write that a register's status lets through, of a register that is no fault mirror. -/
theorem access_of_canWrite {a : Actor} {reg : Nat} {s : State} (h : CanWrite a reg s) (hm : mirrorOf reg = none) (t : Nat) (v : W32) :
    access t a reg v s = (
      if reg / 256 = 1 then (statOk, writeBusGroup reg v s)
      else if reg / 256 = 2 then (statOk, writeBeacon t reg v s)
      else if reg / 256 = 3 then (statOk, writePowerGroup reg v s)
      else if reg / 256 = 4 then (statOk, writeHealthGroup reg v s)
      else if reg = 0x512 then
        if !bit v 0 then (statOk, s)
        else if s.hb.busy.isSome then (statNotReady, s)
        else if s.hb.recWorn 1 then (statWorn, s)
        else (statBusy, startJob .saveRules a s)
      else if reg / 256 = 5 then (statOk, writeRulesGroup reg v s)
      else if reg / 256 = 6 then (statOk, writeEventGroup reg v s)
      else if reg / 256 = 7 then writeMailboxGroup a reg v s
      else if reg / 256 = 8 then (if s.hb.busy.isSome then (statNotReady, s) else writePersist (reg % 256) a v s)
      else if reg / 256 = 9 then (statOk, writeTestGroup a reg v s)
      else (statOk, s)).2 := by
  have hreach : reachMirror reg s = s := by rw [reachMirror, hm]; rfl
  rw [access, if_pos h.ready, regWrite, h.stat]
  dsimp only
  rw [if_neg (by simp), hreach]

/-- A register that the actor may not reach, or that is not listed, keeps its value. -/
theorem access_of_refused {a : Actor} {reg : Nat} {s : State} {st : Nat} (h : regStat a 2 reg s = (st, s)) (hst : st ≠ statOk) (t : Nat)
    (v : W32) : access t a reg v s = s := by
  unfold access
  split
  · rw [regWrite, h]
    exact congrArg Prod.snd (if_pos hst)
  · rfl

theorem hostRegister_up {s : State} (hl : s.pwr.link = true) (hm : s.pwr.mainOn = true) (hw : s.pwr.watch ≠ .asleep) {off : Nat} {v : W32}
    {u : State} (hu : bar0Write off v s = u) (hpwr : u.pwr = s.pwr) : hostRegister off v s = u := by
  unfold hostRegister
  rw [hl, hm, if_neg (by simp), hu]
  dsimp only
  rw [hpwr, if_neg hw]

/-- What is read-only of the controller's registers discards a write. -/
theorem bar0Write_readOnly {off : Nat} (h : off < 0x14 ∨ off = 0x1C) (v : W32) (s : State) : bar0Write off v s = s := by
  unfold bar0Write
  rw [if_neg (by omega), if_neg (by omega), if_neg (by omega), if_neg (by omega), if_neg (by omega), if_neg (by omega),
    if_neg (by omega), if_neg (by omega)]

/-- MQES, CQR, AMS and TO in the low dword of CAP (Table 4-3). -/
theorem capValue_low : fld (w32 capValue.toNat) 15 0 = 0xFFFF ∧ fld (w32 capValue.toNat) 16 16 = 1 ∧ fld (w32 capValue.toNat) 18 17 = 1 ∧
    fld (w32 capValue.toNat) 31 24 = 80 := by decide

/-- The command sets and the support of CRWMS in the high dword of CAP (Table 4-3). -/
theorem capValue_high : fld (w32 (capValue.toNat / 2 ^ 32)) 12 5 = 1 ∧ bit (w32 (capValue.toNat / 2 ^ 32)) 27 = true := by decide

theorem csts_ready (s : State) : bit (s.bar0 0x1C) 0 = s.ready := by
  have hword : s.bar0 0x1C = w32 (b2n s.ready + 2 * b2n s.nv.cfs + 4 * s.nv.shst) := rfl
  rw [hword, bit, w32, BitVec.getLsbD_ofNat]
  cases s.ready <;> cases s.nv.cfs <;> simp [b2n, Nat.testBit_zero] <;> omega

/-- Settles O28: nine registers by their group, the refusals by the status of the access, and BAR0 by its offsets. -/
theorem registerWriteRow : Obligations.RegisterWriteRow := by
  unfold Obligations.RegisterWriteRow
  refine ⟨fun s a v => ⟨fun h => ?_, fun h => ?_, fun h => ?_, fun h => ?_, fun h => ?_, fun h => ?_, fun h => ?_, fun h hb => ?_,
      fun h => ?_⟩, fun s a reg v ha hst => ?_, fun s reg hreg => ⟨?_, if_pos hreg, rfl⟩, fun s a reg v ha hp hne => ?_,
    fun s a reg v ha hr => ?_, fun s v hl hm hw => ⟨fun off hoff => ?_, ?_⟩, fun s off v hl => ?_, fun s => ⟨capValue_low.1, capValue_low.2.1, capValue_low.2.2.1, capValue_low.2.2.2, capValue_high.1, capValue_high.2, rfl, csts_ready s⟩⟩
  iterate 7
    · rw [exec_registerWrite (not_host_of_canWrite h)]
      exact congrArg done (access_of_canWrite h rfl s.now v)
  · rw [exec_registerWrite (not_host_of_canWrite h)]
    refine congrArg done ((access_of_canWrite h rfl s.now v).trans ?_)
    show (writeMailboxGroup a 0x701 v s).2 = _
    rw [writeMailboxGroup, hb]
    rfl
  · rw [exec_registerWrite (not_host_of_canWrite h)]
    exact congrArg done (access_of_canWrite h rfl s.now v)
  · rw [exec_registerWrite ha, access_of_refused (st := s.regAllowed a reg.toNat) ?_ hst]
    · rfl
    · exact if_pos hst
  · unfold State.regAllowed State.secureReg
    simp [hreg]
  · rw [exec_registerWrite ha]
    have hreg : reg.toNat ≠ 0x209 := fun e => hne (BitVec.eq_of_toNat_eq e)
    by_cases hst : s.regAllowed a reg.toNat = statOk
    · rw [access_of_refused (st := statBadReg) ?_ (by decide)]
      · rfl
      · unfold regStat
        dsimp only
        rw [if_neg (by simp [hst]), if_pos ⟨hreg, by rw [hp]; rfl⟩]
    · rw [access_of_refused (st := s.regAllowed a reg.toNat) (if_pos hst) hst]
      rfl
  · rw [exec_registerWrite ha, access, hr]
    rfl
  · exact congrArg done ((if_pos rfl).trans (hostRegister_up hl hm hw (bar0Write_readOnly (hoff.imp_right fun e => by rw [e]; rfl) v s) rfl))
  · exact congrArg done ((if_pos rfl).trans (hostRegister_up hl hm hw rfl rfl))
  · refine congrArg done ((if_pos rfl).trans ?_)
    unfold hostRegister
    rw [hl]
    rfl

end Sys2Proof.Proofs
end

section
/-! The epoch of the rules, their saving, and the capture (R342, R344, R349): settles O29. -/

namespace Sys2Proof.Proofs

open Sys2Proof Sys2Proof.Machine Sys2Proof.Laws

/-- A capture changes the violation and the events only (R337). -/
theorem capture_shape (kind : W32) (addr : Nat) (m : Master) (rule : W32) (s : State) : ∃ a, capture kind addr m rule s =
    { s with acc := a, ev := (capture kind addr m rule s).ev } ∧ a.active = s.acc.active ∧ a.epoch = s.acc.epoch ∧
      a.staged = s.acc.staged ∧ a.saved = s.acc.saved := by
  unfold capture
  dsimp only
  refine ⟨_, raiseFault_shape (f := 4) _ _ (by decide) (by decide), ?_⟩
  split <;> exact ⟨rfl, rfl, rfl, rfl⟩

theorem checkM_shape (s : State) : ∃ a, checkM s = { s with acc := a, ev := (checkM s).ev } ∧ a.active = s.acc.active ∧
    a.epoch = s.acc.epoch ∧ a.staged = s.acc.staged ∧ a.saved = s.acc.saved := by
  unfold checkM
  dsimp only
  split
  · exact ⟨s.acc, rfl, rfl, rfl, rfl, rfl⟩
  · exact capture_shape ..

theorem serveHeld_of_none {s : State} (h : s.bus.held = none) : serveHeld s = s := by
  unfold serveHeld
  rw [h]

/-- A register that the cores serve is reached only while the main domain is awake (R286). -/
theorem mainAwake_of_canWrite {a : Actor} {reg : Nat} {s : State} (h : CanWrite a reg s) (haux : auxServed reg = false) (hg : reg / 256 ≠ 7) :
    s.mainAwake = true := by
  have hrom : s.romServes reg = false := by simp [State.romServes, hg]
  have hserve := h.ready
  simp only [State.regReady, haux, hrom, Bool.false_or, Bool.false_and, Bool.or_false, Bool.and_eq_true, State.coresServe, State.coresUp,
    State.firmware, State.running] at hserve
  simp only [State.mainAwake, Bool.and_eq_true]
  tauto

/-- A staged set without a fault becomes the active one (R344). -/
theorem epochWrite_next {s : State} (h : s.stagedFault = none) : ∃ u, epochWrite (s.acc.epoch + 1) s = u ∧ u.acc.active = s.acc.staged ∧
    u.acc.epoch = s.acc.epoch + 1 ∧ u.acc.staged = s.acc.staged ∧ u.acc.saved = s.acc.saved ∧
    u = { s with acc := u.acc, stalls := u.stalls, ev := u.ev } := by
  refine ⟨_, rfl, ?_⟩
  unfold epochWrite
  rw [if_neg (by simp), h]
  dsimp only
  rw [raisePulse_shape]
  generalize (raisePulse ..).ev = e
  obtain ⟨a, hshape, hact, hep, hst, hsav⟩ := checkM_shape (s := _)
  rw [hshape]
  exact ⟨hact, hep, hst, hsav, rfl⟩

/-- A fault of the staged set leaves the active one (R344). -/
theorem epochWrite_fault {s : State} {d : Nat} (h : s.stagedFault = some d) (hon : s.mainAwake = true) :
    ∃ u, epochWrite (s.acc.epoch + 1) s = u ∧ u = { s with ev := u.ev } ∧ bit (u.frameStatus 4) 1 = true := by
  refine ⟨_, rfl, ?_⟩
  unfold epochWrite
  rw [if_neg (by simp), h]
  dsimp only
  refine ⟨?_, frameStatus_journal _ _ _ _ (raiseFault_bit hon (by decide) (by decide))⟩
  rw [journal_shape, raiseFault_shape (f := 4) _ _ (by decide) (by decide)]

theorem endEraseOf_ok (sec : Nat) (s : State) : endEraseOf sec .ok s = (statOk, { s with hb := s.hb.endErase sec }) := rfl

theorem endHeld_of_none {s : State} (h : s.bus.held = none) (st : Nat) : endHeld st s = s := by
  unfold endHeld
  rw [h]

theorem endRegister_of_none {s : State} (h : ∀ c ∈ s.nv.inflight, c.phase ≠ .rom) (st : Nat) : endRegister st s = s := by
  have hnone : (s.nv.inflight.find? fun c => c.phase == .rom && c.opc == 0xC9 && fld (c.dword 10) 3 0 == 4) = none := by
    refine List.find?_eq_none.2 fun c hc => ?_
    simp [h c hc]
  unfold endRegister
  rw [hnone]

theorem jobCan_ok (s : State) (j : RomJob) : s.jobCan j .ok = true := rfl

/-- A ROM operation ends well with nobody waiting for its outcome: its effect, and the warnings (R319, R411). -/
theorem exec_harbourOpComplete {s u : State} {j : RomJob} {a : Actor} {st : Nat} (hb : s.hb.busy = some (j, a))
    (hj : endJob j .ok { s with hb := { s.hb with busy := none } } = (st, u)) (hheld : u.bus.held = none)
    (hrom : ∀ c ∈ u.nv.inflight, c.phase ≠ .rom) : exec (.harbourOpComplete .ok) s = .next (settle (evalWarn u)) := by
  show execHarbourOpComplete .ok s = _
  unfold execHarbourOpComplete
  rw [hb]
  dsimp only
  rw [jobCan_ok, if_neg (by simp), hj]
  dsimp only
  rw [endHeld_of_none (s := evalWarn u) hheld, endRegister_of_none (s := evalWarn u) hrom, serveHeld_of_none (s := evalWarn u) hheld]
  rfl

/-- Settles O29: the epoch by the checks of the staged set, the saving by its two ends, and the capture. -/
theorem ruleRows : Obligations.RuleRows := by
  unfold Obligations.RuleRows
  refine ⟨fun s a v hw hheld => ?_, fun s a v hw hb hbusy hworn => ?_, fun s a hb hheld hrom => ?_, fun s a hw => ?_⟩
  · have hrow : exec (.ruleEpochWrite a v) s = done (serveHeld (epochWrite v s)) := by
      refine congrArg (fun u => done (serveHeld u)) (access_of_canWrite hw rfl s.now v)
    rw [hrow]
    refine ⟨fun hv hf => ?_, fun hv d hf => ?_, fun hv => ?_⟩
    · subst hv
      obtain ⟨u, hu, hact, hep, hst, hsav, hshape⟩ := epochWrite_next hf
      have hnone : u.bus.held = none := by rw [hshape]; exact hheld
      rw [hu, serveHeld_of_none hnone]
      exact ⟨u, rfl, hact, hep, hst, hsav, hshape⟩
    · subst hv
      obtain ⟨u, hu, hshape, hbit⟩ := epochWrite_fault hf (mainAwake_of_canWrite hw (by decide) (by decide))
      have hnone : u.bus.held = none := by rw [hshape]; exact hheld
      rw [hu, serveHeld_of_none hnone]
      exact ⟨u, rfl, by rw [hshape], hbit⟩
    · rw [epochWrite, if_pos hv, serveHeld_of_none hheld]
      rfl
  · refine congrArg done ((access_of_canWrite hw rfl s.now v).trans ?_)
    rw [hb, hbusy, hworn]
    rfl
  · exact exec_harbourOpComplete hb (by rfl) hheld hrom
  · exact congrArg done (access_of_canWrite hw rfl s.now 0x80000000)

end Sys2Proof.Proofs
end

section
/-! Power commands, direct operating points and the persistent store (R212 to R214, R312 to R314, R377, R380, R395): settles O30. -/

namespace Sys2Proof.Proofs

open Sys2Proof Sys2Proof.Machine Sys2Proof.Laws

/-- A write in the power group. -/
theorem access_power {a : Actor} {reg : Nat} {s : State} (h : CanWrite a reg s) (hg : reg / 256 = 3) (t : Nat) (v : W32) :
    access t a reg v s = writePowerGroup reg v s := by
  have hm : mirrorOf reg = none := by
    rw [mirrorOf, if_neg (by omega), if_neg (by omega), if_neg (by omega)]
  rw [access_of_canWrite h hm, hg]
  rfl

theorem exec_pwrCmdWrite {a : Actor} {s : State} (h : CanWrite a 0x0300 s) (v : W32) :
    exec (.pwrCmdWrite a v) s = done (writePwrCmd v s) :=
  congrArg done (access_power h rfl s.now v)

/-- A power state is commanded over the bus. -/
def commandedBus (c : Nat) (s : State) : State := { s with pwr := { s.pwr with cmd := c, busCmd := c } }

/-- PWR_CMD 0 to 3 outside thermal shutdown and Watch (R377). -/
theorem writePwrCmd_operational {v : W32} {s : State} (hheld : s.therm.held = false) (hw : s.pwr.watch ≠ .asleep) (hv : fld v 2 0 ≤ 3) :
    writePwrCmd v s = reselect (endWatchWaits { commandedBus (fld v 2 0) s with
      pwr := { (commandedBus (fld v 2 0) s).pwr with watch := .awake, hostPs4 := false, wakeDue := false } }) := by
  have hmin : min 4 (fld v 2 0) = fld v 2 0 := by omega
  unfold writePwrCmd
  dsimp only
  rw [hmin, hheld, if_neg (by simp), if_neg hw, if_neg (by omega)]
  rfl

/-- PWR_CMD 4 requests Watch (R377). -/
theorem writePwrCmd_watch {v : W32} {s : State} (hheld : s.therm.held = false) (hw : s.pwr.watch ≠ .asleep) (hv : 4 ≤ fld v 2 0)
    (hcmd : s.pwr.cmd ≠ 4) :
    writePwrCmd v s = { s with pwr := { s.pwr with before := s.cmdState, cmd := 4, busCmd := 4, watch := .requested } } := by
  have hmin : min 4 (fld v 2 0) = 4 := by omega
  unfold writePwrCmd
  dsimp only
  rw [hmin, hheld, if_neg (by simp), if_neg hw, if_pos rfl, if_neg hcmd]

/-- In Watch a command of 0 to 3 wakes the card (R380). -/
theorem writePwrCmd_wakes {v : W32} {s : State} (hheld : s.therm.held = false) (hw : s.pwr.watch = .asleep) (hv : fld v 2 0 ≤ 3) :
    writePwrCmd v s = { s with pwr := { s.pwr with
      before := fld v 2 0, cmd := fld v 2 0, busCmd := fld v 2 0, wakeSrc := putBit s.pwr.wakeSrc 0 true, wakeDue := true } } := by
  have hmin : min 4 (fld v 2 0) = fld v 2 0 := by omega
  unfold writePwrCmd
  dsimp only
  rw [hmin, hheld, if_neg (by simp), if_pos hw, if_neg (by omega)]
  unfold wake
  rw [if_neg (by simp [hheld, hw])]

/-- A card too hot in thermal shutdown (R395). -/
theorem writePwrCmd_hot {v : W32} {s : State} (hheld : s.therm.held = true) (hc : s.cooled = false) :
    (fld v 2 0 ≤ 3 → writePwrCmd v s = s) ∧
    (4 ≤ fld v 2 0 → writePwrCmd v s = { s with pwr := { s.pwr with before := s.cmdState, cmd := 4, busCmd := 4 } }) := by
  unfold writePwrCmd
  dsimp only
  rw [hheld, hc]
  refine ⟨fun hv => ?_, fun hv => ?_⟩
  · rw [if_pos rfl, if_neg (by omega), if_neg (by simp)]
  · rw [show min 4 (fld v 2 0) = 4 by omega, if_pos rfl, if_pos rfl]

/-! Direct operating points (R213). -/

/-- During a transition a direct request waits (R212). -/
theorem request_waits {s : State} (hm : s.pwr.op.moving = true) (r : Bool × Nat) :
    request r s = { s with pwr := { s.pwr with op := { s.pwr.op with reqs := s.pwr.op.reqs ++ [r] } } } := by
  unfold request
  cases hr : s.pwr.op.reqs with
  | nil => exact (if_pos hm : runRequests [r] s = _)
  | cons x xs => exact (if_pos hm : runRequests (x :: (xs ++ [r])) s = _)

/-- With no transition a direct request takes effect at once. -/
theorem request_runs {s : State} (hm : s.pwr.op.moving = false) (hr : s.pwr.op.reqs = []) (r : Bool × Nat) :
    request r s = runRequests [] (if r.1 then directFset r.2 s else directVset r.2 s) := by
  unfold request
  rw [hr]
  exact if_neg (by simp [hm])

theorem exec_stallVsetWrite {a : Actor} {s : State} (h : CanWrite a 0x0342 s) (hd : s.pwr.op.direct = true) (v : W32) :
    exec (.stallVsetWrite a v) s = done (request (false, fld v 9 0) s) :=
  congrArg done ((access_power h rfl s.now v).trans (if_pos hd))

theorem exec_stallFsetWrite {a : Actor} {s : State} (h : CanWrite a 0x0343 s) (hd : s.pwr.op.direct = true) (v : W32) :
    exec (.stallFsetWrite a v) s = done (request (true, fld v 1 0) s) :=
  congrArg done ((access_power h rfl s.now v).trans (if_pos hd))

/-- No direct request waits, as none did before. -/
theorem runRequests_nil {s : State} (h : s.pwr.op.reqs = []) : runRequests [] s = s := by
  unfold runRequests
  rw [← h]

/-- Source k pends in every Stall that has power. -/
theorem pendAll_bit {s : State} {n k : Nat} (hn : n < 64) (hk : k < 32) (hon : (s.stall n).state ≠ .off) :
    bit ((pendAll k s).stall n).ic.pending k = true := by
  rw [stall_pendAll hn, Stall.pend, if_neg hon]
  exact bit_putBit_self _ _ hk

/-- A source that pends stays so while another one comes to pend. -/
theorem pend_keeps_bit {t : Stall} {j k : Nat} (h : bit t.ic.pending k = true) : bit (t.pend j).ic.pending k = true := by
  unfold Stall.pend
  split
  · exact h
  · by_cases hkj : k = j
    · subst hkj
      exact (getLsbD_putBit _ _ _ _).trans (by split <;> simp_all [bit])
    · exact (bit_putBit_ne _ _ hkj).trans h

/-- A new selection of the operating point keeps the sources that pend (R212). -/
theorem reselect_keeps_bit {s : State} {n k : Nat} (hn : n < 64) (h : bit (s.stall n).ic.pending k = true) :
    bit ((reselect s).stall n).ic.pending k = true := by
  unfold reselect startPoint
  dsimp only
  split
  · exact h
  · split
    · exact h
    · split
      · rw [stall_pendAll hn]
        exact pend_keeps_bit h
      · exact h

theorem pendAll_shape (k : Nat) (s : State) : pendAll k s = { s with stalls := (pendAll k s).stalls } := rfl

/-- A frequency that is refused (R213). -/
theorem directFset_refused {p : Nat} {s : State} (hr : (decide (p = 3) && !s.boostAllowed ||
      (decide (s.pwr.op.railMv < nominal p + s.guardMv) || decide (p = 3) && decide (60 < s.health.delta))) = true) :
    directFset p s = { s with pwr := { s.pwr with op := { s.pwr.op with
      tokenErr := s.pwr.op.tokenErr || (decide (p = 3) && !s.boostAllowed)
      orderErr := s.pwr.op.orderErr || (decide (s.pwr.op.railMv < nominal p + s.guardMv) ||
        decide (p = 3) && decide (60 < s.health.delta)) } } } := by
  unfold directFset
  dsimp only
  rw [if_pos hr, if_neg (by simp)]

/-- The point of an accepted frequency. -/
def atPoint (p : Nat) (s : State) : State :=
  { s with pwr := { s.pwr with op := { s.pwr.op with fset := p, point := p, target := p } } }

theorem directFset_accepted {p : Nat} {s : State} (hr : (decide (p = 3) && !s.boostAllowed ||
      (decide (s.pwr.op.railMv < nominal p + s.guardMv) || decide (p = 3) && decide (60 < s.health.delta))) = false) :
    directFset p s = if p != s.pwr.op.point then pendAll 14 (atPoint p s) else atPoint p s := by
  unfold directFset
  dsimp only
  rw [hr]
  rfl

/-- The end of a transition with no request waiting (R212). -/
theorem endTransition_of_moving {s : State} (hm : s.pwr.op.moving = true) (hr : s.pwr.op.reqs = []) : ∃ u, endTransition s = u ∧
    u = { s with pwr := u.pwr, stalls := u.stalls } ∧
    (s.pwr.op.direct = true → u.pwr.op = { s.pwr.op with moving := false, point := s.pwr.op.target, railMv := s.pwr.op.railTo }) ∧
    ∀ n, (s.stall n).state ≠ .off → n < 64 → bit (u.stall n).ic.pending 14 = true := by
  refine ⟨_, rfl, ?_⟩
  unfold endTransition
  dsimp only
  rw [hm, if_neg (by simp)]
  generalize hat : ({ s with pwr := { s.pwr with op := { s.pwr.op with
    moving := false, point := s.pwr.op.target, railMv := s.pwr.op.railTo } } } : State) = at_
  have hpend : ∀ n, (s.stall n).state ≠ .off → n < 64 → bit ((pendAll 14 at_).stall n).ic.pending 14 = true := fun n hon hn =>
    pendAll_bit hn (by decide) (by rw [← hat]; exact hon)
  by_cases hd : s.pwr.op.direct = true
  · have hrun : runRequests s.pwr.op.reqs (pendAll 14 at_) = pendAll 14 at_ := by
      rw [hr, runRequests_nil (s := pendAll 14 at_) (by rw [← hat]; exact hr)]
    rw [if_pos hd, hrun]
    refine ⟨?_, fun _ => ?_, hpend⟩ <;> rw [← hat] <;> rfl
  · rw [if_neg hd]
    refine ⟨?_, fun h => absurd h hd, fun n hon hn => reselect_keeps_bit hn (hpend n hon hn)⟩
    rw [reselect_shape, ← hat]
    rfl

/-! The persistent store (R312 to R314). -/

theorem persistWrite_frame (n : Nat) (v : W32) (s : State) : (persistEffect n v s).hb.values = s.hb.values ∧
    (persistEffect n v s).hb.wear = s.hb.wear ∧ (persistEffect n v s).hb.busy = s.hb.busy ∧ (persistEffect n v s).acc = s.acc ∧
    (persistEffect n v s).ns = s.ns ∧ (persistEffect n v s).ram = s.ram ∧ (persistEffect n v s).bus = s.bus ∧
    (persistEffect n v s).nv = s.nv := by
  unfold persistEffect
  split
  case h_5 => rw [rebudget_shape]; exact ⟨rfl, rfl, rfl, rfl, rfl, rfl, rfl, rfl⟩
  case h_7 => rw [reselect_shape]; exact ⟨rfl, rfl, rfl, rfl, rfl, rfl, rfl, rfl⟩
  all_goals exact ⟨rfl, rfl, rfl, rfl, rfl, rfl, rfl, rfl⟩

/-- A new entry gives the register its value and counts its write (R314). -/
theorem addEntry_frame (h : Harbour) (n : Nat) (v : W32) : (h.addEntry n v).values = put h.values n v ∧
    (h.addEntry n v).wear = put h.wear n (h.writes n + 1) ∧ (h.addEntry n v).busy = h.busy := by
  unfold Harbour.addEntry
  dsimp only
  split
  · exact ⟨rfl, rfl, rfl⟩
  · simp only [Harbour.rotate, Harbour.beginRotate, Harbour.fillLine, Harbour.beginErase, Harbour.endErase, Harbour.store,
      Harbour.setValue, and_self]

theorem exec_persistentWrite {a : Actor} {s : State} {n : Fin 256} (h : CanWrite a (0x0800 + n.val) s) (hb : s.hb.busy = none) (v : W32) :
    exec (.persistentWrite a n v) s = done (writePersist n.val a v s).2 := by
  have hlt := n.isLt
  have hm : mirrorOf (0x0800 + n.val) = none := by
    rw [mirrorOf, if_neg (by omega), if_neg (by omega), if_neg (by omega)]
  refine congrArg done ((access_of_canWrite h hm s.now v).trans ?_)
  rw [if_neg (by omega), if_neg (by omega), if_neg (by omega), if_neg (by omega), if_neg (by omega), if_neg (by omega),
    if_neg (by omega), if_neg (by omega), if_pos (by omega), hb, if_neg (by simp), show (0x0800 + n.val) % 256 = n.val by omega]

/-- The end of a persistent write: the register has its value, and its write is counted (R314). -/
theorem storePersist_facts (n : Nat) (v : W32) (s : State) : (storePersist n v s).persist n = v ∧
    (storePersist n v s).persistWear n = s.persistWear n + 1 ∧ (∀ m, m ≠ n → (storePersist n v s).persist m = s.persist m) ∧
    (storePersist n v s).hb.busy = s.hb.busy ∧ (storePersist n v s).acc = s.acc ∧ (storePersist n v s).ns = s.ns ∧
    (storePersist n v s).ram = s.ram ∧ (storePersist n v s).bus = s.bus ∧ (storePersist n v s).nv = s.nv := by
  obtain ⟨hval, hwear, hbusy, hacc, hns, hram, hbus, hnv⟩ := persistWrite_frame n v { s with hb := s.hb.addEntry n v }
  obtain ⟨hval', hwear', hbusy'⟩ := addEntry_frame s.hb n v
  have hvalues : (storePersist n v s).hb.values = put s.hb.values n v := hval.trans hval'
  have hwears : (storePersist n v s).hb.wear = put s.hb.wear n (s.hb.writes n + 1) := hwear.trans hwear'
  refine ⟨?_, ?_, fun m hm => ?_, hbusy.trans hbusy', hacc, hns, hram, hbus, hnv⟩
  · rw [State.persist, hvalues, look_put_self]
    rfl
  · rw [State.persistWear, hwears, look_put_self]
    rfl
  · rw [State.persist, hvalues, look_put_ne _ _ _ _ hm]
    rfl

/-- The ROM is free. -/
def released (s : State) : State := { s with hb := { s.hb with busy := none } }

/-- Settles O30: each command by its case, and the store by its two ends. -/
theorem powerAndPersistRows : Obligations.PowerAndPersistRows := by
  unfold Obligations.PowerAndPersistRows
  refine ⟨⟨fun s a v h hheld hw hv => ?_, fun s a v h hheld hw hv hcmd => ?_, fun s a v h hheld hw hv => ?_, fun s a v h hheld hc => ?_,
      fun s a v hd hm => ⟨fun h => ?_, fun h => ?_⟩, fun s a v h hd hm hr => ?_, fun s a v h hd hm hr => ?_, fun s hon hm hr => ?_⟩,
    fun s a n v h hb hne hworn => ?_, fun s a v h hb => ?_, fun s a n v hb hheld hrom => ?_, fun n v => ?_⟩
  · rw [exec_pwrCmdWrite h, writePwrCmd_operational hheld hw hv]
    refine ⟨_, rfl, ?_⟩
    rw [reselect_shape, endWatchWaits_shape]
    exact ⟨rfl, rfl, rfl, rfl, rfl, rfl⟩
  · rw [exec_pwrCmdWrite h, writePwrCmd_watch hheld hw hv hcmd]
    rfl
  · rw [exec_pwrCmdWrite h, writePwrCmd_wakes hheld hw hv]
    rfl
  · rw [exec_pwrCmdWrite h]
    refine ⟨fun hv => ?_, fun hv => ?_⟩
    · rw [(writePwrCmd_hot hheld hc).1 hv]
      rfl
    · rw [(writePwrCmd_hot hheld hc).2 hv]
      rfl
  · rw [exec_stallVsetWrite h hd, request_waits hm]
    rfl
  · rw [exec_stallFsetWrite h hd, request_waits hm]
    rfl
  · rw [exec_stallVsetWrite h hd, request_runs hm hr]
    refine ⟨fun hbad => ?_, fun hlo hhi => ?_⟩
    · have hset : directVset (fld v 9 0) s = { s with pwr := { s.pwr with op := { s.pwr.op with orderErr := true } } } := by
        unfold directVset
        dsimp only
        rw [if_pos hbad]
      rw [if_neg (by simp), hset, runRequests_nil (by exact hr)]
      rfl
    · have hset : directVset (fld v 9 0) s = { s with pwr := { s.pwr with op := { s.pwr.op with
          vset := fld v 9 0, railTo := fld v 9 0, target := s.pwr.op.point, moving := fld v 9 0 != s.pwr.op.railMv } } } := by
        unfold directVset
        dsimp only
        rw [if_neg (by omega)]
      rw [if_neg (by simp), hset, runRequests_nil (by exact hr)]
      rfl
  · rw [exec_stallFsetWrite h hd, request_runs hm hr, if_pos rfl]
    dsimp only
    refine ⟨fun hp hb => ?_, fun hp hb hbad => ?_, fun hp hlow => ?_, fun hlow hp => ?_⟩
    · rw [directFset_refused (by simp [hp, hb]), runRequests_nil (by exact hr)]
      simp [hp, hb, done, Bool.or_assoc]
    · have hnot : (decide (fld v 1 0 = 3) && !s.boostAllowed) = false := by rw [hb, Bool.not_true, Bool.and_false]
      have horder : (decide (s.pwr.op.railMv < nominal (fld v 1 0) + s.guardMv) || decide (fld v 1 0 = 3) && decide (60 < s.health.delta)) =
          true := by
        simpa [hp] using hbad
      rw [directFset_refused (by rw [hnot, horder]; rfl), hnot, horder, runRequests_nil (by exact hr), Bool.or_false, Bool.or_true]
      rfl
    · have hne : decide (fld v 1 0 = 3) = false := decide_eq_false (by omega)
      have horder : (decide (s.pwr.op.railMv < nominal (fld v 1 0) + s.guardMv) || decide (fld v 1 0 = 3) && decide (60 < s.health.delta)) =
          true := by
        simp [hlow]
      rw [directFset_refused (by rw [horder, Bool.or_true]), horder, hne, runRequests_nil (by exact hr), Bool.false_and, Bool.or_false,
        Bool.or_true]
      rfl
    · have hno : (decide (fld v 1 0 = 3) && !s.boostAllowed || (decide (s.pwr.op.railMv < nominal (fld v 1 0) + s.guardMv) ||
          decide (fld v 1 0 = 3) && decide (60 < s.health.delta))) = false := by
        by_cases h3 : fld v 1 0 = 3
        · obtain ⟨hb, hd⟩ := hp h3
          simp [hb, Nat.not_lt.2 hlow, Nat.not_lt.2 hd]
        · simp [h3, Nat.not_lt.2 hlow]
      rw [directFset_accepted hno]
      by_cases hpoint : fld v 1 0 = s.pwr.op.point
      · rw [if_neg (by simp [hpoint]), runRequests_nil (by exact hr)]
        exact ⟨_, rfl, rfl, rfl, fun _ => rfl, fun hne => absurd hpoint hne⟩
      · rw [if_pos (by simpa using hpoint), runRequests_nil (by exact hr)]
        exact ⟨_, rfl, rfl, rfl, fun he => absurd he hpoint, fun _ n hn hon => pendAll_bit hn (by decide) hon⟩
  · obtain ⟨u, hu, hshape, hop, hbit⟩ := endTransition_of_moving hm hr
    refine ⟨u, ?_, hshape, hop, hbit⟩
    rw [← hu]
    exact congrArg done (if_pos hon)
  · rw [exec_persistentWrite h hb, writePersist, if_neg hne, hworn]
    rfl
  · exact (exec_persistentWrite (n := 8) h hb v).trans rfl
  · obtain ⟨hv, hwear, hne, hbusy, hacc, hns, hram, hbus, hnv⟩ := storePersist_facts n v (released s)
    have hend : endJob (.persist n v) .ok (released s) = (statOk, storePersist n v (released s)) := rfl
    generalize storePersist n v (released s) = u at *
    exact ⟨evalWarn u, exec_harbourOpComplete hb hend (by rw [hbus]; exact hheld) (by rw [hnv]; exact hrom), hv, hwear, hbusy, hne, hacc,
      hns, hram⟩
  · apply BitVec.eq_of_getLsbD_eq
    intro i hi
    simp only [BitVec.getLsbD_and]
    cases (persistMask n).getLsbD i <;> simp

end Sys2Proof.Proofs
end

section
/-! The mailbox and the Keeper window of the bus (R319 to R329, R351): settles O31. -/

namespace Sys2Proof.Proofs

open Sys2Proof Sys2Proof.Machine Sys2Proof.Laws

/-! The mailbox. -/

theorem access_hbCmd {a : Actor} {s : State} (h : CanWrite a 0x0700 s) (hb : s.hb.busy = none) (t : Nat) (v : W32) :
    access t a 0x0700 v s = (hbCommand (byKeeper a) a v s).2 := by
  refine (access_of_canWrite h rfl t v).trans ?_
  show (writeMailboxGroup a 0x700 v s).2 = _
  rw [writeMailboxGroup, hb]
  rfl

/-- An operation that the ROM does not deny in the recovery state. -/
theorem hbCommand_listed {keeper : Bool} {a : Actor} {v : W32} {s : State} (h : s.pwr.recovery = true → fld v 31 28 ∈ [1, 2, 3, 4, 5, 7]) :
    hbCommand keeper a v s = match fld v 31 28 with
      | 1 => hbReadOp keeper v s
      | 2 => hbProgramOp keeper a v s
      | 3 => hbEraseOp keeper a v s
      | 4 => hbBlankOp keeper v s
      | 5 => hbOtpReadOp v s
      | 6 => hbOtpProgramOp keeper v s
      | 7 => hbRebootOp s
      | _ => hbResult statBadReg s := by
  have hno : (s.pwr.recovery && !([1, 2, 3, 4, 5, 7].contains (fld v 31 28))) = false := by
    cases hr : s.pwr.recovery with
    | true => rw [List.contains_iff_mem.2 (h hr)]; rfl
    | false => rfl
  unfold hbCommand
  rw [hno, if_neg (by simp)] <;> rfl

/-- The row of an operation, its OP in the word. -/
theorem hbCmdRow_of {a : Actor} {s : State} (h : CanWrite a 0x0700 s) (hb : s.hb.busy = none) {op : Nat} {v : W32} (hop : fld v 31 28 = op) :
    hbCmdRow op a v s = (hbCommand (byKeeper a) a v s).2 :=
  (if_pos hop).trans (access_hbCmd h hb s.now v)

section

variable {s : State} {keeper : Bool} {v : W32}

theorem hbReadOp_of (hl : lenOk 1 (fld v 8 0) = true) : hbReadOp keeper v s =
    if readStat keeper s.pwr.recovery s.hb.addr.toNat (fld v 8 0) ≠ statOk then
      hbResult (readStat keeper s.pwr.recovery s.hb.addr.toNat (fld v 8 0)) s
    else hbResult statOk { s with hb := s.hb.putBuf (s.hb.bytes s.hb.addr.toNat (fld v 8 0)) } := by
  unfold hbReadOp
  dsimp only
  rw [hl, if_neg (by simp)]

theorem hbBlankOp_of (hl : lenOk 4 (fld v 8 0) = true)
    (hst : readStat keeper s.pwr.recovery s.hb.addr.toNat (fld v 8 0) = statOk) : hbBlankOp keeper v s =
    hbResult (if s.hb.isBlank s.hb.addr.toNat (fld v 8 0) then statOk else statNotBlank) s := by
  unfold hbBlankOp
  dsimp only
  rw [hl, if_neg (by simp), if_neg (by simp [hst])]

theorem hbProgramOp_of {a : Actor} (hl : lenOk 2 (fld v 8 0) = true) (hline : s.hb.addr.toNat % 256 + fld v 8 0 ≤ 256)
    (hst : programStat keeper s.hb.addr.toNat (fld v 8 0) s = statOk) : hbProgramOp keeper a v s = (statBusy, startJob (.mailbox v) a s) := by
  unfold hbProgramOp
  dsimp only
  rw [hl, decide_eq_false (by omega), if_neg (by simp), if_neg (by simp [hst])]

theorem hbOtpReadOp_of (hl : lenOk 5 (fld v 8 0) = true) (ha : s.hb.addr.toNat % 4 = 0) (hend : s.hb.addr.toNat + fld v 8 0 ≤ 0x1000) :
    hbOtpReadOp v s = hbResult statOk { s with hb := s.hb.putBuf (s.otpVisible s.hb.addr.toNat (fld v 8 0)) } := by
  unfold hbOtpReadOp
  dsimp only
  rw [hl, if_neg (by simp; omega)]

theorem hbOtpProgramOp_of (hl : fld v 8 0 = 4) (hst : otpStat keeper s.hb.addr.toNat 4 s = statOk) : hbOtpProgramOp keeper v s =
    hbResult statOk (programOtp (s.hb.addr.toNat / 4) (w32 (u32At (s.hb.buf.toList.take 4) 0)) s) := by
  have hlen : (s.hb.buf.toList.take 4).length = 4 := by simp
  unfold hbOtpProgramOp programOtpBytes
  dsimp only
  rw [hl, if_neg (by decide), if_neg (by simp [hst]), hlen]
  rfl

/-- OTP words that a program may write are unused, and only the Keeper writes them outside recovery (R329). -/
theorem otpStat_ok {off len : Nat} (h : otpStat keeper off len s = statOk) :
    s.pwr.recovery = false ∧ ∀ k < len / 4, bit s.hb.used (off / 4 + k) = false := by
  unfold otpStat at h
  split at h
  · contradiction
  · split at h
    · contradiction
    · next hrec =>
      split at h
      · contradiction
      · split at h
        · contradiction
        · next hany =>
          simp only [not_or] at hrec
          refine ⟨by simpa using hrec.1, fun k hk => ?_⟩
          simp only [List.any_eq_true, List.mem_range, not_exists, not_and, Bool.not_eq_true] at hany
          exact hany k hk

end

/-! The Keeper window. -/

theorem kxPut_shape (k : Keeper) (bs : List Byte) : ∃ x, k.kxPut bs = { k with kx := x } := ⟨_, rfl⟩

/-- HELLO for the Keeper's key over the bus: a handshake, and three draws of the random source (R346, R351). -/
theorem kxHello_accepted {s : State} (h : s.helloOk s.keeper.bus (s.keeper.kxBytes 0 384) = true) : ∃ k,
    kxHello s = { s with keeper := k, fresh := s.fresh + 3 } ∧ k.kxStat = 0 ∧ k.bus.hs.isSome = true ∧
      k.bus.session = s.keeper.bus.session ∧ k.nvme = s.keeper.nvme := by
  have hfacts := hello_facts 0x01 s.keeper.bus (s.keeper.kxBytes 0 384) (s.keeper.kxBytes 384 32) s
  unfold kxHello
  dsimp only
  rw [if_pos h]
  generalize hello 0x01 s.keeper.bus (s.keeper.kxBytes 0 384) (s.keeper.kxBytes 384 32) s = r at hfacts ⊢
  obtain ⟨nC, c, chan, u⟩ := r
  obtain ⟨hhs, hses, hu⟩ := hfacts
  dsimp only at hhs hses hu ⊢
  subst hu
  obtain ⟨x, hx⟩ := kxPut_shape s.keeper (nC ++ c)
  rw [hx]
  exact ⟨_, rfl, rfl, hhs, hses, rfl⟩

theorem access_kx {a : Actor} {s : State} (h : CanWrite a 0x07FF s) (hb : s.hb.busy = none) (hr : s.pwr.recovery = false) (t : Nat)
    (v : W32) : access t a 0x07FF v s = writeKx a v s := by
  refine (access_of_canWrite h rfl t v).trans ?_
  show (writeMailboxGroup a 0x7FF v s).2 = _
  rw [writeMailboxGroup, hb, hr]
  rfl

theorem writeKx_hello (a : Actor) (s : State) : writeKx a 1 s = kxHello s := by
  have hop : fld (1 : W32) 3 0 = 1 := by decide
  unfold writeKx
  split
  · rfl
  · omega
  · omega
  · omega
  · next h1 _ _ _ => exact absurd hop h1

theorem exec_kxHello {a : Actor} {s : State} (h : CanWrite a 0x07FF s) (hb : s.hb.busy = none) (hr : s.pwr.recovery = false) :
    exec (.kxHello a) s = .next (settle (kxHello s)) := by
  show done (access s.now a 0x07FF 1 s) = _
  rw [access_kx h hb hr, writeKx_hello]
  rfl

theorem kxHello_refused {s : State} (h : s.helloOk s.keeper.bus (s.keeper.kxBytes 0 384) = false) : kxHello s = kxStat 6 s := by
  unfold kxHello
  dsimp only
  rw [h, if_neg (by simp)]

/-- REBOOT: the main domain resets once what is dirty is programmed (R327). -/
theorem hbRebootOp_facts (s : State) : (hbRebootOp s).2.pwr.step ≤ 2 ∧ (hbRebootOp s).2.pwr.link = false ∧ (hbRebootOp s).2.nv.en = false ∧
    (hbRebootOp s).2.med.held = [] ∧ (hbRebootOp s).2.bcn.net = s.bcn.net ∧ (hbRebootOp s).2.bus = { s.bus with held := none } ∧
    (hbRebootOp s).2.hb.flash = s.hb.flash ∧ (hbRebootOp s).2.hb.otp = s.hb.otp := by
  have hbcn : (flushHeld 0 s).bcn = s.bcn := flushHeld_bcn ..
  have hbus : (flushHeld 0 s).bus = s.bus := flushHeld_bus ..
  have hhb : (flushHeld 0 s).hb = s.hb := flushHeld_hb ..
  refine ⟨Nat.min_le_right .., rfl, rfl, rfl, ?_, ?_, ?_, ?_⟩
  · exact (congrArg Bcn.net hbcn :)
  · exact congrArg (fun b : Bus => { b with held := none }) hbus
  · exact (congrArg Harbour.flash hhb :)
  · exact (congrArg Harbour.otp hhb :)

/-- The end of a program of the mailbox (R319). -/
theorem endMailbox_program {v : W32} (hop : fld v 31 28 ≠ 3) (s : State) : ∃ u, endMailbox v .ok s = (statOk, u) ∧
    u.hb.busy = s.hb.busy ∧ u.hb.stat = 0 ∧
    u.hb.flash = Memory.writeBytes s.hb.blank s.hb.flash s.hb.addr.toNat (s.hb.buf.toList.take (fld v 8 0)) ∧
    u = { s with hb := u.hb } := by
  have htouch (h : Harbour) (a : Nat) : (h.touch a).flash = h.flash ∧ (h.touch a).blank = h.blank ∧ (h.touch a).busy = h.busy := by
    unfold Harbour.touch
    split
    · exact ⟨rfl, rfl, rfl⟩
    · split <;> exact ⟨rfl, rfl, rfl⟩
  obtain ⟨hflash, hblank, hbusy⟩ := htouch s.hb s.hb.addr.toNat
  unfold endMailbox
  dsimp only
  rw [if_neg hop]
  refine ⟨_, rfl, hbusy, rfl, ?_, rfl⟩
  show Memory.writeBytes (s.hb.touch s.hb.addr.toNat).blank (s.hb.touch s.hb.addr.toNat).flash _ _ = _
  rw [hflash, hblank]

/-- Settles O31: each operation of the mailbox and of the window. -/
theorem windowRows : Obligations.WindowRows := by
  unfold Obligations.WindowRows
  refine ⟨⟨fun s a v h hb => ⟨fun hop hl hst => ?_, fun hop hl hst => ?_, fun hop hl hst => ?_, fun hop hl hline hst => ?_, fun hop hst => ?_,
      fun hop hst => ?_, fun hop hl ha hend => ?_, fun hop hl hst => ?_, fun hop => ?_⟩, fun s a v hb hop hheld hrom => ?_,
      fun keeper off len s k hst hk => (otpStat_ok hst).2 k hk⟩,
    fun s a h hb hr => ⟨fun hok => ?_, fun hno => ?_, fun x hx => ?_, fun hx => ?_, fun x hx => ?_, fun ha => ?_, fun ha => ?_⟩⟩
  · show done (hbCmdRow 1 a v s) = _
    rw [hbCmdRow_of h hb hop, hbCommand_listed (by simp [hop]), hop]
    dsimp only
    rw [hbReadOp_of hl, if_neg (by simp [hst])]
    rfl
  · show done (hbCmdRow 1 a v s) = _
    rw [hbCmdRow_of h hb hop, hbCommand_listed (by simp [hop]), hop]
    dsimp only
    rw [hbReadOp_of hl, if_pos hst]
    rfl
  · show done (hbCmdRow 4 a v s) = _
    rw [hbCmdRow_of h hb hop, hbCommand_listed (by simp [hop]), hop]
    dsimp only
    rw [hbBlankOp_of hl hst]
    cases s.hb.isBlank s.hb.addr.toNat (fld v 8 0) <;> rfl
  · show done (hbCmdRow 2 a v s) = _
    rw [hbCmdRow_of h hb hop, hbCommand_listed (by simp [hop]), hop]
    rw [hbProgramOp_of hl hline hst]
    rfl
  · show done (hbCmdRow 3 a v s) = _
    rw [hbCmdRow_of h hb hop, hbCommand_listed (by simp [hop]), hop]
    exact congrArg (fun r : Nat × State => done r.2) (if_neg (by simp [hst]))
  · show done (hbCmdRow 3 a v s) = _
    rw [hbCmdRow_of h hb hop, hbCommand_listed (by simp [hop]), hop]
    exact congrArg (fun r : Nat × State => done r.2) (if_pos hst)
  · show done (hbCmdRow 5 a v s) = _
    rw [hbCmdRow_of h hb hop, hbCommand_listed (by simp [hop]), hop]
    dsimp only
    rw [hbOtpReadOp_of hl ha hend]
    rfl
  · show done (hbCmdRow 6 a v s) = _
    rw [hbCmdRow_of h hb hop, hbCommand_listed (by simp [(otpStat_ok hst).1]), hop]
    dsimp only
    rw [hbOtpProgramOp_of hl hst]
    rfl
  · refine ⟨(hbRebootOp s).2, ?_, hbRebootOp_facts s⟩
    show done (hbCmdRow 7 a v s) = _
    rw [hbCmdRow_of h hb hop, hbCommand_listed (by simp [hop]), hop]
    rfl
  · obtain ⟨u, hu, hbusy, hstat, hflash, hshape⟩ := endMailbox_program hop (released s)
    refine ⟨evalWarn u, exec_harbourOpComplete hb hu (by rw [hshape]; exact hheld) (by rw [hshape]; exact hrom), hbusy, hstat, hflash, ?_⟩
    rw [hshape]
    exact ⟨rfl, rfl, rfl⟩
  · have hopen : s.keeper.bus.session = none := by
      simp only [State.helloOk, Bool.and_eq_true, Option.isNone_iff_eq_none] at hok
      exact hok.1.2
    obtain ⟨k, hk, hstat, hhs, hses, hnvme⟩ := kxHello_accepted hok
    refine ⟨{ s with keeper := k, fresh := s.fresh + 3 }, ?_, rfl, hstat, hhs, hses.trans hopen, hnvme⟩
    rw [← hk]
    exact exec_kxHello h hb hr
  · rw [exec_kxHello h hb hr, kxHello_refused hno]
    rfl
  · show done (access s.now a 0x07FF 2 s) = _
    rw [access_kx h hb hr]
    show done (kxSignature s) = _
    rw [kxSignature, hx]
    rfl
  · show done (access s.now a 0x07FF 2 s) = _
    rw [access_kx h hb hr]
    show done (kxSignature s) = _
    rw [kxSignature, hx]
    rfl
  · refine ⟨kxProve s, ?_, rfl, ?_⟩
    · show done (access s.now a 0x07FF 3 s) = _
      rw [access_kx h hb hr]
      rfl
    · rw [kxProve, prove_of_handshake hx]
      by_cases hp : x.proof = s.keeper.kxBytes 0 32
      · rw [if_pos hp, if_pos hp, if_pos hp]
        exact ⟨rfl, rfl, rfl⟩
      · rw [if_neg hp, if_neg hp, if_neg hp]
        exact ⟨rfl, rfl, rfl⟩
  · subst ha
    show done (access s.now .keeper 0x07FF 4 s) = _
    rw [access_kx h hb hr]
    rfl
  · show done (access s.now a 0x07FF 4 s) = _
    rw [access_kx h hb hr]
    exact congrArg done (if_neg (by simpa using ha))

end Sys2Proof.Proofs
end

section
/-! Card events, masks, forced faults and the journal's interval (R358 to R366): settles O32. -/

namespace Sys2Proof.Proofs

open Sys2Proof Sys2Proof.Machine Sys2Proof.Laws

/-- The mask of one word of EVT_STATUS. -/
theorem bit_wordMask {k i : Nat} (hi : i < 512) : bit (BitVec.ofNat 512 (0xFFFFFFFF <<< (32 * k))) i =
    decide (32 * k ≤ i ∧ i < 32 * k + 32) := by
  have hones (j : Nat) : (0xFFFFFFFF : Nat).testBit j = decide (j < 32) := Nat.testBit_two_pow_sub_one 32 j
  rw [bit, BitVec.getLsbD_ofNat, Nat.testBit_shiftLeft, hones, Bool.eq_iff_iff]
  simp only [Bool.and_eq_true, decide_eq_true_eq]
  omega

/-- A read of EVT_STATUS records the pulses of its word (R362). -/
theorem recordPulses_bit {k i : Nat} (hi : i < 512) (s : State) : bit (recordPulses k s).ev.recorded i =
    if 32 * k ≤ i ∧ i < 32 * k + 32 then bit s.ev.pulse i else bit s.ev.recorded i := by
  have hmask := bit_wordMask (k := k) hi
  unfold bit at hmask
  unfold recordPulses bit
  simp only [BitVec.getLsbD_or, BitVec.getLsbD_and, BitVec.getLsbD_not, hmask, hi, decide_true, Bool.true_and]
  by_cases h : 32 * k ≤ i ∧ i < 32 * k + 32 <;> simp [h]

/-- An acknowledgement clears the recorded pulses of its word only (R362). -/
theorem ackPulses_bit {k i : Nat} (hi : i < 512) (s : State) : bit (ackPulses k s).ev.pulse i =
    (bit s.ev.pulse i && !(bit s.ev.recorded i && decide (32 * k ≤ i ∧ i < 32 * k + 32))) := by
  have hmask := bit_wordMask (k := k) hi
  unfold bit at hmask
  unfold ackPulses bit
  simp only [BitVec.getLsbD_and, BitVec.getLsbD_not, hmask, hi, decide_true, Bool.true_and]

/-- A word with one PULSE bit acknowledges that word of pulses. -/
theorem setBits_pulse : ∀ k : Fin 16, setBits 16 (w32 (2 ^ k.val)).toNat = [k.val] := by decide

theorem peek_evtStatus (k : Fin 16) (s : State) : s.peek (0x0602 + k.val) = some (s.evtWord k.val) := by
  have hk := k.isLt
  unfold State.peek
  dsimp only
  rw [if_neg (by omega), if_neg (by omega), if_neg (by omega), if_neg (by omega), if_neg (by omega), if_neg (by omega), if_pos (by omega)]
  unfold State.readEvents
  rw [if_neg (by omega), if_neg (by omega), if_pos (by omega), Nat.add_sub_cancel_left]

theorem exec_evtStatusRead {s : State} {a : Actor} {k : Fin 16} (hr : s.regReady (0x0602 + k.val) = true)
    (ha : s.regAllowed a (0x0602 + k.val) = statOk) : exec (.evtStatusRead a k) s = .next (settle (recordPulses k.val s)) := by
  have hk := k.isLt
  have hm : mirrorOf (0x0602 + k.val) = none := by
    rw [mirrorOf, if_neg (by omega), if_neg (by omega), if_neg (by omega)]
  have hstat : regStat a 1 (0x0602 + k.val) s = (statOk, s) := by
    unfold regStat
    dsimp only
    rw [if_neg (by simp [ha]), if_neg (by simp [peek_evtStatus]), hm]
  have hread : (regRead s.now a (0x0602 + k.val) s).2.2 = recordPulses k.val s := by
    unfold regRead
    rw [hstat]
    dsimp only
    rw [if_neg (by simp), if_neg (by omega), if_pos (by omega), reachMirror, hm, Nat.add_sub_cancel_left]
    rfl
  exact congrArg done ((if_pos hr).trans hread)

/-- A write of a fault register where the frame answers: the frame is reached first (R310). -/
theorem access_mirror {a : Actor} {reg f off : Nat} {s : State} (h : CanWrite a reg s) (hm : mirrorOf reg = some (f, off)) (t : Nat)
    (v : W32) : access t a reg v s = if reg / 256 = 6 then writeEventGroup reg v (reachFrame f s)
      else writeTestGroup a reg v (reachFrame f s) := by
  have hreach : reachMirror reg s = reachFrame f s := by rw [reachMirror, hm]; rfl
  have hreg : reg / 256 = 6 ∨ reg / 256 = 9 := by
    unfold mirrorOf at hm
    split at hm
    · omega
    · split at hm
      · omega
      · split at hm
        · omega
        · contradiction
  rw [access, if_pos h.ready, regWrite, h.stat]
  dsimp only
  rw [if_neg (by simp), hreach]
  rcases hreg with hg | hg <;>
    rw [if_neg (by omega), if_neg (by omega), if_neg (by omega), if_neg (by omega), if_neg (by omega), if_neg (by omega), hg] <;> rfl

/-- A source that is sent again changes what is due and nothing else. -/
theorem ite_due (c : Bool) (u : State) (d : BitVec 512) : ∃ e,
    (if c then { u with ev := { u.ev with due := d } } else u) = { u with ev := e } ∧ e.pulse = u.ev.pulse := by
  split
  · exact ⟨_, rfl, rfl⟩
  · exact ⟨_, rfl, rfl⟩

/-- The pulses of word k are acknowledged, and their bit of frame 0x05 clears. -/
def pulsesAcked (k : Nat) (s : State) : State :=
  (ackPulses k s).setFrame 5 ((ackPulses k s).frameStatus 5 &&& ~~~w32 (2 ^ k))

/-- An acknowledgement of word k, in frame 0x05 (R362). -/
theorem writeFaultStatus_ack {k : Fin 16} {s : State} (hon : s.frameOn 5 = true) : ∃ e,
    writeFaultStatus 5 (w32 (2 ^ k.val)) s = { s with ev := e } ∧ e.pulse = (ackPulses k.val s).ev.pulse := by
  unfold writeFaultStatus
  rw [hon, if_neg (by simp)]
  dsimp only
  rw [if_pos rfl, setBits_pulse]
  dsimp only [List.foldl_cons, List.foldl_nil]
  obtain ⟨e, he, hp⟩ := ite_due ((pulsesAcked k.val s).frameRaises 5) (pulsesAcked k.val s) (putBit (pulsesAcked k.val s).ev.due (192 + 5) true)
  exact ⟨e, he, hp⟩

/-- The route of the selected source (R359, R360). -/
theorem writeRoute_facts {v : W32} {s : State} (h : s.ev.sel < 512) : writeRoute v s = { s with ev := (writeRoute v s).ev } ∧
    bit (writeRoute v s).ev.en s.ev.sel = bit v 31 ∧ bit (writeRoute v s).ev.alert s.ev.sel = bit v 30 ∧
    (writeRoute v s).ev.vec s.ev.sel = fld v 7 0 ∧ (writeRoute v s).ev.pulse = s.ev.pulse ∧
    (∀ i, i ≠ s.ev.sel → bit (writeRoute v s).ev.en i = bit s.ev.en i ∧ bit (writeRoute v s).ev.alert i = bit s.ev.alert i) ∧
    (s.ev.sel < 128 ∨ 192 ≤ s.ev.sel ∧ s.ev.sel ≤ 194 →
      bit (writeRoute v s).ev.auxEn s.ev.sel = bit v 31 ∧ bit (writeRoute v s).ev.auxAlert s.ev.sel = bit v 30) := by
  have hstored : ∃ d, writeRoute v s = { s with ev := { s.ev with
      en := putBit s.ev.en s.ev.sel (bit v 31), alert := putBit s.ev.alert s.ev.sel (bit v 30)
      vector := put s.ev.vector s.ev.sel (fld v 7 0), due := d
      auxEn := if decide (s.ev.sel < 128) || decide (192 ≤ s.ev.sel ∧ s.ev.sel ≤ 194) then putBit s.ev.auxEn s.ev.sel (bit v 31)
        else s.ev.auxEn
      auxAlert := if decide (s.ev.sel < 128) || decide (192 ≤ s.ev.sel ∧ s.ev.sel ≤ 194) then putBit s.ev.auxAlert s.ev.sel (bit v 30)
        else s.ev.auxAlert } } := by
    unfold writeRoute
    dsimp only
    generalize (_ && bit (State.levels _) _) = again
    cases again <;> exact ⟨_, rfl⟩
  obtain ⟨d, hd⟩ := hstored
  rw [hd]
  refine ⟨rfl, bit_putBit_self _ _ h, bit_putBit_self _ _ h, ?_, rfl, fun i hi => ⟨bit_putBit_ne _ _ hi, bit_putBit_ne _ _ hi⟩, fun haux => ?_⟩
  · rw [Events.vec, look_put_self]
    rfl
  · have hon : (decide (s.ev.sel < 128) || decide (192 ≤ s.ev.sel ∧ s.ev.sel ≤ 194)) = true := by simpa using haux
    dsimp only
    rw [if_pos hon, if_pos hon]
    exact ⟨bit_putBit_self _ _ h, bit_putBit_self _ _ h⟩

/-- Settles O32: the registers of the events by what they store, and the journal's interval by whether entries were dropped. -/
theorem eventRows : Obligations.EventRows := by
  unfold Obligations.EventRows
  refine ⟨fun s a k hr ha => ⟨_, exec_evtStatusRead hr ha, rfl, fun i hi => recordPulses_bit hi s⟩, fun s a k h hon => ?_,
    fun s a v h hsel => ⟨_, congrArg done (access_of_canWrite h rfl s.now v), writeRoute_facts hsel⟩, fun s m hrun hw => ⟨fun v => ?_, ?_⟩,
    fun s v m hrun hw hl hheld => ?_, fun s a f v h hinj => ?_, fun s h => ?_, fun s h hr => ?_, fun s v hrun => ?_, fun s a v h hb => ?_⟩
  · obtain ⟨e, he, hpulse⟩ := writeFaultStatus_ack (k := k) (s := reachFrame 5 s)
      (mainAwake_of_canWrite (s := s) h (by decide) (by decide))
    refine ⟨{ reachFrame 5 s with ev := e }, ?_, fun i hi => ?_, rfl, rfl, rfl⟩
    · rw [← he]
      exact congrArg done (access_mirror h (f := 5) (off := 0) (by decide) s.now _)
    · exact (congrArg (fun p : BitVec 512 => bit p i) hpulse).trans (ackPulses_bit hi _)
  · have hasleep : (decide (s.pwr.watch = .asleep) && s.pwr.link) = false := by simp [hw]
    show done (if !s.running then s else _) = _
    rw [hrun, if_neg (by simp)]
    exact congrArg done (if_neg (by simp [hw]))
  · show done (if !s.running then s else _) = _
    rw [hrun, if_neg (by simp)]
    exact congrArg done (if_neg (by simp [hw]))
  · show done (if !s.running then s else _) = _
    rw [hrun, if_neg (by simp)]
    refine congrArg done ((if_pos (by simp [hw, hl])).trans ?_)
    unfold wake
    rw [if_neg (by simp [hheld, hw])]
  · have hf := f.isLt
    have hm : mirrorOf (0x0940 + f.val) = some (f.val, 4) := by
      rw [mirrorOf, if_neg (by omega), if_neg (by omega), if_pos (by omega), Nat.add_sub_cancel_left]
    refine congrArg done ((access_mirror h hm s.now v).trans ?_)
    rw [if_neg (by omega), writeTestGroup, if_neg (by omega), if_neg (by omega), if_pos (by omega), if_pos ?_, Nat.add_sub_cancel_left]
    rcases hinj with hinj | rfl
    · exact Bool.or_eq_true_iff.2 (.inl hinj)
    · exact Bool.or_true _
  · exact congrArg (fun e => done { s with ev := e }) (if_pos (by simpa using h))
  · exact congrArg (fun e => done { s with ev := e }) (if_neg (by simp [hr]; omega))
  · exact congrArg done (if_pos hrun)
  · refine congrArg done ((access_of_canWrite h rfl s.now v).trans ?_)
    exact if_pos hb

end Sys2Proof.Proofs
end

section
/-! Frames of the management bus: reading, writing, polling and a wrong CRC (R276 to R286): settles O33. -/

namespace Sys2Proof.Proofs

open Sys2Proof Sys2Proof.Machine Sys2Proof.Laws

/-- A fault of the bus's own frame changes the event registers and the sticky bits of the bus. -/
theorem raiseFault_bus (b : Nat) (s : State) : raiseFault 1 b s =
    { s with ev := (raiseFault 1 b s).ev, bus := { s.bus with sticky := (raiseFault 1 b s).bus.sticky } } := by
  have hjournal (u : State) (k o c d : Nat) : journal k o c d u = { u with ev := (journal k o c d u).ev } := by
    unfold journal
    dsimp only
    (repeat' split) <;> rfl
  unfold raiseFault raiseFaultKind
  dsimp only
  split
  · rfl
  split
  · rfl
  split
  · rfl
  · rw [hjournal]
    rfl

theorem raiseFault_bus_bit {b : Nat} {s : State} (hon : s.pwr.auxOn = true) (hb : bit (frameBits 1) b = true) :
    bit ((raiseFault 1 b s).frameStatus 1) b = true := raiseFault_bit (f := 1) hon hb (by decide)

/-! Frames that reach the card. -/

theorem ofCode_of {c : Nat} {f : Frame} (h : frameCode f = c) (lost : Option Nat) (s : State) (k : State → State) :
    ofCode c f lost s k = busFrame f lost s k := if_pos h

theorem busFrame_taken {f : Frame} {s : State} (h : FrameTaken f s) (lost : Option Nat) (k : State → State) :
    busFrame f lost s k = k (silent s) := by
  obtain ⟨haux, hseen, hlistens, hproto, hcrc, hallowed, hfast⟩ := h
  have hseen' : (!(silent s).pwr.auxOn || !(silent s).bus.idleSeen || (silent s).bus.ignoring) = false := by
    show (!s.pwr.auxOn || !s.bus.idleSeen || s.bus.ignoring) = false
    rw [haux, hseen, hlistens]
    rfl
  have hfast' : (frameFast f && !f.sync && !(silent s).mine f) = false := by
    show (frameFast f && !f.sync && !s.mine f) = false
    cases hf : frameFast f with
    | false => rfl
    | true => rw [hfast hf, Bool.not_true, Bool.and_false]
  have hproto' : (f.sync != (silent s).compat) = false := by
    show (f.sync != s.compat) = false
    rw [hproto, bne_self_eq_false]
  unfold busFrame
  dsimp only
  rw [hseen', if_neg (by simp), hproto', if_neg (by simp), hcrc, if_neg (by simp), hfast', if_neg (by simp), hallowed, if_neg (by simp)]

/-- A frame whose CRC is wrong reaches the card of its address (R276). -/
def crcCounted (s : State) : State := raiseFault 1 6 { silent s with bus := { (silent s).bus with crcErr := satInc s.bus.crcErr } }

theorem busFrame_badCrc {f : Frame} {s : State} (haux : s.pwr.auxOn = true) (hseen : s.bus.idleSeen = true) (hlistens : s.bus.ignoring = false)
    (hproto : f.sync = s.compat) (hcrc : frameCrcOk f = false) (lost : Option Nat) (k : State → State) :
    busFrame f lost s k = if s.mine f then
        (if [8, 10, 12].contains (frameCode f) then crcCounted s
         else loseResponse f lost (respond f false statCrc 0 (blankMac f) (crcCounted s)))
      else if frameFast f && !f.sync then { s with bus := { s.bus with ignoring := true, out := .silent } } else silent s := by
  have hseen' : (!(silent s).pwr.auxOn || !(silent s).bus.idleSeen || (silent s).bus.ignoring) = false := by
    show (!s.pwr.auxOn || !s.bus.idleSeen || s.bus.ignoring) = false
    rw [haux, hseen, hlistens]
    rfl
  have hproto' : (f.sync != (silent s).compat) = false := by
    show (f.sync != s.compat) = false
    rw [hproto, bne_self_eq_false]
  unfold busFrame
  dsimp only
  rw [hseen', if_neg (by simp), hproto', if_neg (by simp), hcrc, Bool.not_false, if_pos rfl]
  rfl

theorem crcCounted_shape (s : State) : crcCounted s =
    { s with ev := (crcCounted s).ev, bus := { s.bus with crcErr := satInc s.bus.crcErr, out := .silent, sticky := (crcCounted s).bus.sticky } } :=
  (raiseFault_bus 6 _).trans rfl

theorem crcCounted_bit {s : State} (haux : s.pwr.auxOn = true) : bit ((crcCounted s).frameStatus 1) 6 = true :=
  raiseFault_bus_bit (s := { silent s with bus := { (silent s).bus with crcErr := satInc s.bus.crcErr } }) haux (by decide)

/-! Responses. -/

theorem loseResponse_none (f : Frame) (s : State) : loseResponse f none s = s := rfl

/-- An answer that stays in the stored response (R281). -/
def storedAnswer (f : Frame) (stat : Nat) (data : W32) (s : State) : State :=
  respond f true stat data none (if isUnicast f then { s with bus := { s.bus with stored := some ⟨b8 stat, data, none⟩ } } else s)

theorem answer_plain (f : Frame) (stat : Nat) (data : W32) (s : State) :
    answer f none stat data none (fun _ _ => none) s = storedAnswer f stat data s := rfl

theorem storedAnswer_shape (f : Frame) (stat : Nat) (data : W32) (s : State) : storedAnswer f stat data s =
    { s with bus := { s.bus with stored := (if isUnicast f then some ⟨b8 stat, data, none⟩ else s.bus.stored), out := (storedAnswer f stat data s).bus.out } } := by
  unfold storedAnswer
  cases isUnicast f <;> rfl

/-- STAT CRC starts with six zeros and two ones. -/
theorem responseBits_crc (sync : Bool) (data : W32) (m : Option W32) (crc : W16) : ∃ rest,
    responseBits sync (b8 statCrc) data m crc = msbBits 8 3 ++ rest := by
  refine ⟨msbBits 32 data.toNat ++ (m.elim [] fun x => msbBits 32 x.toNat) ++ msbBits (if sync then 8 else 16) crc.toNat, ?_⟩
  rw [responseBits, List.append_assoc, List.append_assoc, List.append_assoc]
  rfl

theorem msbBits_crc : ∀ k, k = 6 ∨ k = 7 → (msbBits 8 3)[k]? = some true ∧ k < (msbBits 8 3).length ∧ k + 1 ≤ (msbBits 8 3).length := by
  rintro k (rfl | rfl) <;> decide

/-- The card stops after the slot it lost and leaves the bus (R274, R279). -/
def driveStopped (out : BusOut) (s : State) : State := raiseFault 1 7 (becomeUnmoored { s with bus := { s.bus with out := out } })

theorem loseResponse_crc {f : Frame} {k : Nat} {s : State} (hk : k = 6 ∨ k = 7) (hd : f.dest ≠ 0) (m : Option W32) :
    loseResponse f (some k) (respond f false statCrc 0 m s) = driveStopped (.cut false ((msbBits 8 3).take (k + 1))) s := by
  obtain ⟨hbit, hlt, hle⟩ := msbBits_crc k hk
  unfold loseResponse respond
  dsimp only
  generalize BitVec.ofNat 16 _ = crc
  obtain ⟨rest, hrest⟩ := responseBits_crc f.sync 0 m crc
  rw [hrest, List.getElem?_append_left hlt, if_neg (by simp [hbit]), if_neg hd, List.take_append_of_le_length hle]
  rfl

theorem becomeUnmoored_shape (s : State) : becomeUnmoored s = { s with
    pwr := { s.pwr with op := (becomeUnmoored s).pwr.op }, stalls := (becomeUnmoored s).stalls
    keeper := { s.keeper with bus := { s.keeper.bus with session := none } }
    bus := { s.bus with moor := .unmoored, addr := 0, stored := none, token := false
                        held := s.bus.held.map fun h => { h with dropped := true } } } :=
  setToken_false _

theorem driveStopped_facts (out : BusOut) {s : State} (haux : s.pwr.auxOn = true) : (driveStopped out s).bus.crcErr = s.bus.crcErr ∧
    bit ((driveStopped out s).frameStatus 1) 7 = true ∧ (driveStopped out s).bus.out = out ∧ (driveStopped out s).bus.moor = .unmoored ∧
    (driveStopped out s).bus.addr = 0 ∧ (driveStopped out s).bus.stored = none := by
  have hbit : bit ((driveStopped out s).frameStatus 1) 7 = true :=
    raiseFault_bus_bit (by rw [becomeUnmoored_shape]; exact haux) (by decide)
  have hbus : (driveStopped out s).bus = { s.bus with
      moor := .unmoored, addr := 0, stored := none, token := false, out := out
      held := s.bus.held.map fun h => { h with dropped := true }, sticky := (driveStopped out s).bus.sticky } :=
    (congrArg State.bus (raiseFault_bus 7 (becomeUnmoored { s with bus := { s.bus with out := out } }))).trans
      (congrArg (fun b : Bus => { b with sticky := (driveStopped out s).bus.sticky })
        (congrArg State.bus (becomeUnmoored_shape { s with bus := { s.bus with out := out } })))
  refine ⟨?_, hbit, ?_, ?_, ?_, ?_⟩ <;> rw [hbus]

/-- The address of a card that is moored or provisional is not 0. -/
theorem dest_ne_zero {f : Frame} {s : State} (hm : s.mine f = true) (hmoor : s.bus.moor ≠ .unmoored) : f.dest ≠ 0 := by
  rw [State.mine, if_neg hmoor, Bool.and_eq_true, isUnicast, decide_eq_true_eq] at hm
  intro h
  have : f.dest.toNat = 0 := by rw [h]; rfl
  omega

/-! Registers. -/

theorem mirrorOf_auxServed {reg : Nat} (h : auxServed reg = true) : mirrorOf reg = none := by
  simp only [auxServed, Bool.or_eq_true, decide_eq_true_eq] at h
  rw [mirrorOf, if_neg (by omega), if_neg (by omega), if_neg (by omega)]

theorem regStat_plain {a : Actor} {need reg : Nat} {s : State} (ha : s.regAllowed a reg = statOk) (hp : (s.peek reg).isSome = true)
    (hm : mirrorOf reg = none) : regStat a need reg s = (statOk, s) := by
  unfold regStat
  dsimp only
  rw [if_neg (by simp [ha]), if_neg (by simp [Option.isNone_iff_eq_none, Option.isSome_iff_ne_none.1 hp]), hm]

theorem regRead_plain {a : Actor} {reg : Nat} {s : State} (ha : s.regAllowed a reg = statOk) (hp : (s.peek reg).isSome = true)
    (hm : mirrorOf reg = none) (h9 : reg ≠ 0x209) (t : Nat) : regRead t a reg s =
      (statOk, (s.peek reg).getD 0, if 0x602 ≤ reg ∧ reg ≤ 0x611 then recordPulses (reg - 0x602) s else s) := by
  unfold regRead
  rw [regStat_plain ha hp hm]
  dsimp only
  rw [if_neg (by simp), if_neg h9, reachMirror, hm]
  rfl

theorem peek_silent_isSome (reg : Nat) (s : State) : ((silent s).peek reg).isSome = (s.peek reg).isSome := rfl

/-- A register that the aux domain serves is read in the frame (R283). -/
theorem registerFrame_auxRead {f : Frame} {reg : Nat} {s : State} (hm : s.mine f = true) (hr : frameReg f = some reg) (hk : frameKey f = false)
    (haux : auxServed reg = true) (ha : s.regAllowed .bus reg = statOk) (hp : (s.peek reg).isSome = true) (h9 : reg ≠ 0x209) :
    registerFrame f none none s = storedAnswer f 0 ((s.peek reg).getD 0) s := by
  have hev : ¬(0x602 ≤ reg ∧ reg ≤ 0x611) := by
    simp only [auxServed, Bool.or_eq_true, decide_eq_true_eq] at haux
    omega
  unfold registerFrame
  rw [hm, if_neg (by simp), hr]
  dsimp only
  rw [hk, if_neg (by simp), if_pos haux, serveReg]
  rw [regRead_plain ha hp (mirrorOf_auxServed haux) h9, if_neg hev]
  exact answer_plain f 0 _ s

theorem regWrite_lease {s : State} (ha : s.regAllowed .bus 0x0106 = statOk) (t : Nat) (v : W32) :
    regWrite t .bus 0x0106 v s = (statOk, { s with bus := { s.bus with lease := v &&& 0xFFFF } }) := by
  unfold regWrite
  rw [regStat_plain ha rfl (by decide)]
  rfl

/-- TOKEN_LEASE is written in the frame (R283). -/
theorem registerFrame_lease {f : Frame} {s : State} (hm : s.mine f = true) (hr : frameReg f = some 0x0106) (hk : frameKey f = false)
    (ha : s.regAllowed .bus 0x0106 = statOk) (v : W32) : ∃ d,
    registerFrame f none (some v) s = storedAnswer f 0 d { s with bus := { s.bus with lease := v &&& 0xFFFF } } := by
  refine ⟨v &&& 0xFFFF, ?_⟩
  unfold registerFrame
  rw [hm, if_neg (by simp), hr]
  dsimp only
  rw [hk, if_neg (by simp), if_pos (by decide), serveReg]
  dsimp only
  rw [regWrite_lease ha]
  rfl

/-- A register that the cores serve wakes the card in Watch (R285). -/
theorem registerFrame_asleep {f : Frame} {reg : Nat} {s : State} (hm : s.mine f = true) (hr : frameReg f = some reg) (hk : frameKey f = false)
    (haux : auxServed reg = false) (hw : s.pwr.watch = .asleep) (ht : s.therm.held = false) :
    registerFrame f none none s = respond f true statNotReady 0 none (wake 0 s) := by
  unfold registerFrame
  rw [hm, if_neg (by simp), hr]
  dsimp only
  rw [hk, if_neg (by simp), haux, if_neg (by simp), coreOp]
  dsimp only
  rw [ht, if_neg (by simp), if_pos hw]
  rfl

/-- A register that the cores serve is read once they serve (R284). -/
theorem registerFrame_coreRead {f : Frame} {reg : Nat} {s : State} (hm : s.mine f = true) (hr : frameReg f = some reg) (hk : frameKey f = false)
    (haux : auxServed reg = false) (hserve : s.coresServe = true) (ht : s.therm.held = false) (hheld : s.bus.held = none)
    (ha : s.regAllowed .bus reg = statOk) (hp : (s.peek reg).isSome = true) (hmir : mirrorOf reg = none) :
    registerFrame f none none s = storedAnswer f 0 ((s.peek reg).getD 0)
      (if 0x602 ≤ reg ∧ reg ≤ 0x611 then recordPulses (reg - 0x602) s else s) := by
  have hs := hserve
  simp only [State.coresServe, Bool.and_eq_true, bne_iff_ne, Option.isNone_iff_eq_none] at hs
  obtain ⟨⟨⟨hup, hw⟩, hbusy⟩, -⟩ := hs
  have h9 : reg ≠ 0x209 := by
    rintro rfl
    exact absurd haux (by decide)
  unfold registerFrame
  rw [hm, if_neg (by simp), hr]
  dsimp only
  rw [hk, if_neg (by simp), haux, if_neg (by simp), coreOp]
  dsimp only
  rw [ht, if_neg (by simp), if_neg hw, hup, Bool.true_or, hheld, if_neg (by simp), hserve, hbusy, if_neg (by simp), serveReg]
  have hread : regRead s.now (if (none : Option Nat).isSome = true then Actor.keeper else .bus) reg s = _ :=
    regRead_plain (a := .bus) ha hp hmir h9 s.now
  rw [hread]
  dsimp only
  rw [if_neg (by decide)]
  exact answer_plain f 0 _ _

/-- A session frame whose MAC fails is counted (R296). -/
def macCounted (s : State) : State := raiseFault 1 5 { s with bus := { s.bus with macErr := satInc s.bus.macErr } }

theorem macCounted_shape (s : State) : macCounted s =
    { s with ev := (macCounted s).ev, bus := { s.bus with macErr := satInc s.bus.macErr, sticky := (macCounted s).bus.sticky } } :=
  (raiseFault_bus 5 _).trans rfl

theorem acceptMac_none {f : Frame} {s t : State} (h : acceptMac f s = (none, t)) : t = s := by
  unfold acceptMac at h
  split at h
  · exact (congrArg Prod.snd h).symm
  · split at h
    · exact absurd (congrArg Prod.fst h) (by simp)
    · exact (congrArg Prod.snd h).symm

/-- The answer to a session frame whose MAC fails. -/
def macRefused (f : Frame) (s : State) : State := respond f true statNotKeeper 0 (some 0) (macCounted s)

theorem registerFrame_badMac {f : Frame} {s t : State} (hm : s.mine f = true) (hr : (frameReg f).isSome = true) (hk : frameKey f = true)
    (hserved : s.sessionServed = true) (hmac : acceptMac f s = (none, t)) (v : Option W32) :
    registerFrame f none v s = macRefused f s := by
  obtain ⟨reg, hreg⟩ := Option.isSome_iff_exists.1 hr
  unfold registerFrame
  rw [hm, if_neg (by simp), hreg]
  dsimp only
  rw [hk, if_pos rfl, hserved, if_neg (by simp), hmac, acceptMac_none hmac]
  rfl

theorem macRefused_facts (f : Frame) {s : State} (haux : s.pwr.auxOn = true) : (macRefused f s).bus.macErr = satInc s.bus.macErr ∧
    bit ((macRefused f s).frameStatus 1) 5 = true ∧ (∃ crc, (macRefused f s).bus.out = .response true 6 0 (some 0) crc) ∧
    (macRefused f s).acc = s.acc ∧ (macRefused f s).hb = s.hb ∧ (macRefused f s).pwr = s.pwr ∧ (macRefused f s).keeper = s.keeper := by
  have hbit : bit ((macCounted s).frameStatus 1) 5 = true :=
    raiseFault_bus_bit (s := { s with bus := { s.bus with macErr := satInc s.bus.macErr } }) haux (by decide)
  refine ⟨?_, hbit, ⟨_, rfl⟩, ?_, ?_, ?_, ?_⟩ <;> unfold macRefused <;> rw [macCounted_shape] <;> rfl

/-! The rows. -/

theorem exec_busRead {f : Frame} {s : State} (h : FrameTaken f s) (hc : frameCode f = 1) :
    exec (.busRead f none) s = .next (settle (registerFrame f none none (silent s))) := by
  show done (ofCode 1 f none s _) = _
  rw [ofCode_of hc, busFrame_taken h]
  rfl

theorem exec_busWrite {f : Frame} {s : State} (h : FrameTaken f s) (hc : frameCode f = 2) (hb : isBroadcast f = false) :
    exec (.busWrite f none) s = .next (settle (registerFrame f none (some f.data) (silent s))) := by
  show done (ofCode 2 f none s _) = _
  rw [ofCode_of hc, busFrame_taken h, hb]
  rfl

theorem exec_poll {f : Frame} {s : State} (h : FrameTaken f s) (hc : frameCode f = 3) (hk : frameKey f = false) (hm : s.mine f = true) :
    exec (.poll f none) s = .next (settle (respond f true (pollAnswer none s).1 (pollAnswer none s).2 none (silent s))) := by
  have hm' : (silent s).mine f = true := hm
  show done (ofCode 3 f none s _) = _
  rw [ofCode_of hc, busFrame_taken h, hm', hk]
  rfl

theorem exec_poll_badMac {f : Frame} {s t : State} (h : FrameTaken f s) (hc : frameCode f = 3) (hk : frameKey f = true) (hm : s.mine f = true)
    (hserved : s.sessionServed = true) (hmac : acceptMac f (silent s) = (none, t)) :
    exec (.poll f none) s = .next (settle (macRefused f (silent s))) := by
  have hm' : (silent s).mine f = true := hm
  have hserved' : (silent s).sessionServed = true := hserved
  show done (ofCode 3 f none s _) = _
  rw [ofCode_of hc, busFrame_taken h, hm', hk, hserved', hmac, acceptMac_none hmac]
  rfl

theorem exec_busWrite_badCrc {f : Frame} {s : State} (haux : s.pwr.auxOn = true) (hseen : s.bus.idleSeen = true)
    (hlistens : s.bus.ignoring = false) (hproto : f.sync = s.compat) (hcrc : frameCrcOk f = false) (hc : frameCode f = 2)
    (lost : Option Nat) : exec (.busWrite f lost) s = .next (settle (if s.mine f then
        loseResponse f lost (respond f false statCrc 0 (blankMac f) (crcCounted s))
      else if frameFast f && !f.sync then { s with bus := { s.bus with ignoring := true, out := .silent } } else silent s)) := by
  show done (ofCode 2 f lost s _) = _
  rw [ofCode_of hc, busFrame_badCrc haux hseen hlistens hproto hcrc, hc]
  rfl

/-- Settles O33: a frame that is taken is served by the aux domain or the cores; one whose CRC is wrong is counted. -/
theorem busAccessRows : Obligations.BusAccessRows := by
  unfold Obligations.BusAccessRows
  refine ⟨⟨fun s f reg h hc hk hm hr haux ha h9 hp => ?_, fun s f h hc hk hm hb hr ha => ?_, fun s f r h hc hk hm hheld hst hses => ?_,
    fun s f h hc hk hm hheld => ?_, fun s f reg h hc hk hm hr haux hw ht => ?_,
    fun s f reg h hc hk hm hr haux hserve ht hheld ha hp hmir => ?_, fun s t f i h hi hk hb hm hr hserved hmac => ?_⟩,
    fun s f haux hseen hlistens hproto hcrc hc hm => ⟨?_, fun k hk hmoor => ?_⟩,
    fun s f lost haux hseen hlistens hproto hcrc hc hm hfast => ?_, fun s f others haux hseen hlistens hproto hcrc hc hm => ?_⟩
  · refine ⟨storedAnswer f 0 (((silent s).peek reg).getD 0) (silent s), ?_, ?_, ?_, ⟨_, rfl⟩, ?_⟩
    · rw [exec_busRead h hc, registerFrame_auxRead (s := silent s) hm hr hk haux ha hp h9]
    all_goals
      rw [storedAnswer_shape]
      rfl
  · obtain ⟨d, hd⟩ := registerFrame_lease (s := silent s) hm hr hk ha f.data
    refine ⟨_, (exec_busWrite h hc hb).trans (congrArg (fun u => Host.Outcome.next (settle u)) hd), ?_, ?_, ?_, ?_, ?_⟩ <;>
      rw [storedAnswer_shape] <;> rfl
  · have hp : pollAnswer none s = (r.stat.toNat, r.data) := by
      unfold pollAnswer
      rw [hheld, hst]
      dsimp only
      rw [hses]
      rfl
    refine ⟨_, exec_poll h hc hk hm, rfl, ?_⟩
    rw [hp]
    exact ⟨_, rfl⟩
  · obtain ⟨x, hx, hdrop⟩ := hheld
    have hp : pollAnswer none s = (1, 0) := by
      unfold pollAnswer
      rw [if_pos (by rw [hx, Option.any_some, hdrop]; rfl)]
      rfl
    refine ⟨_, exec_poll h hc hk hm, rfl, ?_⟩
    rw [hp]
    exact ⟨_, rfl⟩
  · have hwake : wake 0 (silent s) = { silent s with pwr := { s.pwr with wakeSrc := putBit s.pwr.wakeSrc 0 true, wakeDue := true } } :=
      if_neg (by
        show ¬(s.therm.held || decide (s.pwr.watch = .awake)) = true
        simp [ht, hw])
    refine ⟨respond f true statNotReady 0 none (wake 0 (silent s)), ?_, ?_, ⟨_, rfl⟩⟩
    · rw [exec_busRead h hc, registerFrame_asleep (s := silent s) hm hr hk haux hw ht]
    · rw [hwake]
      rfl
  · refine ⟨storedAnswer f 0 (((silent s).peek reg).getD 0)
      (if 0x602 ≤ reg ∧ reg ≤ 0x611 then recordPulses (reg - 0x602) (silent s) else silent s), ?_, ?_, ?_, ⟨_, rfl⟩⟩
    · rw [exec_busRead h hc, registerFrame_coreRead (s := silent s) hm hr hk haux hserve ht hheld ha hp hmir]
    all_goals
      rw [storedAnswer_shape]
      split <;> rfl
  · have hexec : exec i s = .next (settle (macRefused f (silent s))) := by
      simp only [List.mem_cons, Prod.mk.injEq, List.not_mem_nil, or_false] at hi
      rcases hi with ⟨hc, rfl⟩ | ⟨hc, rfl⟩ | ⟨hc, rfl⟩
      · rw [exec_busRead h hc, registerFrame_badMac (s := silent s) hm hr hk hserved hmac]
      · rw [exec_busWrite h hc hb, registerFrame_badMac (s := silent s) hm hr hk hserved hmac]
      · exact exec_poll_badMac h hc hk hm hserved hmac
    exact ⟨_, hexec, macRefused_facts f (s := silent s) h.aux⟩
  · refine ⟨respond f false statCrc 0 (blankMac f) (crcCounted s), ?_, ?_, crcCounted_bit haux, ⟨_, rfl⟩, ?_, ?_, ?_, ?_, ?_, ?_⟩
    · rw [exec_busWrite_badCrc haux hseen hlistens hproto hcrc hc, if_pos hm]
      rfl
    all_goals
      rw [crcCounted_shape]
      rfl
  · have haux' : (crcCounted s).pwr.auxOn = true := by rw [crcCounted_shape]; exact haux
    obtain ⟨hcrcErr, hrest⟩ := driveStopped_facts (.cut false ((msbBits 8 3).take (k + 1))) haux'
    refine ⟨_, ?_, hcrcErr.trans ?_, hrest⟩
    · rw [exec_busWrite_badCrc haux hseen hlistens hproto hcrc hc, if_pos hm, loseResponse_crc hk (dest_ne_zero hm hmoor)]
    · rw [crcCounted_shape]
  · rw [exec_busWrite_badCrc haux hseen hlistens hproto hcrc hc, hm, hfast]
    rfl
  · refine ⟨crcCounted s, ?_, ?_⟩
    · show done (ofCode 10 f none s _) = _
      rw [ofCode_of hc, busFrame_badCrc haux hseen hlistens hproto hcrc, hm, hc]
      rfl
    · rw [crcCounted_shape]

end Sys2Proof.Proofs
end

section
/-! Mooring, alerts, broadcasts, the token and the sessions (R287 to R300, R346, R347): settles O34. -/

namespace Sys2Proof.Proofs

open Sys2Proof Sys2Proof.Machine Sys2Proof.Laws

theorem setToken_shape (v : Bool) (s : State) : setToken v s = { s with
    bus := { s.bus with token := v }, pwr := { s.pwr with op := (setToken v s).pwr.op }, stalls := (setToken v s).stalls } := by
  cases v with
  | false => exact setToken_false s
  | true =>
    unfold setToken
    split
    · next h =>
      have hbus : { s.bus with token := true } = s.bus := by rw [← h]
      rw [hbus]
    · dsimp only
      rw [if_pos rfl, reselect_shape]

/-- What a lost slot can change of the card. -/
theorem loseResponse_shape (f : Frame) (lost : Option Nat) (s : State) : loseResponse f lost s = { s with
    bus := (loseResponse f lost s).bus, ev := (loseResponse f lost s).ev, pwr := (loseResponse f lost s).pwr
    stalls := (loseResponse f lost s).stalls
    keeper := { s.keeper with bus := (loseResponse f lost s).keeper.bus } } := by
  unfold loseResponse
  split
  · dsimp only
    split
    · rfl
    split
    · rfl
    · rw [raiseFault_bus, becomeUnmoored_shape]
  · rfl

theorem becomeUnmoored_facts (s : State) : (becomeUnmoored s).bus.moor = .unmoored ∧ (becomeUnmoored s).bus.addr = 0 ∧
    (becomeUnmoored s).bus.stored = none ∧ (becomeUnmoored s).bus.token = false ∧ (becomeUnmoored s).keeper.bus.session = none ∧
    (becomeUnmoored s).keeper.nvme = s.keeper.nvme ∧ (becomeUnmoored s).med = s.med ∧ (becomeUnmoored s).ns = s.ns := by
  rw [becomeUnmoored_shape]
  exact ⟨rfl, rfl, rfl, rfl, rfl, rfl, rfl, rfl⟩

/-! Winning a field. -/

theorem wins_of_le {m : Nat} {os : List Nat} (h : ∀ o ∈ os, m ≤ o) : wins m os = true :=
  List.all_eq_true.2 fun o ho => decide_eq_true (h o ho)

theorem wins_of_lower {m o : Nat} {os : List Nat} (ho : o ∈ os) (h : o < m) : wins m os = false :=
  List.all_eq_false.2 ⟨o, ho, by simpa using h⟩

/-- A UID and its inversion both win only against the same UID (R289). -/
theorem wins_both {m : Nat} {os : List Nat} : (∀ o ∈ os, o = m) →
    (wins m os && wins (2 ^ 64 - 1 - m) (os.map fun x => 2 ^ 64 - 1 - x)) = true := by
  intro h
  rw [wins_of_le (fun o ho => (h o ho).ge), wins_of_le (fun o ho => ?_)]
  · rfl
  · obtain ⟨x, hx, rfl⟩ := List.mem_map.1 ho
    rw [h x hx]

theorem wins_not_both {m o : Nat} {os : List Nat} (ho : o ∈ os) (hne : o ≠ m) (hm : m < 2 ^ 64) (hlt : o < 2 ^ 64) :
    (wins m os && wins (2 ^ 64 - 1 - m) (os.map fun x => 2 ^ 64 - 1 - x)) = false := by
  rcases Nat.lt_or_gt_of_ne hne with hlt | hgt
  · rw [wins_of_lower ho hlt, Bool.false_and]
  · rw [wins_of_lower (List.mem_map.2 ⟨o, ho, rfl⟩) (by omega), Bool.and_false]

/-! The rows. -/

/-- The UIDs that the other cards send. -/
def sentUids (others : List W64) : List Nat := others.map fun x => x.toNat

theorem mem_sentUids {x : W64} {others : List W64} (h : x ∈ others) : x.toNat ∈ sentUids others := List.mem_map.2 ⟨x, h, rfl⟩

theorem exec_moor {f : Frame} {s : State} (others : List W64) (h : FrameTaken f s) (hc : frameCode f = 8) (hm : s.bus.moor = .unmoored)
    (hlo : 1 ≤ f.reg.toNat % 256) (hhi : f.reg.toNat % 256 ≤ 250) : exec (.moor f others) s = .next (settle (
      if wins s.uid (sentUids others) then
        { silent s with bus := { (silent s).bus with moor := .moored, addr := f.reg.toNat % 256, out := .slots (drive 64 s.uid (sentUids others) ++ [false]) } }
      else { silent s with bus := { (silent s).bus with out := .slots (drive 64 s.uid (sentUids others)) } })) := by
  have hguard : ¬((silent s).bus.moor ≠ .unmoored ∨ f.reg.toNat % 256 < 1 ∨ 250 < f.reg.toNat % 256) := by
    rw [show (silent s).bus.moor = .unmoored from hm]
    simp only [ne_eq, not_true_eq_false, false_or]
    omega
  show done (ofCode 8 f none s _) = _
  rw [ofCode_of hc, busFrame_taken h]
  dsimp only
  rw [if_neg hguard]
  rfl

theorem exec_moorResume {f : Frame} {s : State} (h : FrameTaken f s) (hc : frameCode f = 9) (hcopied : s.pwr.copied = true)
    (hm : s.bus.moor = .unmoored) (hlo : 1 ≤ fld s.hb.auxPref 7 0) (hhi : fld s.hb.auxPref 7 0 ≤ 250) :
    exec (.moorResume f) s = .next (settle { s with bus := { s.bus with moor := .provisional, addr := fld s.hb.auxPref 7 0, out := .silent } }) := by
  show done (ofCode 9 f none s _) = _
  rw [ofCode_of hc, busFrame_taken h]
  exact congrArg done (if_pos (⟨hcopied, hm, hlo, hhi⟩ : s.pwr.copied = true ∧ s.bus.moor = .unmoored ∧ 1 ≤ fld s.hb.auxPref 7 0 ∧ fld s.hb.auxPref 7 0 ≤ 250))

/-- What MOOR_CHECK drives in its two phases. -/
def checkOut (uid : Nat) (os : List Nat) : BusOut :=
  .slots (drive 64 uid os ++ drive 64 (2 ^ 64 - 1 - uid) (os.map fun x => 2 ^ 64 - 1 - x))

/-- The card after both phases of MOOR_CHECK, before what it drove is noted. -/
def checkedMoor (won : Bool) (s : State) : State := if won then { s with bus := { s.bus with moor := .moored } } else becomeUnmoored s

theorem exec_moorCheck {f : Frame} {s : State} (others : List W64) (h : FrameTaken f s) (hc : frameCode f = 10) (hm : s.bus.moor ≠ .unmoored)
    (hmine : s.mine f = true) {won : Bool}
    (hwon : (wins s.uid (sentUids others) && wins (2 ^ 64 - 1 - s.uid) ((sentUids others).map fun x => 2 ^ 64 - 1 - x)) = won) :
    exec (.moorCheck f others) s = .next (settle { checkedMoor won (silent s) with
      bus := { (checkedMoor won (silent s)).bus with out := checkOut s.uid (sentUids others) } }) := by
  have hguard : ¬(decide ((silent s).bus.moor = .unmoored) || !(silent s).mine f) = true := by
    rw [show (silent s).mine f = true from hmine, show decide ((silent s).bus.moor = .unmoored) = false from decide_eq_false hm]
    simp
  subst hwon
  show done (ofCode 10 f none s _) = _
  rw [ofCode_of hc, busFrame_taken h]
  exact congrArg done (if_neg hguard)

theorem exec_unmoor {f : Frame} {s : State} (lost : Option Nat) (h : FrameTaken f s) (hc : frameCode f = 11)
    (hto : isBroadcast f = true ∨ s.mine f = true) : ∃ u, exec (.unmoor f lost) s = .next (settle (becomeUnmoored u)) ∧
      u.keeper.nvme = s.keeper.nvme ∧ u.med = s.med ∧ u.ns = s.ns := by
  have hframe : exec (.unmoor f lost) s = done (if isBroadcast f then becomeUnmoored (silent s)
      else if s.mine f then becomeUnmoored (loseResponse f lost (respond f true statOk 0 none (silent s))) else silent s) := by
    show done (ofCode 11 f lost s _) = _
    rw [ofCode_of hc, busFrame_taken h]
    rfl
  rw [hframe]
  by_cases hb : isBroadcast f = true
  · rw [if_pos hb]
    exact ⟨silent s, rfl, rfl, rfl, rfl⟩
  · rw [if_neg hb, if_pos (hto.resolve_left hb)]
    refine ⟨loseResponse f lost (respond f true statOk 0 none (silent s)), rfl, ?_⟩
    rw [loseResponse_shape]
    exact ⟨rfl, rfl, rfl⟩

theorem exec_token {f : Frame} {s : State} (h : FrameTaken f s) (hc : frameCode f = 17) (hm : s.bus.moor = .moored)
    (hlo : 1 ≤ fld f.reg 15 8) (hhi : fld f.reg 15 8 ≤ 250) (ha : fld f.reg 15 8 ≤ s.bus.addr) (ht : s.bus.addr ≤ fld f.reg 15 8 + 31) :
    exec (.token f) s = .next (settle (setToken (bit f.data (s.bus.addr - fld f.reg 15 8)) (silent s))) := by
  have hguard : ¬((silent s).bus.moor ≠ .moored ∨ fld f.reg 15 8 < 1 ∨ 250 < fld f.reg 15 8 ∨ (silent s).bus.addr < fld f.reg 15 8 ∨
      fld f.reg 15 8 + 31 < (silent s).bus.addr) := by
    rw [show (silent s).bus.moor = .moored from hm, show (silent s).bus.addr = s.bus.addr from rfl]
    simp only [ne_eq, not_true_eq_false, false_or]
    omega
  show done (ofCode 17 f none s _) = _
  rw [ofCode_of hc, busFrame_taken h]
  exact congrArg done (if_neg hguard)

theorem exec_beaconZero {f : Frame} {s : State} (h : FrameTaken f s) (hc : frameCode f = 16) : exec (.beaconZero f) s =
    .next (settle (if s.groupWorld 2 then raiseFault 1 3 (silent s) else bcnZeroArm (fld f.data 23 0) (silent s))) := by
  show done (ofCode 16 f none s _) = _
  rw [ofCode_of hc, busFrame_taken h]
  rfl

theorem exec_wakeAll {f : Frame} {s : State} (lost : Option Nat) (h : FrameTaken f s) (hc : frameCode f = 18) (hb : isBroadcast f = true) :
    exec (.wake f lost) s = .next (settle (thermalRestart (wake 0 (silent s)))) := by
  show done (ofCode 18 f lost s _) = _
  rw [ofCode_of hc, busFrame_taken h, hb]
  rfl

theorem thermalRestart_of_notHeld {s : State} (h : s.therm.held = false) : thermalRestart s = s := if_neg (by simp [h])

/-- Settles O34: who wins a field, what a broadcast does, and how the sessions end. -/
theorem mooringRows : Obligations.MooringRows := by
  unfold Obligations.MooringRows
  refine ⟨⟨fun s f others h hc hm hlo hhi => ⟨fun hall => ?_, fun hex => ?_⟩, fun s f h hc hcopied hm hlo hhi => exec_moorResume h hc hcopied hm hlo hhi,
    fun s f others h hc hm hmine => ⟨fun hall => ?_, fun huid hex => ?_⟩, fun s f lost h hc hto => ?_, fun s f others h hc hlow => ?_⟩,
    fun s f h hc => ⟨fun hg => ?_, fun hg => ?_⟩, fun s f h hc hm hlo hhi ha ht => ⟨_, exec_token h hc hm hlo hhi ha ht, ?_, ?_⟩,
    fun s hl => ?_, fun s hl => ?_, fun s f lost h hc hb hw ht => ?_, fun s haux => ?_, fun s => ⟨rfl, rfl, rfl, rfl⟩⟩
  · have hwin : wins s.uid (sentUids others) = true := wins_of_le fun o ho => by
      obtain ⟨x, hx, rfl⟩ := List.mem_map.1 ho
      exact hall x hx
    refine ⟨_, exec_moor others h hc hm hlo hhi, ?_⟩
    rw [hwin]
    rfl
  · obtain ⟨x, hx, hlt⟩ := hex
    refine ⟨_, exec_moor others h hc hm hlo hhi, ?_⟩
    rw [wins_of_lower (mem_sentUids hx) hlt]
    rfl
  · refine ⟨_, exec_moorCheck others h hc hm hmine (wins_both fun o ho => ?_), rfl⟩
    obtain ⟨x, hx, rfl⟩ := List.mem_map.1 ho
    exact hall x hx
  · obtain ⟨x, hx, hne⟩ := hex
    obtain ⟨hmoor, haddr, hstored, htoken, hsession, -⟩ := becomeUnmoored_facts (silent s)
    exact ⟨_, exec_moorCheck others h hc hm hmine (wins_not_both (mem_sentUids hx) hne huid x.isLt), hmoor, haddr, hstored, hsession, htoken⟩
  · obtain ⟨u, hu, hnvme, hmed, hns⟩ := exec_unmoor lost h hc hto
    obtain ⟨hmoor, haddr, hstored, htoken, hsession, hnvme', hmed', hns'⟩ := becomeUnmoored_facts u
    exact ⟨_, hu, hmoor, haddr, hstored, htoken, hsession, hnvme'.trans hnvme, hmed'.trans hmed, hns'.trans hns⟩
  · refine ⟨{ silent s with bus := { (silent s).bus with out := .slots (drive 8 s.bus.addr (others.map fun x => x.toNat)) } }, ?_, rfl, _, rfl⟩
    show done (ofCode 12 f none s _) = _
    rw [ofCode_of hc, busFrame_taken h, hlow]
    rfl
  · rw [exec_beaconZero h hc, hg]
    rfl
  · rw [exec_beaconZero h hc, hg]
    rfl
  · rw [setToken_shape]
  · rw [setToken_shape]
    rfl
  · refine ⟨setToken false s, congrArg done (if_neg hl), ?_, ?_⟩
    · rw [setToken_shape]
    · rw [setToken_shape]
  · exact congrArg done (if_pos hl)
  · have hwake : wake 0 (silent s) = { silent s with pwr := { s.pwr with wakeSrc := putBit s.pwr.wakeSrc 0 true, wakeDue := true } } :=
      if_neg (by
        show ¬(s.therm.held || decide (s.pwr.watch = .awake)) = true
        simp [ht, hw])
    rw [exec_wakeAll lost h hc hb, hwake]
    exact congrArg done (thermalRestart_of_notHeld ht)
  · show (if !s.pwr.auxOn then done s else _) = _
    rw [haux, if_neg (by simp)]
    rfl

end Sys2Proof.Proofs
end

section
/-! Read, Verify and Compare (R66, R101, R102, R125, R140): settles O49. -/

namespace Sys2Proof.Proofs

open Sys2Proof Sys2Proof.Machine Sys2Proof.Laws

theorem touchPages_shape (dirty : Bool) (ps : List Nat) (m : Media) : ∃ c w t,
    ps.foldl (fun m p => m.touchPage p dirty) m = { m with cache := c, wants := w, stale := t } := by
  induction ps generalizing m with
  | nil => exact ⟨_, _, _, rfl⟩
  | cons p ps ih =>
    obtain ⟨c, w, t, h⟩ := ih (m.touchPage p dirty)
    exact ⟨c, w, t, h⟩

/-- What a read that passes its checks changes: the cache of the map, the queue's next LBA and the bytes read. -/
theorem readDone_shape (c : Cmd) (bytes : Nat) (s : State) :
    readDone c bytes s = { s with nv := { s.nv with sqs := (readDone c bytes s).nv.sqs }, med := (readDone c bytes s).med
                                  health := { s.health with readBytes := s.health.readBytes + bytes } } ∧
    (readDone c bytes s).med = { s.med with cache := (readDone c bytes s).med.cache, wants := (readDone c bytes s).med.wants
                                            stale := (readDone c bytes s).med.stale } := by
  obtain ⟨ca, w, t, h⟩ := touchPages_shape false (pagesOf c.nsid c.slba c.blocks) s.med
  unfold readDone
  dsimp only
  rw [h]
  split <;> exact ⟨rfl, rfl⟩

theorem readCmd_unmapped {move : Bool} {c : Cmd} {s : State} (h : s.mapped c.nsid c.slba c.blocks = false) :
    readCmd move c s = wantPages c.nsid c.slba c.blocks s := if_pos (by simp [h])

/-- The data of the first blocks of a range, as a Read moves it. -/
def readData (move : Bool) (c : Cmd) (s : State) (count : Nat) : List Byte :=
  if move then ((List.range count).flatMap fun i => readBlock s c (s.nsOf c) i) ++ readMeta s c (s.nsOf c) count else []

theorem readCmd_sound {move : Bool} {c : Cmd} {s : State} (h : s.mapped c.nsid c.slba c.blocks = true)
    (hbad : s.firstBad c.nsid c.slba c.blocks = none) (hpi : s.firstPi c (s.nsOf c) c.blocks = none) :
    readCmd move c s = complete c.h 0 0 0 0 (readData move c s c.blocks) (readDone c (4096 * c.blocks) s) := by
  unfold readCmd
  dsimp only
  rw [h, if_neg (by simp), hbad]
  dsimp only [Option.getD_none]
  rw [hpi]
  rfl

theorem readCmd_bad {move : Bool} {c : Cmd} {s : State} {i : Nat} (h : s.mapped c.nsid c.slba c.blocks = true)
    (hbad : s.firstBad c.nsid c.slba c.blocks = some i) (hpi : s.firstPi c (s.nsOf c) i = none) :
    readCmd move c s = endBad c (c.slba + i) (readData move c s i) (readDone c (4096 * i) s) := by
  unfold readCmd
  dsimp only
  rw [h, if_neg (by simp), hbad]
  dsimp only [Option.getD_some]
  rw [hpi]
  rfl

/-- The state in which a command ends at a bad LBA, before its completion. -/
def badNoted (c : Cmd) (lba : Nat) (s : State) : State :=
  logError c 2 0x81 lba (if s.med.sound (slotKey c.nsid lba) then s else raiseFault 8 2 s)

theorem badNoted_facts (c : Cmd) (lba : Nat) (s : State) : (badNoted c lba s).med = s.med ∧ (badNoted c lba s).health = s.health ∧
    (badNoted c lba s).nv.errCount = s.nv.errCount + 1 := by
  have hlog (u : State) : (logError c 2 0x81 lba u).med = u.med ∧ (logError c 2 0x81 lba u).health = u.health ∧
      (logError c 2 0x81 lba u).nv.errCount = u.nv.errCount + 1 := ⟨rfl, rfl, rfl⟩
  unfold badNoted
  split
  · exact hlog s
  · obtain ⟨hmed, hhealth, hcount⟩ := hlog (raiseFault 8 2 s)
    exact ⟨hmed.trans (raiseFault_med ..), hhealth.trans (raiseFault_health ..), hcount.trans (congrArg (fun x : Nvme => x.errCount + 1) (raiseFault_nv ..))⟩

theorem execRead_of {s : State} {h : Nat} {c : Cmd} (hio : s.io h 0x02 = some c) : execRead h s = done (readCmd true c s) := by
  rw [execRead, hio, Option.elim_some]

theorem execVerify_of {s : State} {h : Nat} {c : Cmd} (hio : s.io h 0x0C = some c) : execVerify h s = done (readCmd false c s) := by
  rw [execVerify, hio, Option.elim_some]

theorem exec_readRow {move : Bool} {s : State} {h : Nat} {c : Cmd} (hio : s.io h (if move then 0x02 else 0x0C) = some c) :
    exec (if move then .read h else .verify h) s = .next (settle (readCmd move c s)) := by
  cases move with
  | false => exact execVerify_of hio
  | true => exact execRead_of hio

/-- The data that a Compare compares where there is no metadata. -/
def comparesEqual (c : Cmd) (s : State) : Bool :=
  (List.range c.blocks).all fun i => (hostBlock c (s.nsOf c) i).1 == s.med.data (slotKey c.nsid (c.slba + i))

theorem comparesEqual_iff {c : Cmd} {s : State} : comparesEqual c s = true ↔
    ∀ i < c.blocks, (hostBlock c (s.nsOf c) i).1 = s.med.data (slotKey c.nsid (c.slba + i)) := by
  simp only [comparesEqual, List.all_eq_true, List.mem_range, beq_iff_eq]

theorem exec_compare {s : State} {h : Nat} {c : Cmd} (hio : s.io h 0x05 = some c) (hm : s.mapped c.nsid c.slba c.blocks = true)
    (hbad : s.firstBad c.nsid c.slba c.blocks = none) (hfmt : (s.nsOf c).fmt = 0) : exec (.compare h) s = .next (settle (
      if comparesEqual c s then succeed h (readDone c (4096 * c.blocks) s) else fail h 2 0x85 (readDone c (4096 * c.blocks) s))) := by
  show done (match s.io h 0x05 with | none => s | some c => _) = _
  rw [hio]
  dsimp only
  rw [hm, if_neg (by simp), hbad]
  dsimp only [Option.getD_none]
  have hsame (i : Nat) : ((hostBlock c (s.nsOf c) i).1 == s.med.data (slotKey c.nsid (c.slba + i)) &&
      ((s.nsOf c).fmt == 0 || ((s.nsOf c).prot != 0 && c.pract) ||
        (hostBlock c (s.nsOf c) i).2 == s.med.prot (slotKey c.nsid (c.slba + i)))) =
      ((hostBlock c (s.nsOf c) i).1 == s.med.data (slotKey c.nsid (c.slba + i))) := by
    rw [hfmt, beq_self_eq_true, Bool.true_or, Bool.true_or, Bool.and_true]
  simp only [hsame]
  rw [← comparesEqual]
  cases comparesEqual c s <;> rfl

/-- Settles O49: the three commands by whether the range is mapped, sound and equal. -/
theorem readRows : Obligations.ReadRows := by
  unfold Obligations.ReadRows
  refine fun s h c => ⟨fun move hio hm => ?_, fun move hio hm hbad hpi => ?_, fun move i hio hm hbad hpi => ?_, fun hio hm hbad hfmt => ?_⟩
  · rw [exec_readRow hio, readCmd_unmapped hm]
  · obtain ⟨hshape, hmed⟩ := readDone_shape c (4096 * c.blocks) s
    refine ⟨readDone c (4096 * c.blocks) s, ?_, ?_, hmed, ?_⟩
    · rw [exec_readRow hio, readCmd_sound hm hbad hpi]
      rfl
    · rw [hshape]
    · rw [hshape]
  · obtain ⟨hshape, hmed⟩ := readDone_shape c (4096 * i) s
    obtain ⟨hmed', hhealth, hcount⟩ := badNoted_facts c (c.slba + i) (readDone c (4096 * i) s)
    refine ⟨badNoted c (c.slba + i) (readDone c (4096 * i) s), readData move c s i, ?_, ?_, ?_, ?_, ?_, ?_, ?_⟩
    · rw [exec_readRow hio, readCmd_bad hm hbad hpi]
      rfl
    · rintro rfl
      rfl
    · rw [hmed', hmed]
    · rw [hmed', hmed]
    · rw [hmed', hmed]
    · rw [hcount, hshape]
    · rw [hhealth, hshape]
  · obtain ⟨hshape, hmed⟩ := readDone_shape c (4096 * c.blocks) s
    refine ⟨readDone c (4096 * c.blocks) s, ?_, ?_, hmed⟩
    · rw [exec_compare hio hm hbad hfmt]
      by_cases hsame : comparesEqual c s = true
      · rw [if_pos hsame, if_pos (comparesEqual_iff.1 hsame)]
      · rw [if_neg hsame, if_neg fun h => hsame (comparesEqual_iff.2 h)]
    · rw [hshape]

end Sys2Proof.Proofs
end

section
/-! Write, Write Zeroes and Dataset Management (R67 to R69, R79, R80, R86, R104): settles O50. -/

namespace Sys2Proof.Proofs

open Sys2Proof Sys2Proof.Machine Sys2Proof.Laws

/-- What a change of blocks, superblocks and programs leaves. -/
theorem of_undriven {m n : Media} (h : undriven m = undriven n) : m.content = n.content ∧ m.held = n.held ∧ m.wseq = n.wseq :=
  ⟨(congrArg Media.content h :), (congrArg Media.held h :), (congrArg Media.wseq h :)⟩

/-! Held data goes into DRAM. -/

theorem unqueue_held (m : Media) (k : Nat) : (m.unqueue k).held = m.held ∧ (m.unqueue k).content = m.content := by
  unfold Media.unqueue
  split <;> exact ⟨rfl, rfl⟩

theorem remap_stores (m : Media) (k : Nat) : (m.remap k).held = m.held ∧ (m.remap k).content = m.content ∧ (m.remap k).unrec = m.unrec := by
  unfold Media.remap
  dsimp only
  (repeat' split) <;> exact ⟨rfl, rfl, rfl⟩

theorem hold_content (m : Media) (t k : Nat) (data pi : List Byte) : (m.hold t k data pi).content = m.content :=
  (remap_stores _ k).2.1.trans (unqueue_held m k).2

/-- The slot that goes into DRAM reads as it was given; no other changes. -/
theorem slot_hold (m : Media) (t k : Nat) (data pi : List Byte) (j : Nat) :
    (m.hold t k data pi).slot j = if j = k then some (data, pi) else m.slot j := by
  have hheld : (m.hold t k data pi).held = put m.held k ⟨data, pi, 0, m.wseq, (look m.held k).elim m.wseq fun h => h.since, t⟩ :=
    (remap_stores _ k).1
  unfold Media.slot
  rw [hheld, hold_content]
  by_cases hj : j = k
  · rw [if_pos hj, hj, look_put_self]
  · rw [if_neg hj, look_put_ne _ _ _ _ hj]

/-- The slots of blocks that start at an LBA. -/
def heldBlocks (c : Cmd) (bs : List (List Byte × List Byte)) (lo : Nat) : List (Nat × List Byte × List Byte) :=
  (bs.zipIdx lo).map fun b => (slotKey c.nsid (c.slba + b.2), b.1.1, b.1.2)

/-- Held data of a write in DRAM. -/
def holdAll (t : Nat) (xs : List (Nat × List Byte × List Byte)) (m : Media) : Media :=
  xs.foldl (fun m x => m.hold t x.1 x.2.1 x.2.2) m

theorem holdAll_content (t : Nat) (xs : List (Nat × List Byte × List Byte)) (m : Media) : (holdAll t xs m).content = m.content :=
  foldl_keep Media.content _ (fun m _ => hold_content m ..) xs m

theorem slotKey_inj {nsid i j : Nat} : slotKey nsid i = slotKey nsid j ↔ i = j := Nat.add_left_cancel_iff

theorem slot_holdAll_ne {t : Nat} {xs : List (Nat × List Byte × List Byte)} {k : Nat} (h : ∀ x ∈ xs, k ≠ x.1) (m : Media) :
    (holdAll t xs m).slot k = m.slot k := by
  induction xs generalizing m with
  | nil => rfl
  | cons x xs ih =>
    show (holdAll t xs (m.hold t x.1 x.2.1 x.2.2)).slot k = _
    rw [ih fun y hy => h y (List.mem_cons_of_mem _ hy), slot_hold, if_neg (h x List.mem_cons_self)]

theorem slot_holdAll_block (c : Cmd) (t lo : Nat) (bs : List (List Byte × List Byte)) (m : Media) {i : Nat} (hi : i < bs.length) :
    (holdAll t (heldBlocks c bs lo) m).slot (slotKey c.nsid (c.slba + (lo + i))) = some bs[i] := by
  induction bs generalizing lo m i with
  | nil => exact absurd hi (Nat.not_lt_zero i)
  | cons b bs ih =>
    show (holdAll t (heldBlocks c bs (lo + 1)) (m.hold t (slotKey c.nsid (c.slba + lo)) b.1 b.2)).slot _ = _
    cases i with
    | zero =>
      rw [slot_holdAll_ne fun x hx => ?_, Nat.add_zero, slot_hold, if_pos rfl]
      · rfl
      · obtain ⟨y, hy, rfl⟩ := List.mem_map.1 hx
        have hlo := List.le_snd_of_mem_zipIdx hy
        intro h
        have := slotKey_inj.1 h
        omega
    | succ i =>
      rw [show lo + (i + 1) = lo + 1 + i by omega]
      exact ih (lo + 1) _ (Nat.lt_of_succ_lt_succ hi)

theorem hostBlocks_length (c : Cmd) (n : Ns) : (hostBlocks c n).1.length = c.blocks := by simp [hostBlocks]

/-- The state in which an accepted write completes. -/
def writeAccepted (c : Cmd) (bs : List (List Byte × List Byte)) (s : State) : State :=
  countHost (4096 * bs.length) (wantPages c.nsid c.slba c.blocks (acceptHeld (heldBlocks c bs 0) (wrote (unclean s))))

theorem acceptWrite_eq (c : Cmd) (bs : List (List Byte × List Byte)) (s : State) : acceptWrite c bs s = succeed c.h (writeAccepted c bs s) := rfl

theorem writeAccepted_shape (c : Cmd) (bs : List (List Byte × List Byte)) (s : State) : writeAccepted c bs s =
    { s with med := (writeAccepted c bs s).med, health := { s.health with hostBytes := s.health.hostBytes + 4096 * bs.length } } := by
  have h := unclean_shape s
  generalize (unclean s).med = m at h
  unfold writeAccepted
  rw [h]
  rfl

theorem wrote_unclean_stores (s : State) : (wrote (unclean s)).med.slot = s.med.slot ∧ (wrote (unclean s)).med.content = s.med.content :=
  ⟨funext fun k => slot_of_slotStores (wrote_unclean_slotStores s) k, (congrArg (fun x => x.2.1) (wrote_unclean_slotStores s) :)⟩

/-- The stores after an accepted write are those of its Held data in DRAM. -/
theorem writeAccepted_stores (c : Cmd) (bs : List (List Byte × List Byte)) (s : State) :
    (writeAccepted c bs s).med.held = (holdAll (wrote (unclean s)).now (heldBlocks c bs 0) (wrote (unclean s)).med).held ∧
    (writeAccepted c bs s).med.content = (holdAll (wrote (unclean s)).now (heldBlocks c bs 0) (wrote (unclean s)).med).content := by
  generalize hu : wrote (unclean s) = u
  have h : writeAccepted c bs s = countHost (4096 * bs.length) (wantPages c.nsid c.slba c.blocks (acceptHeld (heldBlocks c bs 0) u)) := by
    rw [← hu]
    rfl
  rw [h]
  exact ⟨rfl, rfl⟩

theorem slot_congr {m n : Media} (hheld : m.held = n.held) (hcontent : m.content = n.content) (k : Nat) : m.slot k = n.slot k := by
  unfold Media.slot
  rw [hheld, hcontent]

theorem writeAccepted_media (c : Cmd) (n : Ns) (s : State) : (writeAccepted c (hostBlocks c n).1 s).med.content = s.med.content ∧
    (∀ i < c.blocks, (writeAccepted c (hostBlocks c n).1 s).med.slot (slotKey c.nsid (c.slba + i)) = some (hostBlock c n i)) ∧
    (∀ k, (∀ i < c.blocks, k ≠ slotKey c.nsid (c.slba + i)) → (writeAccepted c (hostBlocks c n).1 s).med.slot k = s.med.slot k) := by
  obtain ⟨hslot, hcontent⟩ := wrote_unclean_stores s
  obtain ⟨hheld', hcontent'⟩ := writeAccepted_stores c (hostBlocks c n).1 s
  have hall := slot_congr hheld' hcontent'
  refine ⟨hcontent'.trans ((holdAll_content ..).trans hcontent), fun i hi => ?_, fun k hk => ?_⟩
  · have hlen : i < (hostBlocks c n).1.length := by rwa [hostBlocks_length]
    have hblock := slot_holdAll_block c (wrote (unclean s)).now 0 (hostBlocks c n).1 (wrote (unclean s)).med hlen
    rw [Nat.zero_add] at hblock
    rw [hall, hblock]
    simp [hostBlocks]
  · rw [hall, slot_holdAll_ne fun x hx => ?_, hslot]
    obtain ⟨y, hy, rfl⟩ := List.mem_map.1 hx
    refine hk y.2 ?_
    have := List.snd_lt_of_mem_zipIdx hy
    rwa [hostBlocks_length] at this

/-! A write that is programmed. -/

theorem writeSlots_wseq (c : Cmd) (bs : List (List Byte × List Byte)) (s : State) :
    (writeSlots c bs s).1.map (fun y => y.2.wseq) = (List.range bs.length).map fun i => s.med.wseq + i := by
  rw [writeSlots, List.map_map]
  exact (List.map_map (l := bs.zipIdx) (f := Prod.snd) (g := fun i => s.med.wseq + i)).symm.trans
    (by rw [List.zipIdx_map_snd, List.range_eq_range'])

theorem programWrite_facts (c : Cmd) (n : Ns) (bs : List (List Byte × List Byte)) (s : State) :
    (programWrite c n bs s).med.content = s.med.content ∧ (programWrite c n bs s).med.held = s.med.held ∧
    (programWrite c n bs s).med.wseq = s.med.wseq + bs.length ∧
    (programWrite c n bs s).nv.inflight = s.nv.inflight.map (fun x => if x.h = c.h then { x with
      begun := true, phase := .programs ((List.range bs.length).map fun i => s.med.wseq + i), wt := !n.scan && !bit (c.dword 12) 30 && s.native } else x) := by
  have hshape := unclean_shape s
  have hwseq : (unclean s).med.wseq = s.med.wseq := by unfold unclean; split <;> rfl
  have hstores := wrote_unclean_slotStores s
  have hids := writeSlots_wseq c bs (wrote (unclean s))
  generalize hu : wrote (unclean s) = u at hids hstores
  have hnv : u.nv = s.nv := by rw [← hu, hshape]; rfl
  have hseq : u.med.wseq = s.med.wseq := by rw [← hu]; exact hwseq
  obtain ⟨hcontent, hheld, hw⟩ := of_undriven (undriven_submit (writeSlots c bs u).2.med ((writeSlots c bs u).2.mayProgram)
    (chunksOf (if n.scan then none else some c.h) (writeSlots c bs u).1))
  simp only [slotStores, Prod.mk.injEq] at hstores
  obtain ⟨hheld', hcontent', -⟩ := hstores
  unfold programWrite
  rw [hu]
  refine ⟨hcontent.trans hcontent', hheld.trans hheld', hw.trans (congrArg (· + bs.length) hseq), ?_⟩
  rw [← hseq, ← hids, ← hnv]
  rfl

/-! The rows. -/

theorem writeCmd_eol {c : Cmd} {s : State} (h : s.med.eol = true) : writeCmd c s = fail c.h 7 0x89 s := if_pos h

theorem writeCmd_unchecked {c : Cmd} {s : State} {a b : Nat} (h : s.med.eol = false) (hpi : (hostBlocks c (s.nsOf c)).2 = some (a, b)) :
    writeCmd c s = fail c.h a b s := by
  unfold writeCmd
  dsimp only
  rw [h, if_neg (by simp), hpi]

theorem writeCmd_checked {c : Cmd} {s : State} (h : s.med.eol = false) (hpi : (hostBlocks c (s.nsOf c)).2 = none)
    (hcap : s.overCap c (s.nsOf c) = false) : writeCmd c s =
      if s.programFirst c (s.nsOf c) then (if s.writesOpen then programWrite c (s.nsOf c) (hostBlocks c (s.nsOf c)).1 s else s)
      else if s.waitq.isEmpty && s.room (s.newSlots c) then acceptWrite c (hostBlocks c (s.nsOf c)).1 s
      else { s.modCmd c.h fun x => { x with phase := .room } with waitq := insertWrite c.h s.waitq } := by
  unfold writeCmd
  dsimp only
  rw [h, if_neg (by simp), hpi, hcap]
  exact if_neg (by simp)

theorem media_trim_unrec (m : Media) (ks : Nat → Bool) (held : Bool) (t : Nat) : (m.trim ks held t).unrec = m.unrec.filter fun k => !ks k := by
  have hremap : (((m.content.map fun x => x.1).filter ks).foldl Media.remap m).unrec = m.unrec :=
    foldl_keep Media.unrec _ (fun m k => (remap_stores m k).2.2) _ _
  unfold Media.trim
  dsimp only
  generalize ((m.content.map fun x => x.1).filter ks).foldl Media.remap m = n at hremap ⊢
  cases held <;> exact congrArg (List.filter fun k => !ks k) hremap

theorem checkpoint_unrec (m : Media) (scan : Nat → Bool) (t : Nat) : (m.checkpoint scan t).unrec = m.unrec := rfl

theorem cleanPages_unrec (m : Media) (p : Nat → Bool) : (m.cleanPages p).unrec = m.unrec := rfl

theorem programJournal_unrec (m : Media) : m.programJournal.unrec = m.unrec := rfl

theorem programMap_unrec (s : State) : (programMap s).med.unrec = s.med.unrec := by
  unfold programMap
  split
  · rfl
  · exact (checkpoint_unrec ..).trans ((cleanPages_unrec ..).trans (programJournal_unrec _))

theorem trim_unrec (nsid : Nat) (ks : Nat → Bool) (s : State) : (trim nsid ks s).med.unrec = s.med.unrec.filter fun k => !ks k :=
  (programMap_unrec _).trans (media_trim_unrec ..)

theorem data_of_slot_none {m : Media} {k : Nat} (h : m.slot k = none) : m.data k = List.replicate 4096 0 := by
  rw [Media.data, h]
  rfl

theorem exec_writeZeroes {s : State} {h : Nat} {c : Cmd} (hio : s.io h 0x08 = some c) (heol : s.med.eol = false) (hwin : s.windowClosed = false) :
    exec (.writeZeroes h) s = .next (settle (succeed h (trim c.nsid (inRange c.nsid c.slba c.blocks) (wrote (unclean s))))) := by
  show execWriteZeroes h s = _
  unfold execWriteZeroes
  rw [hio]
  dsimp only
  rw [heol, if_neg (by simp), hwin, if_neg (by simp)]
  rfl

theorem exec_datasetManagement_unasked {s : State} {h : Nat} {c : Cmd} (hio : s.io h 0x09 = some c)
    (hno : bit (c.dword 11) 2 = false ∨ (s.med.eol = false ∧ c.ranges = [])) :
    exec (.datasetManagement h) s = .next (settle (succeed h s)) := by
  show execDatasetManagement h s = _
  unfold execDatasetManagement
  rw [hio]
  dsimp only
  cases hb : bit (c.dword 11) 2 with
  | false => rfl
  | true =>
    obtain ⟨heol, hr⟩ := hno.resolve_left (by simp [hb])
    rw [heol, hr]
    rfl

theorem exec_datasetManagement_eol {s : State} {h : Nat} {c : Cmd} (hio : s.io h 0x09 = some c) (hb : bit (c.dword 11) 2 = true)
    (heol : s.med.eol = true) : exec (.datasetManagement h) s = .next (settle (fail h 7 0x89 s)) := by
  show execDatasetManagement h s = _
  unfold execDatasetManagement
  rw [hio]
  dsimp only
  rw [hb, if_neg (by simp), if_pos heol]
  rfl

theorem deallocate_shape (nsid : Nat) (rs : List (Nat × Nat)) (s : State) : deallocate nsid rs s = { s with med := (deallocate nsid rs s).med } := by
  induction rs generalizing s with
  | nil => rfl
  | cons r rs ih =>
    show deallocate nsid rs (trim nsid (inRange nsid r.1 r.2) s) = { s with med := (deallocate nsid rs (trim nsid (inRange nsid r.1 r.2) s)).med }
    have h := trim_shape nsid (inRange nsid r.1 r.2) s
    refine (ih _).trans ?_
    generalize (deallocate nsid rs _).med = m
    rw [h]

/-- Settles O50: a write is refused, waits, goes into DRAM or is programmed; a trim leaves nothing of its range. -/
theorem writeRows : Obligations.WriteRows := by
  unfold Obligations.WriteRows
  refine ⟨fun s h c hio => ⟨fun heol => ?_, fun heol hpi hcap => ⟨fun hp hq hroom => ?_, fun hp hno => ?_, fun hp hopen => ?_, fun hp hopen => ?_⟩,
    fun heol a b hpi => ?_⟩, fun s h c hio heol hwin => ?_, fun s h c hio => ⟨exec_datasetManagement_unasked hio,
    exec_datasetManagement_eol hio, fun hr heol => ?_⟩⟩
  · rw [exec_write hio, writeCmd_eol heol, (inflight_of_io hio).2]
  · obtain ⟨hcontent, hmine, hothers⟩ := writeAccepted_media c (s.nsOf c) s
    have hshape := writeAccepted_shape c (hostBlocks c (s.nsOf c)).1 s
    refine ⟨writeAccepted c (hostBlocks c (s.nsOf c)).1 s, ?_, ?_, ?_, hcontent, hmine, hothers⟩
    · rw [exec_write hio, writeCmd_checked heol hpi hcap, hp, if_neg (by simp), hq, hroom]
      rfl
    · rw [hshape]
    · rw [hshape, hostBlocks_length]
  · have hwait : ¬(s.waitq.isEmpty && s.room (s.newSlots c)) = true := by
      rcases hno with hq | hroom
      · simp [hq]
      · simp [hroom]
    rw [exec_write hio, writeCmd_checked heol hpi hcap, hp, if_neg (by simp), if_neg hwait]
  · rw [exec_write hio, writeCmd_checked heol hpi hcap, hp, if_pos rfl, hopen, if_neg (by simp)]
  · obtain ⟨hcontent, hheld, hwseq, hinflight⟩ := programWrite_facts c (s.nsOf c) (hostBlocks c (s.nsOf c)).1 s
    rw [hostBlocks_length] at hwseq hinflight
    refine ⟨_, ?_, hcontent, hheld, hwseq, hinflight⟩
    rw [exec_write hio, writeCmd_checked heol hpi hcap, hp, if_pos rfl, hopen, if_pos rfl]
  · rw [exec_write hio, writeCmd_unchecked heol hpi]
  · obtain ⟨hslot, -⟩ := wrote_unclean_stores s
    refine ⟨_, exec_writeZeroes hio heol hwin, ?_, fun k hk => ⟨data_of_slot_none ?_, ?_⟩, fun k hk => ?_⟩
    · refine (trim_shape ..).trans ?_
      have h := unclean_shape s
      generalize (unclean s).med = m at h
      rw [h]
      rfl
    · rw [slot_trim, if_pos hk]
    · rw [trim_unrec]
      simp [hk]
    · rw [slot_trim, if_neg (by simp [hk]), hslot]
  · obtain ⟨hslot, -⟩ := wrote_unclean_stores s
    refine ⟨_, exec_datasetManagement hio heol hr, ?_, fun k hk => data_of_slot_none ?_, fun k hk => ?_⟩
    · refine (deallocate_shape ..).trans ?_
      have h := unclean_shape s
      generalize (unclean s).med = m at h
      rw [h]
      rfl
    · rw [slot_deallocate, if_pos (List.any_eq_true.2 hk)]
    · have hno : ¬(c.ranges.any fun r => inRange c.nsid r.1 r.2 k) = true := by
        rw [List.any_eq_true]
        rintro ⟨r, hr, hin⟩
        exact absurd hin (by simp [hk r hr])
      rw [slot_deallocate, if_neg hno, hslot]

end Sys2Proof.Proofs
end

section
/-! Held data, Flush, the journal and the checkpoint (R68, R105, R119, R159, R168, R169, R392): settles O51. -/

namespace Sys2Proof.Proofs

open Sys2Proof Sys2Proof.Machine Sys2Proof.Laws

/-! What starts on a die was in the queue. -/

theorem mem_packPages (sb : Nat) (cs : List Chunk) (ps : List (List Chunk)) {c : Chunk} (h : c ∈ cs ∨ c ∈ ps.flatten) :
    c ∈ (packPages sb cs ps).2 ∨ c ∈ (packPages sb cs ps).1.flatten := by
  induction cs generalizing ps with
  | nil =>
    have hps := h.resolve_left List.not_mem_nil
    exact .inr (by simpa [packPages] using hps)
  | cons d cs ih =>
    have hstop : c ∈ d :: cs ∨ c ∈ ps.reverse.flatten := h.imp_right fun hps => by simpa using hps
    unfold packPages
    split
    · exact hstop
    split
    · next p rest =>
      split
      · refine ih _ ?_
        simp only [List.mem_cons, List.flatten_cons, List.mem_append] at h ⊢
        tauto
      split
      · refine ih _ ?_
        simp only [List.mem_cons, List.flatten_cons, List.mem_append] at h ⊢
        tauto
      · exact hstop
    · refine ih _ ?_
      simp only [List.mem_cons, List.flatten_cons, List.mem_append, List.flatten_nil] at h ⊢
      tauto

theorem chunks_pumpOne {m n : Media} {may : Chunk → Bool} (h : m.pumpOne may = some n) :
    (∀ c ∈ m.chunks, c ∈ n.chunks) ∧ ∀ p ∈ m.progs, p ∈ n.progs := by
  unfold Media.pumpOne at h
  dsimp only at h
  split at h
  · cases h
  next c0 q hq =>
  split at h
  · cases h
  next k n' hsuper =>
  have hstocked : stocked n' = stocked m := by
    rw [Option.orElse_eq_or, Option.or_eq_some_iff] at hsuper
    rcases hsuper with hb | ⟨-, hb⟩
    · exact stocked_bufferSuper hb
    · split at hb
      · exact stocked_bufferIn hb
      · cases hb
  have hprogs : n'.progs = m.progs := (congrArg Media.progs hstocked :)
  split at h
  · cases h
  split at h
  · cases h
  next d hd =>
  cases h
  refine ⟨fun c hc => ?_, fun p hp => ?_⟩
  · simp only [Media.chunks, List.mem_append, List.mem_flatMap, List.mem_singleton] at hc ⊢
    rcases hc with hc | ⟨p, hp, hc⟩
    · by_cases hmay : may c = true
      · have hin : c ∈ (m.queue.partition may).1 := by
          rw [List.partition_eq_filter_filter]
          exact List.mem_filter.2 ⟨hc, hmay⟩
        rcases mem_packPages k (m.queue.partition may).1 [] (.inl hin) with hr | hp
        · exact .inl (.inl hr)
        · exact .inr ⟨_, .inr rfl, hp⟩
      · refine .inl (.inr ?_)
        rw [List.partition_eq_filter_filter]
        exact List.mem_filter.2 ⟨hc, by simpa using hmay⟩
    · exact .inr ⟨p, .inl (by rw [hprogs]; exact hp), hc⟩
  · exact List.mem_append_left _ (by rw [hprogs]; exact hp)

theorem chunks_pump (may : Chunk → Bool) (fuel : Nat) (m : Media) :
    (∀ c ∈ m.chunks, c ∈ (Media.pump may fuel m).chunks) ∧ ∀ p ∈ m.progs, p ∈ (Media.pump may fuel m).progs := by
  induction fuel generalizing m with
  | zero => exact ⟨fun _ hc => hc, fun _ hp => hp⟩
  | succ fuel ih =>
    rw [Media.pump]
    cases h : m.pumpOne may with
    | none => exact ⟨fun _ hc => hc, fun _ hp => hp⟩
    | some n =>
      obtain ⟨hchunks, hprogs⟩ := chunks_pumpOne h
      obtain ⟨hchunks', hprogs'⟩ := ih n
      exact ⟨fun c hc => hchunks' c (hchunks c hc), fun p hp => hprogs' p (hprogs p hp)⟩

theorem chunks_submit (m : Media) (may : Chunk → Bool) (cs : List Chunk) :
    (∀ c, c ∈ m.chunks ∨ c ∈ cs → c ∈ (m.submit may cs).chunks) ∧ ∀ p ∈ m.progs, p ∈ (m.submit may cs).progs := by
  obtain ⟨hchunks, hprogs⟩ := chunks_pump may (m.queue.length + cs.length) { m with queue := m.queue ++ cs }
  refine ⟨fun c hc => hchunks c ?_, hprogs⟩
  simp only [Media.chunks, List.mem_append] at hc ⊢
  tauto

/-- The chunks of a program of many slots hold them all. -/
theorem mem_chunksOf {grp : Option Nat} {xs : List (Nat × Slot4k)} {x : Nat × Slot4k} (h : x ∈ xs) : ∃ c ∈ chunksOf grp xs, x ∈ c.slots := by
  obtain ⟨i, hi, rfl⟩ := List.mem_iff_getElem.1 h
  refine ⟨_, List.mem_map.2 ⟨i / 4, List.mem_range.2 (by unfold ceilDiv; omega), rfl⟩, ?_⟩
  refine List.mem_iff_getElem.2 ⟨i % 4, by simp only [List.length_take, List.length_drop]; omega, ?_⟩
  simp only [List.getElem_take, List.getElem_drop]
  congr 1
  omega

/-- The slots on their way that a list of Held keys gives. -/
theorem inFlight_programHeld {s : State} (h : HeldSound s) {ks : List Nat} {k : Nat} (hk : k ∈ ks) {x : HeldSlot}
    (hx : look s.med.held k = some x) : (programHeld ks s).med.inFlight k x.wseq = true := by
  unfold programHeld
  rw [dropSpoiled_of_sound h]
  have hmem : (k, x.slot) ∈ ks.filterMap fun k => (look s.med.held k).map fun h => (k, h.slot) :=
    List.mem_filterMap.2 ⟨k, hk, by rw [hx]; rfl⟩
  obtain ⟨c, hc, hin⟩ := mem_chunksOf (grp := none) hmem
  exact List.any_eq_true.2 ⟨c, (chunks_submit s.med s.mayProgram _).1 c (.inr hc),
    List.any_eq_true.2 ⟨_, hin, by simp [HeldSlot.slot]⟩⟩

theorem progs_programHeld {s : State} (h : HeldSound s) (ks : List Nat) {p : Prog} (hp : p ∈ s.med.progs) : p ∈ (programHeld ks s).med.progs := by
  unfold programHeld
  rw [dropSpoiled_of_sound h]
  exact (chunks_submit s.med s.mayProgram _).2 p hp

/-! Erases that start leave what is stored (R178). -/

/-- The media without its blocks, its superblocks and what waits for its erase. -/
def unerased (m : Media) : Media := { m with blocks := [], supers := [], toErase := [], intents := [] }

theorem unerased_dropParity (m : Media) (k : Nat) : unerased (m.dropParity k) = unerased m := by
  unfold Media.dropParity
  split <;> rfl

theorem unerased_reap (m : Media) : unerased m.reap = unerased m := by
  unfold Media.reap
  refine foldl_keep unerased _ (fun n x => ?_) _ m
  dsimp only
  split
  · rfl
  split
  · rfl
  split
  · exact (show unerased _ = unerased (n.dropParity x.1) from rfl).trans (unerased_dropParity n x.1)
  · rfl

theorem unerased_startErases (m : Media) : unerased m.startErases = unerased m := by
  unfold Media.startErases
  refine (foldl_keep unerased _ (fun n p => ?_) _ _).trans (unerased_reap m)
  split <;> rfl

/-! The rows. -/

/-- The bookkeeping that a start of programs changes. -/
theorem media_of_undriven {m n : Media} (h : undriven m = undriven n) : m = { n with
    queue := m.queue, progs := m.progs, nextProg := m.nextProg, supers := m.supers, blocks := m.blocks, nextSuper := m.nextSuper, nextPar := m.nextPar } :=
  (congrArg (fun x : Media => { x with
    queue := m.queue, progs := m.progs, nextProg := m.nextProg, supers := m.supers, blocks := m.blocks, nextSuper := m.nextSuper, nextPar := m.nextPar }) h :)

theorem admitWrite_of {c : Cmd} {s : State} (heol : s.med.eol = false) (hcap : s.overCap c (s.nsOf c) = false)
    (hp : s.programFirst c (s.nsOf c) = false) : admitWrite c s = if s.room (s.newSlots c) then
      acceptWrite c (hostBlocks c (s.nsOf c)).1 { s with waitq := s.waitq.drop 1 } else s := by
  unfold admitWrite
  dsimp only
  rw [heol, if_neg (by simp), hcap, if_neg (by simp), hp, if_neg (by simp)]

theorem exec_heldAdmit {s : State} {h : Nat} {c : Cmd} {rest : List Waiting} (hop : s.operating = true) (hw : s.pwr.watch ≠ .asleep)
    (hq : s.waitq = .write h :: rest) (hc : s.cmd h = some c) (hshut : s.therm.shutting = false) :
    exec .heldAdmit s = .next (settle (admitWrite c s)) := by
  show execHeldAdmit s = _
  unfold execHeldAdmit
  rw [hop, show (s.pwr.watch == .asleep) = false from beq_eq_false_iff_ne.2 hw, hq]
  dsimp only
  rw [hc]
  dsimp only
  rw [hshut]
  rfl

theorem exec_flush {s : State} {h : Nat} {c : Cmd} (hio : s.io h 0x00 = some c) : exec (.flush h) s = .next (settle (
    if (s.covered c).isEmpty && !s.pagesDue c then succeed h s
    else programHeld (s.med.unprogrammed.filter fun k => (s.covered c).contains k)
      (s.modCmd h fun x => { x with begun := true, phase := .flushing c.below }))) := by
  show execFlush h s = _
  unfold execFlush
  rw [hio]
  rfl

/-- The media once a Flush has programmed its map pages (R105). -/
def flushedPages (c : Cmd) (s : State) : Media :=
  ((s.med.programPages c.flushes).cleanPages fun p => c.flushes p && !s.scanKey p).startErases

theorem exec_flushCompletion {s : State} {h b : Nat} {c : Cmd} (hc : s.cmd h = some c) (hph : c.phase = .flushing b) (hop : s.operating = true) :
    exec (.flushCompletion h) s = .next (settle (
      if (s.covered c).isEmpty && s.med.jrnl.all (fun r => !c.describes r || s.med.ready r) then succeed h { s with med := flushedPages c s } else s)) := by
  show execFlushCompletion h s = _
  unfold execFlushCompletion
  rw [hc]
  dsimp only
  rw [hph, hop]
  rfl

/-- A record that describes covered data, all of it flushed and ready, goes with its pages. -/
theorem pagesDue_flushedPages {s : State} {c : Cmd} (hready : ∀ r ∈ s.med.jrnl, c.describes r = true → s.med.ready r = true)
    (hall : ∀ r ∈ s.med.jrnl, r.keys.any c.flushes = true → r.keys.all c.flushes = true) :
    State.pagesDue { s with med := flushedPages c s } c = false := by
  have hkeep := unerased_startErases ((s.med.programPages c.flushes).cleanPages fun p => c.flushes p && !s.scanKey p)
  have hjrnl : (flushedPages c s).jrnl = s.med.jrnl.filter fun r => !(s.med.ready r && r.keys.all c.flushes) :=
    (congrArg Media.jrnl hkeep :)
  have hcache : (flushedPages c s).cache = s.med.cache.map fun x => if c.flushes x.1 && !s.scanKey x.1 then (x.1, false) else x :=
    (congrArg Media.cache hkeep :)
  have hstale : (flushedPages c s).stale = s.med.stale.filter fun x => !(c.flushes x && !s.scanKey x) :=
    (congrArg Media.stale hkeep :)
  have h1 : (flushedPages c s).jrnl.any c.describes = false := by
    rw [hjrnl, List.any_eq_false]
    intro r hr hdesc
    obtain ⟨hmem, hleft⟩ := List.mem_filter.1 hr
    have hany : r.keys.any c.flushes = true := by
      simp only [Cmd.describes, Bool.and_eq_true] at hdesc
      exact hdesc.2
    rw [hready r hmem hdesc, hall r hmem hany] at hleft
    exact absurd hleft (by simp)
  have h2 : ((flushedPages c s).cache.any fun x => x.2 && c.flushes x.1 && !s.scanKey x.1) = false := by
    rw [hcache, List.any_eq_false]
    intro x hx
    obtain ⟨y, -, rfl⟩ := List.mem_map.1 hx
    split
    · simp
    · next hno =>
      rw [Bool.and_assoc]
      simpa using fun _ => by simpa using hno
  have h3 : ((flushedPages c s).stale.any fun p => c.flushes p && !s.scanKey p) = false := by
    rw [hstale, List.any_eq_false]
    intro x hx
    simpa [Bool.and_eq_true, imp_iff_not_or] using (List.mem_filter.1 hx).2
  show ((flushedPages c s).jrnl.any c.describes || ((flushedPages c s).cache.any fun x => x.2 && c.flushes x.1 && !s.scanKey x.1) ||
    ((flushedPages c s).stale.any fun p => c.flushes p && !s.scanKey p)) = false
  rw [h1, h2, h3]
  rfl

theorem drop_takeWhile_length {α : Type} (p : α → Bool) (l : List α) : l.drop (l.takeWhile p).length = l.dropWhile p :=
  (congrArg (List.drop _) List.takeWhile_append_dropWhile.symm).trans List.drop_left

/-- The media once the journal is programmed, and once a checkpoint is (R168, R169). -/
theorem journalProgrammed_facts (m : Media) : m.programJournal.startErases.held = m.held ∧ m.programJournal.startErases.content = m.content ∧
    m.programJournal.startErases.jrnl = m.jrnl.dropWhile m.ready := by
  have h := unerased_startErases m.programJournal
  refine ⟨(congrArg Media.held h :), (congrArg Media.content h :), ?_⟩
  rw [← drop_takeWhile_length]
  exact (congrArg Media.jrnl h :)

theorem checkpointed_facts (m : Media) (scan : Nat → Bool) (t : Nat) :
    (m.checkpoint scan t).startErases.held = m.held ∧ (m.checkpoint scan t).startErases.content = m.content ∧
    (m.checkpoint scan t).startErases.ckptSeq = m.wseq ∧ (m.checkpoint scan t).startErases.ckptNs = t ∧
    (m.checkpoint scan t).startErases.scanBytes = 0 ∧ (m.checkpoint scan t).startErases.wseq = m.wseq ∧
    (∀ x ∈ m.supers, x.2.closed = false → ∀ p ∈ x.2.members, blkKey p ∈ (m.checkpoint scan t).startErases.ckptOpen) ∧
    (∀ x ∈ (m.checkpoint scan t).startErases.cache, x.2 = true → scan x.1 = false) := by
  have h := unerased_startErases (m.checkpoint scan t)
  have hopen : (m.checkpoint scan t).startErases.ckptOpen = (m.supers.filter fun x => !x.2.closed).flatMap fun x => x.2.members.map blkKey :=
    (congrArg Media.ckptOpen h :)
  have hcache : (m.checkpoint scan t).startErases.cache = m.cache.map fun x => if scan x.1 then (x.1, false) else x :=
    (congrArg Media.cache h :)
  refine ⟨(congrArg Media.held h :), (congrArg Media.content h :), (congrArg Media.ckptSeq h :), (congrArg Media.ckptNs h :),
    (congrArg Media.scanBytes h :), (congrArg Media.wseq h :), fun x hx hclosed p hp => ?_, fun x hx hdirty => ?_⟩
  · rw [hopen]
    exact List.mem_flatMap.2 ⟨x, List.mem_filter.2 ⟨hx, by simp [hclosed]⟩, List.mem_map.2 ⟨p, hp, rfl⟩⟩
  · rw [hcache] at hx
    obtain ⟨y, -, rfl⟩ := List.mem_map.1 hx
    split at hdirty
    · cases hdirty
    · next hno => rw [if_neg hno]; simpa using hno

theorem exec_mapJournalProgram {s : State} (hop : s.operating = true) : exec .mapJournalProgram s = .next (settle (
    if s.med.jrnlDue s.now then { s with med := s.med.programJournal.startErases } else s)) := by
  show execMapJournalProgram s = _
  unfold execMapJournalProgram
  rw [hop]
  rfl

theorem exec_scanCheckpoint {s : State} (hop : s.operating = true) : exec .scanCheckpoint s = .next (settle (
    if s.med.ckptDue s.now then { s with med := (s.med.checkpoint s.scanKey s.now).startErases } else s)) := by
  show execScanCheckpoint s = _
  unfold execScanCheckpoint
  rw [hop]
  rfl

theorem exec_writeHoldTimeout_open {s : State} (h : Nat) (hw : s.windowClosed = false) : exec (.writeHoldTimeout h) s = .next (settle s) := by
  show execWriteHoldTimeout h s = _
  unfold execWriteHoldTimeout
  cases s.cmd h with
  | none => rfl
  | some c =>
    dsimp only
    rw [hw]
    rfl

theorem exec_writeHoldTimeout {s : State} {h : Nat} {c : Cmd} (hc : s.cmd h = some c) (hw : s.windowClosed = true) (hop : s.operating = true)
    (hq : c.qid ≠ 0) (hshut : s.therm.shutting = false) (hopc : c.opc = 0x01 ∨ c.opc = 0x08) (hst : c.started = false) :
    exec (.writeHoldTimeout h) s = .next (settle { fail h 7 0x83 s with waitq := s.waitq.filter fun w => w != .write h }) := by
  show execWriteHoldTimeout h s = _
  unfold execWriteHoldTimeout
  rw [hc]
  dsimp only
  rw [hw, hop, hshut, show (c.qid == 0) = false from beq_eq_false_iff_ne.2 hq]
  rw [if_neg (by simp), if_pos ⟨hopc, by simp [hst]⟩]
  rfl

/-- The marks of folding and of garbage collection are the groups' own (R122, R131). -/
theorem idleMarks_shape (m : Media) : ∃ g, (((m.foldMark 0).foldMark 1).gcMarks 0).gcMarks 1 = { m with groups := g } := ⟨_, rfl⟩

/-- Settles O51: Held data that waits, starts its program or is flushed stays; the journal and the checkpoint change no data. -/
theorem heldRows : Obligations.HeldRows := by
  unfold Obligations.HeldRows
  refine ⟨fun s h c rest hop hw hq hc hshut heol hcap hp => ⟨fun hroom => ?_, fun hroom => ?_⟩, fun s hop hwin hdue hsound => ?_,
    fun s hno => ?_, fun s h c hio => ⟨fun hcov hdue => ?_, fun hany hsound => ?_⟩,
    fun s h b c hc hph hop => ⟨fun hcov hready => ?_, fun hno => ?_⟩,
    fun s hop => ⟨fun hdue => ?_, fun hdue => ?_, fun hdue => ?_, fun hdue => ?_⟩, fun s hon => ?_,
    fun s h c hc hw hop hq hshut hopc hst => exec_writeHoldTimeout hc hw hop hq hshut hopc hst,
    fun s h hw => exec_writeHoldTimeout_open h hw⟩
  · rw [exec_heldAdmit hop hw hq hc hshut, admitWrite_of heol hcap hp, hroom, if_neg (by simp)]
  · obtain ⟨-, hmine, -⟩ := writeAccepted_media c (s.nsOf c) { s with waitq := rest }
    have hshape := writeAccepted_shape c (hostBlocks c (s.nsOf c)).1 { s with waitq := rest }
    refine ⟨writeAccepted c (hostBlocks c (s.nsOf c)).1 { s with waitq := rest }, ?_, ?_, hmine⟩
    · rw [exec_heldAdmit hop hw hq hc hshut, admitWrite_of heol hcap hp, hroom, if_pos rfl, hq]
      rfl
    · rw [hshape]
  · obtain ⟨hshape, hmed⟩ := programHeld_of_sound hsound s.med.unprogrammed
    refine ⟨programHeld s.med.unprogrammed s, ?_, hshape, media_of_undriven hmed, fun p => progs_programHeld hsound _,
      fun k hk x => inFlight_programHeld hsound hk⟩
    show execHeldProgramTrigger s = _
    unfold execHeldProgramTrigger
    rw [hop, hwin, hdue]
    rfl
  · show execHeldProgramTrigger s = _
    unfold execHeldProgramTrigger
    refine congrArg done (if_neg ?_)
    rcases hno with h | h <;> simp [h]
  · rw [exec_flush hio, hcov, hdue]
    rfl
  · have hguard : ¬((s.covered c).isEmpty && !s.pagesDue c) = true := by
      rcases hany with h | h <;> simp [h]
    obtain ⟨hshape, hmed⟩ := programHeld_of_sound (s := s.modCmd h fun x => { x with begun := true, phase := .flushing c.below }) hsound
      (s.med.unprogrammed.filter fun k => (s.covered c).contains k)
    obtain ⟨hcontent, hheld, -⟩ := of_undriven hmed
    refine ⟨_, ?_, hheld, hcontent, (congrArg (fun u : State => u.nv.inflight) hshape).trans rfl⟩
    rw [exec_flush hio, if_neg hguard]
  · have hguard : ((s.covered c).isEmpty && s.med.jrnl.all (fun r => !c.describes r || s.med.ready r)) = true := by
      rw [hcov, List.isEmpty_nil, Bool.true_and, List.all_eq_true]
      intro r hr
      cases hd : c.describes r with
      | false => rfl
      | true => rw [hready r hr hd]; rfl
    have hkeep := unerased_startErases ((s.med.programPages c.flushes).cleanPages fun p => c.flushes p && !s.scanKey p)
    refine ⟨{ s with med := flushedPages c s }, ?_, rfl, (congrArg Media.held hkeep :), (congrArg Media.content hkeep :),
      fun hall => pagesDue_flushedPages hready hall⟩
    rw [exec_flushCompletion hc hph hop, if_pos hguard]
  · have hguard : ¬((s.covered c).isEmpty && s.med.jrnl.all (fun r => !c.describes r || s.med.ready r)) = true := by
      rw [Bool.and_eq_true, List.all_eq_true]
      rintro ⟨hcov, hall⟩
      rcases hno with h | ⟨r, hr, hd, hready⟩
      · exact h (List.isEmpty_iff.1 hcov)
      · exact absurd (hall r hr) (by simp [hd, hready])
    rw [exec_flushCompletion hc hph hop, if_neg hguard]
  · obtain ⟨hheld, hcontent, hjrnl⟩ := journalProgrammed_facts s.med
    refine ⟨{ s with med := s.med.programJournal.startErases }, ?_, rfl, hheld, hcontent, hjrnl⟩
    rw [exec_mapJournalProgram hop, if_pos hdue]
  · rw [exec_mapJournalProgram hop, if_neg (by simp [hdue])]
  · refine ⟨{ s with med := (s.med.checkpoint s.scanKey s.now).startErases }, ?_, rfl, checkpointed_facts s.med s.scanKey s.now⟩
    rw [exec_scanCheckpoint hop, if_pos hdue]
  · rw [exec_scanCheckpoint hop, if_neg (by simp [hdue])]
  · obtain ⟨g, hg⟩ := idleMarks_shape { s.med with idle := true }
    refine ⟨{ s with med := { s.med with idle := true, groups := g } }, ?_, rfl⟩
    show execWriteIdleTimeout s = _
    unfold execWriteIdleTimeout
    rw [hon, if_pos rfl]
    dsimp only
    rw [hg]
    rfl

end Sys2Proof.Proofs
end

section
/-! Programs, verify reads, erases and failing dies (R117, R120, R124, R143 to R149, R167, R178). -/

namespace Sys2Proof.Proofs

open Sys2Proof Sys2Proof.Machine Sys2Proof.Laws

/-! What closing, opening and noting leave of the slots. -/

theorem settleRows_slotStores (m : Media) (k : Nat) : slotStores (m.settleRows k) = slotStores m := by
  unfold Media.settleRows
  dsimp only
  (repeat' split) <;> rfl

theorem modBlk_slotStores (m : Media) (p : Place) (f : Blk → Blk) : slotStores (m.modBlk p f) = slotStores m := rfl

theorem closeSuper_slotStores (m : Media) (k : Nat) : slotStores (m.closeSuper k) = slotStores m := by
  unfold Media.closeSuper
  split
  · rfl
  · exact (foldl_keep slotStores _ (fun m p => modBlk_slotStores m p _) _ _).trans rfl

theorem closeFull_slotStores (m : Media) (k : Nat) : slotStores (m.closeFull k) = slotStores m := by
  unfold Media.closeFull
  dsimp only
  (repeat' split) <;> simp only [closeSuper_slotStores, settleRows_slotStores]

theorem heads_slotStores (m : Media) (xs : List (Nat × Slot4k)) : slotStores (m.heads xs) = slotStores m := by
  refine foldl_keep slotStores _ (fun m x => ?_) xs m
  cases x.2.place <;> rfl

theorem pads_slotStores (m : Media) (p : Place) (row n : Nat) : slotStores (m.pads p row n) = slotStores m := rfl

/-! A block once suspect stays so (R143). -/

/-- No block is less suspect, nor less retired. -/
def KeepsSuspects (m n : Media) : Prop := ∀ p, (m.blk p).suspect = true → (n.blk p).suspect = true

theorem KeepsSuspects.trans {l m n : Media} (h : KeepsSuspects l m) (h' : KeepsSuspects m n) : KeepsSuspects l n := fun p hp => h' p (h p hp)

theorem blk_suspect (m : Media) (p : Place) : (m.blk p).suspect = ((look m.blocks (blkKey p)).getD .fresh).suspect := by
  unfold Media.blk
  dsimp only
  split <;> rfl

theorem keepsSuspects_of_blocks {m n : Media} (h : n.blocks = m.blocks) : KeepsSuspects m n := fun p hp => by
  rw [blk_suspect] at hp ⊢
  rwa [h]

theorem keepsSuspects_modBlk (m : Media) (p : Place) (f : Blk → Blk) (hf : ∀ b, b.suspect = true → (f b).suspect = true) :
    KeepsSuspects m (m.modBlk p f) := fun q hq => by
  rw [blk_suspect] at hq ⊢
  show ((look (put m.blocks (blkKey p) (f (m.blk p))) (blkKey q)).getD .fresh).suspect = true
  by_cases hk : blkKey q = blkKey p
  · rw [hk, look_put_self, Option.getD_some]
    exact hf _ (by rw [blk_suspect, ← hk]; exact hq)
  · rw [look_put_ne _ _ _ _ hk]
    exact hq

theorem keepsSuspects_foldl {α : Type} (f : Media → α → Media) (h : ∀ m x, KeepsSuspects m (f m x)) (xs : List α) (m : Media) :
    KeepsSuspects m (xs.foldl f m) := by
  induction xs generalizing m with
  | nil => exact fun _ hp => hp
  | cons x xs ih => exact (h m x).trans (ih _)

theorem suspect_modBlk (m : Media) (p : Place) (f : Blk → Blk) : ((m.modBlk p f).blk p).suspect = (f (m.blk p)).suspect := by
  rw [blk_suspect]
  show ((look (put m.blocks (blkKey p) (f (m.blk p))) (blkKey p)).getD .fresh).suspect = _
  rw [look_put_self]
  rfl

theorem keepsSuspects_grab {m n : Media} {kind : Nat} {tlc : Bool} {d : Fin 64} {q : Fin 4} {p : Place}
    (h : m.grab kind tlc d q = some (p, n)) : KeepsSuspects m n := by
  unfold Media.grab at h
  obtain ⟨p', -, hp⟩ := Option.map_eq_some_iff.1 h
  cases hp
  exact keepsSuspects_modBlk m p _ (by exact fun _ hb => hb)

theorem keepsSuspects_grabAll {kind : Nat} {tlc : Bool} (xs : List (Fin 64 × Fin 4)) {m n : Media} {ps : List Place}
    (h : m.grabAll kind tlc xs = some (ps, n)) : KeepsSuspects m n := by
  induction xs generalizing m n ps with
  | nil => cases h; exact fun _ hp => hp
  | cons x xs ih =>
    rw [Media.grabAll] at h
    obtain ⟨⟨p, m1⟩, h1, h⟩ := Option.bind_eq_some_iff.1 h
    obtain ⟨⟨qs, m2⟩, h2, h⟩ := Option.map_eq_some_iff.1 h
    cases h
    exact (keepsSuspects_grab h1).trans (ih h2)

theorem keepsSuspects_openSuper {m n : Media} {g kind k : Nat} (h : m.openSuper g kind = some (k, n)) : KeepsSuspects m n := by
  unfold Media.openSuper at h
  dsimp only at h
  split at h
  · cases h
  · obtain ⟨⟨ps, m1⟩, h1, h⟩ := Option.bind_eq_some_iff.1 h
    obtain ⟨⟨qs, m2⟩, h2, h⟩ := Option.map_eq_some_iff.1 h
    cases h
    exact ((keepsSuspects_grabAll _ h1).trans (keepsSuspects_grabAll _ h2)).trans (keepsSuspects_of_blocks rfl)

theorem keepsSuspects_bufferIn {m n : Media} {kind k : Nat} {avoid : Option Nat} {gs : List Nat} (h : m.bufferIn kind avoid gs = some (k, n)) :
    KeepsSuspects m n := by
  unfold Media.bufferIn at h
  split at h
  · cases h; exact fun _ hp => hp
  · obtain ⟨g, -, hg⟩ := List.exists_of_findSome?_eq_some h
    unfold Media.openOf at hg
    split at hg
    · cases hg; exact fun _ hp => hp
    · exact keepsSuspects_openSuper hg

theorem keepsSuspects_pumpOne {m n : Media} {may : Chunk → Bool} (h : m.pumpOne may = some n) : KeepsSuspects m n := by
  unfold Media.pumpOne at h
  dsimp only at h
  split at h
  · cases h
  split at h
  · cases h
  next k n' hsuper =>
  have hn : KeepsSuspects m n' := by
    rw [Option.orElse_eq_or, Option.or_eq_some_iff] at hsuper
    rcases hsuper with hb | ⟨-, hb⟩
    · exact keepsSuspects_bufferIn hb
    · split at hb
      · exact keepsSuspects_bufferIn hb
      · cases hb
  split at h
  · cases h
  split at h
  · cases h
  · cases h
    exact hn.trans (keepsSuspects_of_blocks rfl)

theorem keepsSuspects_pump (may : Chunk → Bool) (fuel : Nat) (m : Media) : KeepsSuspects m (Media.pump may fuel m) := by
  induction fuel generalizing m with
  | zero => exact fun _ hp => hp
  | succ fuel ih =>
    rw [Media.pump]
    cases h : m.pumpOne may with
    | none => exact fun _ hp => hp
    | some n => exact (keepsSuspects_pumpOne h).trans (ih n)

theorem keepsSuspects_submit (m : Media) (may : Chunk → Bool) (cs : List Chunk) : KeepsSuspects m (m.submit may cs) :=
  KeepsSuspects.trans (m := { m with queue := m.queue ++ cs }) (keepsSuspects_of_blocks rfl) (keepsSuspects_pump may _ _)

theorem keepsSuspects_closeFull (m : Media) (k : Nat) : KeepsSuspects m (m.closeFull k) := by
  have hrows : KeepsSuspects m (m.settleRows k) := by
    refine keepsSuspects_of_blocks ?_
    unfold Media.settleRows
    dsimp only
    (repeat' split) <;> rfl
  have hclose (m : Media) : KeepsSuspects m (m.closeSuper k) := by
    unfold Media.closeSuper
    split
    · exact fun _ hp => hp
    · refine KeepsSuspects.trans ?_ (keepsSuspects_foldl _ (fun m p => keepsSuspects_modBlk m p _ (by exact fun _ hb => hb)) _ _)
      exact keepsSuspects_of_blocks rfl
  unfold Media.closeFull
  dsimp only
  split
  · split
    · exact hrows.trans (hclose _)
    · exact hrows
  · exact hrows

/-! What the card notes about its dies and blocks leaves the slots, local memory and the position. -/

/-- The slots of the media, RAM and the Beacon are as they were. -/
structure Noted (s u : State) : Prop where
  stores : slotStores u.med = slotStores s.med
  ram    : u.ram = s.ram
  bcn    : u.bcn = s.bcn

theorem noted_self (s : State) : Noted s s := ⟨rfl, rfl, rfl⟩

theorem Noted.trans {s t u : State} (h : Noted s t) (h' : Noted t u) : Noted s u :=
  ⟨h'.stores.trans h.stores, h'.ram.trans h.ram, h'.bcn.trans h.bcn⟩

theorem noted_foldl {α : Type} (f : State → α → State) (h : ∀ s x, Noted s (f s x)) (xs : List α) (s : State) : Noted s (xs.foldl f s) := by
  induction xs generalizing s with
  | nil => exact noted_self s
  | cons x xs ih => exact (h s x).trans (ih _)

theorem noted_med {s : State} {m : Media} (h : slotStores m = slotStores s.med) : Noted s { s with med := m } := ⟨h, rfl, rfl⟩

theorem noted_chanFault (d b : Nat) (s : State) : Noted s (raiseFault (chanFrame d) b s) := by
  rw [raiseFault_shape b s (by unfold chanFrame; omega) (by unfold chanFrame; omega)]
  exact ⟨rfl, rfl, rfl⟩

theorem noted_mediaEvent (c d : Nat) (s : State) : Noted s (mediaEvent c d s) :=
  ⟨congrArg slotStores (mediaEvent_med ..), mediaEvent_ram .., mediaEvent_bcn ..⟩

theorem noted_raisePulse (a b d : Nat) (s : State) : Noted s (raisePulse a b d s) := by
  rw [raisePulse_shape]
  exact ⟨rfl, rfl, rfl⟩

theorem noted_lifeRecalc (s : State) : Noted s (lifeRecalc s) := ⟨congrArg slotStores (lifeRecalc_med _), lifeRecalc_ram _, lifeRecalc_bcn _⟩

theorem noted_evalWarn (s : State) : Noted s (evalWarn s) := ⟨congrArg slotStores (evalWarn_med _), evalWarn_ram _, evalWarn_bcn _⟩

theorem noted_dies (s : State) (v : Vector Die 64) : Noted s { s with med := { s.med with dies := v } } := ⟨rfl, rfl, rfl⟩

theorem noted_checkDetours (s : State) : Noted s (checkDetours s) := by
  unfold checkDetours
  dsimp only
  refine Noted.trans (t := List.foldl _ s (List.range 64)) (noted_foldl _ (fun u d => ?_) _ s) (noted_evalWarn _)
  have hdies (v : Vector Die 64) (c : Nat) : Noted u (raisePulse 264 0 0 (mediaEvent c 0 { u with med := { u.med with dies := v } })) :=
    (noted_dies u v).trans ((noted_mediaEvent c 0 _).trans (noted_raisePulse 264 0 0 _))
  split
  · exact hdies _ _
  split
  · exact hdies _ _
  · exact noted_self u

theorem noted_noteTime (d : Nat) (tlc : Bool) (us : Nat) (s : State) : Noted s (noteTime d tlc us s) := by
  refine Noted.trans ?_ (noted_checkDetours _)
  exact ⟨rfl, rfl, rfl⟩

theorem noted_enterEol (s : State) : Noted s (enterEol s) := by
  unfold enterEol
  split
  · exact noted_self s
  · exact ((noted_med (m := { s.med with eol := true }) rfl).trans (noted_mediaEvent ..)).trans (noted_lifeRecalc _)

theorem noted_retire (p : Place) (s : State) : Noted s (retire p s) := by
  unfold retire
  dsimp only
  split
  · exact noted_self s
  have hleft : Noted s (mediaEvent 4 (blockDetail p) { s with med := s.med.modBlk p fun b => { b with retired := true } }) :=
    (noted_med (m := s.med.modBlk p fun b => { b with retired := true }) rfl).trans (noted_mediaEvent ..)
  split
  · exact hleft.trans (noted_enterEol _)
  · refine hleft.trans (Noted.trans ?_ (noted_lifeRecalc _))
    exact ⟨rfl, rfl, rfl⟩

theorem noted_failBlock (p : Place) (s : State) : Noted s (failBlock p s) := by
  have hmark : Noted s { s with med := (s.med.modBlk p fun b => { b with suspect := true }).queueRefresh p 1 } := noted_med rfl
  unfold failBlock
  dsimp only
  split
  · exact hmark.trans (noted_retire ..)
  · exact hmark

theorem noted_programFail (p : Place) (s : State) : Noted s (programFail p s) := by
  have hfault : ∀ u, Noted u (failBlock p (mediaEvent 1 (blockDetail p) (raiseFault (chanFrame p.die.val) 3 u))) := fun u =>
    ((noted_chanFault ..).trans (noted_mediaEvent ..)).trans (noted_failBlock ..)
  unfold programFail
  dsimp only
  cases s.med.superOf p with
  | none => exact hfault s
  | some x => exact (noted_med (m := s.med.leaveDie x.1 p.die) rfl).trans (hfault _)

theorem noted_setMedia {n : Nat} {m : Media} {s : State} (h : slotStores m = slotStores s.med) : Noted s (setMedia n m s) := ⟨h, rfl, rfl⟩

theorem noted_finishAppend (h : Nat) (s : State) : (finishAppend h s).med = s.med ∧ (finishAppend h s).ram = s.ram ∧ (finishAppend h s).bcn = s.bcn := by
  unfold finishAppend
  split
  · exact ⟨rfl, rfl, rfl⟩
  · dsimp only
    split
    · exact ⟨rfl, rfl, rfl⟩
    · rw [complete_shape]
      exact ⟨rfl, rfl, rfl⟩

theorem settleWrites_keeps (s : State) : (settleWrites s).med = s.med ∧ (settleWrites s).ram = s.ram ∧ (settleWrites s).bcn = s.bcn := by
  have h : (fun u : State => (u.med, u.ram, u.bcn)) (settleWrites s) = (s.med, s.ram, s.bcn) := by
    unfold settleWrites
    refine foldl_keep (fun u : State => (u.med, u.ram, u.bcn)) _ (fun u c => ?_) _ s
    dsimp only
    split
    · obtain ⟨hmed, hram, hbcn⟩ := noted_finishAppend c.h (u.modCmd c.h fun x => { x with slots := x.slots.filter s.med.waiting.contains })
      rw [hmed, hram, hbcn]
      rfl
    · split
      · rw [complete_shape]
      · rfl
    · rfl
  simpa using h

theorem endBudgetFlush_keeps (s : State) : (endBudgetFlush s).med = s.med ∧ (endBudgetFlush s).ram = s.ram ∧ (endBudgetFlush s).bcn = s.bcn := by
  unfold endBudgetFlush
  split
  · exact ⟨startLowered_med _, startLowered_ram _, startLowered_bcn _⟩
  · exact ⟨rfl, rfl, rfl⟩

/-! A block that fails is suspect. -/

theorem keepsSuspects_enterEol (s : State) : KeepsSuspects s.med (enterEol s).med := by
  refine keepsSuspects_of_blocks ?_
  unfold enterEol
  split
  · rfl
  · rw [lifeRecalc_med, mediaEvent_med]

theorem keepsSuspects_retire (p : Place) (s : State) : KeepsSuspects s.med (retire p s).med := by
  have hmark : KeepsSuspects s.med (s.med.modBlk p fun b => { b with retired := true }) := keepsSuspects_modBlk _ _ _ (by exact fun _ hb => hb)
  have hev : (mediaEvent 4 (blockDetail p) { s with med := s.med.modBlk p fun b => { b with retired := true } }).med =
      s.med.modBlk p fun b => { b with retired := true } := mediaEvent_med ..
  unfold retire
  dsimp only
  split
  · exact fun _ hp => hp
  generalize mediaEvent 4 (blockDetail p) { s with med := s.med.modBlk p fun b => { b with retired := true } } = u at hev
  split
  · exact (hev ▸ hmark : KeepsSuspects s.med u.med).trans (keepsSuspects_enterEol u)
  · rw [lifeRecalc_med]
    exact (hev ▸ hmark : KeepsSuspects s.med u.med).trans (keepsSuspects_of_blocks rfl)

/-- The media with a block marked suspect and queued for refresh (R143). -/
def suspected (p : Place) (m : Media) : Media := (m.modBlk p fun b => { b with suspect := true }).queueRefresh p 1

theorem keepsSuspects_suspected (p : Place) (m : Media) : KeepsSuspects m (suspected p m) ∧ ((suspected p m).blk p).suspect = true := by
  have hrefresh : KeepsSuspects (m.modBlk p fun b => { b with suspect := true }) (suspected p m) :=
    keepsSuspects_modBlk _ _ _ (by exact fun _ hb => hb)
  exact ⟨(keepsSuspects_modBlk _ _ _ (by exact fun _ _ => rfl)).trans hrefresh, hrefresh p (suspect_modBlk ..)⟩

theorem failBlock_suspects (p : Place) (s : State) :
    KeepsSuspects s.med (failBlock p s).med ∧ ((failBlock p s).med.blk p).suspect = true := by
  obtain ⟨hkeep, hset⟩ := keepsSuspects_suspected p s.med
  unfold failBlock
  dsimp only
  split
  · have hret := keepsSuspects_retire p { s with med := suspected p s.med }
    exact ⟨hkeep.trans hret, hret p hset⟩
  · exact ⟨hkeep, hset⟩

theorem programFail_suspects (p : Place) (s : State) :
    KeepsSuspects s.med (programFail p s).med ∧ ((programFail p s).med.blk p).suspect = true := by
  have hfail (u : State) : KeepsSuspects u.med (failBlock p (mediaEvent 1 (blockDetail p) (raiseFault (chanFrame p.die.val) 3 u))).med ∧
      ((failBlock p (mediaEvent 1 (blockDetail p) (raiseFault (chanFrame p.die.val) 3 u))).med.blk p).suspect = true := by
    have h := failBlock_suspects p (mediaEvent 1 (blockDetail p) (raiseFault (chanFrame p.die.val) 3 u))
    rwa [mediaEvent_med, raiseFault_med] at h
  unfold programFail
  dsimp only
  cases s.med.superOf p with
  | none => exact hfail s
  | some x =>
    obtain ⟨hkeep, hset⟩ := hfail { s with med := s.med.leaveDie x.1 p.die }
    exact ⟨(keepsSuspects_of_blocks (m := s.med) (n := s.med.leaveDie x.1 p.die) rfl).trans hkeep, hset⟩

/-- The failing blocks of a program, one after the other. -/
def failAll (xs : List Place) (s : State) : State := xs.foldl (fun s x => programFail x s) s

theorem noted_failAll (xs : List Place) (s : State) : Noted s (failAll xs s) := noted_foldl _ (fun u x => noted_programFail x u) xs s

theorem keepsSuspects_failAll (xs : List Place) (s : State) : KeepsSuspects s.med (failAll xs s).med := by
  induction xs generalizing s with
  | nil => exact fun _ hp => hp
  | cons x xs ih => exact (programFail_suspects x s).1.trans (ih _)

theorem failAll_suspects {xs : List Place} {p : Place} (h : p ∈ xs) (s : State) : ((failAll xs s).med.blk p).suspect = true := by
  induction xs generalizing s with
  | nil => exact absurd h List.not_mem_nil
  | cons x xs ih =>
    rcases List.mem_cons.1 h with rfl | hx
    · exact keepsSuspects_failAll xs _ p (programFail_suspects p s).2
    · exact ih hx _

/-! The end of a program. -/

/-- The blocks of the die that a program wrote. -/
def progBlocks (p : Prog) (s : State) : List Place :=
  (look s.med.supers p.sb).elim [] fun u => u.members.filter fun x => x.die == p.die

/-- What passed is in NAND, and what failed waits again. -/
def landedProg (p : Prog) (t : Nat) (fails : List (Fin 4)) (s : State) : State :=
  (setMedia p.pages.length ((noteTime p.die.val false t s).med.endProg p fails (noteTime p.die.val false t s).now) (noteTime p.die.val false t s)).countScan
    ((p.pages.zipIdx.filter fun x => !(fails.any fun q => q.val == x.2)).flatMap fun x => x.1.flatMap fun c => c.slots.map fun y => y.1)

/-- The failing blocks are marked, and those programmed while the window is closed are queued. -/
def markedProg (p : Prog) (t : Nat) (fails : List (Fin 4)) (s : State) : State :=
  let u := failAll ((progBlocks p s).filter fun x => fails.contains x.plane) (landedProg p t fails s)
  if u.windowClosed then { u with med := (progBlocks p s).foldl (fun m x => m.queueRefresh x 1) u.med } else u

/-- The program has ended, and the next one starts. -/
def endedProg (p : Prog) (t : Nat) (fails : List (Fin 4)) (s : State) : State :=
  settleWrites (endBudgetFlush (submit [] (setMedia 0 ((markedProg p t fails s).med.closeFull p.sb) (programMap (markedProg p t fails s)))))

theorem exec_programComplete {s : State} {p : Prog} (t : Nat) (fails : List (Fin 4)) (hrun : s.running = true)
    (hmov : s.moving (.cores p.id) = true) (hp : s.med.progs.filter (fun x => x.id == p.id) = [p]) :
    exec (.oneBitProgramComplete p.id p.die p.row t fails) s = .next (settle (endedProg p t fails s)) := by
  have hmem : p ∈ s.med.progs ∧ ∀ x ∈ s.med.progs, x.id = p.id → x = p := by
    refine ⟨List.mem_of_mem_filter (show p ∈ s.med.progs.filter fun x => x.id == p.id by rw [hp]; exact List.mem_singleton_self p), fun x hx hid => ?_⟩
    have : x ∈ s.med.progs.filter fun x => x.id == p.id := List.mem_filter.2 ⟨hx, by simp [hid]⟩
    rw [hp] at this
    exact List.mem_singleton.1 this
  have hfind : s.med.progs.find? (fun x => x.id == p.id && x.die == p.die && x.row == p.row) = some p := by
    cases h : s.med.progs.find? fun x => x.id == p.id && x.die == p.die && x.row == p.row with
    | none => exact absurd (List.find?_eq_none.1 h p hmem.1) (by simp)
    | some x =>
      have hid := List.find?_some h
      simp only [Bool.and_eq_true, beq_iff_eq] at hid
      rw [hmem.2 x (List.mem_of_find?_eq_some h) hid.1.1]
  show execOneBitProgramComplete p.id p.die p.row t fails s = _
  unfold execOneBitProgramComplete
  rw [hfind]
  dsimp only
  rw [hrun, hmov]
  rfl

theorem noted_landedProg (p : Prog) (t : Nat) (fails : List (Fin 4)) (s : State) :
    (landedProg p t fails s).ram = s.ram ∧ (landedProg p t fails s).bcn = s.bcn :=
  ⟨(countScan_ram ..).trans ((setMedia_ram ..).trans (noted_noteTime p.die.val false t s).ram),
    (countScan_bcn ..).trans ((setMedia_bcn ..).trans (noted_noteTime p.die.val false t s).bcn)⟩

theorem noted_markedProg (p : Prog) (t : Nat) (fails : List (Fin 4)) (s : State) : Noted (landedProg p t fails s) (markedProg p t fails s) := by
  have h := noted_failAll ((progBlocks p s).filter fun x => fails.contains x.plane) (landedProg p t fails s)
  unfold markedProg
  dsimp only
  split
  · refine h.trans (noted_med ?_)
    exact foldl_keep slotStores _ (fun m x => modBlk_slotStores m x _) _ _
  · exact h

/-- The media in which a program has ended, but for what starts next. -/
theorem endedProg_med (p : Prog) (t : Nat) (fails : List (Fin 4)) (s : State) : ∃ may,
    (endedProg p t fails s).med = ((markedProg p t fails s).med.closeFull p.sb).submit may [] := by
  refine ⟨(setMedia 0 ((markedProg p t fails s).med.closeFull p.sb) (programMap (markedProg p t fails s))).mayProgram, ?_⟩
  unfold endedProg
  rw [(settleWrites_keeps _).1, (endBudgetFlush_keeps _).1]
  rfl

theorem endedProg_keeps (p : Prog) (t : Nat) (fails : List (Fin 4)) (s : State) :
    (endedProg p t fails s).ram = s.ram ∧ (endedProg p t fails s).bcn = s.bcn := by
  obtain ⟨hram, hbcn⟩ := noted_landedProg p t fails s
  have hmark := noted_markedProg p t fails s
  unfold endedProg
  rw [(settleWrites_keeps _).2.1, (settleWrites_keeps _).2.2, (endBudgetFlush_keeps _).2.1, (endBudgetFlush_keeps _).2.2]
  exact ⟨(programMap_ram _).trans (hmark.ram.trans hram), (programMap_bcn _).trans (hmark.bcn.trans hbcn)⟩

/-- The slots at the end of a program are those that its landing left, and what starts next was waiting. -/
theorem endedProg_stores (p : Prog) (t : Nat) (fails : List (Fin 4)) (s : State) :
    (endedProg p t fails s).med.content = (landedProg p t fails s).med.content ∧
    (endedProg p t fails s).med.held = (landedProg p t fails s).med.held ∧
    (∀ c ∈ (landedProg p t fails s).med.chunks, c ∈ (endedProg p t fails s).med.chunks) ∧
    ∀ q ∈ (landedProg p t fails s).med.progs, q ∈ (endedProg p t fails s).med.progs := by
  obtain ⟨may, h⟩ := endedProg_med p t fails s
  have hstores : slotStores ((markedProg p t fails s).med.closeFull p.sb) = slotStores (landedProg p t fails s).med :=
    (closeFull_slotStores ..).trans (noted_markedProg p t fails s).stores
  generalize (markedProg p t fails s).med.closeFull p.sb = m at h hstores
  obtain ⟨hcontent, hheld, -⟩ := of_undriven (undriven_submit m may [])
  obtain ⟨hchunks, hprogs⟩ := chunks_submit m may []
  simp only [slotStores, Prod.mk.injEq] at hstores
  obtain ⟨hheld', hcontent', hqueue', hprogs', -⟩ := hstores
  rw [h]
  refine ⟨hcontent.trans hcontent', hheld.trans hheld', fun c hc => hchunks c (.inl ?_), fun q hq => hprogs q (by rwa [hprogs'])⟩
  unfold Media.chunks at hc ⊢
  rwa [hqueue', hprogs']

theorem endedProg_suspects {p : Prog} {fails : List (Fin 4)} {s : State} {x : Place} (hx : x ∈ progBlocks p s) (hf : x.plane ∈ fails) (t : Nat) :
    ((endedProg p t fails s).med.blk x).suspect = true := by
  have hfail : ((failAll ((progBlocks p s).filter fun x => fails.contains x.plane) (landedProg p t fails s)).med.blk x).suspect = true :=
    failAll_suspects (List.mem_filter.2 ⟨hx, by simpa using hf⟩) _
  have hmark : ((markedProg p t fails s).med.blk x).suspect = true := by
    unfold markedProg
    dsimp only
    split
    · exact keepsSuspects_foldl _ (fun m y => keepsSuspects_modBlk m y _ (by exact fun _ hb => hb)) _ _ x hfail
    · exact hfail
  obtain ⟨may, h⟩ := endedProg_med p t fails s
  rw [h]
  exact keepsSuspects_submit _ _ _ x (keepsSuspects_closeFull _ _ x hmark)

end Sys2Proof.Proofs
end

section
/-! Where a program lands, and what a verify read that passes leaves of the superblocks (R120, R124, R143). -/

namespace Sys2Proof.Proofs

open Sys2Proof Sys2Proof.Machine Sys2Proof.Laws

/-! Where a program's slots land. -/

theorem landGroups_nil {m : Media} (h : m.partials = []) (t : Nat) : m.landGroups t = m := by
  rw [Media.landGroups, h, List.foldl_nil]

/-- The newest data of a slot that DRAM does not hold takes its place in the map. -/
theorem land_newest {m : Media} {k : Nat} {x : Slot4k} (hheld : look m.held k = none) (hnew : ∀ y, look m.content k = some y → y.wseq ≤ x.wseq) :
    slotStores (m.land k x) = (m.held, put m.content k x, m.queue, m.progs, m.partials) := by
  have hno : ¬((look m.content k).any fun y => decide (x.wseq < y.wseq)) = true := by
    intro h
    obtain ⟨y, hy, hlt⟩ := (Option.any_eq_true _ _).1 h
    have := hnew y hy
    simp only [decide_eq_true_eq] at hlt
    omega
  have hkeep : slotStores (m.keepShadow k) = slotStores m := by
    unfold Media.keepShadow
    split <;> rfl
  simp only [slotStores, Prod.mk.injEq] at hkeep
  obtain ⟨h1, h2, h3, h4, h5⟩ := hkeep
  have hplace : slotStores ((m.place k x).remap k) = (m.held, put m.content k x, m.queue, m.progs, m.partials) := by
    rw [remap_slotStores]
    show ((m.keepShadow k).held, put (m.keepShadow k).content k x, (m.keepShadow k).queue, (m.keepShadow k).progs, (m.keepShadow k).partials) = _
    rw [h1, h2, h3, h4, h5]
  unfold Media.land
  rw [if_neg hno]
  dsimp only
  generalize (m.place k x).remap k = n at hplace
  have hshadow : slotStores (if n.onWay k || (n.jrnl.any fun r => r.keys.contains k) then n else { n with shadow := del n.shadow k }) = slotStores n := by
    split <;> rfl
  generalize (if n.onWay k || (n.jrnl.any fun r => r.keys.contains k) then n else { n with shadow := del n.shadow k }) = n' at hshadow
  have hn : slotStores n' = _ := hshadow.trans hplace
  have hheld' : n'.held = m.held := congrArg Prod.fst hn
  rw [hheld', hheld]
  exact hn

/-- A program of one slot. -/
def oneSlot (p : Prog) (k : Nat) (x : Slot4k) : Prop := p.pages = [[⟨[(k, x)], none, none⟩]]

/-- The slot as it stands in its block. -/
def placedSlot (p : Prog) (sb : Super) (x : Slot4k) : Slot4k := { x with place := sb.block p.die 0, pos := 4 * p.row }

theorem placed_oneSlot {p : Prog} {k : Nat} {x : Slot4k} (h : oneSlot p k x) (sb : Super) :
    p.placed sb [] = [(⟨[(k, x)], none, none⟩, [(k, placedSlot p sb x)])] := by
  unfold Prog.placed
  rw [h]
  rfl

theorem endProg_oneSlot {m : Media} {p : Prog} {sb : Super} {k : Nat} {x : Slot4k} (hp : oneSlot p k x) (hsb : look m.supers p.sb = some sb)
    (hpart : m.partials = []) (hheld : look m.held k = none) (hnew : ∀ y, look m.content k = some y → y.wseq ≤ x.wseq) (t : Nat) :
    slotStores (m.endProg p [] t) = (m.held, put m.content k (placedSlot p sb x), m.queue, m.progs.filter (fun y => y.id != p.id), []) := by
  have hpages : p.pages = [[⟨[(k, x)], none, none⟩]] := hp
  have hland (n : Media) (hn : slotStores n = (m.held, m.content, m.queue, m.progs.filter (fun y => y.id != p.id), [])) :
      slotStores ((n.land k (placedSlot p sb x)).landGroups t) =
        (m.held, put m.content k (placedSlot p sb x), m.queue, m.progs.filter (fun y => y.id != p.id), []) := by
    simp only [slotStores, Prod.mk.injEq] at hn
    obtain ⟨h1, h2, h3, h4, h5⟩ := hn
    have hl := land_newest (m := n) (k := k) (x := placedSlot p sb x) (by rw [h1]; exact hheld) (by rw [h2]; exact hnew)
    rw [h1, h2, h3, h4, h5] at hl
    rw [landGroups_nil (congrArg (fun y => y.2.2.2.2) hl)]
    exact hl
  unfold Media.endProg
  rw [hsb, Option.elim_some, placed_oneSlot hp, hpages]
  refine hland _ ?_
  refine (foldl_keep slotStores _ (fun n y => ?_) _ _).trans (heads_slotStores ..) |>.trans ?_
  · cases (look n.supers p.sb).bind fun u => u.block p.die y.2 <;> rfl
  · rw [← hpart]
    rfl

theorem mem_planes : ∀ q : Fin 4, q ∈ [0, 1, 2, 3] := by decide

/-- The pages of a program all fail: nothing lands, and the chunks wait for another superblock. -/
theorem endProg_allFailed {m : Media} {p : Prog} (hlen : p.pages.length ≤ 4) (hpart : m.partials = []) (t : Nat) :
    m.endProg p [0, 1, 2, 3] t = { m with progs := m.progs.filter (fun x => x.id != p.id)
                                          queue := (p.pages.flatten.map fun c => { c with avoid := some p.sb }) ++ m.queue } := by
  have hplane (x : List Chunk × Nat) (hx : x ∈ p.pages.zipIdx) : ([0, 1, 2, 3] : List (Fin 4)).any (fun q => q.val == x.2) = true := by
    have hlt := List.snd_lt_of_mem_zipIdx hx
    have h4 : x.2 < 4 := by omega
    exact List.any_eq_true.2 ⟨⟨x.2, h4⟩, mem_planes _, by simp⟩
  have hfail : p.pages.zipIdx.filter (fun x => ([0, 1, 2, 3] : List (Fin 4)).any fun q => q.val == x.2) = p.pages.zipIdx :=
    List.filter_eq_self.2 hplane
  have hpass : p.pages.zipIdx.filter (fun x => !(([0, 1, 2, 3] : List (Fin 4)).any fun q => q.val == x.2)) = [] :=
    List.filter_eq_nil_iff.2 fun x hx => by simp [hplane x hx]
  have hxs : (look m.supers p.sb).elim [] (fun u => p.placed u [0, 1, 2, 3]) = [] := by
    cases look m.supers p.sb with
    | none => rfl
    | some u =>
      show p.placed u [0, 1, 2, 3] = []
      rw [Prog.placed, hpass]
      rfl
  have hagain : (p.pages.zipIdx.flatMap fun x => x.1.map fun c : Chunk => { c with avoid := some p.sb }) =
      p.pages.flatten.map fun c => { c with avoid := some p.sb } := by
    rw [List.map_flatten, ← List.flatMap_def]
    conv_rhs => rw [← List.zipIdx_map_fst 0 p.pages, List.flatMap_map]
  unfold Media.endProg
  dsimp only
  rw [hfail, hpass, hxs, hagain]
  exact landGroups_nil (m := { m with progs := m.progs.filter (fun x => x.id != p.id)
                                      queue := (p.pages.flatten.map fun c => { c with avoid := some p.sb }) ++ m.queue }) hpart t

/-! The end of a program whose slot lands, and of one that fails. -/

theorem noteTime_supers (d : Nat) (tlc : Bool) (us : Nat) (s : State) : (noteTime d tlc us s).med.supers = s.med.supers := by
  have hdetours (u : State) : (checkDetours u).med.supers = u.med.supers := by
    unfold checkDetours
    dsimp only
    rw [evalWarn_med]
    refine foldl_keep (fun u : State => u.med.supers) _ (fun u d => ?_) _ u
    split
    · rw [raisePulse_med, mediaEvent_med]
    split
    · rw [raisePulse_med, mediaEvent_med]
    · rfl
  exact (hdetours _).trans rfl

theorem countScan_slotStores (ks : List Nat) (s : State) : slotStores (s.countScan ks).med = slotStores s.med := rfl

theorem setMedia_med (n : Nat) (m : Media) (s : State) : (setMedia n m s).med = m := rfl

theorem landedProg_stores (p : Prog) (t : Nat) (fails : List (Fin 4)) (s : State) : ∃ m u, slotStores m = slotStores s.med ∧ m.supers = s.med.supers ∧
    slotStores (landedProg p t fails s).med = slotStores (m.endProg p fails u) := by
  refine ⟨(noteTime p.die.val false t s).med, (noteTime p.die.val false t s).now, (noted_noteTime p.die.val false t s).stores,
    noteTime_supers .., ?_⟩
  unfold landedProg
  rw [countScan_slotStores, setMedia_med]

/-- The slot of a program that passed stands where its map entry points, and nothing else moved. -/
theorem endedProg_oneSlot {p : Prog} {s : State} {sb : Super} {k : Nat} {x : Slot4k} (hp : oneSlot p k x) (hsb : look s.med.supers p.sb = some sb)
    (hpart : s.med.partials = []) (hheld : look s.med.held k = none) (hnew : ∀ y, look s.med.content k = some y → y.wseq ≤ x.wseq) (t : Nat) :
    look (endedProg p t [] s).med.content k = some (placedSlot p sb x) ∧
    (∀ j, j ≠ k → look (endedProg p t [] s).med.content j = look s.med.content j) ∧ (endedProg p t [] s).med.held = s.med.held ∧
    ∀ q ∈ s.med.progs, q.id ≠ p.id → q ∈ (endedProg p t [] s).med.progs := by
  obtain ⟨hcontent, hheld', -, hprogs⟩ := endedProg_stores p t [] s
  obtain ⟨m, u, hm, hsupers, hland⟩ := landedProg_stores p t [] s
  simp only [slotStores, Prod.mk.injEq] at hm
  obtain ⟨h1, h2, h3, h4, h5⟩ := hm
  rw [endProg_oneSlot hp (by rw [hsupers]; exact hsb) (by rw [h5]; exact hpart) (by rw [h1]; exact hheld) (by rw [h2]; exact hnew)] at hland
  simp only [slotStores, Prod.mk.injEq] at hland
  obtain ⟨l1, l2, -, l4, -⟩ := hland
  rw [hcontent, hheld', l1, l2, h1, h2]
  refine ⟨look_put_self .., fun j hj => look_put_ne _ _ _ _ hj, rfl, fun q hq hid => hprogs q ?_⟩
  rw [l4, h4]
  exact List.mem_filter.2 ⟨hq, by simpa using hid⟩

/-- A program whose pages all fail loses nothing that is on its way. -/
theorem endedProg_allFailed {p : Prog} {s : State} (hp : s.med.progs.filter (fun x => x.id == p.id) = [p]) (hlen : p.pages.length ≤ 4)
    (hpart : s.med.partials = []) (t : Nat) :
    (endedProg p t [0, 1, 2, 3] s).med.content = s.med.content ∧ (endedProg p t [0, 1, 2, 3] s).med.held = s.med.held ∧
    ∀ k w, s.med.inFlight k w = true → (endedProg p t [0, 1, 2, 3] s).med.inFlight k w = true := by
  obtain ⟨hcontent, hheld, hchunks, -⟩ := endedProg_stores p t [0, 1, 2, 3] s
  obtain ⟨m, u, hm, -, hland⟩ := landedProg_stores p t [0, 1, 2, 3] s
  simp only [slotStores, Prod.mk.injEq] at hm
  obtain ⟨h1, h2, h3, h4, h5⟩ := hm
  rw [endProg_allFailed hlen (by rw [h5]; exact hpart)] at hland
  simp only [slotStores, Prod.mk.injEq] at hland
  obtain ⟨l1, l2, l3, l4, -⟩ := hland
  refine ⟨hcontent.trans (l2.trans h2), hheld.trans (l1.trans h1), fun k w hfl => ?_⟩
  obtain ⟨c, hc, hslot⟩ := List.any_eq_true.1 hfl
  have hagain : ∃ c', c' ∈ (landedProg p t [0, 1, 2, 3] s).med.chunks ∧ c'.slots = c.slots := by
    simp only [Media.chunks, List.mem_append, List.mem_flatMap] at hc ⊢
    rw [l3, l4, h3, h4]
    rcases hc with hc | ⟨q, hq, hc⟩
    · exact ⟨c, .inl (List.mem_append_right _ hc), rfl⟩
    · by_cases hid : q.id = p.id
      · have hqp : q ∈ s.med.progs.filter fun x => x.id == p.id := List.mem_filter.2 ⟨hq, by simp [hid]⟩
        rw [hp, List.mem_singleton] at hqp
        rw [hqp] at hc
        exact ⟨_, .inl (List.mem_append_left _ (List.mem_map.2 ⟨c, hc, rfl⟩)), rfl⟩
      · exact ⟨c, .inr ⟨q, List.mem_filter.2 ⟨hq, by simpa using hid⟩, hc⟩, rfl⟩
  obtain ⟨c', hc', hslots⟩ := hagain
  exact List.any_eq_true.2 ⟨c', hchunks c' hc', by rw [hslots]; exact hslot⟩

/-! The verify read of a superblock that passes (R124). -/

/-- One superblock of a list leaves when its blocks are vacant, or its failing ones are. -/
def reapOne (m : Media) (x : Nat × Super) : Media :=
  if !x.2.closed || x.2.verify then m
  else if x.2.members.all m.vacant then
    { m with supers := del m.supers x.1, toErase := m.toErase ++ (x.2.members ++ x.2.parity).filter fun p => !(m.blk p).retired }
  else if !x.2.failing.isEmpty && x.2.failing.all m.vacant then
    { m.dropParity x.1 with supers := adjust (m.dropParity x.1).supers x.1 fun u => { u with failing := [] } }
  else m

/-- A plane with no erase in flight starts one. -/
def eraseOne (m : Media) (p : Place) : Media :=
  if m.intents.any fun k => k / 4096 == planeIndex p then m else
  { m.modBlk p (fun b => { b with header := false }) with toErase := m.toErase.filter (fun q => q != p), intents := m.intents ++ [blkKey p] }

theorem reap_eq (m : Media) : m.reap = m.supers.foldl reapOne m := rfl

theorem startErases_eq (m : Media) : m.startErases = m.reap.toErase.foldl eraseOne m.reap := rfl

/-- A block waits for its erase, or its erase has started. -/
def Leaving (p : Place) (m : Media) : Prop := p ∈ m.toErase ∨ blkKey p ∈ m.intents

theorem leaving_dropParity {p : Place} {m : Media} (k : Nat) (h : Leaving p m) : Leaving p (m.dropParity k) := by
  unfold Media.dropParity
  split
  · exact h.imp_left (List.mem_append_left _)
  · exact h

theorem leaving_startErases {p : Place} {m : Media} (h : Leaving p m) : Leaving p m.startErases := by
  rw [startErases_eq, reap_eq]
  refine List.foldlRecOn (motive := Leaving p) _ eraseOne (List.foldlRecOn (motive := Leaving p) _ reapOne h fun n hn x _ => ?_) fun n hn q _ => ?_
  · unfold reapOne
    split
    · exact hn
    split
    · exact hn.imp_left (List.mem_append_left _)
    split
    · exact leaving_dropParity x.1 hn
    · exact hn
  · unfold eraseOne
    split
    · exact hn
    · rcases hn with hn | hn
      · by_cases hq : p = q
        · exact .inr (List.mem_append_right _ (by rw [hq]; exact List.mem_singleton_self _))
        · exact .inl (List.mem_filter.2 ⟨hn, by simpa using hq⟩)
      · exact .inr (List.mem_append_left _ hn)

theorem startErases_supers (m : Media) : m.startErases.supers = m.reap.supers := by
  rw [startErases_eq]
  refine foldl_keep Media.supers _ (fun n p => ?_) _ _
  unfold eraseOne
  split <;> rfl

theorem mem_put {α : Type} {l : AMap α} {i : Nat} {y : α} {x : Nat × α} (h : x ∈ put l i y) : x = (i, y) ∨ x ∈ l := by
  induction l with
  | nil => exact .inl (List.mem_singleton.1 h)
  | cons z l ih =>
    obtain ⟨k, v⟩ := z
    unfold put at h
    split at h
    · exact List.mem_cons.1 h
    split at h
    · exact (List.mem_cons.1 h).imp_right (List.mem_cons_of_mem _)
    · rcases List.mem_cons.1 h with rfl | h
      · exact .inr List.mem_cons_self
      · exact (ih h).imp_right (List.mem_cons_of_mem _)

theorem look_dropParity_ne {m : Media} {k j : Nat} (h : j ≠ k) : look (m.dropParity k).supers j = look m.supers j := by
  unfold Media.dropParity
  split
  · exact look_put_ne _ _ _ _ h
  · rfl

theorem vacant_of_content {m n : Media} (h : n.content = m.content) {p : Place} (hp : m.inBlock p ≠ []) : n.vacant p = false := by
  have hin : n.inBlock p = m.inBlock p := by unfold Media.inBlock; rw [h]
  rw [Media.vacant, hin, List.isEmpty_eq_false_iff.2 hp]
  rfl

/-- What the reaping of superblocks can make of one that has passed its verify read. -/
theorem reap_verified {m : Media} {k : Nat} {v : Super} (hlook : look m.supers k = some v)
    (hall : ∀ x ∈ m.supers, x.1 = k → x.2.failing = [] ∧ x.2.members = v.members) :
    (∀ w, look m.reap.supers k = some w → w = v) ∧ ((∃ p ∈ v.members, m.inBlock p ≠ []) → look m.reap.supers k = some v) := by
  rw [reap_eq]
  suffices h : (∀ w, look (m.supers.foldl reapOne m).supers k = some w → w = v) ∧
      ((∃ p ∈ v.members, m.inBlock p ≠ []) → look (m.supers.foldl reapOne m).supers k = some v) ∧
      (m.supers.foldl reapOne m).content = m.content from ⟨h.1, h.2.1⟩
  refine List.foldlRecOn (motive := fun n : Media => (∀ w, look n.supers k = some w → w = v) ∧
    ((∃ p ∈ v.members, m.inBlock p ≠ []) → look n.supers k = some v) ∧ n.content = m.content) _ reapOne
    ⟨fun w hw => Option.some.inj (hw.symm.trans hlook), fun _ => hlook, rfl⟩ fun n hn x hx => ?_
  obtain ⟨hone, hstay, hcontent⟩ := hn
  have hdrop : (n.dropParity x.1).content = n.content := (congrArg Media.content (unerased_dropParity n x.1) :)
  unfold reapOne
  split
  · exact ⟨hone, hstay, hcontent⟩
  by_cases hk : x.1 = k
  · obtain ⟨hfail, hmembers⟩ := hall x hx hk
    rw [hfail, hmembers]
    split
    · next hvac =>
      have hnone : look (del n.supers x.1) k = none := by rw [look_del, if_pos hk.symm]
      refine ⟨fun w hw => ?_, fun ⟨p, hp, hin⟩ => ?_, hcontent⟩
      · have hw' : look (del n.supers x.1) k = some w := hw
        rw [hnone] at hw'
        cases hw'
      · rw [List.all_eq_true] at hvac
        exact absurd (hvac p hp) (by rw [vacant_of_content hcontent hin]; simp)
    · exact ⟨hone, hstay, hcontent⟩
  · have hk' : k ≠ x.1 := Ne.symm hk
    split
    · have hdel : look (del n.supers x.1) k = look n.supers k := by rw [look_del, if_neg hk']
      exact ⟨fun w hw => hone w (hdel.symm.trans hw), fun h => hdel.trans (hstay h), hcontent⟩
    split
    · have hadj : look (adjust (n.dropParity x.1).supers x.1 fun u => { u with failing := [] }) k = look n.supers k := by
        rw [look_adjust, if_neg hk', look_dropParity_ne hk']
      exact ⟨fun w hw => hone w (hadj.symm.trans hw), fun h => hadj.trans (hstay h), hdrop.trans hcontent⟩
    · exact ⟨hone, hstay, hcontent⟩

end Sys2Proof.Proofs
end

section
/-! Verify reads, erases and failing dies (R124, R144, R146, R149, R178): settles O52. -/

namespace Sys2Proof.Proofs

open Sys2Proof Sys2Proof.Machine Sys2Proof.Laws

/-! Dies. -/

/-- A die that answered has no run of timeouts, and else is as it was. -/
theorem die_answered_failed (m : Media) (d e : Nat) : ((m.answered d).die e).failed = (m.die e).failed := by
  show (((vmod m.dies d fun x => { x with timeouts := 0 })[e]?).getD .reset).failed = ((m.dies[e]?).getD .reset).failed
  rw [vmod_getElem?]
  split
  · cases m.dies[e]? <;> rfl
  · rfl

theorem blk_congr {m n : Media} {p : Place} (hb : n.blocks = m.blocks) (hf : (n.die p.die.val).failed = (m.die p.die.val).failed) :
    n.blk p = m.blk p := by
  unfold Media.die at hf
  unfold Media.blk
  rw [hb, hf]

theorem blk_answered (m : Media) (d : Nat) (p : Place) : (m.answered d).blk p = m.blk p := blk_congr rfl (die_answered_failed m d _)

theorem blkKey_inj {p q : Place} (h : blkKey p = blkKey q) : p = q := by
  obtain ⟨⟨pd, hpd⟩, ⟨pp, hpp⟩, ⟨pb, hpb⟩⟩ := p
  obtain ⟨⟨qd, hqd⟩, ⟨qp, hqp⟩, ⟨qb, hqb⟩⟩ := q
  simp only [blkKey] at h
  have hb : pb = qb := by omega
  have hp : pp = qp := by omega
  have hd : pd = qd := by omega
  subst hb hp hd
  rfl

/-- A block as the media show it: that of a failed die is retired. -/
def shownBlk (failed : Bool) (b : Blk) : Blk := if failed then { b with retired := true } else b

theorem blk_modBlk (m : Media) (p q : Place) (f : Blk → Blk) :
    (m.modBlk p f).blk q = if q = p then shownBlk (m.die p.die.val).failed (f (m.blk p)) else m.blk q := by
  by_cases hq : q = p
  · subst hq
    rw [if_pos rfl]
    show shownBlk _ ((look (put m.blocks (blkKey q) (f (m.blk q))) (blkKey q)).getD .fresh) = _
    rw [look_put_self]
    rfl
  · rw [if_neg hq]
    show shownBlk _ ((look (put m.blocks (blkKey p) (f (m.blk p))) (blkKey q)).getD .fresh) = shownBlk _ ((look m.blocks (blkKey q)).getD .fresh)
    rw [look_put_ne _ _ _ _ fun h => hq (blkKey_inj h)]
    rfl

theorem blk_retired_of_failed {m : Media} {p : Place} (h : (m.die p.die.val).failed = true) : (m.blk p).retired = true := by
  unfold Media.die at h
  unfold Media.blk
  rw [h]
  rfl

/-! Erases that start change of a block only that its open header goes (R178). -/

/-- A block without its open header. -/
def headless (b : Blk) : Blk := { b with header := false }

theorem headless_eraseOne (m : Media) (p q : Place) : headless ((eraseOne m p).blk q) = headless (m.blk q) := by
  have hblk : headless ((m.modBlk p fun b => { b with header := false }).blk q) = headless (m.blk q) := by
    rw [blk_modBlk]
    split
    · next hq =>
      rw [hq]
      cases hf : (m.die p.die.val).failed with
      | false => rfl
      | true =>
        have hr := blk_retired_of_failed hf
        generalize m.blk p = b at hr
        obtain ⟨_, _, _, _, r, _⟩ := b
        cases hr
        rfl
    · rfl
  unfold eraseOne
  split
  · rfl
  · exact hblk

theorem reapOne_blk (m : Media) (x : Nat × Super) (q : Place) : (reapOne m x).blk q = m.blk q := by
  have hdrop : (m.dropParity x.1).blk q = m.blk q := by
    unfold Media.dropParity
    split <;> rfl
  unfold reapOne
  split
  · rfl
  split
  · rfl
  split
  · exact hdrop
  · rfl

theorem headless_startErases (m : Media) (q : Place) : headless (m.startErases.blk q) = headless (m.blk q) := by
  rw [startErases_eq]
  refine (foldl_keep (fun n : Media => headless (n.blk q)) _ (fun n p => headless_eraseOne n p q) _ _).trans ?_
  rw [reap_eq]
  exact congrArg headless (foldl_keep (fun n : Media => n.blk q) _ (fun n x => reapOne_blk n x q) _ _)

/-- What an erase leaves of its block, whatever erases start then (R178). -/
theorem startErases_blk (m : Media) (q : Place) : (m.startErases.blk q).erases = (m.blk q).erases ∧ (m.startErases.blk q).tlc = (m.blk q).tlc ∧
    (m.startErases.blk q).wear = (m.blk q).wear ∧ (m.startErases.blk q).reads = (m.blk q).reads ∧
    (m.startErases.blk q).closed = (m.blk q).closed ∧ (m.startErases.blk q).slots = (m.blk q).slots ∧
    (m.startErases.blk q).retired = (m.blk q).retired := by
  have h := headless_startErases m q
  generalize m.startErases.blk q = b at h
  generalize m.blk q = b' at h
  exact ⟨(congrArg Blk.erases h :), (congrArg Blk.tlc h :), (congrArg Blk.wear h :), (congrArg Blk.reads h :), (congrArg Blk.closed h :),
    (congrArg Blk.slots h :), (congrArg Blk.retired h :)⟩

theorem startErases_slots (m : Media) : m.startErases.content = m.content ∧ m.startErases.held = m.held :=
  ⟨(congrArg Media.content (unerased_startErases m) :), (congrArg Media.held (unerased_startErases m) :)⟩

/-- The block of an erase that passed. -/
def erasedBlk (tlc : Bool) (b : Blk) : Blk :=
  { Blk.fresh with erases := b.erases + 1, wear := b.wear + (if tlc then 100 else 15), suspect := b.suspect, tlc := tlc }

theorem erased_blk (m : Media) (p : Place) (tlc : Bool) : (m.erased p tlc).blk p = shownBlk (m.die p.die.val).failed (erasedBlk tlc (m.blk p)) := by
  have h := blk_modBlk m p p fun _ => erasedBlk tlc (m.blk p)
  rw [if_pos rfl] at h
  exact h

theorem erased_slots (m : Media) (p : Place) (tlc : Bool) : (m.erased p tlc).content = m.content ∧ (m.erased p tlc).held = m.held := ⟨rfl, rfl⟩

/-! A block that leaves service. -/

theorem retire_blk (p : Place) (s : State) : ((retire p s).med.blk p).retired = true ∧ ((retire p s).med.blk p).erases = (s.med.blk p).erases := by
  have hmod : ((s.med.modBlk p fun b => { b with retired := true }).blk p).retired = true ∧
      ((s.med.modBlk p fun b => { b with retired := true }).blk p).erases = (s.med.blk p).erases := by
    rw [blk_modBlk, if_pos rfl]
    cases (s.med.die p.die.val).failed <;> exact ⟨rfl, rfl⟩
  have hev : (mediaEvent 4 (blockDetail p) { s with med := s.med.modBlk p fun b => { b with retired := true } }).med =
      s.med.modBlk p fun b => { b with retired := true } := mediaEvent_med ..
  unfold retire
  dsimp only
  split
  · next hr => exact ⟨hr, rfl⟩
  generalize mediaEvent 4 (blockDetail p) { s with med := s.med.modBlk p fun b => { b with retired := true } } = u at hev
  rw [← hev] at hmod
  split
  · unfold enterEol
    split
    · exact hmod
    · rw [lifeRecalc_med, mediaEvent_med]
      exact hmod
  · rw [lifeRecalc_med]
    exact hmod

/-- The state in which a block that failed its erase has left service. -/
def eraseFailed (p : Place) (s : State) : State :=
  retire p (mediaEvent 2 (blockDetail p) (raiseFault (chanFrame p.die.val) 4
    { s with med := { s.med.answered p.die.val with intents := (s.med.answered p.die.val).intents.filter fun k => k != blkKey p } }))

theorem exec_nandErase {s : State} {p : Place} (tlc ok : Bool) (hon : s.mediaOn = true) (hin : blkKey p ∈ s.med.intents) :
    exec (.nandEraseComplete p tlc ok) s = .next (settle (
      if ok then { s with med := ((s.med.answered p.die.val).erased p tlc).startErases }
      else { eraseFailed p s with med := (eraseFailed p s).med.startErases })) := by
  have hguard : ¬(!s.mediaOn || !s.med.intents.contains (blkKey p)) = true := by simp [hon, hin]
  show execNandEraseComplete p tlc ok s = _
  unfold execNandEraseComplete
  rw [if_neg hguard]
  cases ok <;> rfl

theorem exec_nandErase_unmarked {s : State} {p : Place} (tlc ok : Bool) (hno : blkKey p ∉ s.med.intents) :
    exec (.nandEraseComplete p tlc ok) s = .next (settle s) := by
  have hguard : (!s.mediaOn || !s.med.intents.contains (blkKey p)) = true := by simp [hno]
  exact congrArg done (if_pos hguard)

theorem eraseFailed_facts (p : Place) (s : State) : (eraseFailed p s).med.content = s.med.content ∧ (eraseFailed p s).med.held = s.med.held ∧
    ((eraseFailed p s).med.blk p).retired = true ∧ ((eraseFailed p s).med.blk p).erases = (s.med.blk p).erases ∧ (eraseFailed p s).ram = s.ram := by
  obtain ⟨hretired, herases⟩ := retire_blk p (mediaEvent 2 (blockDetail p) (raiseFault (chanFrame p.die.val) 4
    { s with med := { s.med.answered p.die.val with intents := (s.med.answered p.die.val).intents.filter fun k => k != blkKey p } }))
  have hnoted : Noted s (eraseFailed p s) := by
    refine Noted.trans (t := { s with med := { s.med.answered p.die.val with
      intents := (s.med.answered p.die.val).intents.filter fun k => k != blkKey p } }) ⟨rfl, rfl, rfl⟩ ?_
    exact ((noted_chanFault ..).trans (noted_mediaEvent ..)).trans (noted_retire ..)
  have hstores := hnoted.stores
  simp only [slotStores, Prod.mk.injEq] at hstores
  obtain ⟨hheld, hcontent, -⟩ := hstores
  refine ⟨hcontent, hheld, hretired, herases.trans ?_, hnoted.ram⟩
  rw [mediaEvent_med, raiseFault_med]
  exact congrArg Blk.erases (blk_answered s.med p.die.val p)

/-! The verify read that passes. -/

/-- The media once every die has answered for a superblock, before its parity goes. -/
def verifiedMedia (k : Nat) (u : Super) (m : Media) : Media :=
  let n := u.dies.foldl (fun m d => m.answered d.val) m
  { n with supers := adjust n.supers k fun x => { x with verify := false, failing := [] } }

theorem exec_verifyRead {s : State} {k : Nat} {u : Super} (hlook : look s.med.supers k = some u) (hon : s.mediaOn = true) (hc : u.closed = true)
    (hv : u.verify = true) : exec (.verifyReadComplete k []) s =
      .next (settle { s with med := ((verifiedMedia k u s.med).dropParity k).startErases }) := by
  have hbad : u.members.filter (([] : List Place).contains ·) = [] := List.filter_eq_nil_iff.2 fun p _ => by simp
  have hdies : (u.dies.filter fun d => !(([] : List Place).any fun p => p.die == d)) = u.dies := List.filter_eq_self.2 fun d _ => rfl
  show execVerifyReadComplete k [] s = _
  unfold execVerifyReadComplete
  rw [hlook]
  dsimp only
  rw [hon, hc, hv, hbad, hdies]
  rfl

/-- All of the media but the dies, the blocks, the superblocks and what waits for its erase. -/
def unread (m : Media) : Media := { unerased m with dies := Vector.replicate 64 .reset }

theorem not_mem_of_look_none {α : Type} {m : AMap α} {i : Nat} (h : look m i = none) (x : α) : (i, x) ∉ m := by
  induction m with
  | nil => exact List.not_mem_nil
  | cons y m ih =>
    obtain ⟨k, v⟩ := y
    unfold look at h
    split at h
    · cases h
    · next hk =>
      rw [List.mem_cons, not_or]
      exact ⟨fun he => hk (congrArg Prod.fst he).symm, ih h⟩

/-- A key that one entry has. -/
theorem look_of_filter {α : Type} {m : AMap α} {k : Nat} {u : α} (hone : m.filter (fun x => x.1 == k) = [(k, u)]) :
    look m k = some u ∧ ∀ x ∈ m, x.1 = k → x.2 = u := by
  have hmem (x : Nat × α) (hx : x ∈ m) (hk : x.1 = k) : x.2 = u := by
    have : x ∈ m.filter fun x => x.1 == k := List.mem_filter.2 ⟨hx, by simp [hk]⟩
    rw [hone, List.mem_singleton] at this
    rw [this]
  have hin : (k, u) ∈ m := List.mem_of_mem_filter (show (k, u) ∈ m.filter fun x => x.1 == k by rw [hone]; exact List.mem_singleton_self _)
  refine ⟨?_, hmem⟩
  cases h : look m k with
  | none => exact absurd hin (not_mem_of_look_none h u)
  | some v => exact congrArg some (hmem (k, v) (mem_of_look h) rfl)

theorem verified_facts {s : State} {k : Nat} {u : Super} (hone : s.med.supers.filter (fun x => x.1 == k) = [(k, u)]) (n : Media)
    (hn : n = (verifiedMedia k u s.med).dropParity k) :
    n.content = s.med.content ∧ n.held = s.med.held ∧ look n.supers k = some { u with verify := false, failing := [], parity := [] } ∧
    (∀ x ∈ n.supers, x.1 = k → x.2.failing = [] ∧ x.2.members = u.members) ∧ ∀ p ∈ u.parity, p ∈ n.toErase := by
  have hanswered : unread (u.dies.foldl (fun m d => m.answered d.val) s.med) = unread s.med := 
    foldl_keep unread (fun (m : Media) (d : Fin 64) => m.answered d.val) (fun m d => rfl) _ _
  have hsupers : (u.dies.foldl (fun m d => m.answered d.val) s.med).supers = s.med.supers :=
    foldl_keep Media.supers (fun (m : Media) (d : Fin 64) => m.answered d.val) (fun m d => rfl) _ _
  have hverified : (verifiedMedia k u s.med).supers = adjust s.med.supers k fun x => { x with verify := false, failing := [] } :=
    congrArg (fun l : AMap Super => adjust l k fun x => { x with verify := false, failing := [] }) hsupers
  obtain ⟨hlook, hmem⟩ := look_of_filter hone
  have hadj : look (verifiedMedia k u s.med).supers k = some { u with verify := false, failing := [] } := by
    rw [hverified, look_adjust, if_pos rfl, hlook]
    rfl
  have hentry (x : Nat × Super) (hx : x ∈ (verifiedMedia k u s.med).supers) (hk : x.1 = k) : x.2 = { u with verify := false, failing := [] } := by
    rw [hverified] at hx
    obtain ⟨y, hy, rfl⟩ := List.mem_map.1 hx
    by_cases hyk : y.1 = k
    · rw [if_pos hyk]
      exact congrArg (fun v : Super => { v with verify := false, failing := [] }) (hmem y hy hyk)
    · rw [if_neg hyk] at hk
      exact absurd hk hyk
  have hdrop : n = { verifiedMedia k u s.med with
      supers := put (verifiedMedia k u s.med).supers k { u with verify := false, failing := [], parity := [] }
      toErase := (verifiedMedia k u s.med).toErase ++ u.parity } := by
    rw [hn, Media.dropParity, hadj]
  rw [hdrop]
  refine ⟨(congrArg Media.content hanswered :), (congrArg Media.held hanswered :), look_put_self .., fun x hx hk => ?_,
    fun p hp => List.mem_append_right _ hp⟩
  rcases mem_put hx with rfl | hx
  · exact ⟨rfl, rfl⟩
  · rw [hentry x hx hk]
    exact ⟨rfl, rfl⟩

/-! A die that answers no more (R146). -/

theorem die_vmod (m : Media) (d : Fin 64) (f : Die → Die) : Media.die { m with dies := vmod m.dies d.val f } d.val = f (m.die d.val) := by
  show ((vmod m.dies d.val f)[d.val]?).getD .reset = f ((m.dies[d.val]?).getD .reset)
  rw [vmod_getElem?, if_pos rfl, Vector.getElem?_eq_getElem d.isLt]
  rfl

/-- The die of a timeout, its run counted. -/
def timedOut (d : Fin 64) (s : State) : State :=
  { raiseFault (chanFrame d.val) 8 s with med := { s.med with dies := vmod s.med.dies d.val fun x => { x with timeouts := (s.med.die d.val).timeouts + 1 } } }

theorem exec_dieTimeout {s : State} {d : Fin 64} (hrun : s.running = true) (hf : (s.med.die d.val).failed = false) :
    exec (.dieStatusTimeout d) s = .next (settle (if 3 ≤ (s.med.die d.val).timeouts + 1 then failDie d (timedOut d s) else timedOut d s)) := by
  have hguard : ¬(!s.running || (s.med.die d.val).failed) = true := by simp [hrun, hf]
  have hmed : (raiseFault (chanFrame d.val) 8 s).med = s.med := raiseFault_med ..
  show execDieStatusTimeout d s = _
  unfold execDieStatusTimeout
  rw [if_neg hguard]
  dsimp only
  rw [hmed]
  rfl

/-- The dies and the Held data in DRAM are as they were. -/
structure DiesHeld (s u : State) : Prop where
  dies : u.med.dies = s.med.dies
  held : u.med.held = s.med.held

theorem DiesHeld.trans {s t u : State} (h : DiesHeld s t) (h' : DiesHeld t u) : DiesHeld s u := ⟨h'.dies.trans h.dies, h'.held.trans h.held⟩

theorem diesHeld_of_med {s u : State} (h : u.med = s.med) : DiesHeld s u := ⟨congrArg Media.dies h, congrArg Media.held h⟩

theorem diesHeld_foldl {α : Type} (f : State → α → State) (h : ∀ s x, DiesHeld s (f s x)) (xs : List α) (s : State) : DiesHeld s (xs.foldl f s) := by
  induction xs generalizing s with
  | nil => exact ⟨rfl, rfl⟩
  | cons x xs ih => exact (h s x).trans (ih _)

theorem diesHeld_markUnrec (p : Option Place) (k : Nat) (s : State) : DiesHeld s (markUnrec p k s) := by
  unfold markUnrec
  split
  · exact ⟨rfl, rfl⟩
  · refine DiesHeld.trans (t := { s with med := { s.med with unrec := s.med.unrec ++ [k] }
                                         health := { s.health with unrecEver := s.health.unrecEver + 1 } }) ⟨rfl, rfl⟩ (diesHeld_of_med ?_)
    dsimp only
    cases p with
    | none => exact mediaEvent_med ..
    | some p => exact (mediaEvent_med ..).trans (raiseFault_med ..)

theorem diesHeld_readStripe (p : Place) (s : State) : DiesHeld s (readStripe p s) := by
  have hcount (m : Media) (q : Place) : (m.countReads q 1).dies = m.dies ∧ (m.countReads q 1).held = m.held := ⟨rfl, rfl⟩
  exact ⟨foldl_keep Media.dies _ (fun m q => (hcount m q).1) _ _, foldl_keep Media.held _ (fun m q => (hcount m q).2) _ _⟩

theorem diesHeld_parityRebuild (p : Place) (s : State) : DiesHeld s (parityRebuild p s) :=
  (diesHeld_readStripe p s).trans (diesHeld_of_med ((mediaEvent_med ..).trans (raiseFault_med ..)))

/-- DRAM holds data of a slot, with its write sequence. -/
def Holds (m : Media) (k : Nat) (x : HeldSlot) : Prop := ∃ y, look m.held k = some y ∧ y.data = x.data ∧ y.wseq = x.wseq

theorem holds_landAll {k : Nat} {x : HeldSlot} (xs : List (Nat × Slot4k)) {m : Media} (h : Holds m k x)
    (hold : ∀ z ∈ xs, z.1 = k → z.2.wseq < x.wseq) : Holds (xs.foldl (fun m z => m.land z.1 z.2) m) k x := by
  refine List.foldlRecOn (motive := fun n : Media => Holds n k x) _ _ h fun n hn z hz => ?_
  obtain ⟨y, hy, hdata, hw⟩ := hn
  unfold Holds
  rw [look_held_land]
  split
  · next hk =>
    have hlt := hold z hz hk.symm
    rw [← hk, hy, Option.bind_some, if_neg (by omega)]
    exact ⟨_, rfl, hdata, hw⟩
  · exact ⟨y, hy, hdata, hw⟩

/-- Slots that the card programs itself leave newer data in DRAM, and the dies. -/
theorem programNow_facts (xs : List (Nat × Slot4k)) (s : State) : (programNow xs s).med.dies = s.med.dies ∧
    ∀ k x, Holds s.med k x → (∀ z ∈ xs, z.1 = k → z.2.wseq < x.wseq) → Holds (programNow xs s).med k x := by
  have hjoin : ∃ j, (if ((xs.map fun x => x.1).filter fun k => !s.scanKey k).isEmpty then s.med
      else s.med.addRec ((xs.map fun x => x.1).filter fun k => !s.scanKey k) s.now) = { s.med with jrnl := j } := by
    split <;> exact ⟨_, rfl⟩
  obtain ⟨j, hj⟩ := hjoin
  have hmed : ∃ may, (programNow xs s).med = (Media.stage { s.med with jrnl := j } xs).submit may [] := by
    unfold programNow
    dsimp only
    rw [hj]
    exact ⟨_, rfl⟩
  obtain ⟨may, hmed⟩ := hmed
  have hkeep := undriven_submit (Media.stage { s.med with jrnl := j } xs) may []
  have hdies : (Media.stage { s.med with jrnl := j } xs).dies = s.med.dies :=
    (congrArg Media.dies (steady_landAll xs { s.med with jrnl := j, queue := s.med.queue ++ chunksOf none xs }) :)
  rw [hmed]
  refine ⟨(congrArg Media.dies hkeep :).trans hdies, fun k x h hold => ?_⟩
  have hheld : ((Media.stage { s.med with jrnl := j } xs).submit may []).held = (Media.stage { s.med with jrnl := j } xs).held :=
    (congrArg Media.held hkeep :)
  unfold Holds
  rw [hheld]
  exact holds_landAll xs (m := { s.med with jrnl := j, queue := s.med.queue ++ chunksOf none xs }) h hold

theorem enterEol_facts (s : State) : (enterEol s).med.dies = s.med.dies ∧ (enterEol s).med.held = s.med.held ∧ (enterEol s).med.eol = true := by
  unfold enterEol
  split
  · next h => exact ⟨rfl, rfl, h⟩
  · rw [lifeRecalc_med, mediaEvent_med]
    exact ⟨rfl, rfl, rfl⟩

/-- A die is marked failed. -/
def dieMarked (d : Fin 64) (s : State) : State :=
  { s with med := { s.med with dies := vmod s.med.dies d.val fun x => { x with failed := true } } }

/-- The sound slots of a die, with their places. -/
def dieSlots (d : Fin 64) (m : Media) : List ((Nat × Slot4k) × Place) :=
  m.content.filterMap fun x => x.2.place.bind fun p => if p.die = d ∧ !m.unrec.contains x.1 then some (x, p) else none

theorem mem_dieSlots {d : Fin 64} {m : Media} {y : (Nat × Slot4k) × Place} (h : y ∈ dieSlots d m) : y.1 ∈ m.content := by
  obtain ⟨x, hx, hy⟩ := List.mem_filterMap.1 h
  obtain ⟨p, -, hp⟩ := Option.bind_eq_some_iff.1 hy
  split at hp
  · cases hp
    exact hx
  · cases hp

/-- Each slot of a failed die is marked, or rebuilt. -/
def dieRead (d : Fin 64) (s : State) : State :=
  (dieSlots d s.med).foldl (fun u y => if (s.med.blk y.2).closed || s.med.secondLoss y.2 then markUnrecovered y.2 y.1.1 u else parityRebuild y.2 u) s

/-- The slots of a failed die that its stripes rebuild are programmed again. -/
def dieRebuilt (d : Fin 64) (s : State) : State :=
  programNow (((dieSlots d s.med).filter fun y => !((s.med.blk y.2).closed || s.med.secondLoss y.2)).map fun y =>
    (y.1.1, { y.1.2 with place := none })) (dieRead d s)

/-- Every block of a failed die leaves service. -/
def dieRetired (d : Fin 64) (s : State) : State :=
  (List.finRange 4).foldl (fun s q =>
    (List.finRange 2800).foldl (fun s b =>
      if (s.med.blk ⟨d, q, b⟩).retired then s else mediaEvent 4 (blockDetail ⟨d, q, b⟩) s)
      { s with med := { s.med with spares := vput s.med.spares (d.val * 4 + q.val) 0 } }) s

theorem failDie_eq (d : Fin 64) (s : State) : failDie d s = enterEol (mediaEvent 9 0 (dieRetired d (dieRebuilt d (dieMarked d s)))) := rfl

theorem diesHeld_dieRead (d : Fin 64) (s : State) : DiesHeld s (dieRead d s) := by
  refine diesHeld_foldl _ (fun u y => ?_) _ s
  split
  · exact diesHeld_markUnrec ..
  · exact diesHeld_parityRebuild ..

theorem diesHeld_dieRetired (d : Fin 64) (s : State) : DiesHeld s (dieRetired d s) := by
  refine diesHeld_foldl _ (fun u q => ?_) _ s
  refine DiesHeld.trans (t := { u with med := { u.med with spares := vput u.med.spares (d.val * 4 + q.val) 0 } }) ⟨rfl, rfl⟩ ?_
  refine diesHeld_foldl _ (fun v b => ?_) _ _
  split
  · exact ⟨rfl, rfl⟩
  · exact diesHeld_of_med (mediaEvent_med ..)

/-- A die that fails takes the card to its end of life, and no newer data in DRAM (R146, R149). -/
theorem failDie_facts (d : Fin 64) (s : State) : ((failDie d s).med.die d.val).failed = true ∧ (failDie d s).med.eol = true ∧
    ∀ k x, look s.med.held k = some x → (∀ y ∈ s.med.content, y.1 = k → y.2.wseq < x.wseq) →
      ∃ y, look (failDie d s).med.held k = some y ∧ y.data = x.data ∧ y.wseq = x.wseq := by
  have hread := diesHeld_dieRead d (dieMarked d s)
  obtain ⟨hdies, hholds⟩ := programNow_facts (((dieSlots d (dieMarked d s).med).filter fun y =>
    !(((dieMarked d s).med.blk y.2).closed || (dieMarked d s).med.secondLoss y.2)).map fun y => (y.1.1, { y.1.2 with place := none }))
    (dieRead d (dieMarked d s))
  have hretired := (diesHeld_dieRetired d (dieRebuilt d (dieMarked d s))).trans
    (diesHeld_of_med (mediaEvent_med (dieRetired d (dieRebuilt d (dieMarked d s))) 9 0))
  obtain ⟨hedies, heheld, heol⟩ := enterEol_facts (mediaEvent 9 0 (dieRetired d (dieRebuilt d (dieMarked d s))))
  rw [failDie_eq]
  refine ⟨?_, heol, fun k x hx hold => ?_⟩
  · have hall : (enterEol (mediaEvent 9 0 (dieRetired d (dieRebuilt d (dieMarked d s))))).med.dies = (dieMarked d s).med.dies :=
      hedies.trans (hretired.dies.trans (hdies.trans hread.dies))
    unfold Media.die
    rw [hall]
    exact congrArg Die.failed (die_vmod s.med d fun x => { x with failed := true })
  · have hstart : Holds (dieRead d (dieMarked d s)).med k x := by
      refine ⟨x, ?_, rfl, rfl⟩
      rw [hread.held]
      exact hx
    have hmid : Holds (dieRebuilt d (dieMarked d s)).med k x := by
      refine hholds k x hstart fun z hz hk => ?_
      obtain ⟨y, hy, rfl⟩ := List.mem_map.1 hz
      exact hold y.1 (mem_dieSlots (List.mem_of_mem_filter hy)) hk
    obtain ⟨y, hy, hdata, hw⟩ := hmid
    refine ⟨y, ?_, hdata, hw⟩
    rw [heheld, hretired.held]
    exact hy

/-- Settles O52: what passed stands where its map entry points, what failed is on its way again; parity and blocks leave as their rows
say. -/
theorem programRows : Obligations.ProgramRows := by
  unfold Obligations.ProgramRows
  refine ⟨fun s id row t die fails hmov => ?_, fun s t p sb hrun hmov hp hpart hsb => ⟨fun k x hpages hheld hnew => ?_, fun hlen => ?_⟩,
    fun s k m hone hon hc hv => ?_, fun s pl tlc hon => ⟨fun hin => ⟨?_, ?_⟩, fun hno ok => exec_nandErase_unmarked tlc ok hno⟩,
    fun s d hrun hf => ⟨_, exec_dieTimeout hrun hf, fun hlt => ?_, fun hge => ?_⟩⟩
  · show execOneBitProgramComplete id die row t fails s = _
    unfold execOneBitProgramComplete
    cases s.med.progs.find? fun p => p.id == id && p.die == die && p.row == row with
    | none => rfl
    | some p => exact congrArg done (if_pos (by simp [hmov]))
  · obtain ⟨hslot, hothers, hheld', hprogs⟩ := endedProg_oneSlot hpages hsb hpart hheld hnew t
    obtain ⟨hram, hbcn⟩ := endedProg_keeps p t [] s
    exact ⟨_, exec_programComplete t [] hrun hmov hp, hslot, hothers, hheld', hprogs, hram, congrArg Bcn.pos hbcn⟩
  · obtain ⟨hcontent, hheld, hfl⟩ := endedProg_allFailed hp hlen hpart t
    obtain ⟨hram, hbcn⟩ := endedProg_keeps p t [0, 1, 2, 3] s
    refine ⟨_, exec_programComplete t [0, 1, 2, 3] hrun hmov hp, hcontent, hheld, hfl, fun pl hpl hd => ?_, hram, congrArg Bcn.pos hbcn⟩
    refine endedProg_suspects ?_ (mem_planes pl.plane) t
    unfold progBlocks
    rw [hsb, Option.elim_some]
    exact List.mem_filter.2 ⟨hpl, by simpa using hd⟩
  · obtain ⟨hlook, -⟩ := look_of_filter hone
    obtain ⟨hcontent, hheld, hafter, hall, hparity⟩ := verified_facts hone _ rfl
    obtain ⟨hgone, hstays⟩ := reap_verified hafter hall
    obtain ⟨hcontent', hheld'⟩ := startErases_slots ((verifiedMedia k m s.med).dropParity k)
    refine ⟨_, exec_verifyRead hlook hon hc hv, rfl, hcontent'.trans hcontent, hheld'.trans hheld, fun v hlv => ?_, fun p hp hin => ?_,
      fun p hp => leaving_startErases (.inl (hparity p hp))⟩
    · rw [startErases_supers] at hlv
      exact hgone v hlv
    · rw [startErases_supers, hstays ⟨p, hp, by unfold Media.inBlock at hin ⊢; rwa [hcontent]⟩]
      rfl
  · obtain ⟨hcontent, hheld⟩ := startErases_slots ((s.med.answered pl.die.val).erased pl tlc)
    obtain ⟨herases, htlc, hwear, hreads, hclosed, hslots, -⟩ := startErases_blk ((s.med.answered pl.die.val).erased pl tlc) pl
    have hblk : ((s.med.answered pl.die.val).erased pl tlc).blk pl = shownBlk ((s.med.answered pl.die.val).die pl.die.val).failed
        (erasedBlk tlc (s.med.blk pl)) := by rw [erased_blk, blk_answered]
    rw [hblk] at herases htlc hwear hreads hclosed hslots
    refine ⟨_, exec_nandErase tlc true hon hin, rfl, hcontent.trans rfl, hheld.trans rfl, herases.trans ?_, htlc.trans ?_, hwear.trans ?_,
      hreads.trans ?_, hclosed.trans ?_, hslots.trans ?_⟩ <;> unfold shownBlk <;> split <;> rfl
  · obtain ⟨hcontent, hheld, hretired, herases, hram⟩ := eraseFailed_facts pl s
    obtain ⟨hcontent', hheld'⟩ := startErases_slots (eraseFailed pl s).med
    obtain ⟨herases', -, -, -, -, -, hretired'⟩ := startErases_blk (eraseFailed pl s).med pl
    exact ⟨_, exec_nandErase tlc false hon hin, hcontent'.trans hcontent, hheld'.trans hheld, hretired'.trans hretired,
      herases'.trans herases, hram⟩
  · rw [if_neg (by omega)]
    refine ⟨?_, ?_, rfl, rfl, rfl⟩
    · exact congrArg Die.timeouts (die_vmod s.med d fun x => { x with timeouts := (s.med.die d.val).timeouts + 1 })
    · exact (congrArg Die.failed (die_vmod s.med d fun x => { x with timeouts := (s.med.die d.val).timeouts + 1 })).trans hf
  · rw [if_pos (by omega)]
    obtain ⟨hfailed, heol, hheld⟩ := failDie_facts d (timedOut d s)
    exact ⟨hfailed, heol, hheld⟩

end Sys2Proof.Proofs
end

section
/-! Reads of the media (R129, R130, R136, R139, R140). -/

namespace Sys2Proof.Proofs

open Sys2Proof Sys2Proof.Machine Sys2Proof.Laws

/-! Reads. -/

/-- A read notes its block: page reads count, and one that took three steps or more queues it (R130, R136). -/
theorem noteRead_shape (p : Place) (reads dec : Nat) (ok : Bool) (s : State) : ∃ n f,
    noteRead p reads dec ok s = { s with fresh := n, med := (s.med.answered p.die.val).modBlk p f } ∧
    ∀ b, (f b).reads = b.reads + reads ∧ (3 ≤ dec → (f b).refresh ≠ 0) ∧ (f b).patrol = b.patrol ∧ (f b).tlc = b.tlc := by
  have hf (v : Option Int) : ∀ b : Blk, ∀ c : Blk, c = { b with
      reads := b.reads + reads, offset := v, refresh := if 3 ≤ dec then max b.refresh 1 else b.refresh } →
      c.reads = b.reads + reads ∧ (3 ≤ dec → c.refresh ≠ 0) ∧ c.patrol = b.patrol ∧ c.tlc = b.tlc := by
    rintro b c rfl
    refine ⟨rfl, fun h => ?_, rfl, rfl⟩
    simp only [if_pos h]
    omega
  unfold noteRead
  by_cases h : ok ∧ dec = 8
  · rw [if_pos h]
    exact ⟨_, _, rfl, fun b => hf _ b _ rfl⟩
  · rw [if_neg h]
    exact ⟨_, _, rfl, fun b => hf _ b _ rfl⟩

/-- A mark changes the marks only, and leaves the slot marked or newer in DRAM (R140). -/
theorem markUnrec_med (p : Option Place) (k : Nat) (s : State) : ∃ l, (markUnrec p k s).med = { s.med with unrec := l } ∧
    (k ∈ l ∨ (look s.med.held k).isSome = true) := by
  unfold markUnrec
  split
  · next h =>
    refine ⟨s.med.unrec, rfl, ?_⟩
    simpa using h
  · refine ⟨s.med.unrec ++ [k], ?_, .inl (List.mem_append_right _ (List.mem_singleton_self k))⟩
    dsimp only
    cases p with
    | none => exact mediaEvent_med ..
    | some p => exact (mediaEvent_med ..).trans (raiseFault_med ..)

/-- Reads that pass or are rebuilt: the slots and the marks are as they were, and no block that is queued for refresh leaves the queue. -/
structure ReadOnly (m n : Media) : Prop where
  stores : slotStores n = slotStores m
  unrec  : n.unrec = m.unrec
  queued : ∀ p, (m.blk p).refresh ≠ 0 → (n.blk p).refresh ≠ 0

theorem ReadOnly.trans {l m n : Media} (h : ReadOnly l m) (h' : ReadOnly m n) : ReadOnly l n :=
  ⟨h'.stores.trans h.stores, h'.unrec.trans h.unrec, fun p hp => h'.queued p (h.queued p hp)⟩

theorem readOnly_self (m : Media) : ReadOnly m m := ⟨rfl, rfl, fun _ hp => hp⟩

theorem shownBlk_refresh (c : Bool) (b : Blk) : (shownBlk c b).refresh = b.refresh := by cases c <;> rfl

theorem shownBlk_reads (c : Bool) (b : Blk) : (shownBlk c b).reads = b.reads := by cases c <;> rfl

theorem readOnly_modBlk (m : Media) (p : Place) (f : Blk → Blk) (hf : ∀ b, b.refresh ≠ 0 → (f b).refresh ≠ 0) : ReadOnly m (m.modBlk p f) := by
  refine ⟨rfl, rfl, fun q hq => ?_⟩
  rw [blk_modBlk]
  split
  · next h =>
    rw [shownBlk_refresh]
    exact hf _ (h ▸ hq)
  · exact hq

theorem readOnly_countReads (m : Media) (p : Place) (n : Nat) : ReadOnly m (m.countReads p n) := readOnly_modBlk m p _ (by exact fun _ hb => hb)

theorem readOnly_queueRefresh (m : Media) (p : Place) (n : Nat) : ReadOnly m (m.queueRefresh p n) :=
  readOnly_modBlk m p _ (by exact fun _ hb => Nat.pos_iff_ne_zero.1 (Nat.lt_of_lt_of_le (Nat.pos_of_ne_zero hb) (Nat.le_max_left ..)))

theorem readOnly_readStripe (p : Place) (s : State) : ReadOnly s.med (readStripe p s).med :=
  List.foldlRecOn (motive := ReadOnly s.med) _ _ (readOnly_self s.med) fun m hm q _ => hm.trans (readOnly_countReads m q 1)

theorem parityRebuild_med (p : Place) (s : State) : (parityRebuild p s).med = (readStripe p s).med := (mediaEvent_med ..).trans (raiseFault_med ..)

/-- The card after a decode step of a block, with the fault that a deep step raises. -/
def stepRead (p : Place) (reads dec : Nat) (ok : Bool) (s : State) : State :=
  if 8 ≤ dec then raiseFault (chanFrame p.die.val) 9 (noteRead p reads dec ok s) else noteRead p reads dec ok s

theorem stepRead_med (p : Place) (reads dec : Nat) (ok : Bool) (s : State) : (stepRead p reads dec ok s).med = (noteRead p reads dec ok s).med := by
  unfold stepRead
  split
  · exact raiseFault_med ..
  · rfl

theorem noteRead_med (p : Place) (reads dec : Nat) (ok : Bool) (s : State) : slotStores (noteRead p reads dec ok s).med = slotStores s.med ∧
    (noteRead p reads dec ok s).med.unrec = s.med.unrec ∧ ((noteRead p reads dec ok s).med.blk p).reads = (s.med.blk p).reads + reads ∧
    (3 ≤ dec → ((noteRead p reads dec ok s).med.blk p).refresh ≠ 0) := by
  obtain ⟨n, f, h, hf⟩ := noteRead_shape p reads dec ok s
  obtain ⟨hreads, hrefresh, -⟩ := hf (s.med.blk p)
  have hblk := blk_modBlk (s.med.answered p.die.val) p p f
  rw [if_pos rfl, blk_answered] at hblk
  rw [h]
  refine ⟨rfl, rfl, ?_, fun hd => ?_⟩
  · rw [hblk, shownBlk_reads, hreads]
  · rw [hblk, shownBlk_refresh]
    exact hrefresh hd

/-- A read of a slot that is over, or whose step only counts (R129, R130, R139, R140). -/
def mediaRead (p : Place) (k dec : Nat) (ok : Bool) (s : State) : State :=
  let u := stepRead p (if dec = 8 then 2 else if dec < 8 then 1 else 0) dec ok s
  let u := if 8 < dec && s.med.guarded p && !ok then readStripe p u else u
  if ok && decide (dec ≤ 8) then u
  else if ok && s.med.guarded p then { parityRebuild p u with med := (parityRebuild p u).med.queueRefresh p 1 }
  else if ok || decide ((if s.med.guarded p then 9 else 8) ≤ dec) then markUnrecovered p k u
  else u

theorem exec_mediaRead {s : State} {p : Place} {nsid lba : Nat} {x : Slot4k} (hon : s.mediaOn = true)
    (hx : look s.med.content (slotKey nsid lba) = some x) (hp : x.place = some p) (dec : Nat) (ok : Bool) (around : Option (Nat × Nat)) :
    exec (.mediaReadComplete p (nsid, lba) dec ok around) s = .next (settle (
      if s.med.readAround p around then (if ok then parityRebuild p s else readStripe p s) else mediaRead p (slotKey nsid lba) dec ok s)) := by
  have hguard : ¬(!s.mediaOn || !((look s.med.content (slotKey nsid lba)).any fun x => x.place == some p)) = true := by
    simp [hon, hx, hp]
  show execMediaReadComplete p (nsid, lba) dec ok around s = _
  unfold execMediaReadComplete
  dsimp only
  rw [if_neg hguard]
  rfl

/-- What a read in the course of its steps leaves. -/
theorem readOnly_steps (p : Place) (reads dec : Nat) (ok b : Bool) (s : State) :
    ReadOnly (stepRead p reads dec ok s).med (if b then readStripe p (stepRead p reads dec ok s) else stepRead p reads dec ok s).med := by
  cases b with
  | false => exact readOnly_self _
  | true => exact readOnly_readStripe ..

theorem mark_keeps (p : Place) (k : Nat) (s : State) : (markUnrecovered p k s).med.content = s.med.content ∧
    (markUnrecovered p k s).med.held = s.med.held ∧ (∀ q, (markUnrecovered p k s).med.blk q = s.med.blk q) ∧
    (k ∈ (markUnrecovered p k s).med.unrec ∨ (look s.med.held k).isSome = true) := by
  obtain ⟨l, hl, hin⟩ := markUnrec_med (some p) k s
  unfold markUnrecovered
  rw [hl]
  exact ⟨rfl, rfl, fun _ => rfl, hin⟩

/-- A read of a slot of the media, by how it ends. -/
theorem mediaRead_facts (p : Place) (k dec : Nat) (ok : Bool) (s : State) :
    (mediaRead p k dec ok s).med.content = s.med.content ∧ (mediaRead p k dec ok s).med.held = s.med.held ∧
    (dec ≤ 8 → ((mediaRead p k dec ok s).med.blk p).reads = (s.med.blk p).reads + (if dec = 8 then 2 else 1)) ∧
    (3 ≤ dec → ((mediaRead p k dec ok s).med.blk p).refresh ≠ 0) ∧
    (ok = true → dec ≤ 8 ∨ s.med.guarded p = true → (mediaRead p k dec ok s).med.unrec = s.med.unrec) ∧
    (ok = false → dec < (if s.med.guarded p then 9 else 8) → (mediaRead p k dec ok s).med.unrec = s.med.unrec) ∧
    (ok = false → (if s.med.guarded p then 9 else 8) ≤ dec →
      k ∈ (mediaRead p k dec ok s).med.unrec ∨ (look s.med.held k).isSome = true) := by
  obtain ⟨hstores, hunrec, hreads, hrefresh⟩ := noteRead_med p (if dec = 8 then 2 else if dec < 8 then 1 else 0) dec ok s
  rw [← stepRead_med] at hstores hunrec hreads hrefresh
  have hsteps := readOnly_steps p (if dec = 8 then 2 else if dec < 8 then 1 else 0) dec ok (8 < dec && s.med.guarded p && !ok) s
  have hcount : dec ≤ 8 → ((if (decide (8 < dec) && s.med.guarded p && !ok) = true then
      readStripe p (stepRead p (if dec = 8 then 2 else if dec < 8 then 1 else 0) dec ok s)
      else stepRead p (if dec = 8 then 2 else if dec < 8 then 1 else 0) dec ok s).med.blk p).reads = (s.med.blk p).reads + (if dec = 8 then 2 else 1) := by
    intro h8
    rw [if_neg (by simp [Nat.not_lt.2 h8]), hreads]
    by_cases h : dec = 8
    · rw [if_pos h, if_pos h]
    · rw [if_neg h, if_neg h, if_pos (by omega)]
  unfold mediaRead
  dsimp only
  generalize (if (decide (8 < dec) && s.med.guarded p && !ok) = true then
      readStripe p (stepRead p (if dec = 8 then 2 else if dec < 8 then 1 else 0) dec ok s)
      else stepRead p (if dec = 8 then 2 else if dec < 8 then 1 else 0) dec ok s) = u at hsteps hcount
  have hstores' := hsteps.stores.trans hstores
  have hunrec' := hsteps.unrec.trans hunrec
  have hrefresh' : 3 ≤ dec → (u.med.blk p).refresh ≠ 0 := fun h => hsteps.queued p (hrefresh h)
  simp only [slotStores, Prod.mk.injEq] at hstores'
  obtain ⟨hheld, hcontent, -⟩ := hstores'
  generalize (if s.med.guarded p = true then 9 else 8) = last
  split
  · next h =>
    simp only [Bool.and_eq_true, decide_eq_true_eq] at h
    exact ⟨hcontent, hheld, hcount, hrefresh', fun _ _ => hunrec', fun hok => absurd h.1 (by simp [hok]), fun hok => absurd h.1 (by simp [hok])⟩
  split
  · next hno h =>
    simp only [Bool.and_eq_true, decide_eq_true_eq, not_and] at hno h
    have hrebuilt := (parityRebuild_med p u ▸ readOnly_readStripe p u : ReadOnly u.med (parityRebuild p u).med).trans (readOnly_queueRefresh _ p 1)
    have hst := hrebuilt.stores
    simp only [slotStores, Prod.mk.injEq] at hst
    obtain ⟨hheld'', hcontent'', -⟩ := hst
    exact ⟨hcontent''.trans hcontent, hheld''.trans hheld, fun h8 => absurd h8 (hno h.1), fun h3 => hrebuilt.queued p (hrefresh' h3),
      fun _ _ => hrebuilt.unrec.trans hunrec', fun hok => absurd h.1 (by simp [hok]), fun hok => absurd h.1 (by simp [hok])⟩
  obtain ⟨hmcontent, hmheld, hmblk, hmin⟩ := mark_keeps p k u
  split
  · next hno hno' h =>
    simp only [Bool.and_eq_true, Bool.or_eq_true, decide_eq_true_eq, not_and] at hno hno' h
    refine ⟨hmcontent.trans hcontent, hmheld.trans hheld, fun h8 => ?_, fun h3 => ?_, fun hok hor => ?_, fun hok hlt => ?_, fun _ _ => ?_⟩
    · rw [hmblk]
      exact hcount h8
    · rw [hmblk]
      exact hrefresh' h3
    · exact absurd hor (not_or.2 ⟨hno hok, hno' hok⟩)
    · exact absurd (h.resolve_left (by simp [hok])) (Nat.not_le.2 hlt)
    · rwa [hheld] at hmin
  · next hno hno' h =>
    simp only [Bool.and_eq_true, Bool.or_eq_true, decide_eq_true_eq, not_and, not_or] at hno hno' h
    exact ⟨hcontent, hheld, hcount, hrefresh', fun hok => absurd hok h.1, fun _ _ => hunrec', fun _ hle => absurd hle h.2⟩

end Sys2Proof.Proofs
end

section
/-! Copies (R15, R143, R145): where they land, and how one that fails is taken back. -/

namespace Sys2Proof.Proofs

open Sys2Proof Sys2Proof.Machine Sys2Proof.Laws

/-! What closing, failing and timing leave of the media. -/

/-- The media without what the closing of a superblock changes. -/
def unclosed (m : Media) : Media := { m with blocks := [], supers := [], parRows := 0, copied := [] }

theorem unclosed_closeFull (m : Media) (k : Nat) : unclosed (m.closeFull k) = unclosed m := by
  have hrows : unclosed (m.settleRows k) = unclosed m := by
    unfold Media.settleRows
    dsimp only
    (repeat' split) <;> rfl
  have hmod (m : Media) (p : Place) (f : Blk → Blk) : unclosed (m.modBlk p f) = unclosed m := rfl
  have hclose (m : Media) : unclosed (m.closeSuper k) = unclosed m := by
    unfold Media.closeSuper
    split
    · rfl
    · exact (foldl_keep unclosed _ (fun m p => hmod m p _) _ _).trans rfl
  unfold Media.closeFull
  dsimp only
  (repeat' split) <;> simp only [hclose, hrows]

/-- The media without what the failure of a block changes. -/
def unworn (m : Media) : Media := { m with blocks := [], supers := [], spares := Vector.replicate 256 0, eol := false }

theorem unworn_enterEol (s : State) : unworn (enterEol s).med = unworn s.med := by
  unfold enterEol
  split
  · rfl
  · rw [lifeRecalc_med, mediaEvent_med]
    rfl

theorem unworn_retire (p : Place) (s : State) : unworn (retire p s).med = unworn s.med := by
  have hev : (mediaEvent 4 (blockDetail p) { s with med := s.med.modBlk p fun b => { b with retired := true } }).med =
      s.med.modBlk p fun b => { b with retired := true } := mediaEvent_med ..
  unfold retire
  dsimp only
  split
  · rfl
  generalize mediaEvent 4 (blockDetail p) { s with med := s.med.modBlk p fun b => { b with retired := true } } = u at hev
  have hu : unworn u.med = unworn s.med := (congrArg unworn hev).trans rfl
  split
  · exact (unworn_enterEol u).trans hu
  · rw [lifeRecalc_med]
    exact (show unworn { u.med with spares := _ } = unworn u.med from rfl).trans hu

theorem unworn_failBlock (p : Place) (s : State) : unworn (failBlock p s).med = unworn s.med := by
  unfold failBlock
  dsimp only
  split
  · exact (unworn_retire ..).trans rfl
  · rfl

theorem unworn_programFail (p : Place) (s : State) : unworn (programFail p s).med = unworn s.med := by
  have hfail (u : State) : unworn (failBlock p (mediaEvent 1 (blockDetail p) (raiseFault (chanFrame p.die.val) 3 u))).med = unworn u.med := by
    rw [unworn_failBlock, mediaEvent_med, raiseFault_med]
  unfold programFail
  dsimp only
  cases s.med.superOf p with
  | none => exact hfail s
  | some x => exact (hfail { s with med := s.med.leaveDie x.1 p.die }).trans rfl

theorem eq_of_dies {m n : Media} (h : { n with dies := m.dies } = m) : n = { m with dies := n.dies } := by
  rw [← h]

/-- The time of a program is noted in its die (R147). -/
theorem noteTime_med (d : Nat) (tlc : Bool) (us : Nat) (s : State) : ∃ v, (noteTime d tlc us s).med = { s.med with dies := v } := by
  have hdetours (u : State) : { (checkDetours u).med with dies := u.med.dies } = u.med := by
    have hfold : ∀ (f : State → Nat → State), (∀ x d, { (f x d).med with dies := u.med.dies } = { x.med with dies := u.med.dies }) →
        ∀ l, { (List.foldl f u l).med with dies := u.med.dies } = { u.med with dies := u.med.dies } :=
      fun f hf l => foldl_keep (fun x : State => { x.med with dies := u.med.dies }) f (fun x d => hf x d) l u
    unfold checkDetours
    dsimp only
    rw [evalWarn_med]
    refine hfold _ (fun x d => ?_) _
    split
    · rw [raisePulse_med, mediaEvent_med]
    split
    · rw [raisePulse_med, mediaEvent_med]
    · rfl
  exact ⟨_, (eq_of_dies (hdetours _)).trans rfl⟩

/-! Copies (R15, R143, R145). -/

theorem copySpot_facts {m n : Media} {src p : Place} {d : Fin 64} {sb pos : Nat} (h : m.copySpot src d = some (sb, p, pos, n)) :
    stocked n = stocked m ∧ p.die = d := by
  unfold Media.copySpot at h
  obtain ⟨kind, -, h⟩ := Option.bind_eq_some_iff.1 h
  obtain ⟨⟨k, m1⟩, hopen, h⟩ := Option.bind_eq_some_iff.1 h
  obtain ⟨u, -, h⟩ := Option.bind_eq_some_iff.1 h
  dsimp only at h
  split at h
  · cases h
  · obtain ⟨q, hq, h⟩ := Option.map_eq_some_iff.1 h
    cases h
    have hdie := List.find?_some hq
    simp only [Bool.and_eq_true, beq_iff_eq] at hdie
    exact ⟨(show stocked _ = stocked m1 from rfl).trans (stocked_openOf hopen), hdie.1⟩

/-- A slot as a copy leaves it. -/
def copiedSlot (dst : Place) (pos : Nat) (x : Slot4k) : Slot4k := { x with place := some dst, pos := pos }

/-- The map points at a copy (R15, R166, R170). -/
def copyMapped (k : Nat) (src dst : Place) (pos old : Nat) (s : State) : State :=
  let m := s.med.heads ((look s.med.content k).toList.map fun x => (k, copiedSlot dst pos x))
  let m := if s.scanKey k then m else (m.addRec [k] s.now).keepShadow k
  let u := (countNand 4096 { s with med := { m.remap k with
    content := adjust m.content k (copiedSlot dst pos), copied := m.copied ++ [⟨k, src, old, dst, false⟩] } }).countScan [k]
  { u with med := u.med.foldMark (groupOf src.die.val) }

/-- A copy that failed leaves its slots at their sources (R145). -/
def copyFailed (dst : Place) (s : State) : State :=
  { programFail dst s with med := (programFail dst s).med.uncopy (fun k => !(programFail dst s).scanKey k) (programFail dst s).now dst }

/-- The superblock of a copy closes when it is full. -/
def copyDone (sb : Nat) (s : State) : State :=
  { setMedia 0 (s.med.closeFull sb) s with med := (s.med.closeFull sb).startErases }

/-- The time of the last copy of a row, or of a failing one, is noted. -/
def copyTimed (note : Bool) (d t : Nat) (m : Media) (s : State) : State :=
  if note then noteTime d true t { s with med := m } else { s with med := m }

theorem exec_copy {s : State} {src dst : Place} {die : Fin 64} {sb pos : Nat} {m : Media} (hon : s.mediaOn = true) (hw : s.windowClosed = false)
    (hspot : s.med.copySpot src die = some (sb, dst, pos, m)) (nsid lba t : Nat) (ok : Bool) :
    exec (.copyComplete nsid lba src die t ok) s = .next (settle (copyDone sb (
      if !ok then copyFailed dst (copyTimed (!ok || lastOfRow dst pos) die.val t m s)
      else if (look (copyTimed (!ok || lastOfRow dst pos) die.val t m s).med.content (slotKey nsid lba)).any fun x => x.place == some src then
        copyMapped (slotKey nsid lba) src dst pos
          ((look (copyTimed (!ok || lastOfRow dst pos) die.val t m s).med.content (slotKey nsid lba)).elim 0 fun x => x.pos)
          (copyTimed (!ok || lastOfRow dst pos) die.val t m s)
      else copyTimed (!ok || lastOfRow dst pos) die.val t m s))) := by
  show execCopyComplete nsid lba src die t ok s = _
  unfold execCopyComplete
  rw [hon, hw, hspot]
  rfl

theorem exec_copy_nowhere {s : State} {src : Place} {die : Fin 64} (hon : s.mediaOn = true) (hw : s.windowClosed = false)
    (hspot : s.med.copySpot src die = none) (nsid lba t : Nat) (ok : Bool) :
    exec (.copyComplete nsid lba src die t ok) s = .next (settle s) := by
  show execCopyComplete nsid lba src die t ok s = _
  unfold execCopyComplete
  rw [hon, hw, hspot]
  rfl

theorem copyTimed_med (note : Bool) (d t : Nat) (m : Media) (s : State) : ∃ v, (copyTimed note d t m s).med = { m with dies := v } := by
  unfold copyTimed
  split
  · exact noteTime_med d true t { s with med := m }
  · exact ⟨m.dies, rfl⟩

theorem copyDone_facts (sb : Nat) (s : State) : (copyDone sb s).med.content = s.med.content ∧ (copyDone sb s).med.held = s.med.held ∧
    (copyDone sb s).med.unrec = s.med.unrec ∧ ∀ p, (s.med.blk p).suspect = true → ((copyDone sb s).med.blk p).suspect = true := by
  have herase := unerased_startErases (s.med.closeFull sb)
  have hclose := unclosed_closeFull s.med sb
  refine ⟨(congrArg Media.content herase :).trans (congrArg Media.content hclose :), (congrArg Media.held herase :).trans (congrArg Media.held hclose :),
    (congrArg Media.unrec herase :).trans (congrArg Media.unrec hclose :), fun p hp => ?_⟩
  have h := congrArg Blk.suspect (headless_startErases (s.med.closeFull sb) p)
  exact (show ((s.med.closeFull sb).startErases.blk p).suspect = _ from h).trans (keepsSuspects_closeFull _ _ p hp)

theorem heads_facts (m : Media) (xs : List (Nat × Slot4k)) : (m.heads xs).content = m.content ∧ (m.heads xs).held = m.held ∧ (m.heads xs).unrec = m.unrec := by
  have h : (fun n : Media => (n.content, n.held, n.unrec)) (m.heads xs) = (m.content, m.held, m.unrec) := by
    refine foldl_keep (fun n : Media => (n.content, n.held, n.unrec)) _ (fun n x => ?_) xs m
    cases x.2.place <;> rfl
  simpa using h

theorem copyMapped_facts (k : Nat) (src dst : Place) (pos old : Nat) (s : State) :
    (copyMapped k src dst pos old s).med.content = adjust s.med.content k (copiedSlot dst pos) ∧
    (copyMapped k src dst pos old s).med.held = s.med.held ∧ (copyMapped k src dst pos old s).med.unrec = s.med.unrec := by
  obtain ⟨hcontent, hheld, hunrec⟩ := heads_facts s.med ((look s.med.content k).toList.map fun x => (k, copiedSlot dst pos x))
  have hjoin (m : Media) : ((m.addRec [k] s.now).keepShadow k).content = m.content ∧ ((m.addRec [k] s.now).keepShadow k).held = m.held ∧
      ((m.addRec [k] s.now).keepShadow k).unrec = m.unrec := by
    unfold Media.keepShadow
    split <;> exact ⟨rfl, rfl, rfl⟩
  generalize hm : s.med.heads ((look s.med.content k).toList.map fun x => (k, copiedSlot dst pos x)) = m at hcontent hheld hunrec
  have hn : ∃ n, (if s.scanKey k then m else (m.addRec [k] s.now).keepShadow k) = n ∧ n.content = m.content ∧ n.held = m.held ∧ n.unrec = m.unrec := by
    refine ⟨_, rfl, ?_⟩
    split
    · exact ⟨rfl, rfl, rfl⟩
    · exact hjoin m
  obtain ⟨n, hn, hncontent, hnheld, hnunrec⟩ := hn
  obtain ⟨hrheld, -, hrunrec⟩ := remap_stores n k
  unfold copyMapped
  rw [hm]
  dsimp only
  rw [hn]
  refine ⟨?_, ?_, ?_⟩
  · exact congrArg (fun c => adjust c k (copiedSlot dst pos)) (hncontent.trans hcontent)
  · exact hrheld.trans (hnheld.trans hheld)
  · exact hrunrec.trans (hnunrec.trans hunrec)

/-! Copies that are taken back. -/

/-- The map of a copied slot points at its source again. -/
def backTo (dst : Place) (cs : AMap Slot4k) (x : Copy) : AMap Slot4k :=
  adjust cs x.key fun y => if y.place = some dst then { y with place := some x.src, pos := x.pos } else y

theorem look_backTo_data (dst : Place) (xs : List Copy) (cs : AMap Slot4k) (j : Nat) :
    (look (xs.foldl (backTo dst) cs) j).map (fun x => (x.data, x.pi, x.wseq)) = (look cs j).map fun x => (x.data, x.pi, x.wseq) := by
  refine foldl_keep (fun cs : AMap Slot4k => (look cs j).map fun x => (x.data, x.pi, x.wseq)) _ (fun cs x => ?_) xs cs
  unfold backTo
  rw [look_adjust]
  split
  · cases look cs j with
    | none => rfl
    | some y =>
      rw [Option.map_some, Option.map_some, Option.map_some]
      split <;> rfl
  · rfl

theorem look_backTo_stays {dst : Place} {xs : List Copy} (hsrc : ∀ y ∈ xs, y.src ≠ dst) {cs : AMap Slot4k} {j : Nat} {x : Slot4k}
    (hx : look (xs.foldl (backTo dst) cs) j = some x) (hp : x.place = some dst) : look cs j = some x ∧ ∀ y ∈ xs, y.key ≠ j := by
  induction xs generalizing cs with
  | nil => exact ⟨hx, fun y hy => absurd hy List.not_mem_nil⟩
  | cons y xs ih =>
    obtain ⟨hlook, hkeys⟩ := ih (fun z hz => hsrc z (List.mem_cons_of_mem _ hz)) (cs := backTo dst cs y) hx
    unfold backTo at hlook
    rw [look_adjust] at hlook
    by_cases hj : j = y.key
    · rw [if_pos hj] at hlook
      obtain ⟨x0, -, hx0⟩ := Option.map_eq_some_iff.1 hlook
      split at hx0
      · rw [← hx0] at hp
        exact absurd (Option.some.inj hp) (hsrc y List.mem_cons_self)
      · next hno =>
        rw [hx0] at hno
        exact absurd hp hno
    · rw [if_neg hj] at hlook
      refine ⟨hlook, fun z hz => ?_⟩
      rcases List.mem_cons.1 hz with rfl | hz
      · exact Ne.symm hj
      · exact hkeys z hz

theorem uncopy_facts (m : Media) (held : Nat → Bool) (t : Nat) (dst : Place) : (m.uncopy held t dst).held = m.held ∧
    (m.uncopy held t dst).blocks = m.blocks ∧
    (m.uncopy held t dst).content = (m.copied.filter fun x => x.dst == dst).foldl (backTo dst) m.content := by
  have hkeep (n : Media) (k : Nat) : ((n.keepShadow k).held, (n.keepShadow k).blocks, (n.keepShadow k).content) = (n.held, n.blocks, n.content) := by
    unfold Media.keepShadow
    split <;> rfl
  have hfold (ks : List Nat) (n : Media) : ((ks.foldl Media.keepShadow n).held, (ks.foldl Media.keepShadow n).blocks,
      (ks.foldl Media.keepShadow n).content) = (n.held, n.blocks, n.content) :=
    foldl_keep (fun n : Media => (n.held, n.blocks, n.content)) _ hkeep ks n
  have hjoin (ks : List Nat) : ∃ n, (if ks.isEmpty then m else ks.foldl Media.keepShadow (m.addRec ks t)) = n ∧ n.held = m.held ∧
      n.blocks = m.blocks ∧ n.content = m.content := by
    refine ⟨_, rfl, ?_⟩
    split
    · exact ⟨rfl, rfl, rfl⟩
    · have h := hfold ks (m.addRec ks t)
      simp only [Prod.mk.injEq] at h
      exact h
  unfold Media.uncopy
  dsimp only
  obtain ⟨n, hn, hheld, hblocks, hcontent⟩ := hjoin (((m.copied.filter fun x => x.dst == dst).map fun x => x.key).filter held)
  rw [hn]
  exact ⟨hheld, hblocks, congrArg (fun cs : AMap Slot4k => (m.copied.filter fun x : Copy => x.dst == dst).foldl (backTo dst) cs) hcontent⟩

theorem copyFailed_facts (dst : Place) (s : State) : (copyFailed dst s).med.held = s.med.held ∧ ((copyFailed dst s).med.blk dst).suspect = true ∧
    (copyFailed dst s).med.content = (s.med.copied.filter fun x => x.dst == dst).foldl (backTo dst) s.med.content := by
  obtain ⟨hheld, hblocks, hcontent⟩ := uncopy_facts (programFail dst s).med (fun k => !(programFail dst s).scanKey k) (programFail dst s).now dst
  have hworn := unworn_programFail dst s
  have hheld' : (programFail dst s).med.held = s.med.held := (congrArg Media.held hworn :)
  have hcontent' : (programFail dst s).med.content = s.med.content := (congrArg Media.content hworn :)
  have hcopied' : (programFail dst s).med.copied = s.med.copied := (congrArg Media.copied hworn :)
  rw [hcopied', hcontent'] at hcontent
  refine ⟨hheld.trans hheld', ?_, hcontent⟩
  exact keepsSuspects_of_blocks hblocks dst (programFail_suspects dst s).2

end Sys2Proof.Proofs
end

section
/-! Patrol, folding, garbage collection and the map cache (R122, R125, R131, R136, R137, R402): settles O53. -/

namespace Sys2Proof.Proofs

open Sys2Proof Sys2Proof.Machine Sys2Proof.Laws

/-! Patrol. -/

/-- What patrol leaves of the card, and what it leaves of the block that it reads. -/
structure Patrolled (p : Place) (s u : State) : Prop where
  content : u.med.content = s.med.content
  held    : u.med.held = s.med.held
  unrec   : u.med.unrec = s.med.unrec
  ram     : u.ram = s.ram
  nv      : u.nv = s.nv
  ns      : u.ns = s.ns
  bcn     : u.bcn = s.bcn
  reads   : (u.med.blk p).reads = (s.med.blk p).reads
  refresh : (u.med.blk p).refresh = (s.med.blk p).refresh
  patrol  : (u.med.blk p).patrol = (s.med.blk p).patrol

theorem Patrolled.trans {p : Place} {s t u : State} (h : Patrolled p s t) (h' : Patrolled p t u) : Patrolled p s u :=
  ⟨h'.content.trans h.content, h'.held.trans h.held, h'.unrec.trans h.unrec, h'.ram.trans h.ram, h'.nv.trans h.nv, h'.ns.trans h.ns,
    h'.bcn.trans h.bcn, h'.reads.trans h.reads, h'.refresh.trans h.refresh, h'.patrol.trans h.patrol⟩

theorem patrolled_self (p : Place) (s : State) : Patrolled p s s := ⟨rfl, rfl, rfl, rfl, rfl, rfl, rfl, rfl, rfl, rfl⟩

/-- Only the dies and the health registers change, and no die fails. -/
theorem patrolled_dies (p : Place) {s : State} {v : Vector Die 64} (h : Health)
    (hv : ∀ e, (Media.die { s.med with dies := v } e).failed = (s.med.die e).failed) :
    Patrolled p s { s with med := { s.med with dies := v }, health := h } := by
  have hblk : Media.blk { s.med with dies := v } p = s.med.blk p := blk_congr rfl (hv _)
  exact ⟨rfl, rfl, rfl, rfl, rfl, rfl, rfl, congrArg Blk.reads hblk, congrArg Blk.refresh hblk, congrArg Blk.patrol hblk⟩

theorem patrolled_endRound (p : Place) (d : Nat) (s : State) : Patrolled p s (endRound d s) := by
  refine patrolled_dies p _ fun e => ?_
  show (((vput s.med.dies d _)[e]?).getD .reset).failed = ((s.med.dies[e]?).getD .reset).failed
  rw [vput_getElem?]
  split
  · next h =>
    subst h
    unfold Media.die
    cases s.med.dies[e]? <;> rfl
  · rfl

theorem patrolled_planInterval (p : Place) (s : State) : Patrolled p s (planInterval s) := by
  have hmed : (planInterval s).med = s.med := evalWarn_med _
  refine ⟨congrArg Media.content hmed, congrArg Media.held hmed, congrArg Media.unrec hmed, evalWarn_ram _, evalWarn_nv _, evalWarn_ns _,
    evalWarn_bcn _, ?_, ?_, ?_⟩ <;> rw [hmed]

/-- The drift of a page is noted (R402). -/
def driftNoted (d shift days : Nat) (s : State) : State :=
  { s with med := { s.med with dies := vmod s.med.dies d fun x => { x with shifts := (shift : Int) :: x.shifts } }
           health := { s.health with roundMax := vmod s.health.roundMax d fun r => max r (10 * shift / days) } }

theorem patrolled_driftNoted (p : Place) (d shift days : Nat) (s : State) : Patrolled p s (driftNoted d shift days s) := by
  refine patrolled_dies p _ fun e => ?_
  show (((vmod s.med.dies d _)[e]?).getD .reset).failed = ((s.med.dies[e]?).getD .reset).failed
  rw [vmod_getElem?]
  split
  · cases s.med.dies[e]? <;> rfl
  · rfl

/-- The last page of a block's part of the round, and the last block of the round. -/
def patrolEnded (p : Place) (round : Nat) (s : State) : State :=
  let u := if (s.med.blk p).patrol = 0 && !(s.med.blocks.any fun x => x.1 / 16384 == p.die.val && x.2.closed && !x.2.retired &&
    decide (x.2.passes < (s.med.blk p).passes)) then endRound p.die.val s else s
  if u.med.round = round then u else planInterval u

theorem patrolled_patrolEnded (p : Place) (round : Nat) (s : State) : Patrolled p s (patrolEnded p round s) := by
  have hlast := patrolled_endRound p p.die.val s
  unfold patrolEnded
  dsimp only
  split
  · split
    · exact hlast
    · exact hlast.trans (patrolled_planInterval ..)
  · split
    · exact patrolled_self p s
    · exact patrolled_planInterval ..

theorem patrolEnded_roundMax {p : Place} {s : State} (h : (s.med.blk p).patrol ≠ 0) (round : Nat) :
    (patrolEnded p round s).health.roundMax = s.health.roundMax := by
  unfold patrolEnded
  dsimp only
  split
  · next hc => exact absurd hc (by simp [h])
  · split <;> rfl

/-- A sampled page of a block is read and decodes (R137). -/
def patrolStep (p : Place) (reads dec : Nat) (weak : Bool) (s : State) : State :=
  let u := noteRead p reads dec (decide (dec ≤ 8)) s
  let u := { u with med := (if weak then u.med.queueRefresh p 1 else u.med).patrolled p }
  if 8 ≤ dec then raiseFault (chanFrame p.die.val) 9 u else u

theorem exec_patrol {s : State} {p : Place} {dec days : Nat} (hon : s.mediaOn = true) (hnext : s.med.patrolNext p = true) (h8 : dec ≤ 8)
    (hdays : days = 0 ∨ days = (s.med.blk p).age / 24) (weak : Bool) (shift : Nat) {sample : Prop} [Decidable sample]
    (hsample : (days ≠ 0 ∧ (s.med.blk p).tlc = true) ↔ sample) :
    exec (.patrolRead p (s.med.blk p).patrol dec weak shift days) s = .next (settle (patrolEnded p s.med.round (
      if ¬sample then patrolStep p ((if dec < 8 then dec + 1 else 10) + (if sample then 5 else 0)) dec weak s
      else driftNoted p.die.val shift days (patrolStep p ((if dec < 8 then dec + 1 else 10) + (if sample then 5 else 0)) dec weak s)))) := by
  have hguard : ¬(!s.mediaOn || !s.med.patrolNext p || (s.med.blk p).patrol != (s.med.blk p).patrol ||
      (days != 0 && days != (s.med.blk p).age / 24)) = true := by
    rcases hdays with h | h <;> simp [hon, hnext, h]
  show execPatrolRead p (s.med.blk p).patrol dec weak shift days s = _
  unfold execPatrolRead
  dsimp only
  rw [if_neg hguard]
  simp only [hsample, if_pos h8]
  rfl

theorem patrolled_round (m : Media) (p : Place) : ∃ g r, m.patrolled p = { m.modBlk p g with round := r } ∧
    ∀ b : Blk, (g b).reads = b.reads ∧ (g b).refresh = b.refresh ∧ (b.patrol + 1 < b.samples → (g b).patrol = b.patrol + 1) := by
  have hg : ∀ b : Blk, (if b.patrol + 1 < b.samples then { b with patrol := b.patrol + 1 } else { b with patrol := 0, passes := m.round + 1 }).reads = b.reads ∧
      (if b.patrol + 1 < b.samples then { b with patrol := b.patrol + 1 } else { b with patrol := 0, passes := m.round + 1 }).refresh = b.refresh ∧
      (b.patrol + 1 < b.samples →
        (if b.patrol + 1 < b.samples then { b with patrol := b.patrol + 1 } else { b with patrol := 0, passes := m.round + 1 }).patrol = b.patrol + 1) := by
    intro b
    split
    · exact ⟨rfl, rfl, fun _ => rfl⟩
    · next h => exact ⟨rfl, rfl, fun h' => absurd h' h⟩
  unfold Media.patrolled
  dsimp only
  split
  · exact ⟨_, _, rfl, hg⟩
  · exact ⟨_, _, rfl, hg⟩

theorem shownBlk_patrol (c : Bool) (b : Blk) : (shownBlk c b).patrol = b.patrol := by cases c <;> rfl

theorem shownBlk_tlc (c : Bool) (b : Blk) : (shownBlk c b).tlc = b.tlc := by cases c <;> rfl

/-- The media of a page that patrol has read. -/
theorem patrolStep_med (p : Place) (reads dec : Nat) (weak : Bool) (s : State) :
    slotStores (patrolStep p reads dec weak s).med = slotStores s.med ∧ (patrolStep p reads dec weak s).med.unrec = s.med.unrec ∧
    ((patrolStep p reads dec weak s).med.blk p).reads = (s.med.blk p).reads + reads ∧
    (weak = true ∨ 3 ≤ dec → ((patrolStep p reads dec weak s).med.blk p).refresh ≠ 0) ∧
    ((s.med.blk p).patrol + 1 < (s.med.blk p).samples → ((patrolStep p reads dec weak s).med.blk p).patrol = (s.med.blk p).patrol + 1) := by
  obtain ⟨n, f, hnote, hf⟩ := noteRead_shape p reads dec (decide (dec ≤ 8)) s
  obtain ⟨hfreads, hfrefresh, hfpatrol, hftlc⟩ := hf (s.med.blk p)
  have hblk := blk_modBlk (s.med.answered p.die.val) p p f
  rw [if_pos rfl, blk_answered] at hblk
  have hmed : (patrolStep p reads dec weak s).med =
      (if weak then (noteRead p reads dec (decide (dec ≤ 8)) s).med.queueRefresh p 1 else (noteRead p reads dec (decide (dec ≤ 8)) s).med).patrolled p := by
    unfold patrolStep
    dsimp only
    split
    · exact raiseFault_med ..
    · rfl
  rw [hmed, hnote]
  dsimp only
  generalize (s.med.answered p.die.val).die p.die.val = d at hblk
  have hqueued : ∃ m, (if weak then ((s.med.answered p.die.val).modBlk p f).queueRefresh p 1 else (s.med.answered p.die.val).modBlk p f) = m ∧
      slotStores m = slotStores s.med ∧ m.unrec = s.med.unrec ∧ (m.blk p).reads = (s.med.blk p).reads + reads ∧
      (weak = true ∨ 3 ≤ dec → (m.blk p).refresh ≠ 0) ∧ (m.blk p).patrol = (s.med.blk p).patrol ∧ (m.blk p).tlc = (s.med.blk p).tlc := by
    refine ⟨_, rfl, ?_⟩
    cases weak with
    | false =>
      rw [if_neg (by simp), hblk, shownBlk_reads, shownBlk_refresh, shownBlk_patrol, shownBlk_tlc]
      exact ⟨rfl, rfl, hfreads, fun h => hfrefresh (h.resolve_left (by simp)), hfpatrol, hftlc⟩
    | true =>
      have hq := blk_modBlk ((s.med.answered p.die.val).modBlk p f) p p fun b => { b with refresh := max b.refresh 1 }
      rw [if_pos rfl] at hq
      rw [if_pos rfl, Media.queueRefresh, hq, shownBlk_reads, shownBlk_refresh, shownBlk_patrol, shownBlk_tlc, hblk]
      refine ⟨rfl, rfl, (shownBlk_reads ..).trans hfreads, fun _ => ?_, (shownBlk_patrol ..).trans hfpatrol, (shownBlk_tlc ..).trans hftlc⟩
      exact Nat.pos_iff_ne_zero.1 (Nat.lt_of_lt_of_le Nat.one_pos (Nat.le_max_right ..))
  obtain ⟨m, hm, hstores, hunrec, hreads, hrefresh, hpatrol, htlc⟩ := hqueued
  obtain ⟨g, r, hg, hgb⟩ := patrolled_round m p
  obtain ⟨hgreads, hgrefresh, hgpatrol⟩ := hgb (m.blk p)
  have hblk' : (m.patrolled p).blk p = shownBlk (m.die p.die.val).failed (g (m.blk p)) := by
    rw [hg]
    exact (blk_modBlk m p p g).trans (if_pos rfl)
  rw [hm, hblk', shownBlk_reads, shownBlk_refresh, shownBlk_patrol, hg]
  refine ⟨hstores, hunrec, hgreads.trans hreads, fun h => ?_, fun h => ?_⟩
  · rw [hgrefresh]
    exact hrefresh h
  · unfold Blk.samples at hgpatrol h
    rw [hpatrol, htlc] at hgpatrol
    exact hgpatrol h

theorem patrolStep_frame (p : Place) (reads dec : Nat) (weak : Bool) (s : State) : (patrolStep p reads dec weak s).ram = s.ram ∧
    (patrolStep p reads dec weak s).nv = s.nv ∧ (patrolStep p reads dec weak s).ns = s.ns ∧ (patrolStep p reads dec weak s).bcn = s.bcn ∧
    (patrolStep p reads dec weak s).health = s.health := by
  obtain ⟨n, f, hnote, -⟩ := noteRead_shape p reads dec (decide (dec ≤ 8)) s
  unfold patrolStep
  rw [hnote]
  dsimp only
  split
  · rw [raiseFault_shape 9 _ (by unfold chanFrame; omega) (by unfold chanFrame; omega)]
    exact ⟨rfl, rfl, rfl, rfl, rfl⟩
  · exact ⟨rfl, rfl, rfl, rfl, rfl⟩

/-! The other rows. -/

theorem exec_readDisturb {s : State} (p : Place) (hon : s.mediaOn = true) : exec (.readDisturbRefresh p) s = .next (settle (
    if (s.med.blk p).reads < (s.med.blk p).readLimit then s
    else { s with med := s.med.queueRefresh p (if 2 * (s.med.blk p).readLimit ≤ (s.med.blk p).reads then 2 else 1) })) := by
  show execReadDisturbRefresh p s = _
  unfold execReadDisturbRefresh
  rw [hon]
  by_cases h : (s.med.blk p).reads < (s.med.blk p).readLimit
  · rw [if_pos h]
    exact congrArg done (if_pos (by simp [h]))
  · rw [if_neg h]
    exact congrArg done (if_neg (by simpa using h))

theorem refresh_queueRefresh (m : Media) (p : Place) {n : Nat} (h : 1 ≤ n) : 1 ≤ ((m.queueRefresh p n).blk p).refresh := by
  have hb := blk_modBlk m p p fun b => { b with refresh := max b.refresh n }
  rw [if_pos rfl] at hb
  rw [Media.queueRefresh, hb, shownBlk_refresh]
  exact Nat.le_trans h (Nat.le_max_right ..)

theorem group_vmod (m : Media) (g : Fin 2) (f : Group → Group) : Media.group { m with groups := vmod m.groups g.val f } g.val = f (m.group g.val) := by
  show ((vmod m.groups g.val f)[g.val]?).getD ⟨false, false⟩ = f ((m.groups[g.val]?).getD ⟨false, false⟩)
  rw [vmod_getElem?, if_pos rfl, Vector.getElem?_eq_getElem g.isLt]
  rfl

theorem gc_gcMarks (m : Media) (g : Fin 2) : ((m.gcMarks g.val).group g.val).gc =
    if 137438953472 ≤ m.free g.val then false else (m.group g.val).gc || decide (m.free g.val < 103079215104) || m.idle := by
  unfold Media.gcMarks
  rw [group_vmod]

theorem exec_foldStart {s : State} (g : Fin 2) (hon : s.mediaOn = true) : exec (.foldStart g) s = .next (settle { s with med := s.med.foldMark g.val }) :=
  congrArg done (if_pos hon)

theorem exec_gcStart {s : State} (g : Fin 2) (hon : s.mediaOn = true) : exec (.gcStart g) s = .next (settle { s with med := s.med.gcMarks g.val }) :=
  congrArg done (if_pos hon)

theorem touchPage_front (m : Media) (pg : Nat) (d : Bool) : ((m.touchPage pg d).cache[0]?).map (fun x => x.1) = some pg ∧
    (m.touchPage pg d).cached pg = true := by
  refine ⟨rfl, ?_⟩
  exact List.any_eq_true.2 ⟨_, List.mem_cons_self, beq_self_eq_true pg⟩

theorem readAround_none (m : Media) (p : Place) : m.readAround p none = false := by
  unfold Media.readAround
  exact Bool.and_false _

/-! Copies, and a page of patrol. -/

theorem copyTimed_stores (note : Bool) (d t : Nat) {m : Media} {s : State} (hm : stocked m = stocked s.med) (u : State) :
    let x := (copyTimed note d t m u).med
    x.content = s.med.content ∧ x.held = s.med.held ∧ x.unrec = s.med.unrec ∧ x.copied = s.med.copied := by
  obtain ⟨v, hv⟩ := copyTimed_med note d t m u
  dsimp only
  rw [hv]
  exact ⟨(congrArg Media.content hm :), (congrArg Media.held hm :), (congrArg Media.unrec hm :), (congrArg Media.copied hm :)⟩

/-- A copy that succeeds moves its slot while the map points at its source, and no data changes (R130, R166). -/
theorem copy_succeeds {s : State} {src dst : Place} {die : Fin 64} {sb pos : Nat} {m : Media} (hon : s.mediaOn = true)
    (hw : s.windowClosed = false) (hspot : s.med.copySpot src die = some (sb, dst, pos, m)) {nsid lba : Nat} (t : Nat) {x : Slot4k}
    (hx : look s.med.content (slotKey nsid lba) = some x) :
    ∃ u, exec (.copyComplete nsid lba src die t true) s = .next (settle u) ∧ u.med.held = s.med.held ∧
      look u.med.content (slotKey nsid lba) = some (if x.place = some src then { x with place := some dst, pos := pos } else x) ∧
      (∀ j, j ≠ slotKey nsid lba → look u.med.content j = look s.med.content j) ∧ u.med.unrec = s.med.unrec ∧ dst.die = die := by
  obtain ⟨hstocked, hdie⟩ := copySpot_facts hspot
  obtain ⟨hcontent, hheld, hunrec, -⟩ := copyTimed_stores (!true || lastOfRow dst pos) die.val t hstocked s
  have hexec := exec_copy hon hw hspot nsid lba t true
  rw [if_neg (by simp)] at hexec
  generalize copyTimed (!true || lastOfRow dst pos) die.val t m s = u at hcontent hheld hunrec hexec
  have hpoints : ((look u.med.content (slotKey nsid lba)).any fun x => x.place == some src) = true ↔ x.place = some src := by
    rw [hcontent, hx]
    simp
  by_cases hsrc : x.place = some src
  · rw [if_pos (hpoints.2 hsrc)] at hexec
    obtain ⟨c1, c2, c3⟩ := copyMapped_facts (slotKey nsid lba) src dst pos ((look u.med.content (slotKey nsid lba)).elim 0 fun x => x.pos) u
    obtain ⟨d1, d2, d3, -⟩ := copyDone_facts sb
      (copyMapped (slotKey nsid lba) src dst pos ((look u.med.content (slotKey nsid lba)).elim 0 fun x => x.pos) u)
    refine ⟨_, hexec, d2.trans (c2.trans hheld), ?_, fun j hj => ?_, d3.trans (c3.trans hunrec), hdie⟩
    · rw [d1, c1, look_adjust, if_pos rfl, hcontent, hx, if_pos hsrc]
      rfl
    · rw [d1, c1, look_adjust, if_neg hj, hcontent]
  · rw [if_neg fun h => hsrc (hpoints.1 h)] at hexec
    obtain ⟨d1, d2, d3, -⟩ := copyDone_facts sb u
    refine ⟨_, hexec, d2.trans hheld, ?_, fun j hj => ?_, d3.trans hunrec, hdie⟩
    · rw [d1, hcontent, hx, if_neg hsrc]
    · rw [d1, hcontent]

/-- A copy that fails changes no data, and its block is suspect (R129). -/
theorem copy_fails {s : State} {src dst : Place} {die : Fin 64} {sb pos : Nat} {m : Media} (hon : s.mediaOn = true)
    (hw : s.windowClosed = false) (hspot : s.med.copySpot src die = some (sb, dst, pos, m)) (nsid lba t : Nat) :
    ∃ u, exec (.copyComplete nsid lba src die t false) s = .next (settle u) ∧ u.med.held = s.med.held ∧
      (∀ j, (look u.med.content j).map (fun x => (x.data, x.pi, x.wseq)) = (look s.med.content j).map fun x => (x.data, x.pi, x.wseq)) ∧
      ((∀ y ∈ s.med.copied, y.dst = dst → y.src ≠ dst) → ∀ j x, look u.med.content j = some x → x.place = some dst →
        look s.med.content j = some x ∧ ∀ y ∈ s.med.copied, y.key = j → y.dst ≠ dst) ∧ (u.med.blk dst).suspect = true := by
  obtain ⟨hstocked, -⟩ := copySpot_facts hspot
  obtain ⟨hcontent, hheld, -, hcopied⟩ := copyTimed_stores (!false || lastOfRow dst pos) die.val t hstocked s
  have hexec := exec_copy hon hw hspot nsid lba t false
  rw [if_pos (by simp)] at hexec
  generalize copyTimed (!false || lastOfRow dst pos) die.val t m s = u at hcontent hheld hcopied hexec
  obtain ⟨c1, c2, c3⟩ := copyFailed_facts dst u
  obtain ⟨d1, d2, -, d4⟩ := copyDone_facts sb (copyFailed dst u)
  rw [hcopied, hcontent] at c3
  refine ⟨_, hexec, d2.trans (c1.trans hheld), fun j => ?_, fun hsrc j x hx hp => ?_, d4 dst c2⟩
  · rw [d1, c3]
    exact look_backTo_data ..
  · rw [d1, c3] at hx
    have hmine : ∀ y ∈ s.med.copied.filter (fun x => x.dst == dst), y.src ≠ dst := fun y hy => by
      obtain ⟨hy, hd⟩ := List.mem_filter.1 hy
      exact hsrc y hy (by simpa using hd)
    obtain ⟨hlook, hkeys⟩ := look_backTo_stays hmine hx hp
    exact ⟨hlook, fun y hy hk hd => hkeys y (List.mem_filter.2 ⟨hy, by simp [hd]⟩) hk⟩

/-- A page of patrol without a drift sample. -/
theorem patrol_plain {s : State} {pl : Place} {dec : Nat} (shift : Nat) (weak : Bool) (hon : s.mediaOn = true)
    (hnext : s.med.patrolNext pl = true) (h8 : dec ≤ 8) :
    ∃ u, exec (.patrolRead pl (s.med.blk pl).patrol dec weak shift 0) s = .next (settle u) ∧ u.med.content = s.med.content ∧
      u.med.held = s.med.held ∧ u.med.unrec = s.med.unrec ∧ u.ram = s.ram ∧ u.nv = s.nv ∧ u.ns = s.ns ∧ u.bcn.pos = s.bcn.pos ∧
      (u.med.blk pl).reads = (s.med.blk pl).reads + (if dec = 8 then 10 else dec + 1) ∧
      (weak = true ∨ 3 ≤ dec → (u.med.blk pl).refresh ≠ 0) := by
  obtain ⟨hstores, hunrec, hreads, hrefresh, -⟩ := patrolStep_med pl ((if dec < 8 then dec + 1 else 10) + 0) dec weak s
  obtain ⟨hram, hnv, hns, hbcn, -⟩ := patrolStep_frame pl ((if dec < 8 then dec + 1 else 10) + 0) dec weak s
  have hend := patrolled_patrolEnded pl s.med.round (patrolStep pl ((if dec < 8 then dec + 1 else 10) + 0) dec weak s)
  simp only [slotStores, Prod.mk.injEq] at hstores
  obtain ⟨hheld, hcontent, -⟩ := hstores
  refine ⟨_, exec_patrol hon hnext h8 (.inl rfl) weak shift (sample := False) (by simp), hend.content.trans hcontent, hend.held.trans hheld,
    hend.unrec.trans hunrec, hend.ram.trans hram, hend.nv.trans hnv, hend.ns.trans hns, congrArg Bcn.pos (hend.bcn.trans hbcn),
    (hend.reads.trans hreads).trans ?_, fun h => ?_⟩
  · by_cases h : dec = 8
    · rw [if_pos h, if_neg (by omega)]
    · rw [if_neg h, if_pos (by omega)]
  · exact fun h0 => hrefresh h (hend.refresh.symm.trans h0)

/-- A drift sample takes five reads more, and its rate is the shift by the powered days (R402). -/
theorem patrol_sampled {s : State} {pl : Place} {dec : Nat} (shift : Nat) (weak : Bool) (hon : s.mediaOn = true)
    (hnext : s.med.patrolNext pl = true) (h8 : dec ≤ 8) (htlc : (s.med.blk pl).tlc = true) (hage : 24 ≤ (s.med.blk pl).age)
    (hpat : (s.med.blk pl).patrol + 1 < 24) :
    ∃ u, exec (.patrolRead pl (s.med.blk pl).patrol dec weak shift ((s.med.blk pl).age / 24)) s = .next (settle u) ∧
      u.med.content = s.med.content ∧ u.med.unrec = s.med.unrec ∧
      (u.med.blk pl).reads = (s.med.blk pl).reads + (if dec = 8 then 10 else dec + 1) + 5 ∧
      u.health.roundMax[pl.die] = max s.health.roundMax[pl.die] (10 * shift / ((s.med.blk pl).age / 24)) := by
  have hday : (s.med.blk pl).age / 24 ≠ 0 := by omega
  obtain ⟨hstores, hunrec, hreads, -, hpatrol⟩ := patrolStep_med pl ((if dec < 8 then dec + 1 else 10) + 5) dec weak s
  obtain ⟨-, -, -, -, hhealth⟩ := patrolStep_frame pl ((if dec < 8 then dec + 1 else 10) + 5) dec weak s
  have hexec := exec_patrol hon hnext h8 (.inr rfl) weak shift (sample := True) (iff_true_intro ⟨hday, htlc⟩)
  have hdrift := patrolled_driftNoted pl pl.die.val shift ((s.med.blk pl).age / 24) (patrolStep pl ((if dec < 8 then dec + 1 else 10) + 5) dec weak s)
  have hmax : (driftNoted pl.die.val shift ((s.med.blk pl).age / 24) (patrolStep pl ((if dec < 8 then dec + 1 else 10) + 5) dec weak s)).health.roundMax =
      vmod s.health.roundMax pl.die.val fun r => max r (10 * shift / ((s.med.blk pl).age / 24)) := by
    rw [← hhealth]
    rfl
  rw [if_neg (by simp), if_pos trivial] at hexec
  generalize driftNoted pl.die.val shift ((s.med.blk pl).age / 24) (patrolStep pl ((if dec < 8 then dec + 1 else 10) + 5) dec weak s) = w at hexec hdrift hmax
  have hend := hdrift.trans (patrolled_patrolEnded pl s.med.round w)
  have hpat' : (w.med.blk pl).patrol ≠ 0 := by
    rw [hdrift.patrol, hpatrol (by rw [Blk.samples, htlc]; exact hpat)]
    exact Nat.succ_ne_zero _
  simp only [slotStores, Prod.mk.injEq] at hstores
  obtain ⟨-, hcontent, -⟩ := hstores
  refine ⟨_, hexec, hend.content.trans hcontent, hend.unrec.trans hunrec, (hend.reads.trans hreads).trans ?_, ?_⟩
  · rw [← Nat.add_assoc]
    by_cases h : dec = 8
    · rw [if_pos h, if_neg (by omega)]
    · rw [if_neg h, if_pos (by omega)]
  · rw [patrolEnded_roundMax hpat', hmax]
    exact vmod_get _ _ pl.die

/-- Settles O53: reads, copies and patrol by what each leaves of the slots and of its block. -/
theorem mediaRows : Obligations.MediaRows := by
  unfold Obligations.MediaRows
  refine ⟨fun s pl nsid lba dec ok x hon hx hp => ⟨⟨_, ?_, mediaRead_facts pl (slotKey nsid lba) dec ok s⟩, fun around ha => ?_⟩,
    fun s pl hon => ⟨fun hlt => ?_, fun hge => ?_⟩, fun s g hon =>
      ⟨⟨_, exec_foldStart g hon, rfl, ?_⟩, ⟨_, exec_gcStart g hon, rfl, fun hfree => ?_, fun hfree => ?_⟩⟩,
    fun s nsid lba t src die hon hw => ⟨fun hspot => exec_copy_nowhere hon hw hspot nsid lba t, fun sb pos dst m hspot =>
      ⟨fun x hx => copy_succeeds hon hw hspot t hx, copy_fails hon hw hspot nsid lba t⟩⟩,
    fun s pl dec shift weak hon => ⟨fun hnext page d => ?_, fun hnext h8 => patrol_plain shift weak hon hnext h8,
      fun hnext h8 htlc hage hpat => patrol_sampled shift weak hon hnext h8 htlc hage hpat⟩,
    fun s nsid page hop => ?_, fun s hop hw => ?_⟩
  · rw [exec_mediaRead hon hx hp, readAround_none, if_neg (by simp)]
  · rw [exec_mediaRead hon hx hp, ha, if_pos rfl]
  · rw [exec_readDisturb pl hon]
    exact congrArg (fun u => Host.Outcome.next (settle u)) (if_pos hlt)
  · refine ⟨{ s with med := s.med.queueRefresh pl (if 2 * (s.med.blk pl).readLimit ≤ (s.med.blk pl).reads then 2 else 1) }, ?_, rfl,
      refresh_queueRefresh _ _ (by split <;> decide)⟩
    rw [exec_readDisturb pl hon]
    exact congrArg (fun u => Host.Outcome.next (settle u)) (if_neg (Nat.not_lt.2 hge))
  · exact congrArg Group.folding (group_vmod s.med g _)
  · refine (gc_gcMarks s.med g).trans ?_
    rw [if_pos hfree]
  · have hno : ¬137438953472 ≤ s.med.free g.val := by omega
    refine (gc_gcMarks s.med g).trans ?_
    rw [if_neg hno, decide_eq_true hfree, Bool.or_true, Bool.true_or]
  · exact congrArg done (if_pos (by simp [hnext]))
  · exact ⟨_, congrArg done (if_pos hop), rfl, touchPage_front s.med (slotKey nsid page) false⟩
  · have hon : (s.operating && s.pwr.watch != .asleep) = true := by simp [hop, hw]
    exact congrArg done (if_pos hon)

end Sys2Proof.Proofs
end

section
/-! Record Append, queries and their results, Cycle Commit and Index Lookup (R74, R77, R82, R263, R268, R269): settles O54. -/

namespace Sys2Proof.Proofs

open Sys2Proof Sys2Proof.Machine Sys2Proof.Laws

/-! Record Append. -/

theorem used_of_fits {s : State} {r : Nat × Nat} {n : Ns} (h : s.fits r = true) (hn : look s.ns r.1 = some n) :
    n.st.used + s.reserved r.1 + r.2 ≤ n.bytes := by
  rw [State.fits, hn] at h
  exact of_decide_eq_true h

/-- A ring namespace with the room is not reclaimed. -/
theorem reclaim_of_fits {s : State} {r : Nat × Nat} (h : s.fits r = true) (fuel : Nat) : reclaim r.1 r.2 fuel s = s := by
  cases fuel with
  | zero => rfl
  | succ fuel =>
    unfold reclaim
    split
    · rfl
    · next n hn => exact if_pos (.inl (used_of_fits h hn))

theorem reclaims_of_fits {s : State} {rs : List (Nat × Nat)} (h : rs.all s.fits = true) :
    rs.foldl (fun s r => if s.isRing r.1 then reclaim r.1 r.2 4096 s else s) s = s := by
  refine List.foldlRecOn (motive := fun u => u = s) rs _ rfl fun u hu r hr => ?_
  subst hu
  split
  · exact reclaim_of_fits (List.all_eq_true.1 h r hr) _
  · rfl

theorem recordAppend_atEol {s : State} {h : Nat} {c : Cmd} (hio : s.io h 0x81 = some c) (heol : s.med.eol = true) :
    exec (.recordAppend h) s = .next (settle (fail h 7 0x89 s)) := by
  show execRecordAppend h s = _
  unfold execRecordAppend
  rw [hio]
  exact congrArg done (if_pos heol)

theorem recordAppend_reserves {s : State} {h : Nat} {c : Cmd} (hio : s.io h 0x81 = some c) (heol : s.med.eol = false)
    (hfits : ((s.needs c).map s.withTail).all s.fits = true) :
    exec (.recordAppend h) s =
      .next (settle (s.modCmd h fun x => { x with phase := .landing, resv := (s.needs c).map s.withTail })) := by
  have hany : ((s.needs c).map s.withTail).any (fun r => !s.fits r && !s.isRing r.1) = false := by
    refine List.any_eq_false.2 fun r hr => ?_
    simp [List.all_eq_true.1 hfits r hr]
  show execRecordAppend h s = _
  unfold execRecordAppend
  rw [hio]
  dsimp only
  rw [if_neg (ne_true_of_eq_false heol), if_neg (ne_true_of_eq_false hany), reclaims_of_fits hfits, hfits]
  rfl

theorem recordAppend_full {s : State} {h : Nat} {c : Cmd} (hio : s.io h 0x81 = some c) (heol : s.med.eol = false)
    (hfull : ∃ r ∈ (s.needs c).map s.withTail, s.fits r = false ∧ s.isRing r.1 = false) :
    exec (.recordAppend h) s = .next (settle (fail h 7 0x85 s)) := by
  obtain ⟨r, hr, hfit, hring⟩ := hfull
  have hany : ((s.needs c).map s.withTail).any (fun r => !s.fits r && !s.isRing r.1) = true :=
    List.any_eq_true.2 ⟨r, hr, by simp [hfit, hring]⟩
  show execRecordAppend h s = _
  unfold execRecordAppend
  rw [hio]
  dsimp only
  rw [if_neg (ne_true_of_eq_false heol), if_pos hany]
  rfl

/-! Queries. -/

theorem query_pipe (c : Cmd) : c.query.pipe = if c.qPipe = 0xFF then none else some c.qPipe := rfl

theorem query_pipe_of {c : Cmd} (h : c.qPipe ≠ 0xFF) : c.query.pipe = some c.qPipe := if_neg h

theorem query_pipe_none {c : Cmd} (h : c.qPipe = 0xFF) : c.query.pipe = none := if_pos h

/-- The queries that wait for the pipeline of a command's query. -/
def State.waitingFor (s : State) (c : Cmd) : Nat :=
  (s.queries.filter fun x => c.query.pipe.isSome && x.pipe == c.query.pipe && x.state == .waiting).length

theorem waitingFor_of {s : State} {c : Cmd} (h : c.qPipe ≠ 0xFF) : State.waitingFor s c =
    (s.queries.filter fun q => q.pipe.isSome && q.pipe == some c.qPipe && q.state == .waiting).length := by
  unfold State.waitingFor
  rw [query_pipe_of h]
  congr 2
  funext x
  cases hx : x.pipe <;> simp

theorem waitingFor_none {s : State} {c : Cmd} (h : c.qPipe = 0xFF) : State.waitingFor s c = 0 := by
  unfold State.waitingFor
  rw [query_pipe_none h]
  simp

/-- What ARC_QUERY makes of a query that is queued. -/
def queuedQuery (h : Nat) (c : Cmd) (s : State) : State :=
  if c.query.direct then runFree ({ s with queries := queued c.query s.queries }.modCmd h fun x => { x with phase := .query })
  else
    match s.freeSlotOf c.secure with
    | none => fail h 0 0x21 s
    | some k =>
      if 1073741824 < s.poolUsed + c.query.size then fail h 0 0x21 s else
      let gen := (((look s.slots k).elim 0 fun x => x.gen) + 1) % 65536
      let start := s.pwr.starts.toNat % 256
      let s := { s with
        slots := put s.slots k { gen := gen, state := .running, start := start, size := c.query.size, nsid := c.query.nsid, query := h
                                 answer := [] }
        queries := queued { c.query with slot := some k } s.queries }
      runFree (complete h 0 0 (w32 (start * 2 ^ 24 + gen * 256 + k)) 0 [] s)

/-- A query that is not relative to a Beacon in its fault, by the pipeline that it names. -/
theorem execArcQuery_of {s : State} {h : Nat} {c : Cmd} (hio : s.io h 0x82 = some c) (hrel : c.qRel = false) :
    exec (.arcQuery h) s = .next (settle (
      if c.query.pipe.isSome && (c.query.pipe.bind s.pipe).isNone then invalidField h s
      else if (c.query.pipe.bind s.pipe).any fun p => !s.pipeUp p then fail h 7 0x87 s
      else if 64 ≤ State.waitingFor s c then fail h 0 0x21 s
      else queuedQuery h c s)) := by
  show execArcQuery h s = _
  unfold execArcQuery
  rw [hio]
  dsimp only
  rw [hrel, Bool.false_and, if_neg Bool.false_ne_true]
  rfl

theorem queuedQuery_direct {h : Nat} {c : Cmd} {s : State} (hslot : c.slotted = false) : queuedQuery h c s =
    runFree ({ s with queries := queued c.query s.queries }.modCmd h fun x => { x with phase := .query }) :=
  if_pos (by rw [Cmd.query, hslot]; rfl)

/-! Results. -/

/-- The operands of a Fetch Result that R269 allows. -/
def Cmd.plainFetch (c : Cmd) : Bool :=
  c.allZero [2, 3, 4, 5, 14, 15] && fld (c.dword 11) 31 1 == 0 && (c.dword 12).toNat % 8 == 0 && (c.dword 13).toNat % 8 == 0 &&
    decide (8 ≤ (c.dword 13).toNat ∧ (c.dword 13).toNat ≤ 2097152)

theorem plainFetch_of {c : Cmd} (hz : c.allZero [2, 3, 4, 5, 14, 15] = true) (h11 : fld (c.dword 11) 31 1 = 0)
    (h12 : (c.dword 12).toNat % 8 = 0) (h13 : (c.dword 13).toNat % 8 = 0) (hlo : 8 ≤ (c.dword 13).toNat)
    (hhi : (c.dword 13).toNat ≤ 2097152) : Cmd.plainFetch c = true := by
  simp [Cmd.plainFetch, hz, h11, h12, h13, hlo, hhi]

/-- A fetch of a slot that there is. -/
theorem execFetchResult_slot {s : State} {h k : Nat} {c : Cmd} {x : Slot} (hio : s.io h 0x85 = some c) (hturn : s.resultTurn c = true)
    (hslot : s.slotOf (c.dword 10) = some (k, x)) (hns : x.nsid = c.nsid) (hplain : Cmd.plainFetch c = true)
    (hoff : (x.state == .ready && decide (x.answer.length ≤ (c.dword 12).toNat)) = false) :
    exec (.fetchResult h) s = .next (settle (
      if s.slotWorldAt c.epoch k != c.secure then regionDenied h s
      else if x.state = .running then fail h 7 0x80 s
      else complete h 0 0 (w32 (min (c.dword 13).toNat (x.answer.length - (c.dword 12).toNat))) (w32 x.answer.length)
        (slice x.answer (c.dword 12).toNat (min (c.dword 13).toNat (x.answer.length - (c.dword 12).toNat)))
        (if bit (c.dword 11) 0 then s else freeSlot k s))) := by
  show execFetchResult h s = _
  unfold execFetchResult
  unfold Cmd.plainFetch at hplain
  rw [hio]
  dsimp only
  rw [hturn, hslot]
  dsimp only
  rw [hplain, hoff, if_neg (not_not.2 hns)]
  rfl

theorem execFetchResult_gone {s : State} {h : Nat} {c : Cmd} (hio : s.io h 0x85 = some c) (hturn : s.resultTurn c = true)
    (hslot : s.slotOf (c.dword 10) = none) (hplain : Cmd.plainFetch c = true) :
    exec (.fetchResult h) s = .next (settle (slotGone h c s)) := by
  show execFetchResult h s = _
  unfold execFetchResult
  unfold Cmd.plainFetch at hplain
  rw [hio]
  dsimp only
  rw [hturn, hslot]
  dsimp only
  rw [hplain]
  rfl

theorem fetchResult_ready {s : State} {h k : Nat} {c : Cmd} {x : Slot} (hio : s.io h 0x85 = some c) (hturn : s.resultTurn c = true)
    (hslot : s.slotOf (c.dword 10) = some (k, x)) (hns : x.nsid = c.nsid) (hplain : Cmd.plainFetch c = true) (hready : x.state = .ready)
    (hoff : (c.dword 12).toNat < x.answer.length) (hworld : s.slotWorldAt c.epoch k = c.secure) :
    exec (.fetchResult h) s = .next (settle (
      complete h 0 0 (w32 (min (c.dword 13).toNat (x.answer.length - (c.dword 12).toNat))) (w32 x.answer.length)
        (slice x.answer (c.dword 12).toNat (min (c.dword 13).toNat (x.answer.length - (c.dword 12).toNat)))
        (if bit (c.dword 11) 0 then s else freeSlot k s))) := by
  rw [execFetchResult_slot hio hturn hslot hns hplain (by simp [hoff]), if_neg (by simp [hworld]), if_neg (by simp [hready])]

theorem fetchResult_otherWorld {s : State} {h k : Nat} {c : Cmd} {x : Slot} (hio : s.io h 0x85 = some c) (hturn : s.resultTurn c = true)
    (hslot : s.slotOf (c.dword 10) = some (k, x)) (hns : x.nsid = c.nsid) (hplain : Cmd.plainFetch c = true) (hready : x.state ≠ .ready)
    (hworld : s.slotWorldAt c.epoch k ≠ c.secure) : exec (.fetchResult h) s = .next (settle (regionDenied h s)) := by
  rw [execFetchResult_slot hio hturn hslot hns hplain (by simp [hready]), if_pos (bne_iff_ne.2 hworld)]

theorem fetchResult_running {s : State} {h k : Nat} {c : Cmd} {x : Slot} (hio : s.io h 0x85 = some c) (hturn : s.resultTurn c = true)
    (hslot : s.slotOf (c.dword 10) = some (k, x)) (hns : x.nsid = c.nsid) (hplain : Cmd.plainFetch c = true) (hrun : x.state = .running)
    (hworld : s.slotWorldAt c.epoch k = c.secure) : exec (.fetchResult h) s = .next (settle (fail h 7 0x80 s)) := by
  rw [execFetchResult_slot hio hturn hslot hns hplain (by simp [hrun]), if_neg (by simp [hworld]), if_pos hrun]

theorem releaseResult_ready {s : State} {h k : Nat} {c : Cmd} {x : Slot} (hio : s.io h 0x86 = some c) (hturn : s.resultTurn c = true)
    (hslot : s.slotOf (c.dword 10) = some (k, x)) (hns : x.nsid = c.nsid)
    (hz : c.allZero [2, 3, 4, 5, 6, 7, 8, 9, 11, 12, 13, 14, 15] = true) (hworld : s.slotWorldAt c.epoch k = c.secure)
    (hready : x.state = .ready) : exec (.releaseResult h) s = .next (settle (succeed h (freeSlot k s))) := by
  show execReleaseResult h s = _
  unfold execReleaseResult
  rw [hio]
  dsimp only
  rw [hturn, hslot]
  dsimp only
  rw [hz, if_neg (not_not.2 hns), if_neg (show ¬(s.slotWorldAt c.epoch k != c.secure) = true by simp [hworld]), if_pos hready]
  rfl

/-! Cycle Commit. -/

/-- The mark that a Cycle Commit forces, on the state in which its stamp was taken. -/
def forcedMark (h : Nat) (c : Cmd) (s : State) : PendingMark :=
  let u := (stampNow s.now s).2
  ⟨(stampNow s.now s).1, u.bcn.curEra, c.bound, 1 + (if u.bcn.com.zeroForce then 4 else 0) + (if u.bcn.inFault then 8 else 0), some h⟩

/-- The state with a forced mark pending. -/
def markForced (h : Nat) (c : Cmd) (s : State) : State :=
  (pendMark (forcedMark h c s) { (stampNow s.now s).2 with bcn := (stampNow s.now s).2.bcn.forced }).modCmd h fun x => { x with phase := .mark }

theorem execCycleCommit_of {s : State} {h : Nat} {c : Cmd} (hio : s.io h 0x89 = some c) (heol : s.med.eol = false) :
    exec (.cycleCommit h) s = .next (settle (markForced h c s)) := by
  show execCycleCommit h s = _
  unfold execCycleCommit
  rw [hio]
  dsimp only
  rw [if_neg (ne_true_of_eq_false heol)]
  rfl

theorem mem_pendMark (m : PendingMark) (s : State) : m ∈ (pendMark m s).med.pendMarks := by
  unfold pendMark
  simp

/-- Stamping at a position that does not move leaves the Beacon. -/
theorem stampNow_bcn {s : State} (hx : s.bcn.extrapolates = false) (t : Nat) : (stampNow t s).2.bcn = s.bcn := by
  show (if s.beaconOn then bcnApply (s.bcn.advance t s.commitOk) s else s).bcn = s.bcn
  split
  · rw [advance_of_not_extrapolates _ _ _ hx, bcnApply_bcn]
  · rfl

theorem stampNow_frame (s : State) (t : Nat) : let u := (stampNow t s).2
    u.med.content = s.med.content ∧ u.med.held = s.med.held ∧ u.ram = s.ram ∧ u.nv = s.nv := by
  have hpos : OnlyPosition s (if s.beaconOn then bcnApply (s.bcn.advance t s.commitOk) s else s) := by
    split
    · exact bcnApply_onlyPosition _ _
    · exact onlyPosition_refl s
  obtain ⟨hfields, hmed, -, -⟩ := hpos
  exact ⟨(congrArg Media.content hmed :), (congrArg Media.held hmed :), (congrArg State.ram hfields :), (congrArg State.nv hfields :)⟩

/-! Index Lookup. -/

/-- Whether a lookup meets records of Lots that are still on their way. -/
def State.lookupWaits (s : State) (c : Cmd) : Bool :=
  s.lotsMeeting c.nsid fun r => c.meets (fld (c.dword 10) 3 0) r.seq (recStamp r.bytes) r.era

/-- The index pages that a lookup uses. -/
def lookupPages (s : State) (c : Cmd) : List Nat :=
  if fld (c.dword 10) 3 0 ≤ 1 then ((lookupRecords s c (fld (c.dword 10) 3 0)).flatMap Stored.extents).dedup else []

theorem indexLookup_answers {s : State} {h : Nat} {c : Cmd} (hio : s.io h 0x8A = some c)
    (hnow : 2 ≤ fld (c.dword 10) 3 0 ∨ State.lookupWaits s c = false) :
    ∃ u, exec (.indexLookup h) s = .next (settle (complete h 0 0 0 0 (lookup s c) u)) ∧
      u = { s with med := { s.med with idx := u.med.idx } } := by
  have hgo : (decide (fld (c.dword 10) 3 0 ≤ 1) && State.lookupWaits s c) = false := by
    rcases hnow with hk | hw
    · rw [decide_eq_false (by omega), Bool.false_and]
    · rw [hw, Bool.and_false]
  unfold State.lookupWaits at hgo
  refine ⟨{ s with med := s.med.touchIndex c.nsid (lookupPages s c) false }, ?_, rfl⟩
  show execIndexLookup h s = _
  unfold execIndexLookup
  rw [hio]
  dsimp only
  rw [if_neg (ne_true_of_eq_false hgo)]
  rfl

theorem indexLookup_waits {s : State} {h : Nat} {c : Cmd} (hio : s.io h 0x8A = some c) (hk : fld (c.dword 10) 3 0 ≤ 1)
    (hw : State.lookupWaits s c = true) :
    exec (.indexLookup h) s = .next (settle (s.modCmd h fun x => { x with begun := true })) := by
  unfold State.lookupWaits at hw
  show execIndexLookup h s = _
  unfold execIndexLookup
  rw [hio]
  dsimp only
  rw [hw, decide_eq_true hk]
  rfl

/-- Settles O54: each row of the stream commands, by its checks in their order; a ring namespace with the room is not reclaimed, and
stamping moves nothing but the position. -/
theorem streamRows : Obligations.StreamRows := by
  unfold Obligations.StreamRows
  refine ⟨?_, ?_, ?_, ?_, ?_, ?_, ?_⟩
  · exact fun s h c hio => ⟨recordAppend_atEol hio, fun heol => ⟨recordAppend_reserves hio heol, recordAppend_full hio heol⟩⟩
  · intro s h c hio hrel p hp hne
    subst hp
    have hrow := execArcQuery_of hio hrel
    rw [query_pipe_of hne, Option.bind_some, waitingFor_of hne] at hrow
    refine ⟨fun hx => ?_, fun x hx hdown => ?_, fun x hx hup hslot hroom => ?_⟩ <;> rw [hrow, hx]
    · rfl
    · simp [hdown]
    · rw [if_neg (by simp), if_neg (by simp [hup]), if_neg (Nat.not_le.2 hroom), queuedQuery_direct hslot]
  · intro s h k c x hio hturn hslot hns hz h11 h12 h13 hlo hhi
    have hplain := plainFetch_of hz h11 h12 h13 hlo hhi
    exact ⟨fun hready hoff hworld => ⟨_, rfl, fetchResult_ready hio hturn hslot hns hplain hready hoff hworld⟩,
      fun hworld hready => fetchResult_otherWorld hio hturn hslot hns hplain hready hworld,
      fun hworld hrun => fetchResult_running hio hturn hslot hns hplain hrun hworld⟩
  · exact fun s h k c x hio hturn hslot hns hz hworld hready => releaseResult_ready hio hturn hslot hns hz hworld hready
  · intro s h c hio hturn hslot hz h11 h12 h13 hlo hhi hworld
    rw [execFetchResult_gone hio hturn hslot (plainFetch_of hz h11 h12 h13 hlo hhi)]
    unfold slotGone
    rw [if_neg (by simp [hworld])]
  · intro s h c hio heol
    obtain ⟨hcontent, hheld, hram, -⟩ := stampNow_frame s s.now
    refine ⟨_, _, execCycleCommit_of hio heol, mem_pendMark _ _, rfl, rfl, hcontent, hheld, hram, fun hx => ?_⟩
    have hb := stampNow_bcn hx s.now
    unfold forcedMark
    dsimp only
    refine ⟨?_, ?_, ?_⟩
    · exact (congrArg (fun b : Bcn => b.com.num) hb :)
    · rw [hb]
    · rw [hb]
  · intro s h c hio kind hk
    subst hk
    exact ⟨indexLookup_answers hio, indexLookup_waits hio⟩

end Sys2Proof.Proofs
end

section
/-! Issue and retirement of Lots, start of queries (R17, R22, R23, R192, R249, R263, R264): settles O55 and O59. -/

namespace Sys2Proof.Proofs

open Sys2Proof Sys2Proof.Machine Sys2Proof.Laws

/-! Choosing a Stall. -/

/-- A Stall that can take a Lot. -/
def State.takes (s : State) (n : Nat) : Bool := decide ((s.stall n).lots.length < 2) && (s.stall n).stops.isEmpty

/-- A Stall is chosen before another: it has fewer Lots, or both have none and it is idle for longer. -/
def State.beats (s : State) (n m : Nat) : Prop :=
  (s.stall n).lots.length < (s.stall m).lots.length ∨
    ((s.stall n).lots.length = 0 ∧ (s.stall m).lots.length = 0 ∧ (s.stall n).idleAt < (s.stall m).idleAt)

theorem beats_iff (s : State) (n m : Nat) : State.beats s n m ↔
    ((s.stall n).lots.length < (s.stall m).lots.length ∨
      ((s.stall n).lots = [] ∧ (s.stall m).lots = [] ∧ (s.stall n).idleAt < (s.stall m).idleAt)) := by
  rw [← List.length_eq_zero_iff, ← List.length_eq_zero_iff, State.beats]

theorem beats_of_not_beats {s : State} {n m x : Nat} (h : State.beats s n m) (h' : ¬ State.beats s x m) : State.beats s n x := by
  unfold State.beats at *
  omega

theorem beats_trans {s : State} {n m x : Nat} (h : State.beats s n m) (h' : State.beats s m x) : State.beats s n x := by
  unfold State.beats at *
  omega

theorem not_beats_self (s : State) (n : Nat) : ¬ State.beats s n n := by
  unfold State.beats
  omega

/-- The first of the best Stalls among those that can take a Lot. -/
structure Best (s : State) (ns : List Nat) (n : Nat) : Prop where
  mem   : n ∈ ns
  takes : State.takes s n = true
  first : ∀ m ∈ ns, State.takes s m = true → State.beats s n m ∨ (¬ State.beats s m n ∧ ns.idxOf n ≤ ns.idxOf m)

theorem pickStall_append_of_not_takes {s : State} {ns : List Nat} {m : Nat} (h : State.takes s m = false) :
    pickStall s (ns ++ [m]) = pickStall s ns := by
  unfold State.takes at h
  unfold pickStall
  rw [List.filter_append, List.filter_cons, h]
  simp

open Classical in
theorem pickStall_append_of_takes {s : State} {ns : List Nat} {m : Nat} (h : State.takes s m = true) :
    pickStall s (ns ++ [m]) = some ((pickStall s ns).elim m fun b => if State.beats s m b then m else b) := by
  unfold State.takes at h
  unfold pickStall
  rw [List.filter_append, List.filter_cons, h, List.foldl_append]
  simp only [if_true, List.filter_nil, List.foldl_cons, List.foldl_nil]
  split
  · next hb => rw [hb]; rfl
  · next b hb =>
    rw [hb, Option.elim_some]
    simp only [beats_iff]
    split <;> rfl

theorem best_single {s : State} {ns : List Nat} {m : Nat} (hm : State.takes s m = true) (hns : ∀ x ∈ ns, State.takes s x = false) :
    Best s (ns ++ [m]) m := by
  refine ⟨by simp, hm, fun x hx hok => ?_⟩
  rcases List.mem_append.1 hx with hx | hx
  · exact absurd (hok.symm.trans (hns x hx)) (by decide)
  · obtain rfl := List.mem_singleton.1 hx
    exact .inr ⟨not_beats_self s x, le_refl _⟩

/-- A Stall that beats the best takes its place. -/
theorem Best.replaced {s : State} {ns : List Nat} {b m : Nat} (hb : Best s ns b) (hm : State.takes s m = true) (h : State.beats s m b) :
    Best s (ns ++ [m]) m := by
  refine ⟨by simp, hm, fun x hx hok => ?_⟩
  rcases List.mem_append.1 hx with hx | hx
  · rcases hb.first x hx hok with hbx | ⟨hxb, -⟩
    · exact .inl (beats_trans h hbx)
    · exact .inl (beats_of_not_beats h hxb)
  · obtain rfl := List.mem_singleton.1 hx
    exact .inr ⟨not_beats_self s x, le_refl _⟩

/-- The best stays when what joins does not beat it. -/
theorem Best.kept {s : State} {ns : List Nat} {b m : Nat} (hb : Best s ns b) (h : State.takes s m = true → ¬ State.beats s m b) :
    Best s (ns ++ [m]) b := by
  refine ⟨List.mem_append_left _ hb.mem, hb.takes, fun x hx hok => ?_⟩
  rw [List.idxOf_append_of_mem hb.mem]
  by_cases hxs : x ∈ ns
  · rw [List.idxOf_append_of_mem hxs]
    exact hb.first x hxs hok
  · obtain rfl : x = m := by simpa [hxs] using hx
    rw [List.idxOf_append_of_notMem hxs]
    exact .inr ⟨h hok, (List.idxOf_le_length).trans (Nat.le_add_right ..)⟩

theorem pickStall_spec (s : State) (ns : List Nat) :
    (∀ n, pickStall s ns = some n → Best s ns n) ∧ (pickStall s ns = none → ∀ m ∈ ns, State.takes s m = false) := by
  induction ns using List.reverseRecOn with
  | nil => exact ⟨fun n hn => absurd hn (by simp [pickStall]), fun _ _ hm => absurd hm List.not_mem_nil⟩
  | append_singleton ns m ih =>
    obtain ⟨hsome, hnone⟩ := ih
    cases hm : State.takes s m with
    | false =>
      rw [pickStall_append_of_not_takes hm]
      refine ⟨fun n hn => (hsome n hn).kept fun h => absurd (h.symm.trans hm) (by decide), fun hn x hx => ?_⟩
      rcases List.mem_append.1 hx with hx | hx
      · exact hnone hn x hx
      · exact List.mem_singleton.1 hx ▸ hm
    | true =>
      rw [pickStall_append_of_takes hm]
      refine ⟨fun n hn => ?_, fun hn => nomatch hn⟩
      have hn := Option.some.inj hn
      cases hb : pickStall s ns with
      | none =>
        rw [hb, Option.elim_none] at hn
        exact hn ▸ best_single hm (hnone hb)
      | some b =>
        rw [hb, Option.elim_some] at hn
        by_cases h : State.beats s m b
        · rw [if_pos h] at hn
          exact hn ▸ (hsome b hb).replaced hm h
        · rw [if_neg h] at hn
          exact hn ▸ (hsome b hb).kept fun _ => h

theorem takes_iff {s : State} {n : Nat} : State.takes s n = true ↔ (s.stall n).lots.length < 2 ∧ (s.stall n).stops = [] := by
  simp [State.takes]

/-- The choice of a Stall, as R23 says it. -/
theorem pickStall_best {s : State} {ns : List Nat} {n : Nat} (h : pickStall s ns = some n) :
    n ∈ ns ∧ (s.stall n).lots.length < 2 ∧ (s.stall n).stops = [] ∧
      ∀ m ∈ ns, (s.stall m).lots.length < 2 → (s.stall m).stops = [] →
        (s.stall n).lots.length < (s.stall m).lots.length ∨
        ((s.stall n).lots.length = (s.stall m).lots.length ∧ ((s.stall n).lots = [] → (s.stall n).idleAt ≤ (s.stall m).idleAt) ∧
          (((s.stall n).lots = [] → (s.stall n).idleAt = (s.stall m).idleAt) → ns.idxOf n ≤ ns.idxOf m)) := by
  obtain ⟨hmem, htakes, hfirst⟩ := (pickStall_spec s ns).1 n h
  obtain ⟨hlen, hstops⟩ := takes_iff.1 htakes
  refine ⟨hmem, hlen, hstops, fun m hm hl hs => ?_⟩
  have hcase := hfirst m hm (takes_iff.2 ⟨hl, hs⟩)
  unfold State.beats at hcase
  rw [← List.length_eq_zero_iff]
  omega

/-! Issue. -/

theorem paused_of_awake {s : State} (h : s.pwr.watch = .awake) (q : Query) : s.paused q = false := by
  rw [State.paused, h]
  rfl

theorem any_paused_of_awake {s : State} (h : s.pwr.watch = .awake) (q : Option Query) : q.any s.paused = false := by
  cases q with
  | none => rfl
  | some q => exact paused_of_awake h q

/-- A Lot is with a Stall, which has not begun it. -/
def handed (lot n : Nat) (s : State) : State :=
  ((latchFull s).modLot lot fun l => { l with state := .issued n }).modStall n fun t => { t with lots := t.lots ++ [lot] }

/-- A Lot goes to a Stall, which begins it when it has no other. -/
def issued (lot n : Nat) (s : State) : State :=
  if (s.stall n).lots.isEmpty then startLot n (handed lot n s) else handed lot n s

/-- A Lot can be issued: it is the first that waits for a running pipeline that is not gate-only. -/
structure Issuable (s : State) (lot : Nat) (l : Lot) (p : Pipe) : Prop where
  operating : s.operating = true
  awake     : s.pwr.watch = .awake
  lot       : s.lot lot = some l
  pipe      : l.pipe.bind s.pipe = some p
  waiting   : l.state = .waiting
  taken     : p.gateOnly = false
  running   : p.running = true
  cool      : s.therm.shutting = false
  first     : ((s.lots.filter fun x => x.pipe == l.pipe && x.state == .waiting)[0]?) = some l

theorem lotIssue_of {s : State} {lot : Nat} {l : Lot} {p : Pipe} (h : Issuable s lot l p) : exec (.lotIssue lot) s = .next (settle (
    if ((s.takers p).filter fun n => !l.tried.contains n).isEmpty then failLot l false s
    else (pickStall s ((s.takers p).filter fun n => !l.tried.contains n)).elim s fun n => issued lot n s)) := by
  obtain ⟨hop, haw, hlot, hpipe, hwait, hgate, hrun, hcool, hfirst⟩ := h
  show execLotIssue lot s = _
  unfold execLotIssue
  rw [hlot]
  dsimp only
  rw [hpipe]
  dsimp only
  rw [hop, haw, hwait, hgate, hrun, hcool, hfirst, any_paused_of_awake haw]
  simp only [Option.any_some, lot_id hlot, beq_self_eq_true]
  rw [if_neg (by simp)]
  cases pickStall s ((s.takers p).filter fun n => !l.tried.contains n) <;> rfl

/-- The Stall that is chosen takes the Lot. -/
theorem lotIssue_picked {s : State} {lot n : Nat} {l : Lot} {p : Pipe} (h : Issuable s lot l p)
    (hn : pickStall s ((s.takers p).filter fun n => !l.tried.contains n) = some n) :
    exec (.lotIssue lot) s = .next (settle (issued lot n s)) := by
  have hne : ¬((s.takers p).filter fun n => !l.tried.contains n).isEmpty = true := fun he => by
    rw [List.isEmpty_iff.1 he] at hn
    exact absurd hn (by simp [pickStall])
  rw [lotIssue_of h, if_neg hne, hn]
  rfl

theorem stall_handed_self (lot : Nat) (n : Fin 64) (s : State) :
    (handed lot n.val s).stall n.val = { s.stall n.val with lots := (s.stall n.val).lots ++ [lot] } :=
  stall_modStall_self _ _ _ n.isLt

theorem stall_handed_ne (lot : Nat) {n m : Nat} (h : m ≠ n) (s : State) : (handed lot n s).stall m = s.stall m :=
  stall_modStall_ne _ _ _ _ h

theorem lot_handed {lot : Nat} {s : State} {l : Lot} (n : Nat) (h : s.lot lot = some l) :
    (handed lot n s).lot lot = some { l with state := .issued n } :=
  lot_modLot_self (s := latchFull s) (f := fun l => { l with state := .issued n }) h fun _ => rfl

/-- A Stall begins its Lot, before a Lot that was issued before is reported. -/
def begunLot (n id : Nat) (l : Lot) (im : Image) (s : State) : State :=
  (s.modLot id fun l => { l with issues := l.issues + 1 }).setStall n
    (Stall.pend 11 { s.stall n with
      budget := ((l.recs.filter fun r => r.pass).map fun r => im.term r.bytes.length).foldl (· + ·) 0
      elapsed := 0, stage := .idle, rec_ := 0, cycles := 0 })

/-- The report of a Lot that was issued before touches the event registers and the marks that wait. -/
theorem reissued_shape (l : Lot) (s : State) : let u := raiseFault 0x25 2 (lateMarks l s)
    u = { s with ev := u.ev, med := { s.med with pendMarks := u.med.pendMarks } } := by
  dsimp only
  rw [raiseFault_shape 2 (lateMarks l s) (by decide) (by decide)]
  rfl

theorem startLot_of_image {s : State} {n id : Nat} {l : Lot} {im : Image} (hlots : (s.stall n).lots = [id]) (hlot : s.lot id = some l)
    (him : (s.stall n).image = some im) : startLot n s =
      if 0 < l.issues then raiseFault 0x25 2 (lateMarks l (begunLot n id l im s)) else begunLot n id l im s := by
  unfold startLot begunLot
  dsimp only
  rw [hlots]
  dsimp only
  rw [hlot, him]

/-- What follows from a Stall's start on a Lot, but for the report. -/
structure BegunLot (s : State) (n : Fin 64) (id : Nat) (l : Lot) (u : State) : Prop where
  shape  : u = { s with lots := u.lots, stalls := u.stalls, ev := u.ev, med := { s.med with pendMarks := u.med.pendMarks } }
  lots   : (u.stall n.val).lots = [id]
  others : ∀ m, m ≠ n.val → u.stall m = s.stall m
  lot    : ∃ k, u.lot id = some { l with issues := k }
  begun  : ∀ im, (s.stall n.val).image = some im → (u.stall n.val).stage = .idle ∧ (u.stall n.val).elapsed = 0 ∧
    (u.stall n.val).budget = ((l.recs.filter fun r => r.pass).map fun r => im.term r.bytes.length).foldl (· + ·) 0

theorem begunLot_facts {s : State} {n : Fin 64} {id : Nat} {l : Lot} {im : Image} (hlots : (s.stall n.val).lots = [id])
    (hlot : s.lot id = some l) (him : (s.stall n.val).image = some im) : BegunLot s n id l (begunLot n.val id l im s) := by
  have hself := stall_setStall_self (s.modLot id fun l => { l with issues := l.issues + 1 }) n.val
    (Stall.pend 11 { s.stall n.val with
      budget := ((l.recs.filter fun r => r.pass).map fun r => im.term r.bytes.length).foldl (· + ·) 0
      elapsed := 0, stage := .idle, rec_ := 0, cycles := 0 }) n.isLt
  refine ⟨rfl, ?_, fun m hm => stall_setStall_ne _ _ _ _ hm, ⟨_, lot_modLot_self hlot fun _ => rfl⟩, fun im' him' => ?_⟩
  · exact (congrArg Stall.lots hself).trans ((pend_lots ..).trans hlots)
  · obtain rfl := Option.some.inj (him.symm.trans him')
    unfold begunLot
    rw [hself]
    unfold Stall.pend
    split <;> exact ⟨rfl, rfl, rfl⟩

/-- A Stall begins its Lot. -/
theorem startLot_facts {s : State} {n : Fin 64} {id : Nat} {l : Lot} (hlots : (s.stall n.val).lots = [id]) (hlot : s.lot id = some l) :
    BegunLot s n id l (startLot n.val s) := by
  cases him : (s.stall n.val).image with
  | none =>
    have hstart : startLot n.val s = s := by
      unfold startLot
      dsimp only
      rw [hlots]
      dsimp only
      rw [hlot, him]
    rw [hstart]
    exact ⟨rfl, hlots, fun _ _ => rfl, ⟨l.issues, hlot⟩, fun im h => absurd (him.symm.trans h) (by simp)⟩
  | some im =>
    have hbegun := begunLot_facts hlots hlot him
    rw [startLot_of_image hlots hlot him]
    split
    · obtain ⟨hshape, hls, hothers, hl, hb⟩ := hbegun
      rw [reissued_shape]
      generalize begunLot n.val id l im s = v at *
      refine ⟨?_, hls, hothers, hl, hb⟩
      rw [hshape]
    · exact hbegun

/-- A Lot that is issued (R22, R23). -/
theorem issued_facts {s : State} {n : Fin 64} {lot : Nat} {l : Lot} (hlot : s.lot lot = some l) : let u := issued lot n.val s
    u = { s with lots := u.lots, stalls := u.stalls, ev := u.ev, pipes := u.pipes, med := { s.med with pendMarks := u.med.pendMarks } } ∧
      (u.stall n.val).lots = (s.stall n.val).lots ++ [lot] ∧ (∀ m, m ≠ n.val → u.stall m = s.stall m) ∧
      (∃ k, u.lot lot = some { l with state := .issued n.val, issues := k }) ∧
      (∀ im, (s.stall n.val).lots = [] → (s.stall n.val).image = some im →
        (u.stall n.val).stage = .idle ∧ (u.stall n.val).elapsed = 0 ∧
          (u.stall n.val).budget = ((l.recs.filter fun r => r.pass).map fun r =>
            im.cRec + im.c64 * ((r.bytes.length + 63) / 64)).foldl (· + ·) 0) := by
  have hself := stall_handed_self lot n s
  unfold issued
  dsimp only
  split
  · next hempty =>
    have hnil := List.isEmpty_iff.1 hempty
    rw [hnil] at hself ⊢
    obtain ⟨hshape, hlots, hothers, ⟨k, hk⟩, hbegun⟩ := startLot_facts (congrArg Stall.lots hself) (lot_handed n.val hlot)
    refine ⟨?_, hlots, fun m hm => (hothers m hm).trans (stall_handed_ne lot hm s), ⟨k, hk⟩, fun im _ him =>
      hbegun im ((congrArg Stall.image hself).trans him)⟩
    rw [hshape]
    rfl
  · next hne =>
    refine ⟨rfl, congrArg Stall.lots hself, fun m hm => stall_handed_ne lot hm s, ⟨_, lot_handed n.val hlot⟩, fun _ hnil =>
      absurd (List.isEmpty_iff.2 hnil) hne⟩

/-! Retirement. -/

/-- A Lot's turn to retire has come (R17, R123). -/
structure Retirable (s : State) (lot : Nat) (l : Lot) : Prop where
  operating : s.operating = true
  awake     : s.pwr.watch = .awake
  lot       : s.lot lot = some l
  ready     : s.lotReady l = true
  first     : s.lotFirst l = true
  landed    : s.lotLanded l = true

theorem lotRetire_of {s : State} {lot : Nat} {l : Lot} (h : Retirable s lot l) : exec (.lotRetire lot) s = .next (settle (
    if s.lotNand l && !s.writesOpen then s
    else if l.query.isSome ∨ s.lotDram l = [] ∨ (s.waitq.isEmpty ∧ s.room (s.lotSlots l)) then retire' l s
    else if s.waitq.contains (.lot lot) then s
    else { s with waitq := s.waitq ++ [.lot lot] })) := by
  obtain ⟨hop, haw, hlot, hready, hfirst, hlanded⟩ := h
  show execLotRetire lot s = _
  unfold execLotRetire
  rw [hlot]
  dsimp only
  rw [hop, haw, hready, hfirst, hlanded, any_paused_of_awake haw, Bool.and_false, if_neg (by decide), if_neg (by decide)]
  rfl

theorem lotNand_of_query {s : State} {l : Lot} (h : l.query ≠ none) : s.lotNand l = false := by
  rw [State.lotNand, Option.isNone_eq_false_iff.2 (Option.isSome_iff_ne_none.2 h), Bool.false_and]

theorem lotNand_of_nothing {s : State} {l : Lot} (h : s.stores l = []) : s.lotNand l = false := by
  rw [State.lotNand, h]
  exact Bool.and_false _

theorem lotDram_of_nothing {s : State} {l : Lot} (h : s.stores l = []) : s.lotDram l = [] := by
  rw [State.lotDram, stageLot, h]
  rfl

/-- A Lot that needs no room in Held data retires. -/
theorem lotRetire_roomless {s : State} {lot : Nat} {l : Lot} (h : Retirable s lot l)
    (hl : l.query ≠ none ∨ s.stores l = [] ∨ (s.lotDram l = [] ∧ s.lotNand l = false)) :
    exec (.lotRetire lot) s = .next (settle (retire' l s)) := by
  have hgo : s.lotNand l = false ∧ (l.query.isSome = true ∨ s.lotDram l = []) := by
    rcases hl with hq | hs | ⟨hd, hn⟩
    · exact ⟨lotNand_of_query hq, .inl (Option.isSome_iff_ne_none.2 hq)⟩
    · exact ⟨lotNand_of_nothing hs, .inr (lotDram_of_nothing hs)⟩
    · exact ⟨hn, .inr hd⟩
  obtain ⟨hn, hgo⟩ := hgo
  rw [lotRetire_of h, hn, Bool.false_and, if_neg Bool.false_ne_true, if_pos (hgo.imp_right .inl)]

theorem window_open {s : State} {l : Lot} (h : s.lotNand l = false ∨ s.writesOpen = true) : ¬(s.lotNand l && !s.writesOpen) = true := by
  rcases h with h | h <;> simp [h]

/-- A Lot retires when Held data has the room and nothing waits for it. -/
theorem lotRetire_admitted {s : State} {lot : Nat} {l : Lot} (h : Retirable s lot l) (hopen : s.lotNand l = false ∨ s.writesOpen = true)
    (hq : s.waitq = []) (hroom : s.room (s.lotSlots l) = true) : exec (.lotRetire lot) s = .next (settle (retire' l s)) := by
  rw [lotRetire_of h, if_neg (window_open hopen), if_pos (.inr (.inr ⟨List.isEmpty_iff.2 hq, hroom⟩))]

/-- A Lot that finds no room joins those that wait. -/
theorem lotRetire_waits {s : State} {lot : Nat} {l : Lot} (h : Retirable s lot l) (hopen : s.lotNand l = false ∨ s.writesOpen = true)
    (hquery : l.query = none) (hdram : s.lotDram l ≠ []) (hfull : s.waitq ≠ [] ∨ s.room (s.lotSlots l) = false)
    (hnew : Waiting.lot lot ∉ s.waitq) : exec (.lotRetire lot) s = .next (settle { s with waitq := s.waitq ++ [.lot lot] }) := by
  have hstay : ¬(l.query.isSome = true ∨ s.lotDram l = [] ∨ (s.waitq.isEmpty = true ∧ s.room (s.lotSlots l) = true)) := by
    rintro (hs | hd | ⟨he, hr⟩)
    · rw [hquery] at hs
      exact Bool.false_ne_true hs
    · exact hdram hd
    · exact hfull.elim (fun h => h (List.isEmpty_iff.1 he)) fun h => Bool.false_ne_true (h.symm.trans hr)
  rw [lotRetire_of h, if_neg (window_open hopen), if_neg hstay, if_neg (by simpa using hnew)]

/-! Start of queries. -/

theorem queryStart_of {s : State} {k : Fin 32} {p : Pipe} {q : Query} (hop : s.operating = true) (haw : s.pwr.watch = .awake)
    (hp : s.pipe k.val = some p) (hrun : p.running = true)
    (hnone : (s.queries.filter fun q => q.pipe == some k.val).any (fun q => q.state == .running) = false)
    (hfirst : (((s.queries.filter fun q => q.pipe == some k.val).filter fun q => q.state == .waiting)[0]?) = some q) :
    exec (.queryStart k) s =
      .next (settle (runFree (if s.lotsBelow q.start || s.queryBefore k.val q.id then s else startQuery q s))) := by
  show execQueryStart k s = _
  unfold execQueryStart
  dsimp only
  rw [hop, haw, if_neg (by decide), hp]
  dsimp only
  rw [hrun, hnone, if_neg (by decide), hfirst]
  dsimp only
  rw [paused_of_awake haw, Bool.false_or]
  rfl

theorem rows_of_not_operating {s : State} (h : s.operating = false) (lot : Nat) :
    exec (.lotRetire lot) s = .next (settle s) ∧ exec (.lotIssue lot) s = .next (settle s) := by
  constructor
  · show execLotRetire lot s = _
    unfold execLotRetire
    cases s.lot lot with
    | none => rfl
    | some l =>
      dsimp only
      rw [h]
      rfl
  · show execLotIssue lot s = _
    unfold execLotIssue
    cases s.lot lot with
    | none => rfl
    | some l =>
      dsimp only
      cases l.pipe.bind s.pipe with
      | none => rfl
      | some p =>
        dsimp only
        rw [h]
        rfl

/-- Settles O55: the chosen Stall is the first of the best by an induction on the Stalls in order; the rows of Lots and queries are read
by their checks. -/
theorem lotRows : Obligations.LotRows := by
  unfold Obligations.LotRows
  refine ⟨?_, fun s ns n h => pickStall_best h, ?_, ?_, fun s lot h => rows_of_not_operating h lot⟩
  · intro s lot l p hop haw hlot hpipe hwait hgate hrun hcool hfirst ts hts
    have hissue : Issuable s lot l p := ⟨hop, haw, hlot, hpipe, hwait, hgate, hrun, hcool, hfirst⟩
    have hrow := lotIssue_of hissue
    rw [← hts] at hrow
    refine ⟨fun h => ?_, fun h hnone => ?_, fun n hn => ?_⟩
    · rw [hrow, h]
      rfl
    · rw [hrow, if_neg (by simpa using h), hnone]
      rfl
    · obtain ⟨hshape, hlots, hothers, ⟨k, hk⟩, hbegun⟩ := issued_facts (n := n) hlot
      refine ⟨_, lotIssue_picked hissue (hts ▸ hn), hshape, hlots, hothers, fun x hx => ?_, hbegun⟩
      obtain rfl := Option.some.inj (hk.symm.trans hx)
      exact ⟨rfl, rfl⟩
  · intro s k p q hop haw hp hrun hnone hfirst
    have hrow := queryStart_of hop haw hp hrun hnone hfirst
    refine ⟨fun h => ?_, fun hbelow hbefore => ?_⟩
    · rw [hrow, if_pos (by simpa using h)]
    · rw [hrow, if_neg (by simp [hbelow, hbefore])]
  · intro s lot l hop haw hlot hready hfirst hlanded
    have hl : Retirable s lot l := ⟨hop, haw, hlot, hready, hfirst, hlanded⟩
    refine ⟨lotRetire_roomless hl, fun hn hw => ?_, fun hq hopen hd => ⟨lotRetire_admitted hl hopen, lotRetire_waits hl hopen hq hd⟩⟩
    rw [lotRetire_of hl, hn, hw]
    rfl

end Sys2Proof.Proofs
end

section
/-! Stream commands and rows of Lots have their own effect (R17, R23, R74, R77, R82, R263, R264, R268, R269): settles O59. -/

namespace Sys2Proof.Proofs

open Sys2Proof Sys2Proof.Machine Sys2Proof.Laws

theorem cmd_of_io {s : State} {h opc : Nat} {c : Cmd} (hio : s.io h opc = some c) : s.cmd h = some c := by
  unfold State.io at hio
  split at hio
  · next x hx =>
    split at hio
    · exact hx.trans hio
    · exact absurd hio (by simp)
  · exact absurd hio (by simp)

theorem cmd_modCmd_self {s : State} {h : Nat} {c : Cmd} {f : Cmd → Cmd} (hc : s.cmd h = some c) (hf : ∀ x, (f x).h = x.h) :
    (s.modCmd h f).cmd h = some (f c) := by
  have hh : ((fun x : Cmd => x.h == h) ∘ fun x => if x.h = h then f x else x) = fun x => x.h == h := by
    funext x
    by_cases hx : x.h = h <;> simp [hx, hf]
  have hself : c.h = h := by simpa using List.find?_some hc
  rw [State.cmd, State.modCmd, List.find?_map, hh]
  rw [State.cmd] at hc
  rw [hc, Option.map_some, if_pos hself]

theorem mem_queued (q : Query) (qs : List Query) : q ∈ queued q qs := by simp [queued]

theorem look_of_slotOf {s : State} {w : W32} {k : Nat} {x : Slot} (h : s.slotOf w = some (k, x)) : look s.slots k = some x := by
  unfold State.slotOf at h
  dsimp only at h
  split at h
  · next y hy =>
    split at h
    · obtain ⟨rfl, rfl⟩ := Prod.mk.inj (Option.some.inj h)
      exact hy
    · exact absurd h (by simp)
  · exact absurd h (by simp)

theorem freeSlot_state {s : State} {k : Nat} {x : Slot} (h : look s.slots k = some x) :
    (look (freeSlot k s).slots k).map (fun y => y.state) = some .free := by
  unfold freeSlot
  dsimp only
  rw [look_adjust, if_pos rfl, h]
  rfl

/-- A query without a pipeline is queued (R263). -/
theorem arcQuery_pipeless {s : State} {h : Nat} {c : Cmd} (hio : s.io h 0x82 = some c) (hp : c.qPipe = 0xFF) (hrel : c.qRel = false) :
    exec (.arcQuery h) s = .next (settle (queuedQuery h c s)) := by
  rw [execArcQuery_of hio hrel, query_pipe_none hp, waitingFor_none hp]
  rfl

/-- The result slot of a query (R268). -/
def takenSlot (h : Nat) (c : Cmd) (k : Nat) (s : State) : Slot :=
  { gen := (((look s.slots k).elim 0 fun x => x.gen) + 1) % 65536, state := .running, start := s.pwr.starts.toNat % 256
    size := c.query.size, nsid := c.query.nsid, query := h, answer := [] }

theorem queuedQuery_slotted {s : State} {h k : Nat} {c : Cmd} (hslot : c.slotted = true) (hfree : s.freeSlotOf c.secure = some k)
    (hroom : s.poolUsed + (c.dword 11).toNat ≤ 1073741824) :
    queuedQuery h c s = runFree (complete h 0 0
      (w32 ((takenSlot h c k s).start * 2 ^ 24 + (takenSlot h c k s).gen * 256 + k)) 0 []
      { s with slots := put s.slots k (takenSlot h c k s), queries := queued { c.query with slot := some k } s.queries }) := by
  have hdirect : c.query.direct = false := by
    rw [Cmd.query, hslot]
    rfl
  unfold queuedQuery
  rw [hdirect, if_neg Bool.false_ne_true, hfree]
  exact if_neg (Nat.not_lt.2 hroom)

/-- Settles O59: the rows of O54 and O55, read for what they do where they act. -/
theorem streamRowsAct : Obligations.StreamRowsAct := by
  unfold Obligations.StreamRowsAct
  refine ⟨fun s h c => ⟨?_, ?_, ?_, ?_, indexLookup_answers⟩, ?_, ?_, ?_⟩
  · exact fun hio heol hfits => ⟨_, recordAppend_reserves hio heol hfits, rfl, cmd_modCmd_self (cmd_of_io hio) fun _ => rfl⟩
  · intro hio hp hrel
    have hrow := arcQuery_pipeless hio hp hrel
    refine ⟨fun hslot => ?_, fun k hslot hfree hroom => ?_⟩
    · exact ⟨_, hrow.trans (by rw [queuedQuery_direct hslot]), rfl, mem_queued _ _,
        cmd_modCmd_self (s := { s with queries := queued c.query s.queries }) (f := fun x => { x with phase := .query }) (cmd_of_io hio)
          fun _ => rfl⟩
    · exact ⟨_, takenSlot h c k s, hrow.trans (by rw [queuedQuery_slotted hslot hfree hroom]), rfl, mem_queued _ _, look_put_self _ _ _,
        rfl, rfl, rfl, rfl⟩
  · intro k x hturn hslot hns hworld hready
    have hlook := look_of_slotOf hslot
    refine ⟨fun hio hz h11 h12 hoff h13 hlo hhi => ?_, fun hio hz => ?_⟩
    · refine ⟨_, _, fetchResult_ready hio hturn hslot hns (plainFetch_of hz h11 h12 h13 hlo hhi) hready hoff hworld, rfl, ?_, ?_⟩ <;> split
      · rfl
      · rfl
      · rw [hlook, Option.map_some, hready]
      · exact freeSlot_state hlook
    · exact ⟨_, releaseResult_ready hio hturn hslot hns hz hworld hready, rfl, freeSlot_state hlook⟩
  · intro hio heol
    obtain ⟨-, -, -, hnv⟩ := stampNow_frame s s.now
    have hcmd : (stampNow s.now s).2.cmd h = some c := by
      rw [State.cmd, hnv]
      exact cmd_of_io hio
    exact ⟨_, _, execCycleCommit_of hio heol, mem_pendMark _ _, rfl, rfl,
      cmd_modCmd_self (s := pendMark (forcedMark h c s) _) (f := fun x => { x with phase := .mark }) hcmd fun _ => rfl⟩
  · intro s lot l p n hop haw hlot hpipe hgate hrun hcool hwait hfirst hn
    obtain ⟨-, hlots, -, ⟨k, hk⟩, -⟩ := issued_facts (n := n) hlot
    refine ⟨_, lotIssue_picked ⟨hop, haw, hlot, hpipe, hwait, hgate, hrun, hcool, hfirst⟩ hn, hlots, ?_⟩
    rw [hk]
    rfl
  · intro s lot l hop haw hlot hquery hpipe hwait hfirst hlanded hopen hq hroom
    have hready : s.lotReady l = true := by
      rw [State.lotReady, hpipe, hwait]
      rfl
    exact lotRetire_admitted ⟨hop, haw, hlot, hready, hfirst, hlanded⟩ hopen hq hroom
  · intro s k p q hop haw hp hrun hqs hwait hbelow hbefore
    rw [queryStart_of (q := q) hop haw hp hrun (by simp [hqs, hwait]) (by simp [hqs, hwait]), hbelow, hbefore]
    rfl

end Sys2Proof.Proofs
end
